-- ==== Sys2Proof/Word.lean ====
section
/-!
DEFINITION. The plain types the whole model is written over: the 32-bit register word, the byte, the sparse map,
the shape of a register field and of a register row (Conventions, *The LMR-8720 Mehrath network controller*).
-/

namespace Sys2Proof

/-- A register word: register space holds aligned 32-bit words only (R19). -/
abbrev Word := BitVec 32

/-- A byte of memory. -/
abbrev Byte := BitVec 8

/-- A sparse map kept as plain data: keys strictly rising, no entry equal to the default of its use. -/
abbrev AMap (α : Type) := List (Nat × α)

/-- A bit field of a register word: its lowest bit and its width, as a field table gives them. -/
structure Field where
  /-- lowest bit -/
  lo : Nat
  /-- number of bits -/
  width : Nat
  deriving DecidableEq, Repr

/-- What a core's instruction stream and its L1 arrays do between two commands (R438): a line of `size` bytes comes into the
instruction or the data array, a store makes a data line dirty, a data line is written back, a line leaves, bits of one of
its words change. (DESIGN CHOICE, log entry 98.) -/
inductive L1Event where
  | fill (inst : Bool) (addr size : Nat)
  | store (addr : Nat)
  | writeBack (addr : Nat)
  | evict (inst : Bool) (addr : Nat)
  | flip (inst : Bool) (addr : Nat) (bits : List Nat)
  deriving DecidableEq, Repr

/-- The access codes of the register tables (R3); `rw1s` has no row of its own: W1S is `w1s`. -/
inductive Access where
  | rw | ro | wo | w1c | w1s | rc | rwl
  deriving DecidableEq, Repr

/-- One row of a register table, with the array layout its chapter gives it. -/
structure RegRow where
  /-- first page, number of pages and page distance -/
  page : Nat
  pages : Nat
  pageStep : Nat
  /-- offset of the first register in the page -/
  off : Nat
  /-- distance and count of the outer array in a page, then of the inner one -/
  step1 : Nat
  n1 : Nat
  step2 : Nat
  n2 : Nat
  /-- access code (R3) and reset value (R5) -/
  acc : Access
  reset : Nat
  /-- bits that are not reserved, bits a write sets, bits a write of 1 clears, bits a write of 1 sets -/
  used : Nat
  rw : Nat
  w1c : Nat
  w1s : Nat
  deriving DecidableEq, Repr

end Sys2Proof
end

