-- ==== Sys2Proof/Syntax.lean ====
section
/-!
DEFINITION. The commands of the block: one constructor for each row of spec/opcode_table.json, in its order, with the
row's operands. `ini` is the fabric initiator of R34 that issues a register access. An event constructor carries what the
world outside the part supplies with the event (a pin level, a received frame, a measurement).
-/

namespace Sys2Proof

/-- The commands of the LMR-8720: software writes and reads with an effect, events of its pins and ports, and the
ends of its own timed operations. -/
inductive Instr where
  /-- REGISTER_WRITE (R3): A write to any register without a row of its own takes the effect of its access code; this covers W1C clears, foreign SAFE writes and locked-page writes. -/
  | registerWrite (ini : Fin 16) (addr : Word) (value : Option Word) (hwSet : Word)
  /-- PKEY_WRITE (R25): A write to PKEY advances, restarts or cancels the unlock sequence, or closes the unlock window. -/
  | pkeyWrite (ini : Fin 16) (page : Fin 4096) (value : Word)
  /-- UNLOCK_WINDOW_CLOSE (R26): The PKEY unlock window closes 1,024 CLK_FAB cycles after it opened. -/
  | unlockWindowClose (page : Fin 4096)
  /-- PCTL_EN (R22): A write of PCTL.EN starts a block, or stops it at its stop point; PSTAT.ENABLED then follows. -/
  | pctlEn (ini : Fin 16) (page : Fin 4096) (en : Bool)
  /-- SRST (R23): Setting PCTL.SRST starts a soft reset of the block. -/
  | srst (ini : Fin 16) (page : Fin 4096)
  /-- SOFT_RESET_DONE (R23): A soft reset completes, and SRST_BUSY and PCTL.SRST clear. -/
  | softResetDone (page : Fin 4096)
  /-- LOCK (R27): Setting PCTL.LOCK freezes PCTL and every RWL register of the page until the next domain reset. -/
  | pageLock (ini : Fin 16) (page : Fin 4096)
  /-- INT_SET (R24): A write to INT_SET sets INT_RAW bits exactly as the hardware events would. -/
  | intSet (ini : Fin 16) (page : Fin 4096) (value : Word)
  /-- CLK_RUN_WRITE (R15): A write to CLK_RUN gates or ungates clock domains. -/
  | clkRunWrite (ini : Fin 16) (value : Word)
  /-- CLK_DRST_WRITE (R17): A write to CLK_DRST holds domains in reset; releasing a domain returns every register of its pages to its reset value. -/
  | clkDrstWrite (ini : Fin 16) (value : Word)
  /-- SEMAPHORE_REQUEST (R35): A core requests a hardware semaphore; of simultaneous requests for a free semaphore, the lower core number is granted. -/
  | semaphoreRequest (sem : Fin 64) (requesters : BitVec 7)
  /-- SIGNAL_WINDOW_WRITE (R171): A core-class write to a signal-window word sets VALUE, QUAL and TIME, or is denied by the writer mask. -/
  | signalWindowWrite (ini : Fin 16) (signal : Fin 4096) (value : Word)
  /-- POR_RELEASE (R41): The power-on reset ends 4 ms after the last monitored rail is in limits; the root PLL starts and the eFuse array is read. -/
  | porRelease (boot : BitVec 3) (sealLevel : BitVec 8) (puf : Bool)
  /-- PLL_LOCK (R43): The root PLL locks and MONO starts from 0. -/
  | pllLock
  /-- POWER_DOMAIN_ENABLE (R44): Power domain PD_k is enabled 20 µs × k after PLL lock. -/
  | powerDomainEnable (k : Fin 8)
  /-- BANK_FILL_START (R43): The zero-fill of one SysRAM or PrismRAM bank starts on its 22.9376 µs grid. -/
  | bankFillStart (bank : Fin 160) (reads : List Nat)
  /-- BANK_FILL_DONE (R46): The fill of one bank completes, and stalled DEBUG accesses to that bank complete. -/
  | bankFillDone (bank : Fin 160)
  /-- FILL_COMPLETE (R43): The last bank fill ends; Glint lanes start, and the Afterglow load begins. -/
  | fillComplete
  /-- SV0_RELEASE (R43): SV0 leaves reset at the Boot ROM at fill completion, or when PWR_FAIL_N goes high. -/
  | sv0Release
  /-- PIN_RESET (R49): RST_N held low for 1 µs resets the device; the reset sequence starts from the bank fill when RST_N returns high. -/
  | pinReset
  /-- SW_RESET (R49): Writing the key to SYS_SWRST resets the device 16 CLK_FAB cycles later. -/
  | swReset (ini : Fin 16) (key : Word)
  /-- WATCHDOG_ENABLE (R53): Setting SYS_WDG_CFG.EN starts the system watchdog count. -/
  | watchdogEnable (ini : Fin 16) (value : Word)
  /-- WATCHDOG_KICK (R53): A write of the kick key to SYS_WDG_KICK restarts the watchdog count. -/
  | watchdogKick (ini : Fin 16) (key : Word)
  /-- WATCHDOG_EXPIRY (R53): PERIOD ms of MONO pass without a kick, and the device takes a WDG reset. -/
  | watchdogExpiry
  /-- CORE_RELEASE (R52): A write to SYS_CORE_REL releases CC, SV1 or safety-pair cores at their SYS_CORE_ENTRY addresses. -/
  | coreRelease (ini : Fin 16) (value : Word)
  /-- ROOT_KEY_REGENERATION (R485): The root key is regenerated from the PUF and its helper data, or regeneration fails. -/
  | rootKeyRegeneration
  /-- BOOT_HEADER_CHECK (R60): The Boot ROM reads and checks an image header in the order of R60. -/
  | bootHeaderCheck (slot : Fin 2)
  /-- BOOT_SECTION_LOAD (R61): The Boot ROM decrypts, checks and loads a section, and zeroes the slot's destinations on a tag failure. -/
  | bootSectionLoad
  /-- BOOT_DONE (R63): All sections of a slot pass; PHASE becomes 0x4 and SV0 jumps to ENTRY. -/
  | bootDone
  /-- BOOT_FAIL (R64): The boot enters the failed state; SV0 halts and PHASE reads 0xF. -/
  | bootFail
  /-- UART_RECOVERY_PROMPT (R62): In UART recovery the Boot ROM sends 0x3F every 100 ms until the first byte arrives. -/
  | uartRecoveryPrompt
  /-- UART_IMAGE_BYTE (R62): A byte of the recovery slot image arrives on UART0. -/
  | uartImageByte (value : Byte)
  /-- MIRROR_BOOT_TIMEOUT (R63): No peer header byte arrives within 10 s, and the boot fails with code 0x41. -/
  | mirrorBootTimeout
  /-- PWR_FAIL_N_FALL (R71): PWR_FAIL_N falls, and its 2 µs qualification begins. -/
  | pwrFailNFall
  /-- PWR_FAIL_QUALIFIED (R71): PWR_FAIL_N is qualified; PFAIL is set and every block drives its power-fail state. -/
  | pwrFailQualified
  /-- AFTERGLOW_POWER_FAIL_RECORD (R523): After the retentive commit and journal write in progress end, Afterglow writes its power-fail record. -/
  | afterglowPowerFailRecord
  /-- CYC_MODESET_WRITE (R79): The first non-zero write to CYC_MODESET fixes the mode set until reset. -/
  | cycModesetWrite (ini : Fin 16) (value : Word)
  /-- START_COLD (R118): CYC_CMD START_COLD stages the initial retentive values and schedules the first releases. -/
  | startCold (ini : Fin 16)
  /-- START_WARM (R118): CYC_CMD START_WARM loads the newest valid retentive set, or falls back to a cold start. -/
  | startWarm (ini : Fin 16)
  /-- STOP (R102): CYC_CMD STOP moves the machine to STOPPING and the tasks towards OFF. -/
  | cycStop (ini : Fin 16)
  /-- HOLD (R98): CYC_CMD HOLD holds a task now, or at its next end of cycle. -/
  | taskHold (ini : Fin 16) (task : Fin 16)
  /-- RESUME (R98): CYC_CMD RESUME returns a held task to ACTIVE or WAIT. -/
  | taskResume (ini : Fin 16) (task : Fin 16)
  /-- RET_COMMIT (R116): CYC_CMD RET_COMMIT raises a retentive commit request. -/
  | retCommit (ini : Fin 16)
  /-- FAULT_CLEAR (R98): CYC_CMD FAULT_CLEAR returns a faulted task to WAIT. -/
  | faultClear (ini : Fin 16) (task : Fin 16)
  /-- TASK_RELEASE (R82): A task's grid point is reached; it is released, or the release counts as an overrun or is ignored. -/
  | taskRelease (task : Fin 16)
  /-- TRANSFER_OP_START (R92): The transfer engine becomes free and starts the highest-ranked waiting operation. -/
  | transferOpStart
  /-- SNAPSHOT_COMPLETE (R93): A task's snapshot completes and forces are applied; the task's code starts, pre-empting if needed. -/
  | snapshotComplete
  /-- CYC_END (R94): A task writes its number to CYC_END; its cycle ends and its commit is queued. -/
  | cycEnd (core : Fin 4) (value : Word)
  /-- COMMIT_INSTANT (R94): The commit copy completes and the published output buffer switches. -/
  | commitInstant
  /-- DISTRIBUTION_COMPLETE (R95): The distribution of the published buffer to the output-map destinations ends. -/
  | distributionComplete
  /-- FORCE_ENABLE_WRITE (R113): A write of CYC_FORCE_EN or CYC_FORCE_CNT changes whether the force table is in use. -/
  | forceEnableWrite (ini : Fin 16) (isCount : Bool) (value : Word)
  /-- RET_PERIOD_EXPIRY (R116): A deferred retentive commit request arises when CYC_RET_PERIOD has passed. -/
  | retPeriodExpiry
  /-- FREEZE_COPY_COMPLETE (R117): The freeze copy of a retentive commit completes, and the MRAM data writes start. -/
  | freezeCopyComplete
  /-- RET_DATA_WRITTEN (R117): The data of a retentive set are written, and the header write is issued. -/
  | retDataWritten
  /-- RET_COMMIT_COMPLETE (R117): The header write of a retentive set completes, and RET_DONE is set. -/
  | retCommitComplete
  /-- EXCH (R124): CYC_XCMD EXCH fixes the exchange group and waits for the exchange instant. -/
  | exch (ini : Fin 16)
  /-- REVERT (R135): CYC_XCMD REVERT starts an exchange back to the kept previous image. -/
  | exchRevert (ini : Fin 16)
  /-- ABORT (R125): CYC_XCMD ABORT ends a waiting exchange with RESULT aborted. -/
  | exchAbort (ini : Fin 16)
  /-- DISCARD (R123): CYC_XCMD DISCARD clears REVERT_OK and CYC_XPREV. -/
  | exchDiscard (ini : Fin 16)
  /-- EXCHANGE_INSTANT (R124): Every group task is between cycles and no retentive commit is due, so the gap begins. -/
  | exchangeInstant
  /-- EXCHANGE_TIMEOUT (R125): EXCH_TMO passes without an exchange instant, and the exchange is refused. -/
  | exchangeTimeout
  /-- GAP_END (R130): The gap ends with a hot start of the group; the descriptors are updated and the report is written. -/
  | gapEnd
  /-- ENABLE (R146): RXE_SCMD ENABLE reads a session descriptor and puts the session in LOST. -/
  | sessionEnable (ini : Fin 16) (session : Fin 1024)
  /-- DISABLE (R146): RXE_SCMD DISABLE ends the session's prepared frames and open requests. -/
  | sessionDisable (ini : Fin 16) (session : Fin 1024)
  /-- SESSION_RESUME (R146): RXE_SCMD RESUME returns a suspended session to LOST. -/
  | sessionResume (ini : Fin 16) (session : Fin 1024)
  /-- RESYNC (R156): RXE_SCMD RESYNC prepares a RESYNC frame from the newest output buffer. -/
  | resync (ini : Fin 16) (session : Fin 1024)
  /-- CYC_IN_RECEIVE (R154): A CYC_IN segment is received and checked, and admitted to image assembly or dropped. -/
  | cycInReceive
  /-- IMAGE_PUBLISH (R155): A complete input image is written and published, followed by its scaling writes and state event. -/
  | imagePublish (session : Fin 1024)
  /-- EVENT_RECEIVE (R158): An EVENT frame is received and admitted to the completion queue, or refused. -/
  | eventReceive
  /-- BULK_RECEIVE (R158): A BULK frame is received and admitted to the completion queue, or refused. -/
  | bulkReceive
  /-- LSX_ACK_RECEIVE (R163): An LSX ACK frame acknowledges sent E/B frames and ends their requests with TX_DONE. -/
  | lsxAckReceive
  /-- SESSION_STALE (R146): A GOOD session's age exceeds PERIOD ticks, and it becomes STALE. -/
  | sessionStale (session : Fin 1024)
  /-- SESSION_LOST (R146): A STALE session's age exceeds SESS_TMO × PERIOD ticks, and it becomes LOST. -/
  | sessionLost (session : Fin 1024)
  /-- FREEZE_POINT (R149): At a session's freeze point, RXE prepares its regular frame from the newest output buffer. -/
  | freezePoint (session : Fin 1024)
  /-- DECISION_POINT (R151): 2 µs before launch, a prepared frame is passed to its Ethernet queue or withheld. -/
  | decisionPoint (session : Fin 1024)
  /-- RXE_CQ_HEAD_WRITE (R160): A write to RXE_CQ_HEAD consumes E/B records and prepares ACKs. -/
  | rxeCqHeadWrite (ini : Fin 16) (value : Word)
  /-- RXE_FREE_RET_WRITE (R160): A write to RXE_FREE_RET returns a pool buffer from firmware. -/
  | rxeFreeRetWrite (ini : Fin 16) (value : Word)
  /-- RXE_TXQ_TAIL_WRITE (R162): A write to RXE_TXQ_TAIL offers request-ring entries to RXE. -/
  | rxeTxqTailWrite (ini : Fin 16) (value : Word)
  /-- REQUEST_TAKE (R162): RXE takes a request-ring entry into progress and prepares its EVENT or BULK frame when credit permits. -/
  | requestTake
  /-- RETRANSMISSION_TIMEOUT (R163): An E/B frame stays unacknowledged for TMO ms; the session's unacknowledged frames are resent, or the request ends NO_ACK. -/
  | retransmissionTimeout (session : Fin 1024)
  /-- CLE_TICK (R181): A CLE tick starts, and the due loops are sampled in slot order. -/
  | cleTick (stalls : List Nat)
  /-- PIN_EXPIRE (R191): PIN_LEFT reaches 0; PIN_EN clears and INT_RAW bit 4 is set. -/
  | pinExpire (slot : Fin 256)
  /-- LCTL_WRITE (R194): A write to LCTL changes a loop's mode, pin or manual value from its next sample. -/
  | lctlWrite (ini : Fin 16) (slot : Fin 256) (value : Word)
  /-- CLE_RAM_DATA_ACCESS (R168): An access to CLE_RAM_DATA reads or writes CLE RAM and may advance CLE_RAM_ADDR. -/
  | cleRamDataAccess (ini : Fin 16) (write : Option Word)
  /-- CLE_GCMD (R193): A write to CLE_GCMD starts the copy of the staged gain set into the loop's pending slot. -/
  | cleGcmd (ini : Fin 16) (value : Word)
  /-- GAIN_COPY_DONE (R193): The gain-set copy completes, and CLE_GSTAT.BUSY clears. -/
  | gainCopyDone
  /-- LANE_GROUP_WAKE (R201): A group of four Prism lanes wakes, 10 µs after the previous group. -/
  | laneGroupWake
  /-- LOAD (R205): PRISM_SLOT_CMD LOAD starts loading a model into an EMPTY slot. -/
  | prismLoad (ini : Fin 16) (slot : Fin 8) (ctx : Fin 64)
  /-- UNLOAD (R206): PRISM_SLOT_CMD UNLOAD returns a slot to EMPTY. -/
  | prismUnload (ini : Fin 16) (slot : Fin 8)
  /-- LOAD_STEP (R207): While no job is ready, Prism runs the next load step; the last step makes the slot READY or FAILED. -/
  | loadStep
  /-- PRISM_JOBQ_DOOR_WRITE (R215): A write to PRISM_JOBQ_DOOR offers job descriptors to Prism. -/
  | prismJobqDoorWrite (ini : Fin 16) (value : Word)
  /-- JOB_ACCEPT (R215): Prism copies an offered descriptor into the queue when it has room. -/
  | jobAccept
  /-- JOB_START (R216): PSQ is free and starts the oldest job of the slot with the lowest effective class. -/
  | jobStart
  /-- SEGMENT_BOUNDARY (R217): A job segment ends; the job may be pre-empted, ended NONFINITE or cancelled, or moved on. -/
  | segmentBoundary
  /-- PUBLISH (R227): An OK job writes its result buffer and then the PUB word. -/
  | prismPublish
  /-- COMPLETION_RECORD (R230): A job's completion record is written and PRISM_CQ_TAIL advances. -/
  | completionRecord
  /-- PRISM_CQ_HEAD_WRITE (R215): A write to PRISM_CQ_HEAD removes completed jobs from the queue. -/
  | prismCqHeadWrite (ini : Fin 16) (value : Word)
  /-- PRISM_CANCEL (R231): PRISM_CANCEL ends the slot's jobs that have not started, and cancels its running job. -/
  | prismCancel (ini : Fin 16) (value : Word)
  /-- RESTORE (R267): MTR_CMD RESTORE loads the newest valid checkpoint into the accumulators. -/
  | mtrRestore (ini : Fin 16)
  /-- CKPT_NOW (R266): MTR_CMD CKPT_NOW asks for a checkpoint at the next commit. -/
  | ckptNow (ini : Fin 16)
  /-- BLOCK_END (R242): A 100 ms metering block ends at its PTP boundary, or at a forward step. -/
  | blockEnd (dir : BitVec 16)
  /-- BLOCK_COMMIT (R243): A block's accumulators, measurements and signals are updated in one CLK_MTR cycle. -/
  | blockCommit (bits : List (BitVec 28))
  /-- INTERVAL_RECORDS_WRITTEN (R262): The interval records of a boundary are written to the ring. -/
  | intervalRecordsWritten
  /-- CHECKPOINT_COMPLETE (R266): A checkpoint set's header write completes. -/
  | checkpointComplete
  /-- BITSTREAM_STUCK (R241): A modulator bitstream has no transition for 64 MTR_MCLK periods. -/
  | bitstreamStuck (channel : Fin 28) (bits : List (BitVec 28))
  /-- BAND_CHANGE (R247): A decided band change takes effect at the reference voltage's positive zero crossing, or after 100 ms without one. -/
  | bandChange (channel : Fin 28) (bits : List (BitVec 28))
  /-- HEAT_FLOW_EDGE (R256): An accepted rising edge on MTR_HFLOWn counts forward or reverse volume. -/
  | heatFlowEdge (channel : Fin 16) (level : Bool)
  /-- FLOW_TIMEOUT (R256): 10 s pass without a flow edge, and QM becomes 0. -/
  | flowTimeout (channel : Fin 16)
  /-- RTD_READ (R257): A 5-byte RTD bus transaction reads one input's conversion and status. -/
  | rtdRead (input : Fin 32) (status : Byte) (code : BitVec 24)
  /-- PULSE_START (R265): A pulse output starts a pulse when its debt and spacing allow. -/
  | pulseStart (k : Fin 8)
  /-- PULSE_END (R265): A pulse output's pulse ends after its width w. -/
  | pulseEnd (k : Fin 8)
  /-- ACCUMULATOR_LO_READ (R251): A read of an accumulator's LO word returns it and snapshots MID and HI. -/
  | accumulatorLoRead (index : Fin 304)
  /-- MOVE (R281): ACMD MOVE starts a move from IDLE, sets a new target, or is refused. -/
  | axisMove (ini : Fin 16) (axis : Fin 16)
  /-- AXIS_STOP (R282): ACMD STOP decelerates the axis along its programmed ramp. -/
  | axisStop (ini : Fin 16) (axis : Fin 16)
  /-- HOME (R290): ACMD HOME starts the homing sequence. -/
  | axisHome (ini : Fin 16) (axis : Fin 16)
  /-- GEAR (R289): ACMD GEAR places the axis in FOLLOW with ratio 0 and queues a ratio change. -/
  | axisGear (ini : Fin 16) (axis : Fin 16)
  /-- RATIO (R289): ACMD RATIO queues a ratio change in FOLLOW. -/
  | axisRatio (ini : Fin 16) (axis : Fin 16)
  /-- FOLLOW (R286): ACMD FOLLOW makes the axis take external set-points. -/
  | axisFollow (ini : Fin 16) (axis : Fin 16)
  /-- POWER_DOWN (R295): ACMD POWER_DOWN de-energises the driver, and the axis enters DOWN. -/
  | powerDown (ini : Fin 16) (axis : Fin 16)
  /-- POWER_UP (R295): ACMD POWER_UP energises the driver and waits for it to report ready. -/
  | powerUp (ini : Fin 16) (axis : Fin 16)
  /-- SET_POS (R296): ACMD SET_POS sets the position to ATGT and sets HOMED. -/
  | setPos (ini : Fin 16) (axis : Fin 16)
  /-- CLEAR (R295): ACMD CLEAR returns a faulted axis with a ready driver to IDLE. -/
  | axisClear (ini : Fin 16) (axis : Fin 16)
  /-- PROFILE_TICK (R275): The 20 µs profile tick evaluates every axis profile and applies pending commands and stops. -/
  | profileTick
  /-- START_GRID_POINT (R279): At a 50 µs grid point, MXE executes the lowest-numbered waiting start. -/
  | startGridPoint
  /-- STEP_ISSUE (R276): A class S step timer expires, a step is issued, and the timer is reloaded. -/
  | stepIssue (axis : Fin 16)
  /-- CLASS_P_PULSE (R277): A carry out of the phase accumulator issues a class P pulse. -/
  | classPPulse (axis : Fin 16)
  /-- ENCODER_EDGE (R271): An accepted encoder edge changes MXE_ENC_POS by ±1. -/
  | encoderEdge (encoder : Fin 4) (a : Bool) (b : Bool)
  /-- HARD_LIMIT (R284): A filtered limit input becomes active in the direction of motion, and a stop with ALIMDEC starts. -/
  | hardLimit (axis : Fin 16) (positive : Bool) (level : Bool)
  /-- HOME_EDGE (R290): A qualified active edge of the homing reference ends the search and latches AHLATCH. -/
  | homeEdge (axis : Fin 16) (level : Bool)
  /-- HOMING_UNSTABLE (R291): Step 5 of homing is not satisfied within 100 ms, and homing fails. -/
  | homingUnstable (axis : Fin 16)
  /-- RATIO_APPLY (R289): The master reaches AT, and the queued ratio change or blend begins. -/
  | ratioApply (axis : Fin 16)
  /-- BLEND_END (R289): A ratio blend completes, and RATIO is set. -/
  | blendEnd (axis : Fin 16)
  /-- LEGACY_TIMEOUT (R287): More than 100 ms pass without a coarse edge, and the axis completes the step at AVMAX. -/
  | legacyTimeout (axis : Fin 16)
  /-- ADL_FRAME (R292): An ADL frame shifts phase words to the drivers and status words back. -/
  | adlFrame (words : List Word)
  /-- DRIVER_SUPPLY_LOSS (R294): Driver supply is lost, and the axis stops at once and enters FAULT. -/
  | driverSupplyLoss (axis : Fin 16)
  /-- POWER_UP_TIMEOUT (R295): The driver does not report ready within 100 ms of POWER_UP, and the axis enters FAULT. -/
  | powerUpTimeout (axis : Fin 16)
  /-- AXIS_SIGNAL_WRITE (R298): At n × 100 µs + 50 µs, MXE writes axis positions to their signals. -/
  | axisSignalWrite
  /-- APOS_LO_READ (R274): A read of APOS_LO or AHLATCH_LO snapshots the high word. -/
  | aposLoRead (axis : Fin 16) (latch : Bool)
  /-- SAFE_LOAD (R310): SAFE_CMD LOAD checks SEAL and the parameter set, and enters RUN or the safe state. -/
  | safeLoad (ini : Fin 16)
  /-- SAFESTATE (R301): SAFE_CMD SAFESTATE puts the device in the safe state with cause 0x0A. -/
  | safestate (ini : Fin 16)
  /-- PEN_ACK (R340): SAFE_CMD PEN_ACK ends Penumbra of an element whose failed channel passed three tests. -/
  | penAck (ini : Fin 16) (value : Word)
  /-- ISC_RESTART (R330): SAFE_CMD ISC_RESTART moves a faulted ISC connection to STARTING. -/
  | iscRestart (ini : Fin 16) (value : Word)
  /-- SAFETY_CYCLE_START (R313): A safety cycle starts; inputs and ISC data are latched, or a missing CYCLE_END trips the safe state. -/
  | safetyCycleStart
  /-- SAFE_CYCLE_END (R313): A write to SAFE_CYCLE_END ends the cycle's program work. -/
  | safeCycleEnd (ini : Fin 16) (value : Word)
  /-- APPLICATION_INSTANT (R313): SAFE applies the outputs, overrides, axis stops and ISC transmit data. -/
  | applicationInstant
  /-- FATAL_FAULT (R306): A lockstep, logic-copy or TCM ECC fault halts the safety pair and enters the safe state. -/
  | fatalFault (cause : Fin 4)
  /-- CLOCK_MONITOR_WINDOW (R307): A clock-monitor window ends and its CLK_SAFE count is checked. -/
  | clockMonitorWindow (count : Nat)
  /-- SAFE_RESET_REQUEST (R306): 1 ms after a fatal fault with RST_ON_FATAL, SAFE requests a SAFE reset. -/
  | safeResetRequest
  /-- SEAL_READ (R312): Every 10 ms SAFE reads SEAL and compares it with the latched straps. -/
  | sealRead (sealLevel : BitVec 8)
  /-- SAFETY_INPUT_SAMPLE (R317): Every 100 µs each safety input is sampled, filtered and tested. -/
  | safetyInputSample (levels : BitVec 16)
  /-- TEST_PULSE_START (R315): A test source starts its 200 µs low pulse. -/
  | testPulseStart (k : Fin 4)
  /-- TEST_PULSE_END (R315): A test source's low pulse ends. -/
  | testPulseEnd (k : Fin 4)
  /-- DISCREPANCY_EXPIRY (R319): A pair's channels disagree for longer than DISC, and SAFE_IN_DISC is set. -/
  | discrepancyExpiry (pair : Fin 8)
  /-- DARK_TEST_START (R322): Every TEST_S, one channel of an energised output is switched off for its test. -/
  | darkTestStart (output : Fin 8)
  /-- DARK_TEST_END (R322): A dark-test pulse ends after TEST_US. -/
  | darkTestEnd (output : Fin 8) (lowSeen : Bool)
  /-- READBACK_TIMEOUT (R320): An output readback does not show the commanded level within RB_US, and the channel fails. -/
  | readbackTimeout (output : Fin 8) (channelB : Bool)
  /-- ISC_PDU_ACCEPT (R332): A handed-over ISC PDU is checked and accepted, discarded, or found a sequence error. -/
  | iscPduAccept
  /-- ISC_WATCHDOG (R333): TEXP × 500 µs pass without an acceptance, and the connection enters FAULT. -/
  | iscWatchdog (conn : Fin 256)
  /-- RX_PUT (R336): SAFE_MB_CMD RX_PUT delivers a received PDU of a mailbox connection to SAFE. -/
  | rxPut (ini : Fin 16)
  /-- TX_GET (R336): SAFE_MB_CMD TX_GET places the connection's newest PDU in SAFE_MB_DATA. -/
  | txGet (ini : Fin 16)
  /-- PENUMBRA_EXPIRE (R339): An element has spent PENUMBRA_MAX in Penumbra and goes to its safe value. -/
  | penumbraExpire (element : Fin 272)
  /-- PLANNED_SWAP (R367): MIRROR_CMD PLANNED_SWAP starts a planned swap, or is refused. -/
  | plannedSwap (ini : Fin 16) (tmo : BitVec 16)
  /-- SWAP_INSTANT (R367): Every mirrored task is between cycles and every set is acknowledged, so the active unit releases control. -/
  | swapInstant
  /-- SWAP_TIMEOUT (R367): The swap instant does not come within TMO ms, and the swap is refused. -/
  | swapTimeout
  /-- GIVEUP (R351): MIRROR_CMD GIVEUP, or another cause of R351, makes the unit give up with the release actions. -/
  | mirrorGiveup (ini : Fin 16)
  /-- FORCE_ACTIVE (R366): MIRROR_CMD FORCE_ACTIVE makes a granted, unsynced standby ACTIVE without a hot start. -/
  | forceActive (ini : Fin 16)
  /-- PEER_RESET (R352): MIRROR_CMD PEER_RESET sends a PEER_RESET frame to the peer. -/
  | peerReset (ini : Fin 16)
  /-- MIRROR_HB_KICK (R347): A write of the key to MIRROR_HB_KICK keeps ARB_HB toggling. -/
  | mirrorHbKick (ini : Fin 16) (value : Word)
  /-- HEARTBEAT_TOGGLE (R347): At each MONO millisecond ARB_HB toggles, or holds if its conditions fail. -/
  | heartbeatToggle
  /-- ARB_GRANT_QUALIFIED (R349): ARB_GRANT holds a new level for 50 µs and drives the role table. -/
  | arbGrantQualified (level : Bool)
  /-- INIT_GRANT_LOW (R349): In INIT, GRANT stays low for 1 ms, and the unit enters STANDBY. -/
  | initGrantLow
  /-- PLL_LOCK_LOSS (R351): CLK_STAT.PLL_LOCK falls, and a mirrored unit gives up with cause 0x03. -/
  | pllLockLoss
  /-- LINK_DOWN (R353): 100 µs pass without a valid Mirror frame, and the link is down. -/
  | linkDown
  /-- STATUS_SEND (R353): With no other frame waiting, the unit sends a STATUS frame every 10 µs. -/
  | statusSend
  /-- STATUS_RECEIVE (R354): A STATUS frame reports the peer's role, sync and IMAGE_ID, and may bring the link up. -/
  | statusReceive (frame : List Byte)
  /-- SET_BEGIN_RECEIVE (R361): A SET_BEGIN frame starts a copy set, and its number and IMAGE_ID are checked. -/
  | setBeginReceive (frame : List Byte)
  /-- SET_DATA_RECEIVE (R361): A SET_DATA frame is journalled. -/
  | setDataReceive (frame : List Byte)
  /-- SET_END_RECEIVE (R359): A SET_END completes a whole set, and the standby sends ACK. -/
  | setEndReceive (frame : List Byte)
  /-- MIRROR_ACK_RECEIVE (R359): An ACK updates MIRROR_TSEQ and releases withheld output buffers. -/
  | mirrorAckReceive (frame : List Byte)
  /-- NAK_RECEIVE (R354): A NAK makes the sender resend from the expected SEQ. -/
  | nakReceive (frame : List Byte)
  /-- GIVEUP_RECEIVE (R370): A GIVEUP frame from the peer is received, and PEER_GIVEUP is set. -/
  | giveupReceive (frame : List Byte)
  /-- PEER_RESET_RECEIVE (R352): A PEER_RESET frame makes a STANDBY or GIVEUP unit take a MIRROR reset. -/
  | peerResetReceive (frame : List Byte)
  /-- AXIS_START_RECEIVE (R364): An AXIS_START frame marks an axis whose HOMED cannot be kept at takeover. -/
  | axisStartReceive (frame : List Byte)
  /-- BOOT_REQ_RECEIVE (R369): An ACTIVE unit with boot service answers BOOT_REQ with BOOT_DATA frames. -/
  | bootReqReceive (frame : List Byte)
  /-- BOOT_REQ_SEND (R369): A Boot ROM in Mirror-peer boot sends BOOT_REQ every 100 ms. -/
  | bootReqSend
  /-- BOOT_DATA_RECEIVE (R63): A BOOT_DATA frame delivers slot-image bytes to a Mirror-peer boot. -/
  | bootDataReceive (frame : List Byte)
  /-- SWAP_RECEIVE (R367): A SWAP frame tells the peer that the planned swap has released control. -/
  | swapReceive (frame : List Byte)
  /-- FREEZE_END (R358): The freeze of a copy set ends and the set is queued for the link. -/
  | freezeEnd
  /-- SET_APPLY (R361): The standby applies a whole set from its journal. -/
  | setApply
  /-- TAKEOVER_COMPLETE (R364): After the last set is applied and 40 µs pass, the blocks start and ROLE becomes ACTIVE. -/
  | takeoverComplete
  /-- STEP (R376): PTP_CMD STEP adds PTP_STEP to PTP time, or is refused. -/
  | ptpStep (ini : Fin 16) (force : Bool)
  /-- SET (R376): PTP_CMD SET loads PTP time from PTP_SET, or is refused. -/
  | ptpSet (ini : Fin 16) (force : Bool)
  /-- FORCE_NEXT (R377): PTP_CMD FORCE_NEXT arms the next servo step to be forced. -/
  | forceNext (ini : Fin 16)
  /-- PTP_SLEW_WRITE (R375): A write to PTP_SLEW starts a slew. -/
  | ptpSlewWrite (ini : Fin 16) (value : Word)
  /-- SLEW_DONE (R375): A slew completes, SLEW_BUSY clears and INT_RAW bit 3 is set. -/
  | slewDone
  /-- SERVO_ENABLE (R382): A write of PTP_SERVO_CFG.EN enables the servo into HOLDOVER, or disables it to FREE. -/
  | servoEnable (ini : Fin 16) (value : Word)
  /-- OFFSET_SAMPLE_SUBMIT (R380): A write to PTP_OFS_HI submits an offset sample to the servo. -/
  | offsetSampleSubmit (ini : Fin 16) (value : Word)
  /-- HOLDOVER_TIMEOUT (R382): No sample is accepted for HOLD_TMO ms, and the servo enters HOLDOVER. -/
  | holdoverTimeout
  /-- PTP_NOW_NS_READ (R378): A read of PTP_NOW_NS latches the PTP seconds, fraction and MONO of the same cycle. -/
  | ptpNowNsRead
  /-- MONO_LO_READ (R372): A read of MONO_LO snapshots MONO_HI. -/
  | monoLoRead
  /-- PTP_ECHO_TAG_READ (R388): A read of PTP_ECHO_TAG removes the oldest Echo entry into the read registers. -/
  | ptpEchoTagRead (port : Fin 4)
  /-- RTC_COUNT_READ (R393): A read of an RTC count register freezes a shadow, and a read of RTC_YEAR releases it. -/
  | rtcCountRead (fieldIx : Fin 8)
  /-- SHADOW_EXPIRED (R393): A frozen RTC shadow is released 250 ms after the freeze. -/
  | shadowExpired
  /-- RTC_SET (R394): RTC_CMD SET commits the staged time at the next CLK_RTC edge. -/
  | rtcSet (ini : Fin 16)
  /-- SET_DEFER (R394): RTC_CMD SET_DEFER arms a commit at the next change of the PTP seconds. -/
  | rtcSetDefer (ini : Fin 16)
  /-- CANCEL (R394): RTC_CMD CANCEL withdraws a pending SET_DEFER. -/
  | rtcCancel (ini : Fin 16)
  /-- RTC_COMMIT (R395): The staged calendar time is loaded, and skipped alarms are handled. -/
  | rtcCommit
  /-- RTC_SECOND (R391): The RTC divider completes a second, the count advances and the alarms are matched. -/
  | rtcSecond
  /-- BACKUP_POWER_LOSS (R392): The backup domain loses both supplies, and the RTC restarts at 2000-01-01. -/
  | backupPowerLoss
  /-- ETH_TQ_TAIL_WRITE (R402): A write to ETH_TQ_TAIL hands transmit descriptors to a port queue. -/
  | ethTqTailWrite (ini : Fin 16) (port : Fin 4) (queue : Fin 8) (value : Word)
  /-- FRAME_TX_START (R404): The port is free and starts the eligible frame of the highest queue. -/
  | frameTxStart (port : Fin 4)
  /-- FRAME_TX_END (R402): A frame has left, and its descriptor is written back and its Echo entry appended. -/
  | frameTxEnd (port : Fin 4)
  /-- LAUNCH_TIME_REACHED (R386): A held frame's launch time is reached, or the frame is found late and discarded. -/
  | launchTimeReached (port : Fin 4) (queue : Fin 8)
  /-- FRAME_RECEIVE (R409): A received Ethernet frame is checked, filtered, verified and steered. -/
  | frameReceive (port : Fin 4) (bytes : List Byte) (fcsOk : Bool)
  /-- ETH_RQ_TAIL_WRITE (R411): A write to ETH_RQ_TAIL returns receive descriptors to the port. -/
  | ethRqTailWrite (ini : Fin 16) (port : Fin 4) (ring : Fin 8) (value : Word)
  /-- LINK_CHANGE (R400): ETH_STAT.LINK changes and sets INT_RAW bit 2. -/
  | linkChange (port : Fin 4) (up : Bool) (an : Bool)
  /-- GATE_ENTRY_CHANGE (R406): A gate-list interval ends, and the next entry's gates take effect. -/
  | gateEntryChange (port : Fin 4)
  /-- SWITCH (R407): ETH_GATE_CMD SWITCH arms the admin gate list. -/
  | gateSwitch (ini : Fin 16) (port : Fin 4)
  /-- GATE_CHANGE_INSTANT (R407): The admin gate list becomes operational, and PEND clears. -/
  | gateChangeInstant (port : Fin 4)
  /-- MDIO_COMMAND (R398): A write to ETH_MDIO_CMD starts a Clause 22 read or write. -/
  | mdioCommand (ini : Fin 16) (port : Fin 4) (value : Word)
  /-- MDIO_COMPLETE (R398): An MDIO frame completes, and BUSY clears. -/
  | mdioComplete (port : Fin 4) (data : BitVec 16)
  /-- RESTART (R426): CAN_CMD RESTART starts bus-off recovery. -/
  | canRestart (ini : Fin 16) (channel : Fin 8)
  /-- SLEEP (R430): CAN_CMD SLEEP puts the channel to sleep at the first idle bus. -/
  | canSleep (ini : Fin 16) (channel : Fin 8)
  /-- WAKE (R430): CAN_CMD WAKE wakes a sleeping channel locally. -/
  | canWake (ini : Fin 16) (channel : Fin 8)
  /-- CAN_TXREQ_WRITE (R423): A write to CAN_TXREQ makes transmit buffers pending. -/
  | canTxreqWrite (ini : Fin 16) (channel : Fin 8) (value : Word)
  /-- CAN_TXCANCEL_WRITE (R424): A write to CAN_TXCANCEL removes a pending buffer now, or after its attempt. -/
  | canTxcancelWrite (ini : Fin 16) (channel : Fin 8) (value : Word)
  /-- CAN_FRAME_START (R423): Before a start of frame, the channel selects the pending frame to send. -/
  | canFrameStart (channel : Fin 8)
  /-- CAN_ATTEMPT_END (R425): A transmission attempt ends in success, lost arbitration or an error, and the error counters move. -/
  | canAttemptEnd (channel : Fin 8) (outcome : Fin 4)
  /-- RECOVERY_COMPLETE (R426): 128 occurrences of 11 recessive bits after RESTART make the channel error active. -/
  | recoveryComplete (channel : Fin 8)
  /-- CAN_FRAME_RECEIVE (R427): A valid received frame is stored in an object or in the FIFO, or discarded. -/
  | canFrameReceive (channel : Fin 8) (id : BitVec 32) (dlc : BitVec 4) (flags : BitVec 3) (start : Nat) (data : List Byte)
  /-- CAN_RXGRAB_WRITE (R428): A write to CAN_RXGRAB holds a receive object. -/
  | canRxgrabWrite (ini : Fin 16) (channel : Fin 8) (value : Word)
  /-- CAN_RXREL_WRITE (R428): A write to CAN_RXREL releases a held object and exchanges its buffers. -/
  | canRxrelWrite (ini : Fin 16) (channel : Fin 8) (value : Word)
  /-- CAN_FIFO_HEAD_WRITE (R429): A write to CAN_FIFO_HEAD frees FIFO slots. -/
  | canFifoHeadWrite (ini : Fin 16) (channel : Fin 8) (value : Word)
  /-- CAN_RAM_DATA_ACCESS (R421): An access to CAN_RAM_DATA reads or writes CAN RAM and may advance the address. -/
  | canRamDataAccess (ini : Fin 16) (channel : Fin 8) (write : Option Word)
  /-- WAKE_EDGE (R430): CAN_RXc is dominant for WAKE_FILT and wakes a sleeping channel. -/
  | wakeEdge (channel : Fin 8)
  /-- WAKE_FRAME (R430): A matching frame wakes a channel that decodes silently. -/
  | wakeFrame (channel : Fin 8) (id : BitVec 32) (data : List Byte)
  /-- MERGE_FLUSH (R443): A merge-buffer entry is written to its array word on idle, conflict, fence or age. -/
  | mergeFlush (index : Nat)
  /-- GLINT_READ (R446): A Glint lane reads its next word in an idle cycle and checks it. -/
  | glintRead (lane : Fin 3) (flips : List Nat)
  /-- GLINT_WRITE_BACK (R447): Glint writes a corrected word back in the next idle cycle of its bank. -/
  | glintWriteBack (lane : Fin 3)
  /-- TRACKER_WINDOW_EXPIRY (R450): MEM_TRK_W passes without a counted correction, and a lasting MRAM entry is freed. -/
  | trackerWindowExpiry (region : Fin 3) (entry : Fin 32)
  /-- ROW_REMAP (R452): The MAIN lane reaches a row with a LASTING word and copies it to a spare row. -/
  | rowRemap
  /-- MAP (R454): REPAIR_CMD MAP remaps a named row to a spare row. -/
  | repairMap (ini : Fin 16) (value : Word)
  /-- FLIP_ARM (R457): Setting MEM_FLIP_CFG.ARM makes the next array write of a port store injected errors. -/
  | flipArm (ini : Fin 16) (region : Fin 3) (value : Word)
  /-- ALL (R465): MMU_INVAL ALL invalidates every TLB entry. -/
  | invalAll (ini : Fin 16)
  /-- CONTEXT (R465): MMU_INVAL CONTEXT invalidates the TLB entries of one context. -/
  | invalContext (ini : Fin 16) (ctx : Fin 64)
  /-- PAGE (R465): MMU_INVAL PAGE invalidates the TLB entries of one page. -/
  | invalPage (ini : Fin 16) (ctx : Fin 64)
  /-- INVAL_DONE (R465): The invalidation completes, and BUSY clears. -/
  | invalDone
  /-- FENCE (R469): FENCE waits until every earlier load and store of the core has completed. -/
  | fence (core : Fin 7) (l1 : List L1Event)
  /-- IFENCE (R468): IFENCE invalidates the instruction cache of the executing core. -/
  | ifence (core : Fin 7)
  /-- FBCALL (R106): FBCALL checks the instance type and calls the function block, or raises FB_TYPE or FB_DEPTH. -/
  | fbcall (core : Fin 4) (inst : BitVec 40) (itype : BitVec 40) (target : BitVec 40) (ret : BitVec 40) (l1 : List L1Event)
  /-- FBRET (R106): FBRET pops the function-block frame and returns. -/
  | fbret (core : Fin 4)
  /-- TRAP (R473): A precise trap is recorded, and it faults the task, enters CORE_TVEC, or halts the core. -/
  | trap (core : Fin 7) (code : BitVec 8) (pc : BitVec 40) (va : BitVec 40) (l1 : List L1Event)
  /-- BREAK (R474): A breakpoint holds the task or halts the core. -/
  | breakTrap (core : Fin 7) (pc : BitVec 40)
  /-- INTERRUPT_ENTRY (R475): A core takes an interrupt and jumps to CORE_IVEC. -/
  | interruptEntry (core : Fin 7)
  /-- CORE_IACK_READ (R476): A read of CORE_IACK acknowledges the highest pending source and raises IPRIO. -/
  | coreIackRead (core : Fin 7) (reader : Fin 16)
  /-- CORE_EOI_WRITE (R476): A write to CORE_EOI pops IPRIO. -/
  | coreEoiWrite (ini : Fin 16) (core : Fin 7)
  /-- DMA_START (R480): DMA_CTL START reads the first descriptor and runs the channel. -/
  | dmaStart (ini : Fin 16) (channel : Fin 32)
  /-- DMA_RESUME (R480): DMA_CTL RESUME rereads the descriptor and reissues from the faulting burst. -/
  | dmaResume (ini : Fin 16) (channel : Fin 32)
  /-- DMA_ABORT (R480): DMA_CTL ABORT stops the channel at the burst boundary. -/
  | dmaAbort (ini : Fin 16) (channel : Fin 32)
  /-- DMA_BURST_COMPLETE (R478): A DMA burst read completes; the write is issued, or the channel faults or dies. -/
  | dmaBurstComplete (channel : Fin 32) (burst : Nat)
  /-- DMA_DESCRIPTOR_COMPLETE (R480): The last burst of a descriptor completes; the chain continues or the channel goes IDLE. -/
  | dmaDescriptorComplete (channel : Fin 32)
  /-- IMPORT (R490): KEYS_CMD IMPORT writes the staged key into a slot. -/
  | keyImport (ini : Fin 16) (value : Word)
  /-- DERIVE (R496): KEYS_CMD DERIVE computes a key by the counter-mode KDF into a slot. -/
  | keyDerive (ini : Fin 16) (value : Word)
  /-- STORE (R497): KEYS_CMD STORE writes a slot record to MRAM. -/
  | keyStore (ini : Fin 16) (value : Word)
  /-- ERASE (R497): KEYS_CMD ERASE writes a slot record as zeros. -/
  | keyErase (ini : Fin 16) (value : Word)
  /-- KEYS_CLEAR (R490): KEYS_CMD CLEAR zeroes a slot and makes it EMPTY. -/
  | keysClear (ini : Fin 16) (value : Word)
  /-- ENROLL (R487): KEYS_CMD ENROLL enrols the PUF and writes the enrolment record. -/
  | keyEnroll (ini : Fin 16) (value : Word)
  /-- SECURE (R498): KEYS_CMD SECURE programs the key hash and the SECURED state. -/
  | keySecure (ini : Fin 16) (value : Word)
  /-- DECOMMISSION (R499): KEYS_CMD DECOMMISSION erases the key store and programs DECOMMISSIONED. -/
  | keyDecommission (ini : Fin 16) (value : Word)
  /-- GCM_START (R500): KEYS_CMD GCM_START loads the IV and key into the image GCM engine. -/
  | gcmStart (ini : Fin 16) (value : Word)
  /-- GCM_FINAL (R500): KEYS_CMD GCM_FINAL compares the computed tag with KEYS_GCM_TAG. -/
  | gcmFinal (ini : Fin 16) (value : Word)
  /-- KEYS_COMMAND_DONE (R495): A key-store command completes; BUSY clears and RESULT is set. -/
  | keysCommandDone
  /-- GCM_DIN_WRITE (R500): A write to KEYS_GCM_DIN[3] decrypts one 16-byte block. -/
  | gcmDinWrite (ini : Fin 16) (value : Word)
  /-- KEY_STORE_LOAD (R488): In PROVISIONING, after boot, the key store finds the enrolment record, regenerates the root key and loads the slots. -/
  | keyStoreLoad
  /-- ON (R515): LANTERN_CMD ON starts the rail rise and the panel start. -/
  | lanternOn (ini : Fin 16)
  /-- OFF (R515): LANTERN_CMD OFF starts the FALLING sequence. -/
  | lanternOff (ini : Fin 16)
  /-- SUBMIT (R509): LANTERN_CMD SUBMIT gives a rectangle slot its sequence number. -/
  | rectSubmit (ini : Fin 16) (rect : Fin 4)
  /-- RAIL_STEP (R515): A RAIL_MS interval ends, and the next rail or state step of ON or OFF follows. -/
  | railStep
  /-- FRAME_PAIR_START (R510): A class T frame pair starts; started rectangles are applied and blink phases take effect. -/
  | framePairStart
  /-- JOURNAL_WRITE_DONE (R513): A rectangle's journal entry is written, and its chain drive may start. -/
  | journalWriteDone
  /-- CHAIN_LOAD_LATCH (R511): A class B chain load latches at LNT_BLAT_N. -/
  | chainLoadLatch
  /-- DRIVE_PULSE_END (R511): PULSE_MS after a drive latch, the segments return to hold. -/
  | drivePulseEnd (rect : Fin 5)
  /-- RECTANGLE_COMPLETE (R513): The DONE word of a rectangle is written, and the slot completes. -/
  | rectangleComplete (rect : Fin 5)
  /-- ADD (R525): AGL_SW_CMD ADD adds AGL_SW_VAL to a software counter. -/
  | aglAdd (ini : Fin 16) (value : Word)
  /-- HIST (R525): AGL_SW_CMD HIST adds AGL_SW_VAL to a histogram bin. -/
  | aglHist (ini : Fin 16) (value : Word)
  /-- AGL_CLEAR (R525): AGL_SW_CMD CLEAR zeroes a software record. -/
  | aglClear (ini : Fin 16) (value : Word)
  /-- AGL_LOAD (R521): After every reset, Afterglow loads its working set from MRAM. -/
  | aglLoad
  /-- AGL_RECORD_WRITE (R522): Afterglow writes a dirty record to the older copy in three steps. -/
  | aglRecordWrite (record : Fin 288)
  /-- AGL_SECOND (R519): Each second, Afterglow samples the die and supplies and counts on-time. -/
  | aglSecond (temp : BitVec 16) (supplies : List Nat)
  /-- PWR_FAIL_N_RISE (R71): PWR_FAIL_N returns high; a low pulse shorter than 2 µs is thereby ignored and PWR_STAT.PFAIL_LVL clears. -/
  | pwrFailNRise
  /-- CAN_RECEIVE_ERROR (R425): A CAN channel detects a bus error on a frame it does not send; REC moves under ISO 11898-1 and error passive may be entered. -/
  | canReceiveError (channel : Fin 8) (dominant : Bool)
  /-- DEBUG_RESUME (R474): The DEBUG port resumes a halted core, which then runs again. -/
  | debugResume (core : Fin 7)
  /-- DRIVER_READY (R295): The driver of a pin axis reports ready on MXE_DRDYn, which ends a POWER_UP in IDLE or permits CLEAR. -/
  | driverReady (axis : Fin 16)
  /-- SET_SENT (R358): The last frame of a copy set, its SET_END, leaves on the Mirror link, and the next frozen set may go onto the link. -/
  | setSent
  /-- LINK_FRAME_BAD_CRC (R353): A Mirror link frame with a bad CRC is discarded and counted in MIRROR_LINK_ERR, which also breaks the run of valid frames that brings the link up. -/
  | linkFrameBadCrc
  deriving DecidableEq, Repr

end Sys2Proof
end

