-- ==== Sys2Proof/Decode.lean ====
section
/-!
DEFINITION. The words of the commands. spec/opcode_table.json gives no row any bits: a command of this block is no
word fetched from a memory, and no encoding stands in the spec. So the table of rows with bits is empty, and every
word is rejected.
-/

namespace Sys2Proof

/-- The rows of spec/opcode_table.json that give bits, as (bits, value, command): none does. -/
def bitRows : List (Nat × Nat × Instr) := []

/-- The command that a word spells by the table's bits; none, because no row of the table has bits. (DESIGN CHOICE, log entry 8.) -/
def decodeTableWord (nbits w : Nat) : Option Instr :=
  (bitRows.find? (fun r => r.1 == nbits && r.2.1 == w)).map (fun r => r.2.2)

end Sys2Proof
end

