-- ==== Sys2Proof/Config.lean ====
section
/-!
DEFINITION. What the spec leaves open, as constants without a body: nothing in Lean can evaluate them or prove a
value of them. A use names the value by the model's counter `State.free`, or by the operands it depends on.
-/

namespace Sys2Proof.Config

/-- A word the spec leaves unpredictable or unstated; the argument is the model's counter of free values. -/
opaque freeWord : Nat → BitVec 32

/-- A byte the spec leaves unpredictable or unstated. -/
opaque freeByte : Nat → BitVec 8

/-- A number the spec leaves unstated. -/
opaque freeNat : Nat → Nat

/-- A choice the spec leaves open. -/
opaque freeBool : Nat → Bool

/-- The order in which Prism's lanes accumulate the terms of one sum: a key for each term (run, index). -/
opaque laneKey : Nat → Nat → Nat

/-- The last bit of Prism's base-10 logarithm and power, whose rounding the spec does not state: by the operands.
(DESIGN CHOICE, log entry 52.) -/
opaque fpLastBit : BitVec 64 → BitVec 64 → Nat

/-- What MTR's filters of unstated coefficients give: what the 31-tap droop compensation adds to a code (of the last 31
decimated sums, newest first); the 32-tap interpolation at a fraction of a sample, in 1/64 (of the last 32 codes, newest
first), in 1/256 code; the Hilbert-shifted sample at an index of a list of corrected voltage samples. (DESIGN CHOICE, log entry 56.) -/
opaque mtrDroop : List Nat → Int
opaque mtrInterp : Nat → List Int → Int
opaque mtrHilbert : List Int → Nat → Int

/-- The device's PUF: the 4,052 bytes of helper data an enrolment computes from the latched content (argument: the
byte's place), and the root key that the content, corrected with given helper data, yields. -/
opaque pufHelper : Nat → BitVec 8
opaque pufKey : List (BitVec 8) → BitVec 256

end Sys2Proof.Config
end

