-- ==== Sys2Proof/Machine/RegTable.lean ====
section
/-!
DEFINITION. The register tables of the spec as data: for every register its page, offset, array layout, access
code (R3), reset value (R5) and bit masks; its address as `Reg.<NAME>`; its fields as `F.<REGISTER>_<FIELD>`.
An address is the offset from 0xF000_0000, page p at p * 0x1000 (R21).
-/

namespace Sys2Proof.Machine

/-- SYS_ID: Part number and silicon revision (R6). -/
def Reg.SYS_ID : Nat := 0x40
/-- CLK_RUN: 1 = domain clock running (R15). -/
def Reg.CLK_RUN : Nat := 0x1040
/-- CLK_DRST: 1 = domain held in reset (R15). -/
def Reg.CLK_DRST : Nat := 0x1044
/-- CLK_STAT: Running state and PLL lock (R15). -/
def Reg.CLK_STAT : Nat := 0x1048
/-- INTD_ROUTE: Route of one source (R31). -/
def Reg.INTD_ROUTE (i : Nat) : Nat := (0x5 + i / 128) * 0x1000 + 0x40 + 0x4 * (i % 128)
/-- SYS_RSTCAUSE: Reset causes; see R51 (R51-R53). -/
def Reg.SYS_RSTCAUSE : Nat := 0x44
/-- SYS_SWRST: Software reset key (R51-R53). -/
def Reg.SYS_SWRST : Nat := 0x48
/-- SYS_CORE_REL: Core release (R51-R53). -/
def Reg.SYS_CORE_REL : Nat := 0x4c
/-- SYS_CORE_ENTRY: Start address per core (R51-R53). -/
def Reg.SYS_CORE_ENTRY (i : Nat) : Nat := 0x50 + 0x4 * i
/-- SYS_WDG_CFG: System watchdog configuration (R51-R53). -/
def Reg.SYS_WDG_CFG : Nat := 0x6c
/-- SYS_WDG_KICK: Watchdog kick key (R51-R53). -/
def Reg.SYS_WDG_KICK : Nat := 0x70
/-- STRAP_LATCH: Latched BOOT and SEAL (R54). -/
def Reg.STRAP_LATCH : Nat := 0x3040
/-- BOOT_STAT: Boot phase, codes, slot, life cycle (R64). -/
def Reg.BOOT_STAT : Nat := 0x9040
/-- BOOT_GEN_LO: GENERATION [31:0] of the loaded image (R64). -/
def Reg.BOOT_GEN_LO : Nat := 0x9044
/-- BOOT_GEN_HI: GENERATION [63:32] (R64). -/
def Reg.BOOT_GEN_HI : Nat := 0x9048
/-- PWR_STAT: Power domains and power-fail state (R75). -/
def Reg.PWR_STAT : Nat := 0x2040
/-- CYC_MODESET: Mode set, settable once per reset (R79). -/
def Reg.CYC_MODESET : Nat := 0x40040
/-- CYC_CMD: Machine and task commands (R79). -/
def Reg.CYC_CMD : Nat := 0x40044
/-- CYC_STAT: Machine state (R79). -/
def Reg.CYC_STAT : Nat := 0x40048
/-- CYC_HELD: Bit t = task t in HELD (R79). -/
def Reg.CYC_HELD : Nat := 0x4004c
/-- CYC_FAULTED: Bit t = task t in FAULT (R79). -/
def Reg.CYC_FAULTED : Nat := 0x40050
/-- CYC_END: Cycle end, written by the running task (R79). -/
def Reg.CYC_END : Nat := 0x40054
/-- TCFG: Core, priority, options, overrun limit (R77). -/
def Reg.TCFG (i : Nat) : Nat := (0x41 + i / 4) * 0x1000 + 0x40 + 0x40 * (i % 4)
/-- TPERIOD: Period in 250 µs units (R77). -/
def Reg.TPERIOD (i : Nat) : Nat := (0x41 + i / 4) * 0x1000 + 0x44 + 0x40 * (i % 4)
/-- TPHASE: Phase in 250 µs units (R77). -/
def Reg.TPHASE (i : Nat) : Nat := (0x41 + i / 4) * 0x1000 + 0x48 + 0x40 * (i % 4)
/-- TCTX: Context ID (R77). -/
def Reg.TCTX (i : Nat) : Nat := (0x41 + i / 4) * 0x1000 + 0x4c + 0x40 * (i % 4)
/-- TENTRY_LO: Cycle entry, virtual address [31:0] (R77). -/
def Reg.TENTRY_LO (i : Nat) : Nat := (0x41 + i / 4) * 0x1000 + 0x50 + 0x40 * (i % 4)
/-- TENTRY_HI: Cycle entry, virtual address [39:32] (R77). -/
def Reg.TENTRY_HI (i : Nat) : Nat := (0x41 + i / 4) * 0x1000 + 0x54 + 0x40 * (i % 4)
/-- TIMAP: Physical address of the input map (R77). -/
def Reg.TIMAP (i : Nat) : Nat := (0x41 + i / 4) * 0x1000 + 0x58 + 0x40 * (i % 4)
/-- TOMAP: Physical address of the output map (R77). -/
def Reg.TOMAP (i : Nat) : Nat := (0x41 + i / 4) * 0x1000 + 0x5c + 0x40 * (i % 4)
/-- TSTAT: Task state (R77). -/
def Reg.TSTAT (i : Nat) : Nat := (0x41 + i / 4) * 0x1000 + 0x60 + 0x40 * (i % 4)
/-- TOVR_CNT: Overruns since last read (R77). -/
def Reg.TOVR_CNT (i : Nat) : Nat := (0x41 + i / 4) * 0x1000 + 0x64 + 0x40 * (i % 4)
/-- TT0_LO: MONO at the last release, [31:0] (R77). -/
def Reg.TT0_LO (i : Nat) : Nat := (0x41 + i / 4) * 0x1000 + 0x68 + 0x40 * (i % 4)
/-- TT0_HI: MONO at the last release, [63:32] (R77). -/
def Reg.TT0_HI (i : Nat) : Nat := (0x41 + i / 4) * 0x1000 + 0x6c + 0x40 * (i % 4)
/-- TEXEC: Last cycle's time from release to commit, ns (R77). -/
def Reg.TEXEC (i : Nat) : Nat := (0x41 + i / 4) * 0x1000 + 0x70 + 0x40 * (i % 4)
/-- TEXEC_MAX: Largest TEXEC since last read (R77). -/
def Reg.TEXEC_MAX (i : Nat) : Nat := (0x41 + i / 4) * 0x1000 + 0x74 + 0x40 * (i % 4)
/-- TCYCLES: Committed cycles; incremented at each commit instant (R94); wraps at 2³² (R77). -/
def Reg.TCYCLES (i : Nat) : Nat := (0x41 + i / 4) * 0x1000 + 0x78 + 0x40 * (i % 4)
/-- TRET: Retentive region (R77). -/
def Reg.TRET (i : Nat) : Nat := (0x41 + i / 4) * 0x1000 + 0x7c + 0x40 * (i % 4)
/-- CYC_FORCE_BASE: Physical address of the force table, 16-byte aligned (R110-R113). -/
def Reg.CYC_FORCE_BASE : Nat := 0x45070
/-- CYC_FORCE_CNT: Entries, 0–1,024, in [10:0] (R110-R113). -/
def Reg.CYC_FORCE_CNT : Nat := 0x45074
/-- CYC_FORCE_EN: [0] EN: 1 = force table applied (R110-R113). -/
def Reg.CYC_FORCE_EN : Nat := 0x45078
/-- CYC_RET_BASE: Working buffer; stage at + L, freeze at + 2L; 64-byte aligned (R114-R118). -/
def Reg.CYC_RET_BASE : Nat := 0x45040
/-- CYC_RET_LEN: L: bytes, multiple of 64, 0–262,080 (R114-R118). -/
def Reg.CYC_RET_LEN : Nat := 0x45044
/-- CYC_RET_PERIOD: [15:0] least time between commit starts, ms (R114-R118). -/
def Reg.CYC_RET_PERIOD : Nat := 0x45048
/-- CYC_RET_SIG_LO: Layout signature [31:0] (R114-R118). -/
def Reg.CYC_RET_SIG_LO : Nat := 0x4504c
/-- CYC_RET_SIG_HI: Layout signature [63:32] (R114-R118). -/
def Reg.CYC_RET_SIG_HI : Nat := 0x45050
/-- CYC_RET_GEN_LO: Generation of the newest valid set [31:0] (R114-R118). -/
def Reg.CYC_RET_GEN_LO : Nat := 0x45054
/-- CYC_RET_GEN_HI: Generation [63:32] (R114-R118). -/
def Reg.CYC_RET_GEN_HI : Nat := 0x45058
/-- CYC_RET_STAT: [0] NEWEST 0 A, 1 B; [1] VALID_A; [2] VALID_B; [3] BUSY; [4] PEND (R114-R118). -/
def Reg.CYC_RET_STAT : Nat := 0x4505c
/-- CYC_RET_CNT: Commits completed since last read (R114-R118). -/
def Reg.CYC_RET_CNT : Nat := 0x45060
/-- CYC_XCFG: Timeout and edge option (R123). -/
def Reg.CYC_XCFG : Nat := 0x40080
/-- CYC_XDESC: Descriptor of the staged image (R123). -/
def Reg.CYC_XDESC : Nat := 0x40084
/-- CYC_XACT: Descriptor of the running image (R123). -/
def Reg.CYC_XACT : Nat := 0x40088
/-- CYC_XPREV: Descriptor of the image kept for REVERT (R123). -/
def Reg.CYC_XPREV : Nat := 0x4008c
/-- CYC_XREP: Report address, 64-byte aligned (R123). -/
def Reg.CYC_XREP : Nat := 0x40090
/-- CYC_XREP_MAX: Report entries at most, 0–262,144 (R123). -/
def Reg.CYC_XREP_MAX : Nat := 0x40094
/-- CYC_XCMD: Exchange commands (R123). -/
def Reg.CYC_XCMD : Nat := 0x40098
/-- CYC_XSTAT: Exchange state (R123). -/
def Reg.CYC_XSTAT : Nat := 0x4009c
/-- CYC_XGAP: Last gap, ns (R123). -/
def Reg.CYC_XGAP : Nat := 0x400a0
/-- RXE_CFG: Context, address families (R141). -/
def Reg.RXE_CFG : Nat := 0x50040
/-- RXE_STAB: Session table, physical, 64-byte aligned (R141). -/
def Reg.RXE_STAB : Nat := 0x50044
/-- RXE_SCALE: Scaling table, physical, 16-byte aligned (R141). -/
def Reg.RXE_SCALE : Nat := 0x50048
/-- RXE_SCALE_CNT: Scaling entries, 0–8,192, in [13:0] (R141). -/
def Reg.RXE_SCALE_CNT : Nat := 0x5004c
/-- RXE_POOL_LO: Receive pool, virtual [31:0], 4 KiB aligned (R141). -/
def Reg.RXE_POOL_LO : Nat := 0x50050
/-- RXE_POOL_HI: Receive pool, virtual [39:32] in [7:0] (R141). -/
def Reg.RXE_POOL_HI : Nat := 0x50054
/-- RXE_TXA_LO: Transmit area, virtual [31:0], 4 KiB aligned (R141). -/
def Reg.RXE_TXA_LO : Nat := 0x50058
/-- RXE_TXA_HI: Transmit area, virtual [39:32] in [7:0] (R141). -/
def Reg.RXE_TXA_HI : Nat := 0x5005c
/-- RXE_CQ_LO: Completion queue, virtual [31:0], 4 KiB aligned (R141). -/
def Reg.RXE_CQ_LO : Nat := 0x50060
/-- RXE_CQ_HI: Completion queue, virtual [39:32] in [7:0] (R141). -/
def Reg.RXE_CQ_HI : Nat := 0x50064
/-- RXE_TXQ_LO: Request ring, virtual [31:0], 4 KiB aligned (R141). -/
def Reg.RXE_TXQ_LO : Nat := 0x50068
/-- RXE_TXQ_HI: Request ring, virtual [39:32] in [7:0] (R141). -/
def Reg.RXE_TXQ_HI : Nat := 0x5006c
/-- RXE_POOL_WM: Pool watermarks (R141). -/
def Reg.RXE_POOL_WM : Nat := 0x50070
/-- RXE_POOL_FREE: Free pool buffers, [11:0] (R141). -/
def Reg.RXE_POOL_FREE : Nat := 0x50074
/-- RXE_CQ_HEAD: Consumer index, [11:0] (R141). -/
def Reg.RXE_CQ_HEAD : Nat := 0x50078
/-- RXE_CQ_TAIL: Producer index, [11:0] (R141). -/
def Reg.RXE_CQ_TAIL : Nat := 0x5007c
/-- RXE_TXQ_TAIL: Producer index, [8:0] (R141). -/
def Reg.RXE_TXQ_TAIL : Nat := 0x50080
/-- RXE_TXQ_HEAD: Consumer index, [8:0] (R141). -/
def Reg.RXE_TXQ_HEAD : Nat := 0x50084
/-- RXE_FREE_RET: Pool buffer index returned by firmware, [10:0] (R141). -/
def Reg.RXE_FREE_RET : Nat := 0x50088
/-- RXE_SCMD: Session command (R141). -/
def Reg.RXE_SCMD : Nat := 0x5008c
/-- RXE_ADDR4: Local IPv4 address (R141). -/
def Reg.RXE_ADDR4 : Nat := 0x50090
/-- RXE_ADDR6: Local IPv6 address; word 0 holds bits [127:96] (R141). -/
def Reg.RXE_ADDR6 (i : Nat) : Nat := 0x50094 + 0x4 * i
/-- RXE_RETRY: Retransmission timeout and limit (R141). -/
def Reg.RXE_RETRY : Nat := 0x500a4
/-- RXE_FLT_CAUSE: Last fault (R141). -/
def Reg.RXE_FLT_CAUSE : Nat := 0x500a8
/-- RXE_FLT_VA_LO: Last fault address [31:0] (R141). -/
def Reg.RXE_FLT_VA_LO : Nat := 0x500ac
/-- RXE_FLT_VA_HI: Last fault address [39:32] in [7:0] (R141). -/
def Reg.RXE_FLT_VA_HI : Nat := 0x500b0
/-- RXE_CNT: Event counters, saturating at 0xFFFF_FFFF (R141). -/
def Reg.RXE_CNT (i : Nat) : Nat := 0x500c0 + 0x4 * i
/-- SSTAT: State and flags (R145). -/
def Reg.SSTAT (i : Nat) : Nat := (0x51 + i / 128) * 0x1000 + 0x40 + 0x10 * (i % 128)
/-- SRX_SEQ: Last accepted class C input sequence (R145). -/
def Reg.SRX_SEQ (i : Nat) : Nat := (0x51 + i / 128) * 0x1000 + 0x44 + 0x10 * (i % 128)
/-- STX_SEQ: Next class C output sequence (R145). -/
def Reg.STX_SEQ (i : Nat) : Nat := (0x51 + i / 128) * 0x1000 + 0x48 + 0x10 * (i % 128)
/-- SGEN: GENERATION of the published input image (R145). -/
def Reg.SGEN (i : Nat) : Nat := (0x51 + i / 128) * 0x1000 + 0x4c + 0x10 * (i % 128)
/-- CLE_TICK_LO: Number of the last tick started, [31:0] (R174). -/
def Reg.CLE_TICK_LO : Nat := 0x70040
/-- CLE_TICK_HI: Tick number [63:32] (R174). -/
def Reg.CLE_TICK_HI : Nat := 0x70044
/-- CLE_TEXEC: Evaluation time of the last completed tick, ns (R174). -/
def Reg.CLE_TEXEC : Nat := 0x70048
/-- CLE_TEXEC_MAX: Largest CLE_TEXEC since last read (R174). -/
def Reg.CLE_TEXEC_MAX : Nat := 0x7004c
/-- CLE_DENIED: Denied writes (R11) (R174). -/
def Reg.CLE_DENIED : Nat := 0x70050
/-- CLE_LOSS: Writes lost in ties (R36) (R174). -/
def Reg.CLE_LOSS : Nat := 0x70054
/-- CLE_MISS: Missed samples, all loops (R174). -/
def Reg.CLE_MISS : Nat := 0x70058
/-- CLE_RAM_ADDR: CLE RAM address (R174). -/
def Reg.CLE_RAM_ADDR : Nat := 0x7005c
/-- CLE_RAM_DATA: CLE RAM data (R174). -/
def Reg.CLE_RAM_DATA : Nat := 0x70060
/-- CLE_GCMD: Gain-set command (R174). -/
def Reg.CLE_GCMD : Nat := 0x70064
/-- CLE_GSTAT: Gain-set copy state (R174). -/
def Reg.CLE_GSTAT : Nat := 0x70068
/-- LCTL: Mode, pin, manual value (R176). -/
def Reg.LCTL (i : Nat) : Nat := (0x72 + i / 64) * 0x1000 + 0x40 + 0x10 * (i % 64)
/-- LPIN: Pin timeout (R176). -/
def Reg.LPIN (i : Nat) : Nat := (0x72 + i / 64) * 0x1000 + 0x44 + 0x10 * (i % 64)
/-- LSTAT: Loop status and last output (R176). -/
def Reg.LSTAT (i : Nat) : Nat := (0x72 + i / 64) * 0x1000 + 0x48 + 0x10 * (i % 64)
/-- LMISS: Missed samples of this loop (R176). -/
def Reg.LMISS (i : Nat) : Nat := (0x72 + i / 64) * 0x1000 + 0x4c + 0x10 * (i % 64)
/-- PRISM_CFG: Context of the job ring and completion queue (R201). -/
def Reg.PRISM_CFG : Nat := 0x60040
/-- PRISM_JOBQ_LO: Job ring, virtual [31:0], 4 KiB aligned (R201). -/
def Reg.PRISM_JOBQ_LO : Nat := 0x60044
/-- PRISM_JOBQ_HI: Job ring, virtual [39:32] in [7:0] (R201). -/
def Reg.PRISM_JOBQ_HI : Nat := 0x60048
/-- PRISM_CQ_LO: Completion queue, virtual [31:0], 4 KiB aligned (R201). -/
def Reg.PRISM_CQ_LO : Nat := 0x6004c
/-- PRISM_CQ_HI: Completion queue, virtual [39:32] in [7:0] (R201). -/
def Reg.PRISM_CQ_HI : Nat := 0x60050
/-- PRISM_STAT: Engine state (R201). -/
def Reg.PRISM_STAT : Nat := 0x60054
/-- PRISM_FNZ_USED: Factor non-zeros of LOADING and READY slots (R201). -/
def Reg.PRISM_FNZ_USED : Nat := 0x60058
/-- PRISM_NP_MAX: Longest non-pre-emptible segment since last read, ns (R201). -/
def Reg.PRISM_NP_MAX : Nat := 0x6005c
/-- PRISM_FLT_CAUSE: Last fault (R201). -/
def Reg.PRISM_FLT_CAUSE : Nat := 0x60060
/-- PRISM_FLT_VA_LO: Last fault address [31:0] (R201). -/
def Reg.PRISM_FLT_VA_LO : Nat := 0x60064
/-- PRISM_FLT_VA_HI: Last fault address [39:32] in [7:0] (R201). -/
def Reg.PRISM_FLT_VA_HI : Nat := 0x60068
/-- PRISM_JOBS_DONE: Completion records written, saturating at 0xFFFF_FFFF (R201). -/
def Reg.PRISM_JOBS_DONE : Nat := 0x6006c
/-- PRISM_JOBQ_DOOR: Job ring producer index (R215). -/
def Reg.PRISM_JOBQ_DOOR : Nat := 0x61040
/-- PRISM_JOBQ_HEAD: Job ring consumer index (R215). -/
def Reg.PRISM_JOBQ_HEAD : Nat := 0x61044
/-- PRISM_CQ_HEAD: Completion queue consumer index (R215). -/
def Reg.PRISM_CQ_HEAD : Nat := 0x61048
/-- PRISM_CQ_TAIL: Completion queue producer index (R215). -/
def Reg.PRISM_CQ_TAIL : Nat := 0x6104c
/-- PRISM_CANCEL: Cancel the jobs of one slot (R215). -/
def Reg.PRISM_CANCEL : Nat := 0x61050
/-- PRISM_SLOT_CMD: Load and unload (R202). -/
def Reg.PRISM_SLOT_CMD (i : Nat) : Nat := (0x62 + i) * 0x1000 + 0x40
/-- PRISM_SLOT_DESC_LO: Model descriptor, virtual [31:0], 64-byte aligned (R202). -/
def Reg.PRISM_SLOT_DESC_LO (i : Nat) : Nat := (0x62 + i) * 0x1000 + 0x44
/-- PRISM_SLOT_DESC_HI: Model descriptor, virtual [39:32] in [7:0] (R202). -/
def Reg.PRISM_SLOT_DESC_HI (i : Nat) : Nat := (0x62 + i) * 0x1000 + 0x48
/-- PRISM_SLOT_MEM: PrismRAM area (R202). -/
def Reg.PRISM_SLOT_MEM (i : Nat) : Nat := (0x62 + i) * 0x1000 + 0x4c
/-- PRISM_SLOT_OUT_LO: Result area, virtual [31:0], 64-byte aligned (R202). -/
def Reg.PRISM_SLOT_OUT_LO (i : Nat) : Nat := (0x62 + i) * 0x1000 + 0x50
/-- PRISM_SLOT_OUT_HI: Result area, virtual [39:32] and context (R202). -/
def Reg.PRISM_SLOT_OUT_HI (i : Nat) : Nat := (0x62 + i) * 0x1000 + 0x54
/-- PRISM_SLOT_STAT: Slot state (R202). -/
def Reg.PRISM_SLOT_STAT (i : Nat) : Nat := (0x62 + i) * 0x1000 + 0x58
/-- PRISM_SLOT_NEED: Area needed, 64 KB units (R200) (R202). -/
def Reg.PRISM_SLOT_NEED (i : Nat) : Nat := (0x62 + i) * 0x1000 + 0x5c
/-- PRISM_SLOT_SIG_LO: Structure signature [31:0] (R202). -/
def Reg.PRISM_SLOT_SIG_LO (i : Nat) : Nat := (0x62 + i) * 0x1000 + 0x60
/-- PRISM_SLOT_SIG_HI: Structure signature [63:32] (R202). -/
def Reg.PRISM_SLOT_SIG_HI (i : Nat) : Nat := (0x62 + i) * 0x1000 + 0x64
/-- PRISM_SLOT_DIM: System dimension (R202). -/
def Reg.PRISM_SLOT_DIM (i : Nat) : Nat := (0x62 + i) * 0x1000 + 0x68
/-- PRISM_SLOT_FNZ: Factor non-zeros (R202). -/
def Reg.PRISM_SLOT_FNZ (i : Nat) : Nat := (0x62 + i) * 0x1000 + 0x6c
/-- PRISM_SLOT_SNODE: Supernodes (R202). -/
def Reg.PRISM_SLOT_SNODE (i : Nat) : Nat := (0x62 + i) * 0x1000 + 0x70
/-- PRISM_SLOT_PUB: Last published generation (R202). -/
def Reg.PRISM_SLOT_PUB (i : Nat) : Nat := (0x62 + i) * 0x1000 + 0x74
/-- MTR_DESC: Configuration block, physical (R239). -/
def Reg.MTR_DESC : Nat := 0x90040
/-- MTR_CHEN: Enabled feeders, heat channels and pulse outputs (R239). -/
def Reg.MTR_CHEN : Nat := 0x90044
/-- MTR_IVAL: Interval length and checkpoint period (R239). -/
def Reg.MTR_IVAL : Nat := 0x90048
/-- MTR_IREC_BASE: Interval record ring, physical, 128-byte aligned (R239). -/
def Reg.MTR_IREC_BASE : Nat := 0x9004c
/-- MTR_IREC_CNT: Ring entries (R239). -/
def Reg.MTR_IREC_CNT : Nat := 0x90050
/-- MTR_IREC_WIDX: Next ring index (R239). -/
def Reg.MTR_IREC_WIDX : Nat := 0x90054
/-- MTR_CKPT_BASE: Checkpoint sets in MRAM, physical, 4 KiB aligned (R239). -/
def Reg.MTR_CKPT_BASE : Nat := 0x90058
/-- MTR_CKPT_STAT: Checkpoint state (R239). -/
def Reg.MTR_CKPT_STAT : Nat := 0x9005c
/-- MTR_CKPT_GEN: Generation of the newest valid set, [31:0] (R239). -/
def Reg.MTR_CKPT_GEN : Nat := 0x90060
/-- MTR_CMD: Commands (R239). -/
def Reg.MTR_CMD : Nat := 0x90064
/-- MTR_STAT: Block state (R239). -/
def Reg.MTR_STAT : Nat := 0x90068
/-- MTR_FTEMP: Sensor temperature per feeder, written by firmware (R239). -/
def Reg.MTR_FTEMP (i : Nat) : Nat := 0x90070 + 0x4 * i
/-- MTR_VRMS: V_k, V (R252). -/
def Reg.MTR_VRMS (i : Nat) (j : Nat) : Nat := 0x91040 + 0x80 * i + 0x14 * j
/-- MTR_IRMS: I_k, A (R252). -/
def Reg.MTR_IRMS (i : Nat) (j : Nat) : Nat := 0x91044 + 0x80 * i + 0x14 * j
/-- MTR_P: W (R252). -/
def Reg.MTR_P (i : Nat) (j : Nat) : Nat := 0x91048 + 0x80 * i + 0x14 * j
/-- MTR_Q: var (R252). -/
def Reg.MTR_Q (i : Nat) (j : Nat) : Nat := 0x9104c + 0x80 * i + 0x14 * j
/-- MTR_S: VA (R252). -/
def Reg.MTR_S (i : Nat) (j : Nat) : Nat := 0x91050 + 0x80 * i + 0x14 * j
/-- MTR_IN_RMS: Neutral current RMS, A (R252). -/
def Reg.MTR_IN_RMS (i : Nat) : Nat := 0x9107c + 0x80 * i
/-- MTR_FREQ: Frequency of L1 from its zero crossings, Hz; 0 without crossings (R252). -/
def Reg.MTR_FREQ (i : Nat) : Nat := 0x91080 + 0x80 * i
/-- MTR_ND: Neutral displacement, V (R252). -/
def Reg.MTR_ND (i : Nat) : Nat := 0x91084 + 0x80 * i
/-- MTR_FSTAT: Feeder status (R252). -/
def Reg.MTR_FSTAT (i : Nat) : Nat := 0x91088 + 0x80 * i
/-- MTR_FBAND: Band in force of channels 0–6, 4 bits each, [27:0] (R252). -/
def Reg.MTR_FBAND (i : Nat) : Nat := 0x9108c + 0x80 * i
/-- MXE_ENC_CFG: Encoder input modes, 8 bits per encoder (R270). -/
def Reg.MXE_ENC_CFG : Nat := 0x80040
/-- MXE_ADL_CFG: Axis driver link (R270). -/
def Reg.MXE_ADL_CFG : Nat := 0x80044
/-- MXE_ADL_ERR: Status words with a CRC error, saturating at 0xFFFF_FFFF (R270). -/
def Reg.MXE_ADL_ERR : Nat := 0x80048
/-- MXE_EVT_AXES: Bit a = AEVT of axis a is not zero (R270). -/
def Reg.MXE_EVT_AXES : Nat := 0x8004c
/-- MXE_START_PEND: Bit a = axis a waits for a start grid point (R270). -/
def Reg.MXE_START_PEND : Nat := 0x80050
/-- MXE_ENC_POS: Encoder count, signed 32-bit, wrapping (R270). -/
def Reg.MXE_ENC_POS (i : Nat) : Nat := 0x80060 + 0x4 * i
/-- ACFG: Class, source, options (R273). -/
def Reg.ACFG (i : Nat) : Nat := (0x81 + i / 2) * 0x1000 + 0x40 + 0x100 * (i % 2)
/-- ASTEP: Step size, legacy division, ADL slot (R273). -/
def Reg.ASTEP (i : Nat) : Nat := (0x81 + i / 2) * 0x1000 + 0x44 + 0x100 * (i % 2)
/-- AVMAX: Velocity limit, microsteps/s (R273). -/
def Reg.AVMAX (i : Nat) : Nat := (0x81 + i / 2) * 0x1000 + 0x48 + 0x100 * (i % 2)
/-- AACC: Acceleration, microsteps/s² (R273). -/
def Reg.AACC (i : Nat) : Nat := (0x81 + i / 2) * 0x1000 + 0x4c + 0x100 * (i % 2)
/-- ADEC: Deceleration, microsteps/s² (R273). -/
def Reg.ADEC (i : Nat) : Nat := (0x81 + i / 2) * 0x1000 + 0x50 + 0x100 * (i % 2)
/-- ALIMDEC: Hard-limit and SAFE deceleration, microsteps/s² (R273). -/
def Reg.ALIMDEC (i : Nat) : Nat := (0x81 + i / 2) * 0x1000 + 0x54 + 0x100 * (i % 2)
/-- AJERK: Jerk, microsteps/s³ (R273). -/
def Reg.AJERK (i : Nat) : Nat := (0x81 + i / 2) * 0x1000 + 0x58 + 0x100 * (i % 2)
/-- AHVEL: Homing velocity, microsteps/s (R273). -/
def Reg.AHVEL (i : Nat) : Nat := (0x81 + i / 2) * 0x1000 + 0x5c + 0x100 * (i % 2)
/-- ASOFTLO_L: Lower soft limit [31:0] (R273). -/
def Reg.ASOFTLO_L (i : Nat) : Nat := (0x81 + i / 2) * 0x1000 + 0x60 + 0x100 * (i % 2)
/-- ASOFTLO_H: Lower soft limit [47:32] in [15:0] (R273). -/
def Reg.ASOFTLO_H (i : Nat) : Nat := (0x81 + i / 2) * 0x1000 + 0x64 + 0x100 * (i % 2)
/-- ASOFTHI_L: Upper soft limit [31:0] (R273). -/
def Reg.ASOFTHI_L (i : Nat) : Nat := (0x81 + i / 2) * 0x1000 + 0x68 + 0x100 * (i % 2)
/-- ASOFTHI_H: Upper soft limit [47:32] in [15:0] (R273). -/
def Reg.ASOFTHI_H (i : Nat) : Nat := (0x81 + i / 2) * 0x1000 + 0x6c + 0x100 * (i % 2)
/-- AHOME: Homing options and filter (R273). -/
def Reg.AHOME (i : Nat) : Nat := (0x81 + i / 2) * 0x1000 + 0x70 + 0x100 * (i % 2)
/-- ABACKOFF: HOME_BACKOFF, microsteps, 1–2³¹ − 1 (R273). -/
def Reg.ABACKOFF (i : Nat) : Nat := (0x81 + i / 2) * 0x1000 + 0x74 + 0x100 * (i % 2)
/-- AHMAX: Homing travel limit, microsteps; 0 = none (R273). -/
def Reg.AHMAX (i : Nat) : Nat := (0x81 + i / 2) * 0x1000 + 0x78 + 0x100 * (i % 2)
/-- AHOFS: Position given to the home edge, signed microsteps (R273). -/
def Reg.AHOFS (i : Nat) : Nat := (0x81 + i / 2) * 0x1000 + 0x7c + 0x100 * (i % 2)
/-- AEXT_ZERO: Position at set-point 0, signed microsteps (R273). -/
def Reg.AEXT_ZERO (i : Nat) : Nat := (0x81 + i / 2) * 0x1000 + 0x80 + 0x100 * (i % 2)
/-- AEXT_SPAN: Microsteps per set-point 1.0, signed, not 0 (R273). -/
def Reg.AEXT_SPAN (i : Nat) : Nat := (0x81 + i / 2) * 0x1000 + 0x84 + 0x100 * (i % 2)
/-- ASIG: Position signal (R273). -/
def Reg.ASIG (i : Nat) : Nat := (0x81 + i / 2) * 0x1000 + 0x88 + 0x100 * (i % 2)
/-- ACUR: ADL run and hold current (R273). -/
def Reg.ACUR (i : Nat) : Nat := (0x81 + i / 2) * 0x1000 + 0x8c + 0x100 * (i % 2)
/-- ATGT_LO: Target or new position [31:0], integer microsteps (R273). -/
def Reg.ATGT_LO (i : Nat) : Nat := (0x81 + i / 2) * 0x1000 + 0x90 + 0x100 * (i % 2)
/-- ATGT_HI: Target [47:32] in [15:0] (R273). -/
def Reg.ATGT_HI (i : Nat) : Nat := (0x81 + i / 2) * 0x1000 + 0x94 + 0x100 * (i % 2)
/-- ACMD: Command (R273). -/
def Reg.ACMD (i : Nat) : Nat := (0x81 + i / 2) * 0x1000 + 0x98 + 0x100 * (i % 2)
/-- ASTAT: State (R273). -/
def Reg.ASTAT (i : Nat) : Nat := (0x81 + i / 2) * 0x1000 + 0x9c + 0x100 * (i % 2)
/-- AEVT: Events, bits as INT_RAW of R272 (R273). -/
def Reg.AEVT (i : Nat) : Nat := (0x81 + i / 2) * 0x1000 + 0xa0 + 0x100 * (i % 2)
/-- APOS_LO: Position [31:0] (R273). -/
def Reg.APOS_LO (i : Nat) : Nat := (0x81 + i / 2) * 0x1000 + 0xa4 + 0x100 * (i % 2)
/-- APOS_HI: Position [63:32] (R273). -/
def Reg.APOS_HI (i : Nat) : Nat := (0x81 + i / 2) * 0x1000 + 0xa8 + 0x100 * (i % 2)
/-- AVEL: Commanded velocity, signed microsteps/s (R273). -/
def Reg.AVEL (i : Nat) : Nat := (0x81 + i / 2) * 0x1000 + 0xac + 0x100 * (i % 2)
/-- AHLATCH_LO: Latched home position [31:0] (R273). -/
def Reg.AHLATCH_LO (i : Nat) : Nat := (0x81 + i / 2) * 0x1000 + 0xb0 + 0x100 * (i % 2)
/-- AHLATCH_HI: Latched home position [63:32] (R273). -/
def Reg.AHLATCH_HI (i : Nat) : Nat := (0x81 + i / 2) * 0x1000 + 0xb4 + 0x100 * (i % 2)
/-- AGEAR_NUM: Ratio numerator, signed (R273). -/
def Reg.AGEAR_NUM (i : Nat) : Nat := (0x81 + i / 2) * 0x1000 + 0xb8 + 0x100 * (i % 2)
/-- AGEAR_DEN: Ratio denominator, 1–2³² − 1 (R273). -/
def Reg.AGEAR_DEN (i : Nat) : Nat := (0x81 + i / 2) * 0x1000 + 0xbc + 0x100 * (i % 2)
/-- AGEAR_AT: Master count at which the ratio changes (R273). -/
def Reg.AGEAR_AT (i : Nat) : Nat := (0x81 + i / 2) * 0x1000 + 0xc0 + 0x100 * (i % 2)
/-- AGEAR_BLEND: Blend distance, master counts; 0 = step change (R273). -/
def Reg.AGEAR_BLEND (i : Nat) : Nat := (0x81 + i / 2) * 0x1000 + 0xc4 + 0x100 * (i % 2)
/-- ADRV: Driver status (R273). -/
def Reg.ADRV (i : Nat) : Nat := (0x81 + i / 2) * 0x1000 + 0xc8 + 0x100 * (i % 2)
/-- SAFE_CMD: Commands (R301). -/
def Reg.SAFE_CMD : Nat := 0xa0040
/-- SAFE_STAT: State, set, cause (R301). -/
def Reg.SAFE_STAT : Nat := 0xa0044
/-- SAFE_CYCLE_END: Any write ends the cycle's program work (R301). -/
def Reg.SAFE_CYCLE_END : Nat := 0xa0048
/-- SAFE_SEAL_LIVE: [7:0] last SEAL reading (R301). -/
def Reg.SAFE_SEAL_LIVE : Nat := 0xa004c
/-- SAFE_OVR_ACT0: Override entries 0–31 (R301). -/
def Reg.SAFE_OVR_ACT0 : Nat := 0xa0050
/-- SAFE_OVR_ACT1: Override entries 32–63 (R301). -/
def Reg.SAFE_OVR_ACT1 : Nat := 0xa0054
/-- SAFE_AXSTOP: [15:0] axis stop requests (R301). -/
def Reg.SAFE_AXSTOP : Nat := 0xa0058
/-- SAFE_PEN_IN: [7:0] pairs in Penumbra; [15:8] pairs expired (R301). -/
def Reg.SAFE_PEN_IN : Nat := 0xa005c
/-- SAFE_PEN_OUT: [7:0] outputs in Penumbra; [15:8] outputs expired (R301). -/
def Reg.SAFE_PEN_OUT : Nat := 0xa0060
/-- SAFE_PEN_NEXT: s until the earliest expiry; 0xFFFF_FFFF if none (R301). -/
def Reg.SAFE_PEN_NEXT : Nat := 0xa0064
/-- SAFE_FOREIGN: Ignored writes (R308), saturating at 0xFFFF_FFFF (R301). -/
def Reg.SAFE_FOREIGN : Nat := 0xa0068
/-- SAFE_CYCLE_CNT: Cycles started, wrapping at 2³² (R301). -/
def Reg.SAFE_CYCLE_CNT : Nat := 0xa006c
/-- SAFE_IN_VAL: [15:0] values latched at the cycle start (R319). -/
def Reg.SAFE_IN_VAL : Nat := 0xa1040
/-- SAFE_IN_LVL: [15:0] present filtered levels (R319). -/
def Reg.SAFE_IN_LVL : Nat := 0xa1044
/-- SAFE_IN_FAIL: [15:0] failed channels (R319). -/
def Reg.SAFE_IN_FAIL : Nat := 0xa1048
/-- SAFE_IN_DISC: [7:0] pairs with discrepancy (R319). -/
def Reg.SAFE_IN_DISC : Nat := 0xa104c
/-- SAFE_OUT_SET: [7:0] output demands (R319). -/
def Reg.SAFE_OUT_SET : Nat := 0xa1050
/-- SAFE_OUT_RB: [7:0] channel A readback; [15:8] channel B (R319). -/
def Reg.SAFE_OUT_RB : Nat := 0xa1054
/-- SAFE_OUT_FAIL: [7:0] channel A failed; [15:8] channel B (R319). -/
def Reg.SAFE_OUT_FAIL : Nat := 0xa1058
/-- SAFE_OUT_ON: [7:0] outputs energised (R319). -/
def Reg.SAFE_OUT_ON : Nat := 0xa105c
/-- SAFE_MB_SEL: [7:0] connection (R336). -/
def Reg.SAFE_MB_SEL : Nat := 0xa3040
/-- SAFE_MB_CMD: [0] RX_PUT; [1] TX_GET (R336). -/
def Reg.SAFE_MB_CMD : Nat := 0xa3044
/-- SAFE_MB_DATA: PDU bytes 0–79 (R336). -/
def Reg.SAFE_MB_DATA (i : Nat) : Nat := 0xa3050 + 0x4 * i
/-- SAFE_MB_TXNEW: Bit c mod 32 of word c / 32: new PDU to send (R336). -/
def Reg.SAFE_MB_TXNEW (i : Nat) : Nat := 0xa30a0 + 0x4 * i
/-- SAFE_ISC_SEL: [7:0] connection (R334). -/
def Reg.SAFE_ISC_SEL : Nat := 0xa4040
/-- SAFE_ISC_RXST: [0] VALID; [1] PEER_PASSIVE, as latched at the cycle start (R334). -/
def Reg.SAFE_ISC_RXST : Nat := 0xa4044
/-- SAFE_ISC_RXD: Received data, byte order of R336 (R334). -/
def Reg.SAFE_ISC_RXD (i : Nat) : Nat := 0xa4048 + 0x4 * i
/-- SAFE_ISC_TXD: Data to send, from the next application instant (R334). -/
def Reg.SAFE_ISC_TXD (i : Nat) : Nat := 0xa4088 + 0x4 * i
/-- MIRROR_CFG: Unit, global task, sweep, heartbeat, ports (R349). -/
def Reg.MIRROR_CFG : Nat := 0xb0040
/-- MIRROR_TXS: Transmit staging area, physical, 4 KiB aligned (R349). -/
def Reg.MIRROR_TXS : Nat := 0xb0044
/-- MIRROR_JRNL: Journal, physical, 4 KiB aligned (R349). -/
def Reg.MIRROR_JRNL : Nat := 0xb0048
/-- MIRROR_BUFLEN: Sizes of staging area and journal (R349). -/
def Reg.MIRROR_BUFLEN : Nat := 0xb004c
/-- MIRROR_VMAC_LO: Virtual MAC, bytes 2–5 (R349). -/
def Reg.MIRROR_VMAC_LO : Nat := 0xb0050
/-- MIRROR_VMAC_HI: Virtual MAC, bytes 0–1 in [15:0] (R349). -/
def Reg.MIRROR_VMAC_HI : Nat := 0xb0054
/-- MIRROR_CRIT: Bit b of word k = SysRAM bank 32k + b is critical (R349). -/
def Reg.MIRROR_CRIT (i : Nat) : Nat := 0xb0058 + 0x4 * i
/-- MIRROR_BOOT_SRC: Boot image for the peer, physical (R349). -/
def Reg.MIRROR_BOOT_SRC : Nat := 0xb0064
/-- MIRROR_BOOT_LEN: Bytes, 0–8,388,608; 0 = no boot service (R349). -/
def Reg.MIRROR_BOOT_LEN : Nat := 0xb0068
/-- MIRROR_CMD: Commands (R349). -/
def Reg.MIRROR_CMD : Nat := 0xb006c
/-- MIRROR_HB_KICK: Heartbeat key (R347) (R349). -/
def Reg.MIRROR_HB_KICK : Nat := 0xb0070
/-- MIRROR_STAT: Role and pair state (R349). -/
def Reg.MIRROR_STAT : Nat := 0xb0074
/-- MIRROR_LAG: [15:0] task lagged (R359) (R349). -/
def Reg.MIRROR_LAG : Nat := 0xb0078
/-- MIRROR_LAG_CNT: Skipped sets, saturating at 0xFFFF_FFFF (R349). -/
def Reg.MIRROR_LAG_CNT : Nat := 0xb007c
/-- MIRROR_GAP: Last switch-over gap, ns (R349). -/
def Reg.MIRROR_GAP : Nat := 0xb0080
/-- MIRROR_SET_MAX: Largest set sent or received, bytes (R349). -/
def Reg.MIRROR_SET_MAX : Nat := 0xb0084
/-- MIRROR_LINK_ERR: Frames with a bad CRC, saturating at 0xFFFF_FFFF (R349). -/
def Reg.MIRROR_LINK_ERR : Nat := 0xb0088
/-- PTP_NOW_NS: [29:0] ns; read latches R378 (R371-R389). -/
def Reg.PTP_NOW_NS : Nat := 0xc0040
/-- PTP_NOW_SEC_LO: Seconds [31:0] (R371-R389). -/
def Reg.PTP_NOW_SEC_LO : Nat := 0xc0044
/-- PTP_NOW_SEC_HI: Seconds [47:32] in [15:0] (R371-R389). -/
def Reg.PTP_NOW_SEC_HI : Nat := 0xc0048
/-- PTP_NOW_FRAC: [15:0] fraction of 1 ns (R371-R389). -/
def Reg.PTP_NOW_FRAC : Nat := 0xc004c
/-- PTP_NOW_MONO_LO: MONO [31:0] of the latch (R371-R389). -/
def Reg.PTP_NOW_MONO_LO : Nat := 0xc0050
/-- PTP_NOW_MONO_HI: MONO [63:32] of the latch (R371-R389). -/
def Reg.PTP_NOW_MONO_HI : Nat := 0xc0054
/-- MONO_LO: MONO [31:0]; read snapshots MONO_HI (R371-R389). -/
def Reg.MONO_LO : Nat := 0xc0058
/-- MONO_HI: MONO [63:32] (R371-R389). -/
def Reg.MONO_HI : Nat := 0xc005c
/-- PTP_RATE: Signed, 2⁻¹⁰ ppb (R374) (R371-R389). -/
def Reg.PTP_RATE : Nat := 0xc0060
/-- PTP_SLEW: Signed ns to slew (R375) (R371-R389). -/
def Reg.PTP_SLEW : Nat := 0xc0064
/-- PTP_SLEW_CFG: [9:0] PPM, 1–1,000 (R371-R389). -/
def Reg.PTP_SLEW_CFG : Nat := 0xc0068
/-- PTP_SLEW_LEFT: Signed ns remaining (R371-R389). -/
def Reg.PTP_SLEW_LEFT : Nat := 0xc006c
/-- PTP_STEP_LO: Step offset [31:0], signed 64-bit ns (R371-R389). -/
def Reg.PTP_STEP_LO : Nat := 0xc0070
/-- PTP_STEP_HI: Step offset [63:32] (R371-R389). -/
def Reg.PTP_STEP_HI : Nat := 0xc0074
/-- PTP_SET_SEC_LO: Seconds [31:0] for SET (R371-R389). -/
def Reg.PTP_SET_SEC_LO : Nat := 0xc0078
/-- PTP_SET_SEC_HI: Seconds [47:32] in [15:0] (R371-R389). -/
def Reg.PTP_SET_SEC_HI : Nat := 0xc007c
/-- PTP_SET_NS: [29:0] ns, 0–999,999,999 (R371-R389). -/
def Reg.PTP_SET_NS : Nat := 0xc0080
/-- PTP_CMD: Commands (R371-R389). -/
def Reg.PTP_CMD : Nat := 0xc0084
/-- PTP_STEP_MAX: ns, 1–4,294,967,295; default 1 ms (R371-R389). -/
def Reg.PTP_STEP_MAX : Nat := 0xc0088
/-- PTP_SERVO_CFG: Enable, qualification, holdover timeout (R371-R389). -/
def Reg.PTP_SERVO_CFG : Nat := 0xc008c
/-- PTP_SERVO_KP: Unsigned Q16.16, ppb per ns (R371-R389). -/
def Reg.PTP_SERVO_KP : Nat := 0xc0090
/-- PTP_SERVO_KI: Unsigned Q16.16, ppb per ns (R371-R389). -/
def Reg.PTP_SERVO_KI : Nat := 0xc0094
/-- PTP_SERVO_THR: Lock and step thresholds (R371-R389). -/
def Reg.PTP_SERVO_THR : Nat := 0xc0098
/-- PTP_OFS_TAG: Master tag and STEP_GEN of a sample (R371-R389). -/
def Reg.PTP_OFS_TAG : Nat := 0xc009c
/-- PTP_OFS_LO: Offset [31:0] (R371-R389). -/
def Reg.PTP_OFS_LO : Nat := 0xc00a0
/-- PTP_OFS_HI: Offset [63:32]; write submits (R371-R389). -/
def Reg.PTP_OFS_HI : Nat := 0xc00a4
/-- PTP_STAT: Servo and step state (R371-R389). -/
def Reg.PTP_STAT : Nat := 0xc00a8
/-- PTP_REFUSED_LO: Offset of the last refused step [31:0] (R371-R389). -/
def Reg.PTP_REFUSED_LO : Nat := 0xc00ac
/-- PTP_REFUSED_HI: Offset [63:32] (R371-R389). -/
def Reg.PTP_REFUSED_HI : Nat := 0xc00b0
/-- PTP_HOLD_S: Seconds in the present holdover (R371-R389). -/
def Reg.PTP_HOLD_S : Nat := 0xc00b4
/-- PTP_SMP_DISC: Discarded samples, saturating at 0xFFFF_FFFF (R371-R389). -/
def Reg.PTP_SMP_DISC : Nat := 0xc00b8
/-- PTP_ASYM_IN: Signed Q16.16 ns (R384) (R384-R388). -/
def Reg.PTP_ASYM_IN (i : Nat) : Nat := (0xc1 + i) * 0x1000 + 0x40
/-- PTP_ASYM_EG: Signed Q16.16 ns (R384-R388). -/
def Reg.PTP_ASYM_EG (i : Nat) : Nat := (0xc1 + i) * 0x1000 + 0x44
/-- PTP_ECHO_TAG: Read removes the oldest entry (R388) (R384-R388). -/
def Reg.PTP_ECHO_TAG (i : Nat) : Nat := (0xc1 + i) * 0x1000 + 0x48
/-- PTP_ECHO_SEC_LO: Seconds [31:0] (R384-R388). -/
def Reg.PTP_ECHO_SEC_LO (i : Nat) : Nat := (0xc1 + i) * 0x1000 + 0x4c
/-- PTP_ECHO_SEC_HI: Seconds [47:32] in [15:0] (R384-R388). -/
def Reg.PTP_ECHO_SEC_HI (i : Nat) : Nat := (0xc1 + i) * 0x1000 + 0x50
/-- PTP_ECHO_NS: [29:0] ns (R384-R388). -/
def Reg.PTP_ECHO_NS (i : Nat) : Nat := (0xc1 + i) * 0x1000 + 0x54
/-- PTP_ECHO_CNT: [5:0] entries held, 0–32 (R384-R388). -/
def Reg.PTP_ECHO_CNT (i : Nat) : Nat := (0xc1 + i) * 0x1000 + 0x58
/-- PTP_ECHO_DROP: Dropped entries, saturating at 0xFFFF_FFFF (R384-R388). -/
def Reg.PTP_ECHO_DROP (i : Nat) : Nat := (0xc1 + i) * 0x1000 + 0x5c
/-- PTP_LATE_CNT: Late discards, saturating at 0xFFFF_FFFF (R384-R388). -/
def Reg.PTP_LATE_CNT (i : Nat) : Nat := (0xc1 + i) * 0x1000 + 0x60
/-- PTP_PORT_CFG: [15:0] LATE_TOL ns; [16] TC (R384-R388). -/
def Reg.PTP_PORT_CFG (i : Nat) : Nat := (0xc1 + i) * 0x1000 + 0x64
/-- PTP_LINK_DLY: Unsigned Q16.16 ns (R385) (R384-R388). -/
def Reg.PTP_LINK_DLY (i : Nat) : Nat := (0xc1 + i) * 0x1000 + 0x68
/-- RTC_SUBSEC: [14:0] divider count, binary (R391-R397). -/
def Reg.RTC_SUBSEC : Nat := 0xc5040
/-- RTC_SEC: [6:0] BCD 00–59 (R391-R397). -/
def Reg.RTC_SEC : Nat := 0xc5044
/-- RTC_MIN: [6:0] BCD 00–59 (R391-R397). -/
def Reg.RTC_MIN : Nat := 0xc5048
/-- RTC_HOUR: [5:0] BCD 00–23 (R391-R397). -/
def Reg.RTC_HOUR : Nat := 0xc504c
/-- RTC_WDAY: [2:0] 0–6 (R391-R397). -/
def Reg.RTC_WDAY : Nat := 0xc5050
/-- RTC_DAY: [5:0] BCD 01–31 (R391-R397). -/
def Reg.RTC_DAY : Nat := 0xc5054
/-- RTC_MON: [4:0] BCD 01–12 (R391-R397). -/
def Reg.RTC_MON : Nat := 0xc5058
/-- RTC_YEAR: [7:0] year, [15:8] century, BCD; read releases (R391-R397). -/
def Reg.RTC_YEAR : Nat := 0xc505c
/-- RTC_STG_SEC: Staging, same layout as 0x044–0x05C (R391-R397). -/
def Reg.RTC_STG_SEC : Nat := 0xc5060
/-- RTC_STG_MIN: Staging, same layout as 0x044–0x05C (R391-R397). -/
def Reg.RTC_STG_MIN : Nat := 0xc5064
/-- RTC_STG_HOUR: Staging, same layout as 0x044–0x05C (R391-R397). -/
def Reg.RTC_STG_HOUR : Nat := 0xc5068
/-- RTC_STG_WDAY: Staging, same layout as 0x044–0x05C (R391-R397). -/
def Reg.RTC_STG_WDAY : Nat := 0xc506c
/-- RTC_STG_DAY: Staging, same layout as 0x044–0x05C (R391-R397). -/
def Reg.RTC_STG_DAY : Nat := 0xc5070
/-- RTC_STG_MON: Staging, same layout as 0x044–0x05C (R391-R397). -/
def Reg.RTC_STG_MON : Nat := 0xc5074
/-- RTC_STG_YEAR: Staging, same layout as 0x044–0x05C (R391-R397). -/
def Reg.RTC_STG_YEAR : Nat := 0xc5078
/-- RTC_CMD: [3:0] 0x1 SET, 0x2 SET_DEFER, 0x3 CANCEL; others reserved (R391-R397). -/
def Reg.RTC_CMD : Nat := 0xc507c
/-- RTC_STAT: [0] FROZEN, [1] SET_PEND, [2] SET_AT_STEP (R391-R397). -/
def Reg.RTC_STAT : Nat := 0xc5080
/-- RTC_ALM0_T: Alarm 0 time fields (R391-R397). -/
def Reg.RTC_ALM0_T : Nat := 0xc5084
/-- RTC_ALM0_D: Alarm 0 date fields and control (R391-R397). -/
def Reg.RTC_ALM0_D : Nat := 0xc5088
/-- RTC_ALM1_T: Alarm 1 time fields (R391-R397). -/
def Reg.RTC_ALM1_T : Nat := 0xc508c
/-- RTC_ALM1_D: Alarm 1 date fields and control (R391-R397). -/
def Reg.RTC_ALM1_D : Nat := 0xc5090
/-- ETH_CFG: Speed, auto-negotiation, multicast, MACsec (R400). -/
def Reg.ETH_CFG (i : Nat) : Nat := (0xd0 + i * 3) * 0x1000 + 0x40
/-- ETH_MAC_LO: Port MAC address, bytes 2–5 (R400). -/
def Reg.ETH_MAC_LO (i : Nat) : Nat := (0xd0 + i * 3) * 0x1000 + 0x44
/-- ETH_MAC_HI: Bytes 0–1 in [15:0] (R400). -/
def Reg.ETH_MAC_HI (i : Nat) : Nat := (0xd0 + i * 3) * 0x1000 + 0x48
/-- ETH_STAT: [0] LINK, [1] AN_DONE (R400). -/
def Reg.ETH_STAT (i : Nat) : Nat := (0xd0 + i * 3) * 0x1000 + 0x4c
/-- ETH_STEER: Steering entries (R400). -/
def Reg.ETH_STEER (i : Nat) : Nat := (0xd0 + i / 16 * 0x3) * 0x1000 + 0x50 + 0x4 * (i % 16)
/-- ETH_RXE_TAG: VLAN tag of RXE frames (R400). -/
def Reg.ETH_RXE_TAG (i : Nat) : Nat := (0xd0 + i * 3) * 0x1000 + 0x90
/-- ETH_MDIO_CMD: MDIO command; E2 and E3 only (R400). -/
def Reg.ETH_MDIO_CMD (i : Nat) : Nat := (0xd0 + i * 3) * 0x1000 + 0x94
/-- ETH_MDIO_DATA: MDIO data; E2 and E3 only (R400). -/
def Reg.ETH_MDIO_DATA (i : Nat) : Nat := (0xd0 + i * 3) * 0x1000 + 0x98
/-- ETH_RED_CFG: HSR/PRP; E0 only (R400). -/
def Reg.ETH_RED_CFG (i : Nat) : Nat := (0xd0 + i * 3) * 0x1000 + 0x9c
/-- ETH_SEC_CFG: MACsec options (R400). -/
def Reg.ETH_SEC_CFG (i : Nat) : Nat := (0xd0 + i * 3) * 0x1000 + 0xa0
/-- ETH_SEC_WIN: Replay window (R400). -/
def Reg.ETH_SEC_WIN (i : Nat) : Nat := (0xd0 + i * 3) * 0x1000 + 0xa4
/-- ETH_SEC_TXAN: [1:0] transmit AN in use (R400). -/
def Reg.ETH_SEC_TXAN (i : Nat) : Nat := (0xd0 + i * 3) * 0x1000 + 0xa8
/-- ETH_SEC_TXSA: Transmit SA per AN (R400). -/
def Reg.ETH_SEC_TXSA (i : Nat) : Nat := (0xd0 + i / 4 * 0x3) * 0x1000 + 0xac + 0x4 * (i % 4)
/-- ETH_SEC_TXPN: Next PN per AN (R400). -/
def Reg.ETH_SEC_TXPN (i : Nat) : Nat := (0xd0 + i / 4 * 0x3) * 0x1000 + 0xbc + 0x4 * (i % 4)
/-- ETH_SEC_RXSCI: SCI of receive SC s: words 2s (bytes 4–7) and 2s + 1 (bytes 0–3) (R400). -/
def Reg.ETH_SEC_RXSCI (i : Nat) : Nat := (0xd0 + i / 8 * 0x3) * 0x1000 + 0xcc + 0x4 * (i % 8)
/-- ETH_SEC_RXSA: Receive SA of SC s, AN a, at index 4s + a (R400). -/
def Reg.ETH_SEC_RXSA (i : Nat) : Nat := (0xd0 + i / 16 * 0x3) * 0x1000 + 0xec + 0x4 * (i % 16)
/-- ETH_SEC_RXPN: Lowest acceptable PN, same index (R400). -/
def Reg.ETH_SEC_RXPN (i : Nat) : Nat := (0xd0 + i / 16 * 0x3) * 0x1000 + 0x12c + 0x4 * (i % 16)
/-- ETH_CNT: Counters, saturating at 0xFFFF_FFFF (R400). -/
def Reg.ETH_CNT (i : Nat) : Nat := (0xd0 + i / 12 * 0x3) * 0x1000 + 0x170 + 0x4 * (i % 12)
/-- ETH_TQ_BASE: Ring, physical, 64-byte aligned (R402). -/
def Reg.ETH_TQ_BASE (i : Nat) : Nat := (0xd1 + i / 8 * 0x3) * 0x1000 + 0x40 + 0x20 * (i % 8)
/-- ETH_TQ_CFG: [3:0] LOG2 ring size, 4–10; [16] CBS; [17] GUARD; [31] EN (R402). -/
def Reg.ETH_TQ_CFG (i : Nat) : Nat := (0xd1 + i / 8 * 0x3) * 0x1000 + 0x44 + 0x20 * (i % 8)
/-- ETH_TQ_TAIL: [10:0] producer index (R402). -/
def Reg.ETH_TQ_TAIL (i : Nat) : Nat := (0xd1 + i / 8 * 0x3) * 0x1000 + 0x48 + 0x20 * (i % 8)
/-- ETH_TQ_HEAD: [10:0] consumer index (R402). -/
def Reg.ETH_TQ_HEAD (i : Nat) : Nat := (0xd1 + i / 8 * 0x3) * 0x1000 + 0x4c + 0x20 * (i % 8)
/-- ETH_TQ_SLOPE: [21:0] idleSlope, kbit/s, up to the port rate (R402). -/
def Reg.ETH_TQ_SLOPE (i : Nat) : Nat := (0xd1 + i / 8 * 0x3) * 0x1000 + 0x50 + 0x20 * (i % 8)
/-- ETH_TQ_CREDIT: Signed credit, bits (R402). -/
def Reg.ETH_TQ_CREDIT (i : Nat) : Nat := (0xd1 + i / 8 * 0x3) * 0x1000 + 0x54 + 0x20 * (i % 8)
/-- ETH_RQ_BASE: Ring, physical, 64-byte aligned (R411). -/
def Reg.ETH_RQ_BASE (i : Nat) : Nat := (0xd1 + i / 8 * 0x3) * 0x1000 + 0x140 + 0x10 * (i % 8)
/-- ETH_RQ_CFG: [3:0] LOG2 ring size, 4–10; [31] EN (R411). -/
def Reg.ETH_RQ_CFG (i : Nat) : Nat := (0xd1 + i / 8 * 0x3) * 0x1000 + 0x144 + 0x10 * (i % 8)
/-- ETH_RQ_TAIL: [10:0] producer index (R411). -/
def Reg.ETH_RQ_TAIL (i : Nat) : Nat := (0xd1 + i / 8 * 0x3) * 0x1000 + 0x148 + 0x10 * (i % 8)
/-- ETH_RQ_HEAD: [10:0] consumer index (R411). -/
def Reg.ETH_RQ_HEAD (i : Nat) : Nat := (0xd1 + i / 8 * 0x3) * 0x1000 + 0x14c + 0x10 * (i % 8)
/-- ETH_GATE_CFG: [0] EN; [24:16] admin list length minus 1 (R406). -/
def Reg.ETH_GATE_CFG (i : Nat) : Nat := (0xd2 + i * 3) * 0x1000 + 0x40
/-- ETH_GATE_CYCLE: Admin cycle, ns, 1,000–1,000,000,000 (R406). -/
def Reg.ETH_GATE_CYCLE (i : Nat) : Nat := (0xd2 + i * 3) * 0x1000 + 0x44
/-- ETH_GATE_BASE_NS: [29:0] admin base, ns (R406). -/
def Reg.ETH_GATE_BASE_NS (i : Nat) : Nat := (0xd2 + i * 3) * 0x1000 + 0x48
/-- ETH_GATE_BASE_SEC_LO: Admin base seconds [31:0] (R406). -/
def Reg.ETH_GATE_BASE_SEC_LO (i : Nat) : Nat := (0xd2 + i * 3) * 0x1000 + 0x4c
/-- ETH_GATE_BASE_SEC_HI: Seconds [47:32] in [15:0] (R406). -/
def Reg.ETH_GATE_BASE_SEC_HI (i : Nat) : Nat := (0xd2 + i * 3) * 0x1000 + 0x50
/-- ETH_GATE_CMD: [0] SWITCH (R406). -/
def Reg.ETH_GATE_CMD (i : Nat) : Nat := (0xd2 + i * 3) * 0x1000 + 0x54
/-- ETH_GATE_STAT: [0] PEND; [1] OPER: operational list 0 or 1 (R406). -/
def Reg.ETH_GATE_STAT (i : Nat) : Nat := (0xd2 + i * 3) * 0x1000 + 0x58
/-- CAN_CFG: Modes (R419-R433). -/
def Reg.CAN_CFG (i : Nat) : Nat := (0xe1 + i) * 0x1000 + 0x40
/-- CAN_NBT: Nominal bit timing (R419-R433). -/
def Reg.CAN_NBT (i : Nat) : Nat := (0xe1 + i) * 0x1000 + 0x44
/-- CAN_DBT: Data bit timing (R419-R433). -/
def Reg.CAN_DBT (i : Nat) : Nat := (0xe1 + i) * 0x1000 + 0x48
/-- CAN_CMD: [3:0] 0x1 RESTART, 0x2 SLEEP, 0x3 WAKE; others reserved (R419-R433). -/
def Reg.CAN_CMD (i : Nat) : Nat := (0xe1 + i) * 0x1000 + 0x4c
/-- CAN_STAT: State and counters (R419-R433). -/
def Reg.CAN_STAT (i : Nat) : Nat := (0xe1 + i) * 0x1000 + 0x50
/-- CAN_TXREQ: Bit b = buffer b pending; reads the pending set (R419-R433). -/
def Reg.CAN_TXREQ (i : Nat) : Nat := (0xe1 + i) * 0x1000 + 0x54
/-- CAN_TXCANCEL: Bit b = cancel requested (R419-R433). -/
def Reg.CAN_TXCANCEL (i : Nat) : Nat := (0xe1 + i) * 0x1000 + 0x58
/-- CAN_TXDONE: Bit b = sent (R419-R433). -/
def Reg.CAN_TXDONE (i : Nat) : Nat := (0xe1 + i) * 0x1000 + 0x5c
/-- CAN_TXCAN: Bit b = cancelled (R419-R433). -/
def Reg.CAN_TXCAN (i : Nat) : Nat := (0xe1 + i) * 0x1000 + 0x60
/-- CAN_RXFULL0: Objects 0–31 FULL (R419-R433). -/
def Reg.CAN_RXFULL0 (i : Nat) : Nat := (0xe1 + i) * 0x1000 + 0x64
/-- CAN_RXFULL1: Objects 32–63 FULL (R419-R433). -/
def Reg.CAN_RXFULL1 (i : Nat) : Nat := (0xe1 + i) * 0x1000 + 0x68
/-- CAN_RXGRAB: R428 (R419-R433). -/
def Reg.CAN_RXGRAB (i : Nat) : Nat := (0xe1 + i) * 0x1000 + 0x6c
/-- CAN_RXREL: [5:0] object (R419-R433). -/
def Reg.CAN_RXREL (i : Nat) : Nat := (0xe1 + i) * 0x1000 + 0x70
/-- CAN_FIFO_HEAD: [6:0] consumer index (R419-R433). -/
def Reg.CAN_FIFO_HEAD (i : Nat) : Nat := (0xe1 + i) * 0x1000 + 0x74
/-- CAN_FIFO_TAIL: [6:0] producer index (R419-R433). -/
def Reg.CAN_FIFO_TAIL (i : Nat) : Nat := (0xe1 + i) * 0x1000 + 0x78
/-- CAN_RAM_ADDR: [13:0] offset, multiple of 4; [31] INC (R419-R433). -/
def Reg.CAN_RAM_ADDR (i : Nat) : Nat := (0xe1 + i) * 0x1000 + 0x7c
/-- CAN_RAM_DATA: CAN RAM data (R419-R433). -/
def Reg.CAN_RAM_DATA (i : Nat) : Nat := (0xe1 + i) * 0x1000 + 0x80
/-- CAN_WAKE_ID: [28:0] ID; [29] XTD (R419-R433). -/
def Reg.CAN_WAKE_ID (i : Nat) : Nat := (0xe1 + i) * 0x1000 + 0x84
/-- CAN_WAKE_MASK: [28:0] mask (R419-R433). -/
def Reg.CAN_WAKE_MASK (i : Nat) : Nat := (0xe1 + i) * 0x1000 + 0x88
/-- CAN_WAKE_DM: Data match, bytes 0–3 and 4–7 (R419-R433). -/
def Reg.CAN_WAKE_DM (i : Nat) : Nat := (0xe1 + i / 2) * 0x1000 + 0x8c + 0x4 * (i % 2)
/-- CAN_WAKE_DK: Data mask, bytes 0–3 and 4–7 (R419-R433). -/
def Reg.CAN_WAKE_DK (i : Nat) : Nat := (0xe1 + i / 2) * 0x1000 + 0x94 + 0x4 * (i % 2)
/-- CAN_OVW: Overwritten frames, saturating at 0xFFFF_FFFF (R419-R433). -/
def Reg.CAN_OVW (i : Nat) : Nat := (0xe1 + i) * 0x1000 + 0x9c
/-- CAN_FIFO_OVF: Dropped FIFO frames, saturating at 0xFFFF_FFFF (R419-R433). -/
def Reg.CAN_FIFO_OVF (i : Nat) : Nat := (0xe1 + i) * 0x1000 + 0xa0
/-- CAN_RXF_ID: [28:0] ID; [29] XTD; [31] EN (R419-R433). -/
def Reg.CAN_RXF_ID (i : Nat) : Nat := (0xe1 + i / 64) * 0x1000 + 0x100 + 0x4 * (i % 64)
/-- CAN_RXF_MASK: [28:0] mask (R419-R433). -/
def Reg.CAN_RXF_MASK (i : Nat) : Nat := (0xe1 + i / 64) * 0x1000 + 0x200 + 0x4 * (i % 64)
/-- MEM_CFG: [7:0] TRK_N, 2–255 (R439-R457). -/
def Reg.MEM_CFG (i : Nat) : Nat := (0x20 + i) * 0x1000 + 0x40
/-- MEM_TRK_W: [16:0] window, s, 1–86,400 (R439-R457). -/
def Reg.MEM_TRK_W (i : Nat) : Nat := (0x20 + i) * 0x1000 + 0x44
/-- MEM_CE_CNT: Corrections, saturating at 0xFFFF_FFFF (R439-R457). -/
def Reg.MEM_CE_CNT (i : Nat) : Nat := (0x20 + i) * 0x1000 + 0x48
/-- MEM_UE_CNT: Uncorrectable errors, saturating at 0xFFFF_FFFF (R439-R457). -/
def Reg.MEM_UE_CNT (i : Nat) : Nat := (0x20 + i) * 0x1000 + 0x4c
/-- MEM_CE_ADDR: Physical address of the last correction (R439-R457). -/
def Reg.MEM_CE_ADDR (i : Nat) : Nat := (0x20 + i) * 0x1000 + 0x50
/-- MEM_UE_ADDR: Physical address recorded under R455 (R439-R457). -/
def Reg.MEM_UE_ADDR (i : Nat) : Nat := (0x20 + i) * 0x1000 + 0x54
/-- MEM_UE_INFO: Validity and source (R439-R457). -/
def Reg.MEM_UE_INFO (i : Nat) : Nat := (0x20 + i) * 0x1000 + 0x58
/-- MEM_FLIP_CFG: Injection control (R439-R457). -/
def Reg.MEM_FLIP_CFG (i : Nat) : Nat := (0x20 + i) * 0x1000 + 0x5c
/-- MEM_FLIP_D: Data mask [31:0] … [127:96]; words 2–3 MRAM only (R439-R457). -/
def Reg.MEM_FLIP_D (i : Nat) : Nat := (0x20 + i / 4) * 0x1000 + 0x60 + 0x4 * (i % 4)
/-- MEM_FLIP_C: Check mask: [7:0] SRAM, [15:0] MRAM (R439-R457). -/
def Reg.MEM_FLIP_C (i : Nat) : Nat := (0x20 + i) * 0x1000 + 0x70
/-- MEM_FLIP_ADDR: Address of the injected write (R439-R457). -/
def Reg.MEM_FLIP_ADDR (i : Nat) : Nat := (0x20 + i) * 0x1000 + 0x74
/-- MEM_TRK_SEL: [4:0] tracker entry (R439-R457). -/
def Reg.MEM_TRK_SEL (i : Nat) : Nat := (0x20 + i) * 0x1000 + 0x78
/-- MEM_TRK_ADDR: Address of the selected entry (R439-R457). -/
def Reg.MEM_TRK_ADDR (i : Nat) : Nat := (0x20 + i) * 0x1000 + 0x7c
/-- MEM_TRK_STAT: Count and flags of the selected entry (R439-R457). -/
def Reg.MEM_TRK_STAT (i : Nat) : Nat := (0x20 + i) * 0x1000 + 0x80
/-- MEM_TRK_FIRST_LO: First time, MONO [31:0] (R439-R457). -/
def Reg.MEM_TRK_FIRST_LO (i : Nat) : Nat := (0x20 + i) * 0x1000 + 0x84
/-- MEM_TRK_FIRST_HI: First time, MONO [63:32] (R439-R457). -/
def Reg.MEM_TRK_FIRST_HI (i : Nat) : Nat := (0x20 + i) * 0x1000 + 0x88
/-- MEM_TRK_MISS: Untracked corrections, saturating at 0xFFFF_FFFF (R439-R457). -/
def Reg.MEM_TRK_MISS (i : Nat) : Nat := (0x20 + i) * 0x1000 + 0x8c
/-- GLINT_CFG: [0] MAIN_EN, [1] LOCAL_EN, [2] MRAM_EN (R446-R448). -/
def Reg.GLINT_CFG : Nat := 0x23040
/-- GLINT_LAP: Last MAIN lap, ms (R446-R448). -/
def Reg.GLINT_LAP : Nat := 0x23044
/-- GLINT_LAP_LOC: Last LOCAL lap, ms (R446-R448). -/
def Reg.GLINT_LAP_LOC : Nat := 0x23048
/-- GLINT_LAP_MRAM: Last MRAM lap, ms (R446-R448). -/
def Reg.GLINT_LAP_MRAM : Nat := 0x2304c
/-- GLINT_POS: Next word of the MAIN lane, physical (R446-R448). -/
def Reg.GLINT_POS : Nat := 0x23050
/-- GLINT_WB: Write-backs, saturating at 0xFFFF_FFFF (R446-R448). -/
def Reg.GLINT_WB : Nat := 0x23054
/-- GLINT_UE: Uncorrectable errors found by a lane, saturating (R446-R448). -/
def Reg.GLINT_UE : Nat := 0x23058
/-- GLINT_LOC_CE: Corrections in local memories, saturating (R446-R448). -/
def Reg.GLINT_LOC_CE : Nat := 0x2305c
/-- REPAIR_CMD: [7:0] BANK 0–159; [15:8] ROW; [17:16] CMD 0b01 MAP, others reserved (R452-R454). -/
def Reg.REPAIR_CMD : Nat := 0x24040
/-- REPAIR_STAT: [0] BUSY; [1] NOSPARE, last remap refused (R452-R454). -/
def Reg.REPAIR_STAT : Nat := 0x24044
/-- REPAIR_USED_SEL: [7:0] bank (R452-R454). -/
def Reg.REPAIR_USED_SEL : Nat := 0x24048
/-- REPAIR_USED: [5:0] spares used in the selected bank, 0–32 (R452-R454). -/
def Reg.REPAIR_USED : Nat := 0x2404c
/-- REPAIR_CNT: Rows remapped, saturating (R452-R454). -/
def Reg.REPAIR_CNT : Nat := 0x24050
/-- REPAIR_LAST: [7:0] bank, [15:8] row, [20:16] spare, [31] VALID (R452-R454). -/
def Reg.REPAIR_LAST : Nat := 0x24054
/-- MMU_CTXB: Root table of context c (R459,R465). -/
def Reg.MMU_CTXB (i : Nat) : Nat := 0x17040 + 0x8 * i
/-- MMU_CTXL: Root table length (R459,R465). -/
def Reg.MMU_CTXL (i : Nat) : Nat := 0x17044 + 0x8 * i
/-- MMU_INVAL: Invalidation command (R459,R465). -/
def Reg.MMU_INVAL : Nat := 0x17240
/-- MMU_INVAL_VA_LO: Page address [31:0] (R459,R465). -/
def Reg.MMU_INVAL_VA_LO : Nat := 0x17244
/-- MMU_INVAL_VA_HI: Page address [39:32] in [7:0] (R459,R465). -/
def Reg.MMU_INVAL_VA_HI : Nat := 0x17248
/-- MMU_INVAL_STAT: [0] BUSY (R459,R465). -/
def Reg.MMU_INVAL_STAT : Nat := 0x1724c
/-- IOMMU_FLT_INFO: First recorded fault (R467). -/
def Reg.IOMMU_FLT_INFO : Nat := 0x35040
/-- IOMMU_FLT_VA_LO: Virtual address [31:0] (R467). -/
def Reg.IOMMU_FLT_VA_LO : Nat := 0x35044
/-- IOMMU_FLT_VA_HI: Virtual address [39:32] in [7:0] (R467). -/
def Reg.IOMMU_FLT_VA_HI : Nat := 0x35048
/-- IOMMU_FLT_CNT: Faults, saturating at 0xFFFF_FFFF (R467). -/
def Reg.IOMMU_FLT_CNT : Nat := 0x3504c
/-- IOMMU_MISS_CNT: TLB misses, saturating at 0xFFFF_FFFF (R467). -/
def Reg.IOMMU_MISS_CNT : Nat := 0x35050
/-- DMA_CFG: Context, binding, outstanding limit (R480). -/
def Reg.DMA_CFG (i : Nat) : Nat := (0x31 + i / 8) * 0x1000 + 0x40 + 0x40 * (i % 8)
/-- DMA_DESC_LO: First descriptor [31:0] (R480). -/
def Reg.DMA_DESC_LO (i : Nat) : Nat := (0x31 + i / 8) * 0x1000 + 0x44 + 0x40 * (i % 8)
/-- DMA_DESC_HI: First descriptor [39:32] in [7:0] (R480). -/
def Reg.DMA_DESC_HI (i : Nat) : Nat := (0x31 + i / 8) * 0x1000 + 0x48 + 0x40 * (i % 8)
/-- DMA_CTL: [0] START, [1] RESUME, [2] ABORT (R480). -/
def Reg.DMA_CTL (i : Nat) : Nat := (0x31 + i / 8) * 0x1000 + 0x4c + 0x40 * (i % 8)
/-- DMA_STAT: State and end cause (R480). -/
def Reg.DMA_STAT (i : Nat) : Nat := (0x31 + i / 8) * 0x1000 + 0x50 + 0x40 * (i % 8)
/-- DMA_CUR_LO: Current descriptor [31:0] (R480). -/
def Reg.DMA_CUR_LO (i : Nat) : Nat := (0x31 + i / 8) * 0x1000 + 0x54 + 0x40 * (i % 8)
/-- DMA_CUR_HI: Current descriptor [39:32] in [7:0] (R480). -/
def Reg.DMA_CUR_HI (i : Nat) : Nat := (0x31 + i / 8) * 0x1000 + 0x58 + 0x40 * (i % 8)
/-- DMA_DONE: Bytes completed in the current descriptor (R480). -/
def Reg.DMA_DONE (i : Nat) : Nat := (0x31 + i / 8) * 0x1000 + 0x5c + 0x40 * (i % 8)
/-- DMA_FLT_LO: Fault address [31:0] (R480). -/
def Reg.DMA_FLT_LO (i : Nat) : Nat := (0x31 + i / 8) * 0x1000 + 0x60 + 0x40 * (i % 8)
/-- DMA_FLT_HI: Fault address [39:32] in [7:0] (R480). -/
def Reg.DMA_FLT_HI (i : Nat) : Nat := (0x31 + i / 8) * 0x1000 + 0x64 + 0x40 * (i % 8)
/-- CORE_CFG: [0] XLATE; [13:8] SCTX (R472-R476). -/
def Reg.CORE_CFG (i : Nat) : Nat := (0x10 + i) * 0x1000 + 0x40
/-- CORE_TVEC: Trap vector, physical, 64-byte aligned (R472-R476). -/
def Reg.CORE_TVEC (i : Nat) : Nat := (0x10 + i) * 0x1000 + 0x44
/-- CORE_IVEC: Interrupt vector, physical, 64-byte aligned (R472-R476). -/
def Reg.CORE_IVEC (i : Nat) : Nat := (0x10 + i) * 0x1000 + 0x48
/-- CORE_STAT: Mode and priority (R472-R476). -/
def Reg.CORE_STAT (i : Nat) : Nat := (0x10 + i) * 0x1000 + 0x4c
/-- CORE_TRAP: Last trap (R472-R476). -/
def Reg.CORE_TRAP (i : Nat) : Nat := (0x10 + i) * 0x1000 + 0x50
/-- CORE_TRAP_PC_LO: PC [31:0] (R472-R476). -/
def Reg.CORE_TRAP_PC_LO (i : Nat) : Nat := (0x10 + i) * 0x1000 + 0x54
/-- CORE_TRAP_PC_HI: PC [39:32] in [7:0] (R472-R476). -/
def Reg.CORE_TRAP_PC_HI (i : Nat) : Nat := (0x10 + i) * 0x1000 + 0x58
/-- CORE_TRAP_VA_LO: Faulting data address [31:0] (R472-R476). -/
def Reg.CORE_TRAP_VA_LO (i : Nat) : Nat := (0x10 + i) * 0x1000 + 0x5c
/-- CORE_TRAP_VA_HI: [39:32] in [7:0] (R472-R476). -/
def Reg.CORE_TRAP_VA_HI (i : Nat) : Nat := (0x10 + i) * 0x1000 + 0x60
/-- CORE_IACK: Read acknowledges (R476) (R472-R476). -/
def Reg.CORE_IACK (i : Nat) : Nat := (0x10 + i) * 0x1000 + 0x64
/-- CORE_EOI: Any write pops IPRIO (R472-R476). -/
def Reg.CORE_EOI (i : Nat) : Nat := (0x10 + i) * 0x1000 + 0x68
/-- KEYS_CMD: Command (R485-R500). -/
def Reg.KEYS_CMD : Nat := 0xf0040
/-- KEYS_STAT: Command and root state (R485-R500). -/
def Reg.KEYS_STAT : Nat := 0xf0044
/-- KEYS_LABEL: KDF label; DECOMMISSION key (R485-R500). -/
def Reg.KEYS_LABEL : Nat := 0xf0048
/-- KEYS_CTX: KDF context (R485-R500). -/
def Reg.KEYS_CTX (i : Nat) : Nat := 0xf004c + 0x4 * i
/-- KEYS_STG: Key to import; word 0 holds bytes 0–3 (R485-R500). -/
def Reg.KEYS_STG (i : Nat) : Nat := 0xf005c + 0x4 * i
/-- KEYS_STG_CRC: [15:0] K1 CRC-16 (R485-R500). -/
def Reg.KEYS_STG_CRC : Nat := 0xf007c
/-- KEYS_HASH: Key hash for SECURE (R485-R500). -/
def Reg.KEYS_HASH (i : Nat) : Nat := 0xf0080 + 0x4 * i
/-- KEYS_VALID: Bit s mod 32 of word s / 32: slot VALID (R485-R500). -/
def Reg.KEYS_VALID (i : Nat) : Nat := 0xf00a0 + 0x4 * i
/-- KEYS_BAD: Same layout: slot BAD (R485-R500). -/
def Reg.KEYS_BAD (i : Nat) : Nat := 0xf00b0 + 0x4 * i
/-- KEYS_SLOT_SEL: [6:0] slot (R485-R500). -/
def Reg.KEYS_SLOT_SEL : Nat := 0xf00c0
/-- KEYS_SLOT_INFO: Attributes of the selected slot (R485-R500). -/
def Reg.KEYS_SLOT_INFO : Nat := 0xf00c4
/-- KEYS_DENIED: Denials, saturating at 0xFFFF_FFFF (R485-R500). -/
def Reg.KEYS_DENIED : Nat := 0xf00c8
/-- KEYS_DENY_LAST: [6:0] slot; [10:8] requester: 0b001 MACsec, 0b010 RXE, 0b011 GCM, 0b100 KDF (R485-R500). -/
def Reg.KEYS_DENY_LAST : Nat := 0xf00cc
/-- KEYS_GCM_IV: IV (R485-R500). -/
def Reg.KEYS_GCM_IV (i : Nat) : Nat := 0xf00d0 + 0x4 * i
/-- KEYS_GCM_TAG: Expected tag (R485-R500). -/
def Reg.KEYS_GCM_TAG (i : Nat) : Nat := 0xf00dc + 0x4 * i
/-- KEYS_GCM_DIN: Ciphertext (R485-R500). -/
def Reg.KEYS_GCM_DIN (i : Nat) : Nat := 0xf00ec + 0x4 * i
/-- KEYS_GCM_DOUT: Plaintext (R485-R500). -/
def Reg.KEYS_GCM_DOUT (i : Nat) : Nat := 0xf00fc + 0x4 * i
/-- KEYS_GCM_STAT: [0] ACTIVE, [1] TAG_DONE, [2] TAG_OK (R485-R500). -/
def Reg.KEYS_GCM_STAT : Nat := 0xf010c
/-- LANTERN_CFG: Class, size, bias, inversion, frame rate, rail time (R504-R515). -/
def Reg.LANTERN_CFG : Nat := 0x100040
/-- LANTERN_CMD: Commands (R504-R515). -/
def Reg.LANTERN_CMD : Nat := 0x100044
/-- LANTERN_STAT: State (R504-R515). -/
def Reg.LANTERN_STAT : Nat := 0x100048
/-- LANTERN_BLINK: Blink periods (R504-R515). -/
def Reg.LANTERN_BLINK : Nat := 0x10004c
/-- LANTERN_FORCE: Force icon (R504-R515). -/
def Reg.LANTERN_FORCE : Nat := 0x100050
/-- LANTERN_JSEQ: Last sequence number issued (R504-R515). -/
def Reg.LANTERN_JSEQ : Nat := 0x100054
/-- LANTERN_REPLAYED: Rectangles replayed at the last ON (R504-R515). -/
def Reg.LANTERN_REPLAYED : Nat := 0x100058
/-- LANTERN_IMG: Applied image (R504-R515). -/
def Reg.LANTERN_IMG (i : Nat) : Nat := 0x100060 + 0x4 * i
/-- LANTERN_BLEN: Blink enable per segment, image layout (R504-R515). -/
def Reg.LANTERN_BLEN (i : Nat) : Nat := 0x100090 + 0x4 * i
/-- LANTERN_BSEL0: Blink rate select, bit 0 (R504-R515). -/
def Reg.LANTERN_BSEL0 (i : Nat) : Nat := 0x1000c0 + 0x4 * i
/-- LANTERN_BSEL1: Blink rate select, bit 1 (R504-R515). -/
def Reg.LANTERN_BSEL1 (i : Nat) : Nat := 0x1000f0 + 0x4 * i
/-- LANTERN_RBOUND: Rectangle of slot n, n = 0–3 (R504-R515). -/
def Reg.LANTERN_RBOUND (i : Nat) : Nat := 0x100140 + 0x40 * i
/-- LANTERN_RDRIVE: [9:0] PULSE_MS, class B, 1–1,000 (R504-R515). -/
def Reg.LANTERN_RDRIVE (i : Nat) : Nat := 0x100144 + 0x40 * i
/-- LANTERN_RDATA: Target bits, image layout (R504-R515). -/
def Reg.LANTERN_RDATA (i : Nat) (j : Nat) : Nat := 0x100150 + 0x40 * i + 0x4 * j
/-- AGL_STAT: Load state (R520-R525). -/
def Reg.AGL_STAT : Nat := 0x110040
/-- AGL_TEMP: Last die temperature sample (R520-R525). -/
def Reg.AGL_TEMP : Nat := 0x110044
/-- AGL_SW_VAL: Amount for AGL_SW_CMD (R520-R525). -/
def Reg.AGL_SW_VAL : Nat := 0x110048
/-- AGL_SW_CMD: Software record command (R520-R525). -/
def Reg.AGL_SW_CMD : Nat := 0x11004c
/-- AGL_PEND: [8:0] dirty records (R520-R525). -/
def Reg.AGL_PEND : Nat := 0x110050
/-- AGL_WR_CNT: Copies written, saturating at 0xFFFF_FFFF (R520-R525). -/
def Reg.AGL_WR_CNT : Nat := 0x110054
/-- CLE_GSTAGE: Gain staging words (R174) (R174). -/
def Reg.CLE_GSTAGE (i : Nat) : Nat := 0x71040 + 0x4 * i
/-- MTR_HQM: QM kg/s (R260) (R252). -/
def Reg.MTR_HQM (i : Nat) : Nat := 0x93040 + 0x20 * i
/-- MTR_HTF: TF (R260) (R252). -/
def Reg.MTR_HTF (i : Nat) : Nat := 0x93044 + 0x20 * i
/-- MTR_HTR: TR (R260) (R252). -/
def Reg.MTR_HTR (i : Nat) : Nat := 0x93048 + 0x20 * i
/-- MTR_HPWR: PWR (R260) (R252). -/
def Reg.MTR_HPWR (i : Nat) : Nat := 0x9304c + 0x20 * i
/-- MTR_HRHO: RHO (R260) (R252). -/
def Reg.MTR_HRHO (i : Nat) : Nat := 0x93050 + 0x20 * i
/-- MTR_HSTAT: heat channel status (R260) (R252). -/
def Reg.MTR_HSTAT (i : Nat) : Nat := 0x93054 + 0x20 * i
/-- MTR_ACC_LO: electrical accumulator word (R251) (R252). -/
def Reg.MTR_ACC_LO (i : Nat) : Nat := 0x92040 + 0x10 * i
/-- MTR_HACC_LO: heat accumulator word (R260) (R252). -/
def Reg.MTR_HACC_LO (i : Nat) : Nat := 0x93240 + 0x10 * i
/-- MTR_ACC_MID: electrical accumulator word (R251) (R252). -/
def Reg.MTR_ACC_MID (i : Nat) : Nat := 0x92044 + 0x10 * i
/-- MTR_HACC_MID: heat accumulator word (R260) (R252). -/
def Reg.MTR_HACC_MID (i : Nat) : Nat := 0x93244 + 0x10 * i
/-- MTR_ACC_HI: electrical accumulator word (R251) (R252). -/
def Reg.MTR_ACC_HI (i : Nat) : Nat := 0x92048 + 0x10 * i
/-- MTR_HACC_HI: heat accumulator word (R260) (R252). -/
def Reg.MTR_HACC_HI (i : Nat) : Nat := 0x93248 + 0x10 * i
/-- MTR_PDEBT: pulse debt and width (R265) (R252). -/
def Reg.MTR_PDEBT (i : Nat) : Nat := 0x94040 + 0x8 * i
/-- MTR_PLOST: lost pulses (R265) (R252). -/
def Reg.MTR_PLOST (i : Nat) : Nat := 0x94044 + 0x8 * i
/-- SAFE_ISC_ST: ISC connection status (R330-R340) (R334). -/
def Reg.SAFE_ISC_ST (i : Nat) : Nat := 0xa5040 + 0x4 * i
/-- MIRROR_TSEQ: last acknowledged/applied set (R359,R370) (R349). -/
def Reg.MIRROR_TSEQ (i : Nat) : Nat := 0xb1040 + 0x4 * i
/-- ETH_GATE_LIST0: gate list 0 (R406) (R406). -/
def Reg.ETH_GATE_LIST0 (i : Nat) : Nat := (0xd2 + i / 256 * 0x3) * 0x1000 + 0x400 + 0x4 * (i % 256)
/-- ETH_GATE_LIST1: gate list 1 (R406) (R406). -/
def Reg.ETH_GATE_LIST1 (i : Nat) : Nat := (0xd2 + i / 256 * 0x3) * 0x1000 + 0x800 + 0x4 * (i % 256)
/-- DMA_DONE_PEND: descriptor done (R479) (R480). -/
def Reg.DMA_DONE_PEND : Nat := 0x30040
/-- DMA_FLT_PEND: channel fault (R479) (R480). -/
def Reg.DMA_FLT_PEND : Nat := 0x30044
/-- CLE_SIG: signal window word; home is CLE RAM (R171) (06). -/
def Reg.CLE_SIG (i : Nat) : Nat := (0x78 + i / 512) * 0x1000 + 0x40 + 0x4 * (i % 512)
def F.SYS_ID_PART : Field := ⟨16, 16⟩
def F.SYS_ID_MAJOR : Field := ⟨8, 8⟩
def F.SYS_ID_MINOR : Field := ⟨0, 8⟩
def F.CLK_RUN_RUN : Field := ⟨0, 11⟩
def F.CLK_DRST_DRST : Field := ⟨0, 11⟩
def F.CLK_STAT_RUNNING : Field := ⟨0, 11⟩
def F.CLK_STAT_PLL_LOCK : Field := ⟨16, 1⟩
def F.INTD_ROUTE_TARGET : Field := ⟨0, 4⟩
def F.INTD_ROUTE_PRIO : Field := ⟨8, 4⟩
def F.INTD_ROUTE_EN : Field := ⟨16, 1⟩
def F.SYS_RSTCAUSE_POR : Field := ⟨0, 1⟩
def F.SYS_RSTCAUSE_PIN : Field := ⟨1, 1⟩
def F.SYS_RSTCAUSE_SW : Field := ⟨2, 1⟩
def F.SYS_RSTCAUSE_WDG : Field := ⟨3, 1⟩
def F.SYS_RSTCAUSE_SAFE : Field := ⟨4, 1⟩
def F.SYS_RSTCAUSE_MIRROR : Field := ⟨5, 1⟩
def F.SYS_RSTCAUSE_AFTER_SHUT : Field := ⟨6, 1⟩
def F.SYS_SWRST_KEY : Field := ⟨0, 32⟩
def F.SYS_CORE_REL_CC : Field := ⟨0, 4⟩
def F.SYS_CORE_REL_SV0 : Field := ⟨4, 1⟩
def F.SYS_CORE_REL_SV1 : Field := ⟨5, 1⟩
def F.SYS_CORE_REL_SF : Field := ⟨6, 1⟩
def F.SYS_CORE_ENTRY_ADDR : Field := ⟨0, 32⟩
def F.SYS_WDG_CFG_PERIOD : Field := ⟨0, 16⟩
def F.SYS_WDG_CFG_EN : Field := ⟨31, 1⟩
def F.SYS_WDG_KICK_KEY : Field := ⟨0, 32⟩
def F.STRAP_LATCH_BOOT : Field := ⟨0, 3⟩
def F.STRAP_LATCH_SEAL : Field := ⟨8, 8⟩
def F.BOOT_STAT_PHASE : Field := ⟨0, 4⟩
def F.BOOT_STAT_CODE_A : Field := ⟨8, 8⟩
def F.BOOT_STAT_CODE_B : Field := ⟨16, 8⟩
def F.BOOT_STAT_SLOT : Field := ⟨24, 1⟩
def F.BOOT_STAT_LC : Field := ⟨26, 2⟩
def F.PWR_STAT_DOM_ON : Field := ⟨0, 8⟩
def F.PWR_STAT_PFAIL_LVL : Field := ⟨8, 1⟩
def F.PWR_STAT_PFAIL : Field := ⟨9, 1⟩
def F.PWR_STAT_SHUT : Field := ⟨10, 1⟩
def F.CYC_MODESET_SET : Field := ⟨0, 2⟩
def F.CYC_CMD_CMD : Field := ⟨0, 4⟩
def F.CYC_CMD_TASK : Field := ⟨16, 4⟩
def F.CYC_STAT_MACHINE : Field := ⟨0, 2⟩
def F.CYC_STAT_LAST_START : Field := ⟨2, 2⟩
def F.CYC_STAT_WARM_FALLBACK : Field := ⟨4, 1⟩
def F.CYC_STAT_FORCE_IND : Field := ⟨5, 1⟩
def F.CYC_STAT_XFER_BUSY : Field := ⟨6, 1⟩
def F.CYC_HELD_HELD : Field := ⟨0, 16⟩
def F.CYC_FAULTED_FAULTED : Field := ⟨0, 16⟩
def F.CYC_END_TASK : Field := ⟨0, 4⟩
def F.TCFG_CORE : Field := ⟨0, 2⟩
def F.TCFG_PRIO : Field := ⟨4, 4⟩
def F.TCFG_TB : Field := ⟨8, 1⟩
def F.TCFG_STOP_OUT : Field := ⟨9, 1⟩
def F.TCFG_EXG : Field := ⟨10, 1⟩
def F.TCFG_MIRR : Field := ⟨11, 1⟩
def F.TCFG_OVR_LIMIT : Field := ⟨16, 8⟩
def F.TCFG_EN : Field := ⟨31, 1⟩
def F.TPERIOD_PERIOD : Field := ⟨0, 16⟩
def F.TPHASE_PHASE : Field := ⟨0, 16⟩
def F.TCTX_CTX : Field := ⟨0, 6⟩
def F.TENTRY_HI_VA_HI : Field := ⟨0, 8⟩
def F.TSTAT_STATE : Field := ⟨0, 3⟩
def F.TSTAT_PREEMPTED : Field := ⟨3, 1⟩
def F.TSTAT_OUTBUF : Field := ⟨4, 1⟩
def F.TSTAT_OVR_RUN : Field := ⟨8, 8⟩
def F.TOVR_CNT_COUNT : Field := ⟨0, 16⟩
def F.TRET_OFF64 : Field := ⟨0, 12⟩
def F.TRET_LEN64 : Field := ⟨16, 12⟩
def F.CYC_XCFG_EXCH_TMO : Field := ⟨0, 16⟩
def F.CYC_XCFG_EXCH_EDGE_COLD : Field := ⟨16, 1⟩
def F.CYC_XCMD_CMD : Field := ⟨0, 3⟩
def F.CYC_XSTAT_STATE : Field := ⟨0, 2⟩
def F.CYC_XSTAT_RESULT : Field := ⟨4, 2⟩
def F.CYC_XSTAT_REVERT_OK : Field := ⟨8, 1⟩
def F.RXE_CFG_CTX : Field := ⟨0, 6⟩
def F.RXE_CFG_V4 : Field := ⟨8, 1⟩
def F.RXE_CFG_V6 : Field := ⟨9, 1⟩
def F.RXE_POOL_WM_LWM : Field := ⟨0, 12⟩
def F.RXE_POOL_WM_CYC_RES : Field := ⟨16, 12⟩
def F.RXE_CQ_HEAD_IDX : Field := ⟨0, 12⟩
def F.RXE_CQ_TAIL_IDX : Field := ⟨0, 12⟩
def F.RXE_TXQ_TAIL_IDX : Field := ⟨0, 9⟩
def F.RXE_TXQ_HEAD_IDX : Field := ⟨0, 9⟩
def F.RXE_SCMD_SESSION : Field := ⟨0, 10⟩
def F.RXE_SCMD_CMD : Field := ⟨16, 4⟩
def F.RXE_RETRY_TMO : Field := ⟨0, 16⟩
def F.RXE_RETRY_MAX : Field := ⟨16, 4⟩
def F.RXE_FLT_CAUSE_CAUSE : Field := ⟨0, 2⟩
def F.RXE_FLT_CAUSE_PATH : Field := ⟨4, 3⟩
def F.RXE_FLT_CAUSE_SESSION : Field := ⟨16, 10⟩
def F.SSTAT_STATE : Field := ⟨0, 3⟩
def F.SSTAT_QUAL : Field := ⟨4, 2⟩
def F.SSTAT_OUT_HELD : Field := ⟨8, 1⟩
def F.SSTAT_SUBST : Field := ⟨9, 1⟩
def F.SSTAT_EB_OPEN : Field := ⟨16, 4⟩
def F.SSTAT_MISSED : Field := ⟨24, 8⟩
def F.CLE_SIG_VALUE : Field := ⟨0, 16⟩
def F.CLE_SIG_QUAL : Field := ⟨16, 2⟩
def F.CLE_SIG_WMASK : Field := ⟨20, 4⟩
def F.CLE_TEXEC_NS : Field := ⟨0, 32⟩
def F.CLE_TEXEC_MAX_NS : Field := ⟨0, 32⟩
def F.CLE_DENIED_COUNT : Field := ⟨0, 32⟩
def F.CLE_LOSS_COUNT : Field := ⟨0, 32⟩
def F.CLE_MISS_COUNT : Field := ⟨0, 32⟩
def F.CLE_RAM_ADDR_ADDR : Field := ⟨0, 18⟩
def F.CLE_RAM_ADDR_INC : Field := ⟨31, 1⟩
def F.CLE_GCMD_LOOP : Field := ⟨0, 8⟩
def F.CLE_GCMD_REGION : Field := ⟨8, 3⟩
def F.CLE_GCMD_BUMPLESS : Field := ⟨12, 1⟩
def F.CLE_GSTAT_BUSY : Field := ⟨0, 1⟩
def F.LCTL_MODE : Field := ⟨0, 2⟩
def F.LCTL_PIN_EN : Field := ⟨4, 1⟩
def F.LCTL_PIN_REG : Field := ⟨8, 3⟩
def F.LCTL_MAN : Field := ⟨16, 16⟩
def F.LPIN_PIN_TMO : Field := ⟨0, 16⟩
def F.LSTAT_MODE_IN : Field := ⟨0, 2⟩
def F.LSTAT_MISS : Field := ⟨2, 1⟩
def F.LSTAT_SAT : Field := ⟨3, 1⟩
def F.LSTAT_REGION : Field := ⟨4, 3⟩
def F.LSTAT_SCHED_DISAGREE : Field := ⟨7, 1⟩
def F.LSTAT_REG_HW : Field := ⟨8, 3⟩
def F.LSTAT_PIN_ACT : Field := ⟨11, 1⟩
def F.LSTAT_BADQ_HOLD : Field := ⟨12, 1⟩
def F.LSTAT_OVERRIDE : Field := ⟨13, 1⟩
def F.LSTAT_UE : Field := ⟨14, 1⟩
def F.LSTAT_OUT : Field := ⟨16, 16⟩
def F.LMISS_COUNT : Field := ⟨0, 16⟩
def F.PRISM_CFG_CTX : Field := ⟨0, 6⟩
def F.PRISM_STAT_AWAKE : Field := ⟨0, 3⟩
def F.PRISM_STAT_BUSY : Field := ⟨4, 1⟩
def F.PRISM_STAT_RUN_SLOT : Field := ⟨8, 3⟩
def F.PRISM_STAT_RUN_CLASS : Field := ⟨12, 2⟩
def F.PRISM_STAT_QUEUED : Field := ⟨16, 7⟩
def F.PRISM_STAT_HALTED : Field := ⟨31, 1⟩
def F.PRISM_FNZ_USED_FNZ : Field := ⟨0, 21⟩
def F.PRISM_FLT_CAUSE_CAUSE : Field := ⟨0, 2⟩
def F.PRISM_FLT_CAUSE_PATH : Field := ⟨4, 3⟩
def F.PRISM_FLT_CAUSE_SLOT : Field := ⟨8, 3⟩
def F.PRISM_JOBQ_DOOR_IDX : Field := ⟨0, 7⟩
def F.PRISM_JOBQ_HEAD_IDX : Field := ⟨0, 7⟩
def F.PRISM_CQ_HEAD_IDX : Field := ⟨0, 7⟩
def F.PRISM_CQ_TAIL_IDX : Field := ⟨0, 7⟩
def F.PRISM_CANCEL_SLOT : Field := ⟨0, 3⟩
def F.PRISM_CANCEL_GO : Field := ⟨8, 1⟩
def F.PRISM_SLOT_CMD_CMD : Field := ⟨0, 2⟩
def F.PRISM_SLOT_CMD_CTX : Field := ⟨8, 6⟩
def F.PRISM_SLOT_MEM_BASE : Field := ⟨0, 8⟩
def F.PRISM_SLOT_MEM_LEN : Field := ⟨16, 8⟩
def F.PRISM_SLOT_OUT_HI_VA_HI : Field := ⟨0, 8⟩
def F.PRISM_SLOT_OUT_HI_OUT_CTX : Field := ⟨8, 6⟩
def F.PRISM_SLOT_STAT_STATE : Field := ⟨0, 2⟩
def F.PRISM_SLOT_STAT_LOAD_ERR : Field := ⟨8, 8⟩
def F.PRISM_SLOT_STAT_QUEUED : Field := ⟨16, 7⟩
def F.PRISM_SLOT_STAT_HAS_FACTOR : Field := ⟨24, 1⟩
def F.PRISM_SLOT_DIM_COUNT : Field := ⟨0, 21⟩
def F.PRISM_SLOT_FNZ_COUNT : Field := ⟨0, 21⟩
def F.PRISM_SLOT_SNODE_COUNT : Field := ⟨0, 18⟩
def F.MTR_CHEN_FEED : Field := ⟨0, 4⟩
def F.MTR_CHEN_HEAT : Field := ⟨8, 16⟩
def F.MTR_CHEN_PULSE : Field := ⟨24, 8⟩
def F.MTR_IVAL_MIN : Field := ⟨0, 6⟩
def F.MTR_IVAL_CKPT_S : Field := ⟨16, 6⟩
def F.MTR_IREC_CNT_CNT : Field := ⟨0, 16⟩
def F.MTR_IREC_WIDX_IDX : Field := ⟨0, 16⟩
def F.MTR_CKPT_STAT_NEWEST : Field := ⟨0, 1⟩
def F.MTR_CKPT_STAT_VALID_A : Field := ⟨1, 1⟩
def F.MTR_CKPT_STAT_VALID_B : Field := ⟨2, 1⟩
def F.MTR_CKPT_STAT_BUSY : Field := ⟨3, 1⟩
def F.MTR_CMD_CMD : Field := ⟨0, 4⟩
def F.MTR_STAT_RUN : Field := ⟨0, 1⟩
def F.MTR_STAT_RESTORED : Field := ⟨1, 1⟩
def F.MTR_STAT_RESTORE_FAIL : Field := ⟨2, 1⟩
def F.MTR_FTEMP_TEMP : Field := ⟨0, 16⟩
def F.MTR_FTEMP_VALID : Field := ⟨16, 1⟩
def F.MTR_FSTAT_PSEQ_WRONG : Field := ⟨0, 1⟩
def F.MTR_FSTAT_NEUTRAL_MISSING : Field := ⟨1, 1⟩
def F.MTR_FSTAT_PSEQ_UNDEF : Field := ⟨2, 1⟩
def F.MTR_FSTAT_TEMP_LOST : Field := ⟨3, 1⟩
def F.MTR_FSTAT_STUCK : Field := ⟨4, 7⟩
def F.MXE_ENC_CFG_MODE0 : Field := ⟨0, 2⟩
def F.MXE_ENC_CFG_MODE1 : Field := ⟨8, 2⟩
def F.MXE_ENC_CFG_MODE2 : Field := ⟨16, 2⟩
def F.MXE_ENC_CFG_MODE3 : Field := ⟨24, 2⟩
def F.MXE_ENC_CFG_INV0 : Field := ⟨2, 1⟩
def F.MXE_ENC_CFG_INV1 : Field := ⟨10, 1⟩
def F.MXE_ENC_CFG_INV2 : Field := ⟨18, 1⟩
def F.MXE_ENC_CFG_INV3 : Field := ⟨26, 1⟩
def F.MXE_ENC_CFG_FILT0 : Field := ⟨4, 4⟩
def F.MXE_ENC_CFG_FILT1 : Field := ⟨12, 4⟩
def F.MXE_ENC_CFG_FILT2 : Field := ⟨20, 4⟩
def F.MXE_ENC_CFG_FILT3 : Field := ⟨28, 4⟩
def F.MXE_ADL_CFG_SLOTS : Field := ⟨0, 5⟩
def F.MXE_START_PEND_AXES : Field := ⟨0, 16⟩
def F.MXE_EVT_AXES_AXES : Field := ⟨0, 16⟩
def F.ACFG_CLASS : Field := ⟨0, 2⟩
def F.ACFG_ADL : Field := ⟨2, 1⟩
def F.ACFG_SRC : Field := ⟨4, 2⟩
def F.ACFG_MASTER : Field := ⟨6, 2⟩
def F.ACFG_SCURVE : Field := ⟨8, 1⟩
def F.ACFG_DIR_POL : Field := ⟨9, 1⟩
def F.ACFG_RETAIN : Field := ⟨10, 1⟩
def F.ACFG_LIM_POL : Field := ⟨11, 1⟩
def F.ACFG_HOME_POL : Field := ⟨12, 1⟩
def F.ACFG_DRDY_USE : Field := ⟨13, 1⟩
def F.ACFG_EXT_HOLD : Field := ⟨14, 1⟩
def F.ACFG_EN : Field := ⟨31, 1⟩
def F.ASTEP_SS : Field := ⟨0, 4⟩
def F.ASTEP_LD : Field := ⟨8, 4⟩
def F.ASTEP_SLOT : Field := ⟨16, 4⟩
def F.AHOME_HDIR : Field := ⟨0, 1⟩
def F.AHOME_HSRC : Field := ⟨1, 1⟩
def F.AHOME_HFILT : Field := ⟨16, 16⟩
def F.ASIG_SIGNAL : Field := ⟨0, 12⟩
def F.ASIG_SIG_EN : Field := ⟨15, 1⟩
def F.ACUR_RUN : Field := ⟨0, 8⟩
def F.ACUR_HOLD : Field := ⟨8, 8⟩
def F.ACMD_CMD : Field := ⟨0, 4⟩
def F.ASTAT_STATE : Field := ⟨0, 3⟩
def F.ASTAT_HOMED : Field := ⟨3, 1⟩
def F.ASTAT_POS_LOST : Field := ⟨4, 1⟩
def F.ASTAT_START_PEND : Field := ⟨5, 1⟩
def F.ASTAT_SOFT_HIT : Field := ⟨6, 1⟩
def F.ASTAT_LIM_P : Field := ⟨7, 1⟩
def F.ASTAT_LIM_N : Field := ⟨8, 1⟩
def F.ASTAT_HOME_IN : Field := ⟨9, 1⟩
def F.ASTAT_SAFE_STOP : Field := ⟨10, 1⟩
def F.ASTAT_RATIO_PEND : Field := ⟨11, 1⟩
def F.ASTAT_BLENDING : Field := ⟨12, 1⟩
def F.ASTAT_REJ_CAUSE : Field := ⟨13, 3⟩
def F.ASTAT_HFAIL_CAUSE : Field := ⟨16, 3⟩
def F.ASTAT_ADL_ERR : Field := ⟨19, 1⟩
def F.ASTAT_DRV_FAULT : Field := ⟨20, 1⟩
def F.ADRV_STATUS : Field := ⟨0, 24⟩
def F.SAFE_CMD_CMD : Field := ⟨0, 4⟩
def F.SAFE_CMD_ARG : Field := ⟨8, 8⟩
def F.SAFE_STAT_STATE : Field := ⟨0, 2⟩
def F.SAFE_STAT_SET : Field := ⟨4, 4⟩
def F.SAFE_STAT_PEN_ANY : Field := ⟨8, 1⟩
def F.SAFE_STAT_HALTED : Field := ⟨9, 1⟩
def F.SAFE_STAT_CAUSE : Field := ⟨16, 8⟩
def F.SAFE_ISC_ST_STATE : Field := ⟨0, 2⟩
def F.SAFE_ISC_ST_VALID : Field := ⟨2, 1⟩
def F.SAFE_ISC_ST_PEER_PASSIVE : Field := ⟨3, 1⟩
def F.SAFE_ISC_ST_PENUMBRA : Field := ⟨4, 1⟩
def F.SAFE_ISC_ST_EXPIRED : Field := ⟨5, 1⟩
def F.SAFE_ISC_ST_CAUSE : Field := ⟨8, 2⟩
def F.SAFE_ISC_ST_DISCARDS : Field := ⟨16, 16⟩
def F.MIRROR_CFG_UNIT : Field := ⟨0, 1⟩
def F.MIRROR_CFG_GTASK : Field := ⟨4, 4⟩
def F.MIRROR_CFG_SWEEP : Field := ⟨8, 8⟩
def F.MIRROR_CFG_HB_TMO : Field := ⟨16, 8⟩
def F.MIRROR_CFG_PORTS : Field := ⟨24, 4⟩
def F.MIRROR_BUFLEN_TXS_PG : Field := ⟨0, 12⟩
def F.MIRROR_BUFLEN_JRNL_PG : Field := ⟨16, 12⟩
def F.MIRROR_CMD_CMD : Field := ⟨0, 4⟩
def F.MIRROR_CMD_TMO : Field := ⟨16, 16⟩
def F.MIRROR_STAT_ROLE : Field := ⟨0, 3⟩
def F.MIRROR_STAT_SYNC : Field := ⟨4, 2⟩
def F.MIRROR_STAT_LINK_UP : Field := ⟨8, 1⟩
def F.MIRROR_STAT_PEER_ACTIVE : Field := ⟨9, 1⟩
def F.MIRROR_STAT_GRANT : Field := ⟨10, 1⟩
def F.MIRROR_STAT_ACT_OK : Field := ⟨11, 1⟩
def F.MIRROR_STAT_HB_RUN : Field := ⟨12, 1⟩
def F.MIRROR_STAT_GRANT_UNSYNC : Field := ⟨13, 1⟩
def F.MIRROR_STAT_DUAL_GRANT : Field := ⟨14, 1⟩
def F.MIRROR_STAT_SWAP_BUSY : Field := ⟨15, 1⟩
def F.MIRROR_STAT_GIVEUP_CAUSE : Field := ⟨16, 8⟩
def F.MIRROR_STAT_SWAP_RES : Field := ⟨24, 2⟩
def F.PTP_CMD_CMD : Field := ⟨0, 4⟩
def F.PTP_CMD_FORCE : Field := ⟨8, 1⟩
def F.PTP_SERVO_CFG_EN : Field := ⟨0, 1⟩
def F.PTP_SERVO_CFG_QUAL_N : Field := ⟨8, 8⟩
def F.PTP_SERVO_CFG_HOLD_TMO : Field := ⟨16, 16⟩
def F.PTP_SERVO_THR_LOCK_THR : Field := ⟨0, 16⟩
def F.PTP_SERVO_THR_STEP_THR : Field := ⟨16, 16⟩
def F.PTP_OFS_TAG_MASTER : Field := ⟨0, 16⟩
def F.PTP_OFS_TAG_STEP_GEN : Field := ⟨16, 8⟩
def F.PTP_STAT_SERVO : Field := ⟨0, 2⟩
def F.PTP_STAT_SLEW_BUSY : Field := ⟨2, 1⟩
def F.PTP_STAT_STEP_REFUSED : Field := ⟨3, 1⟩
def F.PTP_STAT_FORCE_ARMED : Field := ⟨4, 1⟩
def F.PTP_STAT_STEP_GEN : Field := ⟨8, 8⟩
def F.PTP_STAT_MASTER : Field := ⟨16, 16⟩
def F.PTP_ECHO_TAG_TAG : Field := ⟨0, 16⟩
def F.PTP_ECHO_TAG_STEP_GEN : Field := ⟨16, 8⟩
def F.PTP_ECHO_TAG_LATE : Field := ⟨24, 1⟩
def F.PTP_ECHO_TAG_VALID : Field := ⟨31, 1⟩
def F.PTP_PORT_CFG_LATE_TOL : Field := ⟨0, 16⟩
def F.PTP_PORT_CFG_TC : Field := ⟨16, 1⟩
def F.RTC_ALM0_T_SEC : Field := ⟨0, 7⟩
def F.RTC_ALM0_T_MIN : Field := ⟨8, 7⟩
def F.RTC_ALM0_T_HOUR : Field := ⟨16, 6⟩
def F.RTC_ALM0_T_WDAY : Field := ⟨24, 3⟩
def F.RTC_ALM1_T_SEC : Field := ⟨0, 7⟩
def F.RTC_ALM1_T_MIN : Field := ⟨8, 7⟩
def F.RTC_ALM1_T_HOUR : Field := ⟨16, 6⟩
def F.RTC_ALM1_T_WDAY : Field := ⟨24, 3⟩
def F.RTC_ALM0_D_DAY : Field := ⟨0, 6⟩
def F.RTC_ALM0_D_MON : Field := ⟨8, 5⟩
def F.RTC_ALM0_D_MASK : Field := ⟨16, 6⟩
def F.RTC_ALM0_D_CATCHUP : Field := ⟨24, 1⟩
def F.RTC_ALM0_D_EN : Field := ⟨31, 1⟩
def F.RTC_ALM1_D_DAY : Field := ⟨0, 6⟩
def F.RTC_ALM1_D_MON : Field := ⟨8, 5⟩
def F.RTC_ALM1_D_MASK : Field := ⟨16, 6⟩
def F.RTC_ALM1_D_CATCHUP : Field := ⟨24, 1⟩
def F.RTC_ALM1_D_EN : Field := ⟨31, 1⟩
def F.RTC_STAT_FROZEN : Field := ⟨0, 1⟩
def F.RTC_STAT_SET_PEND : Field := ⟨1, 1⟩
def F.RTC_STAT_SET_AT_STEP : Field := ⟨2, 1⟩
def F.ETH_CFG_SPEED : Field := ⟨0, 2⟩
def F.ETH_CFG_AN : Field := ⟨4, 1⟩
def F.ETH_CFG_MC_ALL : Field := ⟨5, 1⟩
def F.ETH_CFG_SEC : Field := ⟨8, 1⟩
def F.ETH_STEER_VALUE : Field := ⟨0, 16⟩
def F.ETH_STEER_KIND : Field := ⟨16, 2⟩
def F.ETH_STEER_RING : Field := ⟨20, 3⟩
def F.ETH_STEER_DROP : Field := ⟨24, 1⟩
def F.ETH_RXE_TAG_VID : Field := ⟨0, 12⟩
def F.ETH_RXE_TAG_PCP : Field := ⟨13, 3⟩
def F.ETH_RXE_TAG_EN : Field := ⟨16, 1⟩
def F.ETH_MDIO_CMD_REG : Field := ⟨0, 5⟩
def F.ETH_MDIO_CMD_PHYAD : Field := ⟨5, 5⟩
def F.ETH_MDIO_CMD_OP : Field := ⟨10, 2⟩
def F.ETH_MDIO_DATA_DATA : Field := ⟨0, 16⟩
def F.ETH_MDIO_DATA_BUSY : Field := ⟨31, 1⟩
def F.ETH_RED_CFG_MODE : Field := ⟨0, 2⟩
def F.ETH_RED_CFG_FWD_Q : Field := ⟨4, 3⟩
def F.ETH_RED_CFG_ENTRY_MS : Field := ⟨16, 12⟩
def F.ETH_SEC_CFG_CS : Field := ⟨0, 1⟩
def F.ETH_SEC_CFG_OFFSET : Field := ⟨1, 2⟩
def F.ETH_SEC_CFG_INCL_SCI : Field := ⟨3, 1⟩
def F.ETH_SEC_CFG_REPLAY : Field := ⟨4, 1⟩
def F.ETH_SEC_CFG_PASS_EAPOL : Field := ⟨5, 1⟩
def F.ETH_SEC_CFG_PASS_PTP : Field := ⟨6, 1⟩
def F.ETH_SEC_TXSA_KEY_SLOT : Field := ⟨0, 7⟩
def F.ETH_SEC_TXSA_VALID : Field := ⟨31, 1⟩
def F.ETH_SEC_RXSA_KEY_SLOT : Field := ⟨0, 7⟩
def F.ETH_SEC_RXSA_VALID : Field := ⟨31, 1⟩
def F.CAN_CFG_FD_EN : Field := ⟨0, 1⟩
def F.CAN_CFG_LISTEN : Field := ⟨1, 1⟩
def F.CAN_CFG_WAKE : Field := ⟨2, 2⟩
def F.CAN_CFG_WAKE_FILT : Field := ⟨8, 8⟩
def F.CAN_CFG_TDCO : Field := ⟨16, 7⟩
def F.CAN_CFG_TDC_EN : Field := ⟨23, 1⟩
def F.CAN_CFG_FIFO_ALL : Field := ⟨24, 1⟩
def F.CAN_NBT_BRP : Field := ⟨0, 8⟩
def F.CAN_NBT_TSEG1 : Field := ⟨8, 8⟩
def F.CAN_NBT_TSEG2 : Field := ⟨16, 7⟩
def F.CAN_NBT_SJW : Field := ⟨24, 7⟩
def F.CAN_DBT_BRP : Field := ⟨0, 5⟩
def F.CAN_DBT_TSEG1 : Field := ⟨8, 5⟩
def F.CAN_DBT_TSEG2 : Field := ⟨16, 4⟩
def F.CAN_DBT_SJW : Field := ⟨24, 4⟩
def F.CAN_STAT_STATE : Field := ⟨0, 2⟩
def F.CAN_STAT_SLEEP : Field := ⟨2, 1⟩
def F.CAN_STAT_TEC : Field := ⟨8, 8⟩
def F.CAN_STAT_REC : Field := ⟨16, 8⟩
def F.CAN_STAT_WAKE_CAUSE : Field := ⟨24, 3⟩
def F.CAN_RXGRAB_OBJ : Field := ⟨0, 6⟩
def F.CAN_RXGRAB_OFFSET : Field := ⟨0, 14⟩
def F.CAN_RXGRAB_VALID : Field := ⟨31, 1⟩
def F.MEM_UE_INFO_VALID : Field := ⟨0, 1⟩
def F.MEM_UE_INFO_INITIATOR : Field := ⟨1, 5⟩
def F.MEM_UE_INFO_KIND : Field := ⟨8, 2⟩
def F.MEM_FLIP_CFG_PORT : Field := ⟨0, 5⟩
def F.MEM_FLIP_CFG_ARM : Field := ⟨8, 1⟩
def F.MEM_FLIP_CFG_DONE : Field := ⟨9, 1⟩
def F.MEM_TRK_STAT_COUNT : Field := ⟨0, 8⟩
def F.MEM_TRK_STAT_VALID : Field := ⟨8, 1⟩
def F.MEM_TRK_STAT_LASTING : Field := ⟨9, 1⟩
def F.MEM_TRK_STAT_ARMED : Field := ⟨10, 1⟩
def F.MMU_CTXB_VALID : Field := ⟨0, 1⟩
def F.MMU_CTXB_BASE : Field := ⟨6, 26⟩
def F.MMU_CTXL_LEN : Field := ⟨0, 15⟩
def F.MMU_INVAL_KIND : Field := ⟨0, 2⟩
def F.MMU_INVAL_CTX : Field := ⟨8, 6⟩
def F.IOMMU_FLT_INFO_VALID : Field := ⟨0, 1⟩
def F.IOMMU_FLT_INFO_REQ : Field := ⟨1, 3⟩
def F.IOMMU_FLT_INFO_CAUSE : Field := ⟨4, 2⟩
def F.IOMMU_FLT_INFO_CTX : Field := ⟨8, 6⟩
def F.IOMMU_FLT_INFO_CH : Field := ⟨16, 5⟩
def F.IOMMU_FLT_INFO_WRITE : Field := ⟨24, 1⟩
def F.DMA_CFG_CTX : Field := ⟨0, 6⟩
def F.DMA_CFG_BOUND : Field := ⟨8, 1⟩
def F.DMA_CFG_TASK : Field := ⟨16, 4⟩
def F.DMA_CFG_MAXOUT : Field := ⟨24, 4⟩
def F.DMA_STAT_STATE : Field := ⟨0, 3⟩
def F.DMA_STAT_SIDE : Field := ⟨3, 1⟩
def F.DMA_STAT_END : Field := ⟨8, 4⟩
def F.DMA_STAT_OUT : Field := ⟨16, 7⟩
def F.CORE_STAT_TMODE : Field := ⟨0, 1⟩
def F.CORE_STAT_HALTED : Field := ⟨1, 1⟩
def F.CORE_STAT_TASK : Field := ⟨8, 4⟩
def F.CORE_STAT_CTX : Field := ⟨16, 6⟩
def F.CORE_STAT_IPRIO : Field := ⟨24, 5⟩
def F.CORE_TRAP_CAUSE : Field := ⟨0, 8⟩
def F.CORE_TRAP_TMODE : Field := ⟨8, 1⟩
def F.CORE_TRAP_TASK : Field := ⟨16, 4⟩
def F.CORE_TRAP_CTX : Field := ⟨24, 6⟩
def F.CORE_TRAP_VALID : Field := ⟨31, 1⟩
def F.CORE_IACK_SOURCE : Field := ⟨0, 9⟩
def F.CORE_IACK_VALID : Field := ⟨16, 1⟩
def F.KEYS_CMD_CMD : Field := ⟨0, 4⟩
def F.KEYS_CMD_SLOT : Field := ⟨4, 7⟩
def F.KEYS_CMD_FORMAT : Field := ⟨12, 2⟩
def F.KEYS_CMD_DEST : Field := ⟨16, 3⟩
def F.KEYS_CMD_LEN : Field := ⟨19, 1⟩
def F.KEYS_CMD_SRC : Field := ⟨24, 8⟩
def F.KEYS_STAT_BUSY : Field := ⟨0, 1⟩
def F.KEYS_STAT_RESULT : Field := ⟨4, 4⟩
def F.KEYS_STAT_ROOT : Field := ⟨8, 2⟩
def F.KEYS_STAT_ENROLLED : Field := ⟨10, 1⟩
def F.KEYS_STAT_LOADED : Field := ⟨11, 1⟩
def F.KEYS_SLOT_INFO_STATE : Field := ⟨0, 2⟩
def F.KEYS_SLOT_INFO_FORMAT : Field := ⟨4, 2⟩
def F.KEYS_SLOT_INFO_DEST : Field := ⟨8, 3⟩
def F.KEYS_SLOT_INFO_LEN : Field := ⟨12, 1⟩
def F.LANTERN_CFG_CLASS : Field := ⟨0, 1⟩
def F.LANTERN_CFG_SIZE : Field := ⟨1, 3⟩
def F.LANTERN_CFG_BIAS : Field := ⟨4, 1⟩
def F.LANTERN_CFG_INV : Field := ⟨5, 2⟩
def F.LANTERN_CFG_FRAME_HZ : Field := ⟨8, 7⟩
def F.LANTERN_CFG_RAIL_MS : Field := ⟨16, 8⟩
def F.LANTERN_CMD_CMD : Field := ⟨0, 4⟩
def F.LANTERN_CMD_SLOT : Field := ⟨8, 2⟩
def F.LANTERN_STAT_STATE : Field := ⟨0, 3⟩
def F.LANTERN_STAT_BUSY : Field := ⟨4, 5⟩
def F.LANTERN_STAT_BL_ON : Field := ⟨9, 1⟩
def F.LANTERN_BLINK_PERIOD_0 : Field := ⟨0, 8⟩
def F.LANTERN_BLINK_PERIOD_1 : Field := ⟨8, 8⟩
def F.LANTERN_BLINK_PERIOD_2 : Field := ⟨16, 8⟩
def F.LANTERN_BLINK_PERIOD_3 : Field := ⟨24, 8⟩
def F.LANTERN_FORCE_SEG : Field := ⟨0, 6⟩
def F.LANTERN_FORCE_COM : Field := ⟨8, 3⟩
def F.LANTERN_FORCE_RATE : Field := ⟨12, 2⟩
def F.LANTERN_FORCE_BLINK : Field := ⟨14, 1⟩
def F.LANTERN_FORCE_EN : Field := ⟨15, 1⟩
def F.LANTERN_FORCE_PULSE_MS : Field := ⟨16, 10⟩
def F.LANTERN_RBOUND_C0 : Field := ⟨0, 3⟩
def F.LANTERN_RBOUND_C1 : Field := ⟨4, 3⟩
def F.LANTERN_RBOUND_S0 : Field := ⟨8, 6⟩
def F.LANTERN_RBOUND_S1 : Field := ⟨16, 6⟩
def F.AGL_STAT_LOADED : Field := ⟨0, 1⟩
def F.AGL_STAT_LOAD_BAD : Field := ⟨8, 8⟩
def F.AGL_TEMP_TEMP : Field := ⟨0, 16⟩
def F.AGL_TEMP_VALID : Field := ⟨31, 1⟩
def F.AGL_SW_CMD_REC : Field := ⟨0, 9⟩
def F.AGL_SW_CMD_BIN : Field := ⟨10, 5⟩
def F.AGL_SW_CMD_OP : Field := ⟨16, 2⟩
def F.CYC_FORCE_CNT_CNT : Field := ⟨0, 11⟩
def F.CYC_FORCE_EN_EN : Field := ⟨0, 1⟩
def F.CYC_RET_PERIOD_PERIOD : Field := ⟨0, 16⟩
def F.CYC_RET_STAT_NEWEST : Field := ⟨0, 1⟩
def F.CYC_RET_STAT_VALID_A : Field := ⟨1, 1⟩
def F.CYC_RET_STAT_VALID_B : Field := ⟨2, 1⟩
def F.CYC_RET_STAT_BUSY : Field := ⟨3, 1⟩
def F.CYC_RET_STAT_PEND : Field := ⟨4, 1⟩
def F.RXE_SCALE_CNT_CNT : Field := ⟨0, 14⟩
def F.RXE_POOL_HI_VA_HI : Field := ⟨0, 8⟩
def F.RXE_TXA_HI_VA_HI : Field := ⟨0, 8⟩
def F.RXE_CQ_HI_VA_HI : Field := ⟨0, 8⟩
def F.RXE_TXQ_HI_VA_HI : Field := ⟨0, 8⟩
def F.RXE_POOL_FREE_CNT : Field := ⟨0, 12⟩
def F.RXE_FREE_RET_IDX : Field := ⟨0, 11⟩
def F.RXE_FLT_VA_HI_VA_HI : Field := ⟨0, 8⟩
def F.PRISM_JOBQ_HI_VA_HI : Field := ⟨0, 8⟩
def F.PRISM_CQ_HI_VA_HI : Field := ⟨0, 8⟩
def F.PRISM_FLT_VA_HI_VA_HI : Field := ⟨0, 8⟩
def F.PRISM_SLOT_DESC_HI_VA_HI : Field := ⟨0, 8⟩
def F.MXE_ADL_ERR_COUNT : Field := ⟨0, 32⟩
def F.ASOFTLO_H_V : Field := ⟨0, 16⟩
def F.ASOFTHI_H_V : Field := ⟨0, 16⟩
def F.ATGT_HI_V : Field := ⟨0, 16⟩
def F.AEVT_EVT : Field := ⟨0, 10⟩
def F.ABACKOFF_V : Field := ⟨0, 31⟩
def F.SAFE_SEAL_LIVE_SEAL : Field := ⟨0, 8⟩
def F.SAFE_AXSTOP_AXES : Field := ⟨0, 16⟩
def F.SAFE_PEN_IN_PEN : Field := ⟨0, 8⟩
def F.SAFE_PEN_IN_EXP : Field := ⟨8, 8⟩
def F.SAFE_PEN_OUT_PEN : Field := ⟨0, 8⟩
def F.SAFE_PEN_OUT_EXP : Field := ⟨8, 8⟩
def F.SAFE_IN_VAL_V : Field := ⟨0, 16⟩
def F.SAFE_IN_LVL_V : Field := ⟨0, 16⟩
def F.SAFE_IN_FAIL_V : Field := ⟨0, 16⟩
def F.SAFE_IN_DISC_V : Field := ⟨0, 8⟩
def F.SAFE_OUT_SET_V : Field := ⟨0, 8⟩
def F.SAFE_OUT_RB_A : Field := ⟨0, 8⟩
def F.SAFE_OUT_RB_B : Field := ⟨8, 8⟩
def F.SAFE_OUT_FAIL_A : Field := ⟨0, 8⟩
def F.SAFE_OUT_FAIL_B : Field := ⟨8, 8⟩
def F.SAFE_OUT_ON_V : Field := ⟨0, 8⟩
def F.SAFE_MB_SEL_CONN : Field := ⟨0, 8⟩
def F.SAFE_MB_CMD_RX_PUT : Field := ⟨0, 1⟩
def F.SAFE_MB_CMD_TX_GET : Field := ⟨1, 1⟩
def F.SAFE_ISC_SEL_CONN : Field := ⟨0, 8⟩
def F.SAFE_ISC_RXST_VALID : Field := ⟨0, 1⟩
def F.SAFE_ISC_RXST_PEER_PASSIVE : Field := ⟨1, 1⟩
def F.MIRROR_VMAC_HI_V : Field := ⟨0, 16⟩
def F.MIRROR_LAG_LAG : Field := ⟨0, 16⟩
def F.PTP_NOW_NS_NS : Field := ⟨0, 30⟩
def F.PTP_NOW_SEC_HI_V : Field := ⟨0, 16⟩
def F.PTP_NOW_FRAC_V : Field := ⟨0, 16⟩
def F.PTP_SLEW_CFG_PPM : Field := ⟨0, 10⟩
def F.PTP_SET_SEC_HI_V : Field := ⟨0, 16⟩
def F.PTP_SET_NS_NS : Field := ⟨0, 30⟩
def F.PTP_ECHO_SEC_HI_V : Field := ⟨0, 16⟩
def F.PTP_ECHO_NS_NS : Field := ⟨0, 30⟩
def F.PTP_ECHO_CNT_CNT : Field := ⟨0, 6⟩
def F.RTC_SUBSEC_V : Field := ⟨0, 15⟩
def F.RTC_SEC_V : Field := ⟨0, 7⟩
def F.RTC_MIN_V : Field := ⟨0, 7⟩
def F.RTC_HOUR_V : Field := ⟨0, 6⟩
def F.RTC_WDAY_V : Field := ⟨0, 3⟩
def F.RTC_DAY_V : Field := ⟨0, 6⟩
def F.RTC_MON_V : Field := ⟨0, 5⟩
def F.RTC_YEAR_YEAR : Field := ⟨0, 8⟩
def F.RTC_YEAR_CENTURY : Field := ⟨8, 8⟩
def F.RTC_STG_SEC_V : Field := ⟨0, 7⟩
def F.RTC_STG_MIN_V : Field := ⟨0, 7⟩
def F.RTC_STG_HOUR_V : Field := ⟨0, 6⟩
def F.RTC_STG_WDAY_V : Field := ⟨0, 3⟩
def F.RTC_STG_DAY_V : Field := ⟨0, 6⟩
def F.RTC_STG_MON_V : Field := ⟨0, 5⟩
def F.RTC_STG_YEAR_YEAR : Field := ⟨0, 8⟩
def F.RTC_STG_YEAR_CENTURY : Field := ⟨8, 8⟩
def F.RTC_CMD_CMD : Field := ⟨0, 4⟩
def F.ETH_MAC_HI_V : Field := ⟨0, 16⟩
def F.ETH_STAT_LINK : Field := ⟨0, 1⟩
def F.ETH_STAT_AN_DONE : Field := ⟨1, 1⟩
def F.ETH_SEC_TXAN_AN : Field := ⟨0, 2⟩
def F.ETH_TQ_CFG_LOG2 : Field := ⟨0, 4⟩
def F.ETH_TQ_CFG_CBS : Field := ⟨16, 1⟩
def F.ETH_TQ_CFG_GUARD : Field := ⟨17, 1⟩
def F.ETH_TQ_CFG_EN : Field := ⟨31, 1⟩
def F.ETH_TQ_TAIL_IDX : Field := ⟨0, 11⟩
def F.ETH_TQ_HEAD_IDX : Field := ⟨0, 11⟩
def F.ETH_TQ_SLOPE_SLOPE : Field := ⟨0, 22⟩
def F.ETH_RQ_CFG_LOG2 : Field := ⟨0, 4⟩
def F.ETH_RQ_CFG_EN : Field := ⟨31, 1⟩
def F.ETH_RQ_TAIL_IDX : Field := ⟨0, 11⟩
def F.ETH_RQ_HEAD_IDX : Field := ⟨0, 11⟩
def F.ETH_GATE_CFG_EN : Field := ⟨0, 1⟩
def F.ETH_GATE_CFG_LEN : Field := ⟨16, 9⟩
def F.ETH_GATE_CYCLE_NS : Field := ⟨0, 30⟩
def F.ETH_GATE_BASE_NS_NS : Field := ⟨0, 30⟩
def F.ETH_GATE_BASE_SEC_HI_V : Field := ⟨0, 16⟩
def F.ETH_GATE_CMD_SWITCH : Field := ⟨0, 1⟩
def F.ETH_GATE_STAT_PEND : Field := ⟨0, 1⟩
def F.ETH_GATE_STAT_OPER : Field := ⟨1, 1⟩
def F.CAN_CMD_CMD : Field := ⟨0, 4⟩
def F.CAN_RXREL_OBJ : Field := ⟨0, 6⟩
def F.CAN_FIFO_HEAD_IDX : Field := ⟨0, 7⟩
def F.CAN_FIFO_TAIL_IDX : Field := ⟨0, 7⟩
def F.CAN_RAM_ADDR_ADDR : Field := ⟨0, 14⟩
def F.CAN_RAM_ADDR_INC : Field := ⟨31, 1⟩
def F.CAN_WAKE_ID_ID : Field := ⟨0, 29⟩
def F.CAN_WAKE_ID_XTD : Field := ⟨29, 1⟩
def F.CAN_WAKE_MASK_MASK : Field := ⟨0, 29⟩
def F.CAN_RXF_ID_ID : Field := ⟨0, 29⟩
def F.CAN_RXF_ID_XTD : Field := ⟨29, 1⟩
def F.CAN_RXF_ID_EN : Field := ⟨31, 1⟩
def F.CAN_RXF_MASK_MASK : Field := ⟨0, 29⟩
def F.MEM_CFG_TRK_N : Field := ⟨0, 8⟩
def F.MEM_TRK_W_W : Field := ⟨0, 17⟩
def F.MEM_FLIP_C_C : Field := ⟨0, 16⟩
def F.MEM_TRK_SEL_SEL : Field := ⟨0, 5⟩
def F.GLINT_CFG_MAIN_EN : Field := ⟨0, 1⟩
def F.GLINT_CFG_LOCAL_EN : Field := ⟨1, 1⟩
def F.GLINT_CFG_MRAM_EN : Field := ⟨2, 1⟩
def F.REPAIR_CMD_BANK : Field := ⟨0, 8⟩
def F.REPAIR_CMD_ROW : Field := ⟨8, 8⟩
def F.REPAIR_CMD_CMD : Field := ⟨16, 2⟩
def F.REPAIR_STAT_BUSY : Field := ⟨0, 1⟩
def F.REPAIR_STAT_NOSPARE : Field := ⟨1, 1⟩
def F.REPAIR_USED_SEL_BANK : Field := ⟨0, 8⟩
def F.REPAIR_USED_CNT : Field := ⟨0, 6⟩
def F.REPAIR_LAST_BANK : Field := ⟨0, 8⟩
def F.REPAIR_LAST_ROW : Field := ⟨8, 8⟩
def F.REPAIR_LAST_SPARE : Field := ⟨16, 5⟩
def F.REPAIR_LAST_VALID : Field := ⟨31, 1⟩
def F.MMU_INVAL_VA_HI_VA_HI : Field := ⟨0, 8⟩
def F.MMU_INVAL_STAT_BUSY : Field := ⟨0, 1⟩
def F.IOMMU_FLT_VA_HI_VA_HI : Field := ⟨0, 8⟩
def F.DMA_DESC_HI_VA_HI : Field := ⟨0, 8⟩
def F.DMA_CTL_START : Field := ⟨0, 1⟩
def F.DMA_CTL_RESUME : Field := ⟨1, 1⟩
def F.DMA_CTL_ABORT : Field := ⟨2, 1⟩
def F.DMA_CUR_HI_VA_HI : Field := ⟨0, 8⟩
def F.DMA_FLT_HI_VA_HI : Field := ⟨0, 8⟩
def F.CORE_CFG_XLATE : Field := ⟨0, 1⟩
def F.CORE_CFG_SCTX : Field := ⟨8, 6⟩
def F.CORE_TRAP_PC_HI_V : Field := ⟨0, 8⟩
def F.CORE_TRAP_VA_HI_V : Field := ⟨0, 8⟩
def F.KEYS_STG_CRC_CRC : Field := ⟨0, 16⟩
def F.KEYS_SLOT_SEL_SLOT : Field := ⟨0, 7⟩
def F.KEYS_DENY_LAST_SLOT : Field := ⟨0, 7⟩
def F.KEYS_DENY_LAST_REQ : Field := ⟨8, 3⟩
def F.KEYS_GCM_STAT_ACTIVE : Field := ⟨0, 1⟩
def F.KEYS_GCM_STAT_TAG_DONE : Field := ⟨1, 1⟩
def F.KEYS_GCM_STAT_TAG_OK : Field := ⟨2, 1⟩
def F.LANTERN_RDRIVE_PULSE_MS : Field := ⟨0, 10⟩
def F.AGL_PEND_CNT : Field := ⟨0, 9⟩
def F.MTR_HSTAT_REV : Field := ⟨0, 1⟩
def F.MTR_HSTAT_TF_FAULT : Field := ⟨1, 1⟩
def F.MTR_HSTAT_TR_FAULT : Field := ⟨2, 1⟩
def F.MTR_HSTAT_RANGE : Field := ⟨3, 1⟩
def F.MTR_HSTAT_BELOW_DT : Field := ⟨4, 1⟩
def F.MTR_PDEBT_D : Field := ⟨0, 16⟩
def F.MTR_PDEBT_WIDTH : Field := ⟨16, 16⟩
def F.MTR_FBAND_BANDS : Field := ⟨0, 28⟩
def F.PRISM_SLOT_NEED_NEED : Field := ⟨0, 32⟩

/-- Registers whose reset value is not zero (the header registers of R21 apart). -/
def regRowsSet : List RegRow :=
  [⟨0x0, 1, 1, 0x40, 0x0, 1, 0x0, 1, .ro, 0x87200100, 0xffffffff, 0x0, 0x0, 0x0⟩,
   ⟨0x1, 1, 1, 0x40, 0x0, 1, 0x0, 1, .rwl, 0x7ff, 0x7ff, 0x7ff, 0x0, 0x0⟩,
   ⟨0x1, 1, 1, 0x48, 0x0, 1, 0x0, 1, .ro, 0x107ff, 0x107ff, 0x0, 0x0, 0x0⟩,
   ⟨0x0, 1, 1, 0x44, 0x0, 1, 0x0, 1, .w1c, 0x1, 0x7f, 0x0, 0x7f, 0x0⟩,
   ⟨0x0, 1, 1, 0x4c, 0x0, 1, 0x0, 1, .w1s, 0x10, 0x7f, 0x0, 0x0, 0x6f⟩,
   ⟨0x2, 1, 1, 0x40, 0x0, 1, 0x0, 1, .ro, 0xff, 0x7ff, 0x0, 0x0, 0x0⟩,
   ⟨0x50, 1, 1, 0x70, 0x0, 1, 0x0, 1, .rw, 0x400100, 0xfff0fff, 0xfff0fff, 0x0, 0x0⟩,
   ⟨0x50, 1, 1, 0x74, 0x0, 1, 0x0, 1, .ro, 0x800, 0xfff, 0x0, 0x0, 0x0⟩,
   ⟨0x50, 1, 1, 0xa4, 0x0, 1, 0x0, 1, .rwl, 0x30032, 0xfffff, 0xfffff, 0x0, 0x0⟩,
   ⟨0x51, 8, 1, 0x40, 0x10, 128, 0x0, 1, .ro, 0x20, 0xff0f0337, 0x0, 0x0, 0x0⟩,
   ⟨0x90, 1, 1, 0x48, 0x0, 1, 0x0, 1, .rwl, 0x1000f, 0x3f003f, 0x3f003f, 0x0, 0x0⟩,
   ⟨0x81, 8, 1, 0x4c, 0x100, 2, 0x0, 1, .rwl, 0x1, 0xffffffff, 0xffffffff, 0x0, 0x0⟩,
   ⟨0x81, 8, 1, 0x50, 0x100, 2, 0x0, 1, .rwl, 0x1, 0xffffffff, 0xffffffff, 0x0, 0x0⟩,
   ⟨0x81, 8, 1, 0x54, 0x100, 2, 0x0, 1, .rwl, 0x1, 0xffffffff, 0xffffffff, 0x0, 0x0⟩,
   ⟨0x81, 8, 1, 0x58, 0x100, 2, 0x0, 1, .rwl, 0x1, 0xffffffff, 0xffffffff, 0x0, 0x0⟩,
   ⟨0x81, 8, 1, 0xbc, 0x100, 2, 0x0, 1, .rw, 0x1, 0xffffffff, 0xffffffff, 0x0, 0x0⟩,
   ⟨0xa0, 1, 1, 0x64, 0x0, 1, 0x0, 1, .ro, 0xffffffff, 0xffffffff, 0x0, 0x0, 0x0⟩,
   ⟨0xc0, 1, 1, 0x68, 0x0, 1, 0x0, 1, .rw, 0x64, 0x3ff, 0x3ff, 0x0, 0x0⟩,
   ⟨0xc0, 1, 1, 0x88, 0x0, 1, 0x0, 1, .rw, 0xf4240, 0xffffffff, 0xffffffff, 0x0, 0x0⟩,
   ⟨0xc0, 1, 1, 0x8c, 0x0, 1, 0x0, 1, .rw, 0xbb80400, 0xffffff01, 0xffffff01, 0x0, 0x0⟩,
   ⟨0xc0, 1, 1, 0x98, 0x0, 1, 0x0, 1, .rw, 0x140064, 0xffffffff, 0xffffffff, 0x0, 0x0⟩,
   ⟨0xc1, 4, 1, 0x64, 0x0, 1, 0x0, 1, .rw, 0x3e8, 0x1ffff, 0x1ffff, 0x0, 0x0⟩,
   ⟨0xc5, 1, 1, 0x50, 0x0, 1, 0x0, 1, .ro, 0x6, 0x7, 0x0, 0x0, 0x0⟩,
   ⟨0xc5, 1, 1, 0x54, 0x0, 1, 0x0, 1, .ro, 0x1, 0x3f, 0x0, 0x0, 0x0⟩,
   ⟨0xc5, 1, 1, 0x58, 0x0, 1, 0x0, 1, .ro, 0x1, 0x1f, 0x0, 0x0, 0x0⟩,
   ⟨0xc5, 1, 1, 0x5c, 0x0, 1, 0x0, 1, .ro, 0x2000, 0xffff, 0x0, 0x0, 0x0⟩,
   ⟨0xd0, 4, 3, 0x9c, 0x0, 1, 0x0, 1, .rwl, 0x1900000, 0xfff0073, 0xfff0073, 0x0, 0x0⟩,
   ⟨0xd0, 4, 3, 0xbc, 0x4, 4, 0x0, 1, .rw, 0x1, 0xffffffff, 0xffffffff, 0x0, 0x0⟩,
   ⟨0xd0, 4, 3, 0x12c, 0x4, 16, 0x0, 1, .rw, 0x1, 0xffffffff, 0xffffffff, 0x0, 0x0⟩,
   ⟨0x20, 3, 1, 0x40, 0x0, 1, 0x0, 1, .rw, 0x4, 0xff, 0xff, 0x0, 0x0⟩,
   ⟨0x20, 3, 1, 0x44, 0x0, 1, 0x0, 1, .rw, 0xe10, 0x1ffff, 0x1ffff, 0x0, 0x0⟩,
   ⟨0x23, 1, 1, 0x40, 0x0, 1, 0x0, 1, .rw, 0x7, 0x7, 0x7, 0x0, 0x0⟩,
   ⟨0x23, 1, 1, 0x50, 0x0, 1, 0x0, 1, .ro, 0x20000000, 0xffffffff, 0x0, 0x0, 0x0⟩,
   ⟨0x10, 7, 1, 0x4c, 0x0, 1, 0x0, 1, .ro, 0x10000000, 0x1f3f0f03, 0x0, 0x0, 0x0⟩,
   ⟨0x100, 1, 1, 0x4c, 0x0, 1, 0x0, 1, .rw, 0xc8196432, 0xffffffff, 0xffffffff, 0x0, 0x0⟩]

/-- Registers whose reset value is zero, part 0. -/
def regRows0 : List RegRow :=
  [⟨0x1, 1, 1, 0x44, 0x0, 1, 0x0, 1, .rwl, 0x0, 0x7ff, 0x7ff, 0x0, 0x0⟩,
   ⟨0x5, 4, 1, 0x40, 0x4, 128, 0x0, 1, .rw, 0x0, 0x10f0f, 0x10f0f, 0x0, 0x0⟩,
   ⟨0x0, 1, 1, 0x48, 0x0, 1, 0x0, 1, .wo, 0x0, 0xffffffff, 0x0, 0x0, 0x0⟩,
   ⟨0x0, 1, 1, 0x50, 0x4, 7, 0x0, 1, .rw, 0x0, 0xffffffff, 0xffffffff, 0x0, 0x0⟩,
   ⟨0x0, 1, 1, 0x6c, 0x0, 1, 0x0, 1, .rwl, 0x0, 0x8000ffff, 0x8000ffff, 0x0, 0x0⟩,
   ⟨0x0, 1, 1, 0x70, 0x0, 1, 0x0, 1, .wo, 0x0, 0xffffffff, 0x0, 0x0, 0x0⟩,
   ⟨0x3, 1, 1, 0x40, 0x0, 1, 0x0, 1, .ro, 0x0, 0xff07, 0x0, 0x0, 0x0⟩,
   ⟨0x9, 1, 1, 0x40, 0x0, 1, 0x0, 1, .ro, 0x0, 0xdffff0f, 0x0, 0x0, 0x0⟩,
   ⟨0x9, 1, 1, 0x44, 0x0, 1, 0x0, 1, .ro, 0x0, 0xffffffff, 0x0, 0x0, 0x0⟩,
   ⟨0x9, 1, 1, 0x48, 0x0, 1, 0x0, 1, .ro, 0x0, 0xffffffff, 0x0, 0x0, 0x0⟩,
   ⟨0x40, 1, 1, 0x40, 0x0, 1, 0x0, 1, .rw, 0x0, 0x3, 0x3, 0x0, 0x0⟩,
   ⟨0x40, 1, 1, 0x44, 0x0, 1, 0x0, 1, .wo, 0x0, 0xf000f, 0x0, 0x0, 0x0⟩,
   ⟨0x40, 1, 1, 0x48, 0x0, 1, 0x0, 1, .ro, 0x0, 0x7f, 0x0, 0x0, 0x0⟩,
   ⟨0x40, 1, 1, 0x4c, 0x0, 1, 0x0, 1, .ro, 0x0, 0xffff, 0x0, 0x0, 0x0⟩,
   ⟨0x40, 1, 1, 0x50, 0x0, 1, 0x0, 1, .ro, 0x0, 0xffff, 0x0, 0x0, 0x0⟩,
   ⟨0x40, 1, 1, 0x54, 0x0, 1, 0x0, 1, .wo, 0x0, 0xf, 0x0, 0x0, 0x0⟩,
   ⟨0x41, 4, 1, 0x40, 0x40, 4, 0x0, 1, .rwl, 0x0, 0x80ff0ff3, 0x80ff0ff3, 0x0, 0x0⟩,
   ⟨0x41, 4, 1, 0x44, 0x40, 4, 0x0, 1, .rwl, 0x0, 0xffff, 0xffff, 0x0, 0x0⟩,
   ⟨0x41, 4, 1, 0x48, 0x40, 4, 0x0, 1, .rwl, 0x0, 0xffff, 0xffff, 0x0, 0x0⟩,
   ⟨0x41, 4, 1, 0x4c, 0x40, 4, 0x0, 1, .rwl, 0x0, 0x3f, 0x3f, 0x0, 0x0⟩,
   ⟨0x41, 4, 1, 0x50, 0x40, 4, 0x0, 1, .rwl, 0x0, 0xffffffff, 0xffffffff, 0x0, 0x0⟩,
   ⟨0x41, 4, 1, 0x54, 0x40, 4, 0x0, 1, .rwl, 0x0, 0xff, 0xff, 0x0, 0x0⟩,
   ⟨0x41, 4, 1, 0x58, 0x40, 4, 0x0, 1, .rwl, 0x0, 0xffffffff, 0xffffffff, 0x0, 0x0⟩,
   ⟨0x41, 4, 1, 0x5c, 0x40, 4, 0x0, 1, .rwl, 0x0, 0xffffffff, 0xffffffff, 0x0, 0x0⟩,
   ⟨0x41, 4, 1, 0x60, 0x40, 4, 0x0, 1, .ro, 0x0, 0xff1f, 0x0, 0x0, 0x0⟩,
   ⟨0x41, 4, 1, 0x64, 0x40, 4, 0x0, 1, .rc, 0x0, 0xffff, 0x0, 0x0, 0x0⟩,
   ⟨0x41, 4, 1, 0x68, 0x40, 4, 0x0, 1, .ro, 0x0, 0xffffffff, 0x0, 0x0, 0x0⟩,
   ⟨0x41, 4, 1, 0x6c, 0x40, 4, 0x0, 1, .ro, 0x0, 0xffffffff, 0x0, 0x0, 0x0⟩,
   ⟨0x41, 4, 1, 0x70, 0x40, 4, 0x0, 1, .ro, 0x0, 0xffffffff, 0x0, 0x0, 0x0⟩,
   ⟨0x41, 4, 1, 0x74, 0x40, 4, 0x0, 1, .rc, 0x0, 0xffffffff, 0x0, 0x0, 0x0⟩,
   ⟨0x41, 4, 1, 0x78, 0x40, 4, 0x0, 1, .ro, 0x0, 0xffffffff, 0x0, 0x0, 0x0⟩,
   ⟨0x41, 4, 1, 0x7c, 0x40, 4, 0x0, 1, .rwl, 0x0, 0xfff0fff, 0xfff0fff, 0x0, 0x0⟩,
   ⟨0x45, 1, 1, 0x70, 0x0, 1, 0x0, 1, .rwl, 0x0, 0xffffffff, 0xffffffff, 0x0, 0x0⟩,
   ⟨0x45, 1, 1, 0x74, 0x0, 1, 0x0, 1, .rwl, 0x0, 0x7ff, 0x7ff, 0x0, 0x0⟩,
   ⟨0x45, 1, 1, 0x78, 0x0, 1, 0x0, 1, .rw, 0x0, 0x1, 0x1, 0x0, 0x0⟩,
   ⟨0x45, 1, 1, 0x40, 0x0, 1, 0x0, 1, .rwl, 0x0, 0xffffffff, 0xffffffff, 0x0, 0x0⟩,
   ⟨0x45, 1, 1, 0x44, 0x0, 1, 0x0, 1, .rwl, 0x0, 0xffffffff, 0xffffffff, 0x0, 0x0⟩,
   ⟨0x45, 1, 1, 0x48, 0x0, 1, 0x0, 1, .rwl, 0x0, 0xffff, 0xffff, 0x0, 0x0⟩,
   ⟨0x45, 1, 1, 0x4c, 0x0, 1, 0x0, 1, .rwl, 0x0, 0xffffffff, 0xffffffff, 0x0, 0x0⟩,
   ⟨0x45, 1, 1, 0x50, 0x0, 1, 0x0, 1, .rwl, 0x0, 0xffffffff, 0xffffffff, 0x0, 0x0⟩]

/-- Registers whose reset value is zero, part 1. -/
def regRows1 : List RegRow :=
  [⟨0x45, 1, 1, 0x54, 0x0, 1, 0x0, 1, .ro, 0x0, 0xffffffff, 0x0, 0x0, 0x0⟩,
   ⟨0x45, 1, 1, 0x58, 0x0, 1, 0x0, 1, .ro, 0x0, 0xffffffff, 0x0, 0x0, 0x0⟩,
   ⟨0x45, 1, 1, 0x5c, 0x0, 1, 0x0, 1, .ro, 0x0, 0x1f, 0x0, 0x0, 0x0⟩,
   ⟨0x45, 1, 1, 0x60, 0x0, 1, 0x0, 1, .rc, 0x0, 0xffffffff, 0x0, 0x0, 0x0⟩,
   ⟨0x40, 1, 1, 0x80, 0x0, 1, 0x0, 1, .rw, 0x0, 0x1ffff, 0x1ffff, 0x0, 0x0⟩,
   ⟨0x40, 1, 1, 0x84, 0x0, 1, 0x0, 1, .rw, 0x0, 0xffffffff, 0xffffffff, 0x0, 0x0⟩,
   ⟨0x40, 1, 1, 0x88, 0x0, 1, 0x0, 1, .rw, 0x0, 0xffffffff, 0xffffffff, 0x0, 0x0⟩,
   ⟨0x40, 1, 1, 0x8c, 0x0, 1, 0x0, 1, .ro, 0x0, 0xffffffff, 0x0, 0x0, 0x0⟩,
   ⟨0x40, 1, 1, 0x90, 0x0, 1, 0x0, 1, .rw, 0x0, 0xffffffff, 0xffffffff, 0x0, 0x0⟩,
   ⟨0x40, 1, 1, 0x94, 0x0, 1, 0x0, 1, .rw, 0x0, 0xffffffff, 0xffffffff, 0x0, 0x0⟩,
   ⟨0x40, 1, 1, 0x98, 0x0, 1, 0x0, 1, .wo, 0x0, 0x7, 0x0, 0x0, 0x0⟩,
   ⟨0x40, 1, 1, 0x9c, 0x0, 1, 0x0, 1, .ro, 0x0, 0x133, 0x0, 0x0, 0x0⟩,
   ⟨0x40, 1, 1, 0xa0, 0x0, 1, 0x0, 1, .ro, 0x0, 0xffffffff, 0x0, 0x0, 0x0⟩,
   ⟨0x50, 1, 1, 0x40, 0x0, 1, 0x0, 1, .rwl, 0x0, 0x33f, 0x33f, 0x0, 0x0⟩,
   ⟨0x50, 1, 1, 0x44, 0x0, 1, 0x0, 1, .rwl, 0x0, 0xffffffff, 0xffffffff, 0x0, 0x0⟩,
   ⟨0x50, 1, 1, 0x48, 0x0, 1, 0x0, 1, .rwl, 0x0, 0xffffffff, 0xffffffff, 0x0, 0x0⟩,
   ⟨0x50, 1, 1, 0x4c, 0x0, 1, 0x0, 1, .rwl, 0x0, 0x3fff, 0x3fff, 0x0, 0x0⟩,
   ⟨0x50, 1, 1, 0x50, 0x0, 1, 0x0, 1, .rwl, 0x0, 0xffffffff, 0xffffffff, 0x0, 0x0⟩,
   ⟨0x50, 1, 1, 0x54, 0x0, 1, 0x0, 1, .rwl, 0x0, 0xff, 0xff, 0x0, 0x0⟩,
   ⟨0x50, 1, 1, 0x58, 0x0, 1, 0x0, 1, .rwl, 0x0, 0xffffffff, 0xffffffff, 0x0, 0x0⟩,
   ⟨0x50, 1, 1, 0x5c, 0x0, 1, 0x0, 1, .rwl, 0x0, 0xff, 0xff, 0x0, 0x0⟩,
   ⟨0x50, 1, 1, 0x60, 0x0, 1, 0x0, 1, .rwl, 0x0, 0xffffffff, 0xffffffff, 0x0, 0x0⟩,
   ⟨0x50, 1, 1, 0x64, 0x0, 1, 0x0, 1, .rwl, 0x0, 0xff, 0xff, 0x0, 0x0⟩,
   ⟨0x50, 1, 1, 0x68, 0x0, 1, 0x0, 1, .rwl, 0x0, 0xffffffff, 0xffffffff, 0x0, 0x0⟩,
   ⟨0x50, 1, 1, 0x6c, 0x0, 1, 0x0, 1, .rwl, 0x0, 0xff, 0xff, 0x0, 0x0⟩,
   ⟨0x50, 1, 1, 0x78, 0x0, 1, 0x0, 1, .rw, 0x0, 0xfff, 0xfff, 0x0, 0x0⟩,
   ⟨0x50, 1, 1, 0x7c, 0x0, 1, 0x0, 1, .ro, 0x0, 0xfff, 0x0, 0x0, 0x0⟩,
   ⟨0x50, 1, 1, 0x80, 0x0, 1, 0x0, 1, .rw, 0x0, 0x1ff, 0x1ff, 0x0, 0x0⟩,
   ⟨0x50, 1, 1, 0x84, 0x0, 1, 0x0, 1, .ro, 0x0, 0x1ff, 0x0, 0x0, 0x0⟩,
   ⟨0x50, 1, 1, 0x88, 0x0, 1, 0x0, 1, .wo, 0x0, 0x7ff, 0x0, 0x0, 0x0⟩,
   ⟨0x50, 1, 1, 0x8c, 0x0, 1, 0x0, 1, .wo, 0x0, 0xf03ff, 0x0, 0x0, 0x0⟩,
   ⟨0x50, 1, 1, 0x90, 0x0, 1, 0x0, 1, .rwl, 0x0, 0xffffffff, 0xffffffff, 0x0, 0x0⟩,
   ⟨0x50, 1, 1, 0x94, 0x4, 4, 0x0, 1, .rwl, 0x0, 0xffffffff, 0xffffffff, 0x0, 0x0⟩,
   ⟨0x50, 1, 1, 0xa8, 0x0, 1, 0x0, 1, .ro, 0x0, 0x3ff0073, 0x0, 0x0, 0x0⟩,
   ⟨0x50, 1, 1, 0xac, 0x0, 1, 0x0, 1, .ro, 0x0, 0xffffffff, 0x0, 0x0, 0x0⟩,
   ⟨0x50, 1, 1, 0xb0, 0x0, 1, 0x0, 1, .ro, 0x0, 0xff, 0x0, 0x0, 0x0⟩,
   ⟨0x50, 1, 1, 0xc0, 0x4, 12, 0x0, 1, .rc, 0x0, 0xffffffff, 0x0, 0x0, 0x0⟩,
   ⟨0x51, 8, 1, 0x44, 0x10, 128, 0x0, 1, .ro, 0x0, 0xffffffff, 0x0, 0x0, 0x0⟩,
   ⟨0x51, 8, 1, 0x48, 0x10, 128, 0x0, 1, .ro, 0x0, 0xffffffff, 0x0, 0x0, 0x0⟩,
   ⟨0x51, 8, 1, 0x4c, 0x10, 128, 0x0, 1, .ro, 0x0, 0xffffffff, 0x0, 0x0, 0x0⟩]

/-- Registers whose reset value is zero, part 2. -/
def regRows2 : List RegRow :=
  [⟨0x70, 1, 1, 0x40, 0x0, 1, 0x0, 1, .ro, 0x0, 0xffffffff, 0x0, 0x0, 0x0⟩,
   ⟨0x70, 1, 1, 0x44, 0x0, 1, 0x0, 1, .ro, 0x0, 0xffffffff, 0x0, 0x0, 0x0⟩,
   ⟨0x70, 1, 1, 0x48, 0x0, 1, 0x0, 1, .ro, 0x0, 0xffffffff, 0x0, 0x0, 0x0⟩,
   ⟨0x70, 1, 1, 0x4c, 0x0, 1, 0x0, 1, .rc, 0x0, 0xffffffff, 0x0, 0x0, 0x0⟩,
   ⟨0x70, 1, 1, 0x50, 0x0, 1, 0x0, 1, .rc, 0x0, 0xffffffff, 0x0, 0x0, 0x0⟩,
   ⟨0x70, 1, 1, 0x54, 0x0, 1, 0x0, 1, .rc, 0x0, 0xffffffff, 0x0, 0x0, 0x0⟩,
   ⟨0x70, 1, 1, 0x58, 0x0, 1, 0x0, 1, .rc, 0x0, 0xffffffff, 0x0, 0x0, 0x0⟩,
   ⟨0x70, 1, 1, 0x5c, 0x0, 1, 0x0, 1, .rw, 0x0, 0x8003ffff, 0x8003ffff, 0x0, 0x0⟩,
   ⟨0x70, 1, 1, 0x60, 0x0, 1, 0x0, 1, .rw, 0x0, 0xffffffff, 0xffffffff, 0x0, 0x0⟩,
   ⟨0x70, 1, 1, 0x64, 0x0, 1, 0x0, 1, .wo, 0x0, 0x17ff, 0x0, 0x0, 0x0⟩,
   ⟨0x70, 1, 1, 0x68, 0x0, 1, 0x0, 1, .ro, 0x0, 0x1, 0x0, 0x0, 0x0⟩,
   ⟨0x72, 4, 1, 0x40, 0x10, 64, 0x0, 1, .rw, 0x0, 0xffff0713, 0xffff0713, 0x0, 0x0⟩,
   ⟨0x72, 4, 1, 0x44, 0x10, 64, 0x0, 1, .rw, 0x0, 0xffff, 0xffff, 0x0, 0x0⟩,
   ⟨0x72, 4, 1, 0x48, 0x10, 64, 0x0, 1, .ro, 0x0, 0xffff7fff, 0x0, 0x0, 0x0⟩,
   ⟨0x72, 4, 1, 0x4c, 0x10, 64, 0x0, 1, .rc, 0x0, 0xffff, 0x0, 0x0, 0x0⟩,
   ⟨0x60, 1, 1, 0x40, 0x0, 1, 0x0, 1, .rwl, 0x0, 0x3f, 0x3f, 0x0, 0x0⟩,
   ⟨0x60, 1, 1, 0x44, 0x0, 1, 0x0, 1, .rwl, 0x0, 0xffffffff, 0xffffffff, 0x0, 0x0⟩,
   ⟨0x60, 1, 1, 0x48, 0x0, 1, 0x0, 1, .rwl, 0x0, 0xff, 0xff, 0x0, 0x0⟩,
   ⟨0x60, 1, 1, 0x4c, 0x0, 1, 0x0, 1, .rwl, 0x0, 0xffffffff, 0xffffffff, 0x0, 0x0⟩,
   ⟨0x60, 1, 1, 0x50, 0x0, 1, 0x0, 1, .rwl, 0x0, 0xff, 0xff, 0x0, 0x0⟩,
   ⟨0x60, 1, 1, 0x54, 0x0, 1, 0x0, 1, .ro, 0x0, 0x807f3717, 0x0, 0x0, 0x0⟩,
   ⟨0x60, 1, 1, 0x58, 0x0, 1, 0x0, 1, .ro, 0x0, 0x1fffff, 0x0, 0x0, 0x0⟩,
   ⟨0x60, 1, 1, 0x5c, 0x0, 1, 0x0, 1, .rc, 0x0, 0xffffffff, 0x0, 0x0, 0x0⟩,
   ⟨0x60, 1, 1, 0x60, 0x0, 1, 0x0, 1, .ro, 0x0, 0x773, 0x0, 0x0, 0x0⟩,
   ⟨0x60, 1, 1, 0x64, 0x0, 1, 0x0, 1, .ro, 0x0, 0xffffffff, 0x0, 0x0, 0x0⟩,
   ⟨0x60, 1, 1, 0x68, 0x0, 1, 0x0, 1, .ro, 0x0, 0xff, 0x0, 0x0, 0x0⟩,
   ⟨0x60, 1, 1, 0x6c, 0x0, 1, 0x0, 1, .rc, 0x0, 0xffffffff, 0x0, 0x0, 0x0⟩,
   ⟨0x61, 1, 1, 0x40, 0x0, 1, 0x0, 1, .rw, 0x0, 0x7f, 0x7f, 0x0, 0x0⟩,
   ⟨0x61, 1, 1, 0x44, 0x0, 1, 0x0, 1, .ro, 0x0, 0x7f, 0x0, 0x0, 0x0⟩,
   ⟨0x61, 1, 1, 0x48, 0x0, 1, 0x0, 1, .rw, 0x0, 0x7f, 0x7f, 0x0, 0x0⟩,
   ⟨0x61, 1, 1, 0x4c, 0x0, 1, 0x0, 1, .ro, 0x0, 0x7f, 0x0, 0x0, 0x0⟩,
   ⟨0x61, 1, 1, 0x50, 0x0, 1, 0x0, 1, .wo, 0x0, 0x107, 0x0, 0x0, 0x0⟩,
   ⟨0x62, 8, 1, 0x40, 0x0, 1, 0x0, 1, .wo, 0x0, 0x3f03, 0x0, 0x0, 0x0⟩,
   ⟨0x62, 8, 1, 0x44, 0x0, 1, 0x0, 1, .rw, 0x0, 0xffffffff, 0xffffffff, 0x0, 0x0⟩,
   ⟨0x62, 8, 1, 0x48, 0x0, 1, 0x0, 1, .rw, 0x0, 0xff, 0xff, 0x0, 0x0⟩,
   ⟨0x62, 8, 1, 0x4c, 0x0, 1, 0x0, 1, .rw, 0x0, 0xff00ff, 0xff00ff, 0x0, 0x0⟩,
   ⟨0x62, 8, 1, 0x50, 0x0, 1, 0x0, 1, .rw, 0x0, 0xffffffff, 0xffffffff, 0x0, 0x0⟩,
   ⟨0x62, 8, 1, 0x54, 0x0, 1, 0x0, 1, .rw, 0x0, 0x3fff, 0x3fff, 0x0, 0x0⟩,
   ⟨0x62, 8, 1, 0x58, 0x0, 1, 0x0, 1, .ro, 0x0, 0x17fff03, 0x0, 0x0, 0x0⟩,
   ⟨0x62, 8, 1, 0x5c, 0x0, 1, 0x0, 1, .ro, 0x0, 0xffffffff, 0x0, 0x0, 0x0⟩]

/-- Registers whose reset value is zero, part 3. -/
def regRows3 : List RegRow :=
  [⟨0x62, 8, 1, 0x60, 0x0, 1, 0x0, 1, .ro, 0x0, 0xffffffff, 0x0, 0x0, 0x0⟩,
   ⟨0x62, 8, 1, 0x64, 0x0, 1, 0x0, 1, .ro, 0x0, 0xffffffff, 0x0, 0x0, 0x0⟩,
   ⟨0x62, 8, 1, 0x68, 0x0, 1, 0x0, 1, .ro, 0x0, 0x1fffff, 0x0, 0x0, 0x0⟩,
   ⟨0x62, 8, 1, 0x6c, 0x0, 1, 0x0, 1, .ro, 0x0, 0x1fffff, 0x0, 0x0, 0x0⟩,
   ⟨0x62, 8, 1, 0x70, 0x0, 1, 0x0, 1, .ro, 0x0, 0x3ffff, 0x0, 0x0, 0x0⟩,
   ⟨0x62, 8, 1, 0x74, 0x0, 1, 0x0, 1, .ro, 0x0, 0xffffffff, 0x0, 0x0, 0x0⟩,
   ⟨0x90, 1, 1, 0x40, 0x0, 1, 0x0, 1, .rwl, 0x0, 0xffffffff, 0xffffffff, 0x0, 0x0⟩,
   ⟨0x90, 1, 1, 0x44, 0x0, 1, 0x0, 1, .rwl, 0x0, 0xffffff0f, 0xffffff0f, 0x0, 0x0⟩,
   ⟨0x90, 1, 1, 0x4c, 0x0, 1, 0x0, 1, .rwl, 0x0, 0xffffffff, 0xffffffff, 0x0, 0x0⟩,
   ⟨0x90, 1, 1, 0x50, 0x0, 1, 0x0, 1, .rwl, 0x0, 0xffff, 0xffff, 0x0, 0x0⟩,
   ⟨0x90, 1, 1, 0x54, 0x0, 1, 0x0, 1, .ro, 0x0, 0xffff, 0x0, 0x0, 0x0⟩,
   ⟨0x90, 1, 1, 0x58, 0x0, 1, 0x0, 1, .rwl, 0x0, 0xffffffff, 0xffffffff, 0x0, 0x0⟩,
   ⟨0x90, 1, 1, 0x5c, 0x0, 1, 0x0, 1, .ro, 0x0, 0xf, 0x0, 0x0, 0x0⟩,
   ⟨0x90, 1, 1, 0x60, 0x0, 1, 0x0, 1, .ro, 0x0, 0xffffffff, 0x0, 0x0, 0x0⟩,
   ⟨0x90, 1, 1, 0x64, 0x0, 1, 0x0, 1, .wo, 0x0, 0xf, 0x0, 0x0, 0x0⟩,
   ⟨0x90, 1, 1, 0x68, 0x0, 1, 0x0, 1, .ro, 0x0, 0x7, 0x0, 0x0, 0x0⟩,
   ⟨0x90, 1, 1, 0x70, 0x4, 4, 0x0, 1, .rw, 0x0, 0x1ffff, 0x1ffff, 0x0, 0x0⟩,
   ⟨0x91, 1, 1, 0x40, 0x80, 4, 0x14, 3, .ro, 0x0, 0xffffffff, 0x0, 0x0, 0x0⟩,
   ⟨0x91, 1, 1, 0x44, 0x80, 4, 0x14, 3, .ro, 0x0, 0xffffffff, 0x0, 0x0, 0x0⟩,
   ⟨0x91, 1, 1, 0x48, 0x80, 4, 0x14, 3, .ro, 0x0, 0xffffffff, 0x0, 0x0, 0x0⟩,
   ⟨0x91, 1, 1, 0x4c, 0x80, 4, 0x14, 3, .ro, 0x0, 0xffffffff, 0x0, 0x0, 0x0⟩,
   ⟨0x91, 1, 1, 0x50, 0x80, 4, 0x14, 3, .ro, 0x0, 0xffffffff, 0x0, 0x0, 0x0⟩,
   ⟨0x91, 1, 1, 0x7c, 0x80, 4, 0x0, 1, .ro, 0x0, 0xffffffff, 0x0, 0x0, 0x0⟩,
   ⟨0x91, 1, 1, 0x80, 0x80, 4, 0x0, 1, .ro, 0x0, 0xffffffff, 0x0, 0x0, 0x0⟩,
   ⟨0x91, 1, 1, 0x84, 0x80, 4, 0x0, 1, .ro, 0x0, 0xffffffff, 0x0, 0x0, 0x0⟩,
   ⟨0x91, 1, 1, 0x88, 0x80, 4, 0x0, 1, .ro, 0x0, 0x7ff, 0x0, 0x0, 0x0⟩,
   ⟨0x91, 1, 1, 0x8c, 0x80, 4, 0x0, 1, .ro, 0x0, 0xfffffff, 0x0, 0x0, 0x0⟩,
   ⟨0x80, 1, 1, 0x40, 0x0, 1, 0x0, 1, .rwl, 0x0, 0xf7f7f7f7, 0xf7f7f7f7, 0x0, 0x0⟩,
   ⟨0x80, 1, 1, 0x44, 0x0, 1, 0x0, 1, .rwl, 0x0, 0x1f, 0x1f, 0x0, 0x0⟩,
   ⟨0x80, 1, 1, 0x48, 0x0, 1, 0x0, 1, .rc, 0x0, 0xffffffff, 0x0, 0x0, 0x0⟩,
   ⟨0x80, 1, 1, 0x4c, 0x0, 1, 0x0, 1, .ro, 0x0, 0xffff, 0x0, 0x0, 0x0⟩,
   ⟨0x80, 1, 1, 0x50, 0x0, 1, 0x0, 1, .ro, 0x0, 0xffff, 0x0, 0x0, 0x0⟩,
   ⟨0x80, 1, 1, 0x60, 0x4, 4, 0x0, 1, .ro, 0x0, 0xffffffff, 0x0, 0x0, 0x0⟩,
   ⟨0x81, 8, 1, 0x40, 0x100, 2, 0x0, 1, .rwl, 0x0, 0x80007ff7, 0x80007ff7, 0x0, 0x0⟩,
   ⟨0x81, 8, 1, 0x44, 0x100, 2, 0x0, 1, .rwl, 0x0, 0xf0f0f, 0xf0f0f, 0x0, 0x0⟩,
   ⟨0x81, 8, 1, 0x48, 0x100, 2, 0x0, 1, .rwl, 0x0, 0xffffffff, 0xffffffff, 0x0, 0x0⟩,
   ⟨0x81, 8, 1, 0x5c, 0x100, 2, 0x0, 1, .rwl, 0x0, 0xffffffff, 0xffffffff, 0x0, 0x0⟩,
   ⟨0x81, 8, 1, 0x60, 0x100, 2, 0x0, 1, .rwl, 0x0, 0xffffffff, 0xffffffff, 0x0, 0x0⟩,
   ⟨0x81, 8, 1, 0x64, 0x100, 2, 0x0, 1, .rwl, 0x0, 0xffff, 0xffff, 0x0, 0x0⟩,
   ⟨0x81, 8, 1, 0x68, 0x100, 2, 0x0, 1, .rwl, 0x0, 0xffffffff, 0xffffffff, 0x0, 0x0⟩]

/-- Registers whose reset value is zero, part 4. -/
def regRows4 : List RegRow :=
  [⟨0x81, 8, 1, 0x6c, 0x100, 2, 0x0, 1, .rwl, 0x0, 0xffff, 0xffff, 0x0, 0x0⟩,
   ⟨0x81, 8, 1, 0x70, 0x100, 2, 0x0, 1, .rwl, 0x0, 0xffff0003, 0xffff0003, 0x0, 0x0⟩,
   ⟨0x81, 8, 1, 0x74, 0x100, 2, 0x0, 1, .rwl, 0x0, 0x7fffffff, 0x7fffffff, 0x0, 0x0⟩,
   ⟨0x81, 8, 1, 0x78, 0x100, 2, 0x0, 1, .rwl, 0x0, 0xffffffff, 0xffffffff, 0x0, 0x0⟩,
   ⟨0x81, 8, 1, 0x7c, 0x100, 2, 0x0, 1, .rwl, 0x0, 0xffffffff, 0xffffffff, 0x0, 0x0⟩,
   ⟨0x81, 8, 1, 0x80, 0x100, 2, 0x0, 1, .rwl, 0x0, 0xffffffff, 0xffffffff, 0x0, 0x0⟩,
   ⟨0x81, 8, 1, 0x84, 0x100, 2, 0x0, 1, .rwl, 0x0, 0xffffffff, 0xffffffff, 0x0, 0x0⟩,
   ⟨0x81, 8, 1, 0x88, 0x100, 2, 0x0, 1, .rwl, 0x0, 0x8fff, 0x8fff, 0x0, 0x0⟩,
   ⟨0x81, 8, 1, 0x8c, 0x100, 2, 0x0, 1, .rwl, 0x0, 0xffff, 0xffff, 0x0, 0x0⟩,
   ⟨0x81, 8, 1, 0x90, 0x100, 2, 0x0, 1, .rw, 0x0, 0xffffffff, 0xffffffff, 0x0, 0x0⟩,
   ⟨0x81, 8, 1, 0x94, 0x100, 2, 0x0, 1, .rw, 0x0, 0xffff, 0xffff, 0x0, 0x0⟩,
   ⟨0x81, 8, 1, 0x98, 0x100, 2, 0x0, 1, .wo, 0x0, 0xf, 0x0, 0x0, 0x0⟩,
   ⟨0x81, 8, 1, 0x9c, 0x100, 2, 0x0, 1, .ro, 0x0, 0x1fffff, 0x0, 0x0, 0x0⟩,
   ⟨0x81, 8, 1, 0xa0, 0x100, 2, 0x0, 1, .w1c, 0x0, 0x3ff, 0x0, 0x3ff, 0x0⟩,
   ⟨0x81, 8, 1, 0xa4, 0x100, 2, 0x0, 1, .ro, 0x0, 0xffffffff, 0x0, 0x0, 0x0⟩,
   ⟨0x81, 8, 1, 0xa8, 0x100, 2, 0x0, 1, .ro, 0x0, 0xffffffff, 0x0, 0x0, 0x0⟩,
   ⟨0x81, 8, 1, 0xac, 0x100, 2, 0x0, 1, .ro, 0x0, 0xffffffff, 0x0, 0x0, 0x0⟩,
   ⟨0x81, 8, 1, 0xb0, 0x100, 2, 0x0, 1, .ro, 0x0, 0xffffffff, 0x0, 0x0, 0x0⟩,
   ⟨0x81, 8, 1, 0xb4, 0x100, 2, 0x0, 1, .ro, 0x0, 0xffffffff, 0x0, 0x0, 0x0⟩,
   ⟨0x81, 8, 1, 0xb8, 0x100, 2, 0x0, 1, .rw, 0x0, 0xffffffff, 0xffffffff, 0x0, 0x0⟩,
   ⟨0x81, 8, 1, 0xc0, 0x100, 2, 0x0, 1, .rw, 0x0, 0xffffffff, 0xffffffff, 0x0, 0x0⟩,
   ⟨0x81, 8, 1, 0xc4, 0x100, 2, 0x0, 1, .rw, 0x0, 0xffffffff, 0xffffffff, 0x0, 0x0⟩,
   ⟨0x81, 8, 1, 0xc8, 0x100, 2, 0x0, 1, .ro, 0x0, 0xffffff, 0x0, 0x0, 0x0⟩,
   ⟨0xa0, 1, 1, 0x40, 0x0, 1, 0x0, 1, .wo, 0x0, 0xff0f, 0x0, 0x0, 0x0⟩,
   ⟨0xa0, 1, 1, 0x44, 0x0, 1, 0x0, 1, .ro, 0x0, 0xff03f3, 0x0, 0x0, 0x0⟩,
   ⟨0xa0, 1, 1, 0x48, 0x0, 1, 0x0, 1, .wo, 0x0, 0xffffffff, 0x0, 0x0, 0x0⟩,
   ⟨0xa0, 1, 1, 0x4c, 0x0, 1, 0x0, 1, .ro, 0x0, 0xff, 0x0, 0x0, 0x0⟩,
   ⟨0xa0, 1, 1, 0x50, 0x0, 1, 0x0, 1, .rw, 0x0, 0xffffffff, 0xffffffff, 0x0, 0x0⟩,
   ⟨0xa0, 1, 1, 0x54, 0x0, 1, 0x0, 1, .rw, 0x0, 0xffffffff, 0xffffffff, 0x0, 0x0⟩,
   ⟨0xa0, 1, 1, 0x58, 0x0, 1, 0x0, 1, .rw, 0x0, 0xffff, 0xffff, 0x0, 0x0⟩,
   ⟨0xa0, 1, 1, 0x5c, 0x0, 1, 0x0, 1, .ro, 0x0, 0xffff, 0x0, 0x0, 0x0⟩,
   ⟨0xa0, 1, 1, 0x60, 0x0, 1, 0x0, 1, .ro, 0x0, 0xffff, 0x0, 0x0, 0x0⟩,
   ⟨0xa0, 1, 1, 0x68, 0x0, 1, 0x0, 1, .rc, 0x0, 0xffffffff, 0x0, 0x0, 0x0⟩,
   ⟨0xa0, 1, 1, 0x6c, 0x0, 1, 0x0, 1, .ro, 0x0, 0xffffffff, 0x0, 0x0, 0x0⟩,
   ⟨0xa1, 1, 1, 0x40, 0x0, 1, 0x0, 1, .ro, 0x0, 0xffff, 0x0, 0x0, 0x0⟩,
   ⟨0xa1, 1, 1, 0x44, 0x0, 1, 0x0, 1, .ro, 0x0, 0xffff, 0x0, 0x0, 0x0⟩,
   ⟨0xa1, 1, 1, 0x48, 0x0, 1, 0x0, 1, .ro, 0x0, 0xffff, 0x0, 0x0, 0x0⟩,
   ⟨0xa1, 1, 1, 0x4c, 0x0, 1, 0x0, 1, .ro, 0x0, 0xff, 0x0, 0x0, 0x0⟩,
   ⟨0xa1, 1, 1, 0x50, 0x0, 1, 0x0, 1, .rw, 0x0, 0xff, 0xff, 0x0, 0x0⟩,
   ⟨0xa1, 1, 1, 0x54, 0x0, 1, 0x0, 1, .ro, 0x0, 0xffff, 0x0, 0x0, 0x0⟩]

/-- Registers whose reset value is zero, part 5. -/
def regRows5 : List RegRow :=
  [⟨0xa1, 1, 1, 0x58, 0x0, 1, 0x0, 1, .ro, 0x0, 0xffff, 0x0, 0x0, 0x0⟩,
   ⟨0xa1, 1, 1, 0x5c, 0x0, 1, 0x0, 1, .ro, 0x0, 0xff, 0x0, 0x0, 0x0⟩,
   ⟨0xa3, 1, 1, 0x40, 0x0, 1, 0x0, 1, .rw, 0x0, 0xff, 0xff, 0x0, 0x0⟩,
   ⟨0xa3, 1, 1, 0x44, 0x0, 1, 0x0, 1, .wo, 0x0, 0x3, 0x0, 0x0, 0x0⟩,
   ⟨0xa3, 1, 1, 0x50, 0x4, 20, 0x0, 1, .rw, 0x0, 0xffffffff, 0xffffffff, 0x0, 0x0⟩,
   ⟨0xa3, 1, 1, 0xa0, 0x4, 8, 0x0, 1, .ro, 0x0, 0xffffffff, 0x0, 0x0, 0x0⟩,
   ⟨0xa4, 1, 1, 0x40, 0x0, 1, 0x0, 1, .rw, 0x0, 0xff, 0xff, 0x0, 0x0⟩,
   ⟨0xa4, 1, 1, 0x44, 0x0, 1, 0x0, 1, .ro, 0x0, 0x3, 0x0, 0x0, 0x0⟩,
   ⟨0xa4, 1, 1, 0x48, 0x4, 16, 0x0, 1, .ro, 0x0, 0xffffffff, 0x0, 0x0, 0x0⟩,
   ⟨0xa4, 1, 1, 0x88, 0x4, 16, 0x0, 1, .rw, 0x0, 0xffffffff, 0xffffffff, 0x0, 0x0⟩,
   ⟨0xb0, 1, 1, 0x40, 0x0, 1, 0x0, 1, .rwl, 0x0, 0xffffff1, 0xffffff1, 0x0, 0x0⟩,
   ⟨0xb0, 1, 1, 0x44, 0x0, 1, 0x0, 1, .rwl, 0x0, 0xffffffff, 0xffffffff, 0x0, 0x0⟩,
   ⟨0xb0, 1, 1, 0x48, 0x0, 1, 0x0, 1, .rwl, 0x0, 0xffffffff, 0xffffffff, 0x0, 0x0⟩,
   ⟨0xb0, 1, 1, 0x4c, 0x0, 1, 0x0, 1, .rwl, 0x0, 0xfff0fff, 0xfff0fff, 0x0, 0x0⟩,
   ⟨0xb0, 1, 1, 0x50, 0x0, 1, 0x0, 1, .rwl, 0x0, 0xffffffff, 0xffffffff, 0x0, 0x0⟩,
   ⟨0xb0, 1, 1, 0x54, 0x0, 1, 0x0, 1, .rwl, 0x0, 0xffff, 0xffff, 0x0, 0x0⟩,
   ⟨0xb0, 1, 1, 0x58, 0x4, 3, 0x0, 1, .rwl, 0x0, 0xffffffff, 0xffffffff, 0x0, 0x0⟩,
   ⟨0xb0, 1, 1, 0x64, 0x0, 1, 0x0, 1, .rwl, 0x0, 0xffffffff, 0xffffffff, 0x0, 0x0⟩,
   ⟨0xb0, 1, 1, 0x68, 0x0, 1, 0x0, 1, .rwl, 0x0, 0xffffffff, 0xffffffff, 0x0, 0x0⟩,
   ⟨0xb0, 1, 1, 0x6c, 0x0, 1, 0x0, 1, .wo, 0x0, 0xffff000f, 0x0, 0x0, 0x0⟩,
   ⟨0xb0, 1, 1, 0x70, 0x0, 1, 0x0, 1, .wo, 0x0, 0xffffffff, 0x0, 0x0, 0x0⟩,
   ⟨0xb0, 1, 1, 0x74, 0x0, 1, 0x0, 1, .ro, 0x0, 0x3ffff37, 0x0, 0x0, 0x0⟩,
   ⟨0xb0, 1, 1, 0x78, 0x0, 1, 0x0, 1, .w1c, 0x0, 0xffff, 0x0, 0xffff, 0x0⟩,
   ⟨0xb0, 1, 1, 0x7c, 0x0, 1, 0x0, 1, .rc, 0x0, 0xffffffff, 0x0, 0x0, 0x0⟩,
   ⟨0xb0, 1, 1, 0x80, 0x0, 1, 0x0, 1, .ro, 0x0, 0xffffffff, 0x0, 0x0, 0x0⟩,
   ⟨0xb0, 1, 1, 0x84, 0x0, 1, 0x0, 1, .rc, 0x0, 0xffffffff, 0x0, 0x0, 0x0⟩,
   ⟨0xb0, 1, 1, 0x88, 0x0, 1, 0x0, 1, .rc, 0x0, 0xffffffff, 0x0, 0x0, 0x0⟩,
   ⟨0xc0, 1, 1, 0x40, 0x0, 1, 0x0, 1, .ro, 0x0, 0x3fffffff, 0x0, 0x0, 0x0⟩,
   ⟨0xc0, 1, 1, 0x44, 0x0, 1, 0x0, 1, .ro, 0x0, 0xffffffff, 0x0, 0x0, 0x0⟩,
   ⟨0xc0, 1, 1, 0x48, 0x0, 1, 0x0, 1, .ro, 0x0, 0xffff, 0x0, 0x0, 0x0⟩,
   ⟨0xc0, 1, 1, 0x4c, 0x0, 1, 0x0, 1, .ro, 0x0, 0xffff, 0x0, 0x0, 0x0⟩,
   ⟨0xc0, 1, 1, 0x50, 0x0, 1, 0x0, 1, .ro, 0x0, 0xffffffff, 0x0, 0x0, 0x0⟩,
   ⟨0xc0, 1, 1, 0x54, 0x0, 1, 0x0, 1, .ro, 0x0, 0xffffffff, 0x0, 0x0, 0x0⟩,
   ⟨0xc0, 1, 1, 0x58, 0x0, 1, 0x0, 1, .ro, 0x0, 0xffffffff, 0x0, 0x0, 0x0⟩,
   ⟨0xc0, 1, 1, 0x5c, 0x0, 1, 0x0, 1, .ro, 0x0, 0xffffffff, 0x0, 0x0, 0x0⟩,
   ⟨0xc0, 1, 1, 0x60, 0x0, 1, 0x0, 1, .rw, 0x0, 0xffffffff, 0xffffffff, 0x0, 0x0⟩,
   ⟨0xc0, 1, 1, 0x64, 0x0, 1, 0x0, 1, .wo, 0x0, 0xffffffff, 0x0, 0x0, 0x0⟩,
   ⟨0xc0, 1, 1, 0x6c, 0x0, 1, 0x0, 1, .ro, 0x0, 0xffffffff, 0x0, 0x0, 0x0⟩,
   ⟨0xc0, 1, 1, 0x70, 0x0, 1, 0x0, 1, .rw, 0x0, 0xffffffff, 0xffffffff, 0x0, 0x0⟩,
   ⟨0xc0, 1, 1, 0x74, 0x0, 1, 0x0, 1, .rw, 0x0, 0xffffffff, 0xffffffff, 0x0, 0x0⟩]

/-- Registers whose reset value is zero, part 6. -/
def regRows6 : List RegRow :=
  [⟨0xc0, 1, 1, 0x78, 0x0, 1, 0x0, 1, .rw, 0x0, 0xffffffff, 0xffffffff, 0x0, 0x0⟩,
   ⟨0xc0, 1, 1, 0x7c, 0x0, 1, 0x0, 1, .rw, 0x0, 0xffff, 0xffff, 0x0, 0x0⟩,
   ⟨0xc0, 1, 1, 0x80, 0x0, 1, 0x0, 1, .rw, 0x0, 0x3fffffff, 0x3fffffff, 0x0, 0x0⟩,
   ⟨0xc0, 1, 1, 0x84, 0x0, 1, 0x0, 1, .wo, 0x0, 0x10f, 0x0, 0x0, 0x0⟩,
   ⟨0xc0, 1, 1, 0x90, 0x0, 1, 0x0, 1, .rw, 0x0, 0xffffffff, 0xffffffff, 0x0, 0x0⟩,
   ⟨0xc0, 1, 1, 0x94, 0x0, 1, 0x0, 1, .rw, 0x0, 0xffffffff, 0xffffffff, 0x0, 0x0⟩,
   ⟨0xc0, 1, 1, 0x9c, 0x0, 1, 0x0, 1, .rw, 0x0, 0xffffff, 0xffffff, 0x0, 0x0⟩,
   ⟨0xc0, 1, 1, 0xa0, 0x0, 1, 0x0, 1, .rw, 0x0, 0xffffffff, 0xffffffff, 0x0, 0x0⟩,
   ⟨0xc0, 1, 1, 0xa4, 0x0, 1, 0x0, 1, .wo, 0x0, 0xffffffff, 0x0, 0x0, 0x0⟩,
   ⟨0xc0, 1, 1, 0xa8, 0x0, 1, 0x0, 1, .ro, 0x0, 0xffffff1f, 0x0, 0x0, 0x0⟩,
   ⟨0xc0, 1, 1, 0xac, 0x0, 1, 0x0, 1, .ro, 0x0, 0xffffffff, 0x0, 0x0, 0x0⟩,
   ⟨0xc0, 1, 1, 0xb0, 0x0, 1, 0x0, 1, .ro, 0x0, 0xffffffff, 0x0, 0x0, 0x0⟩,
   ⟨0xc0, 1, 1, 0xb4, 0x0, 1, 0x0, 1, .ro, 0x0, 0xffffffff, 0x0, 0x0, 0x0⟩,
   ⟨0xc0, 1, 1, 0xb8, 0x0, 1, 0x0, 1, .rc, 0x0, 0xffffffff, 0x0, 0x0, 0x0⟩,
   ⟨0xc1, 4, 1, 0x40, 0x0, 1, 0x0, 1, .rw, 0x0, 0xffffffff, 0xffffffff, 0x0, 0x0⟩,
   ⟨0xc1, 4, 1, 0x44, 0x0, 1, 0x0, 1, .rw, 0x0, 0xffffffff, 0xffffffff, 0x0, 0x0⟩,
   ⟨0xc1, 4, 1, 0x48, 0x0, 1, 0x0, 1, .ro, 0x0, 0x81ffffff, 0x0, 0x0, 0x0⟩,
   ⟨0xc1, 4, 1, 0x4c, 0x0, 1, 0x0, 1, .ro, 0x0, 0xffffffff, 0x0, 0x0, 0x0⟩,
   ⟨0xc1, 4, 1, 0x50, 0x0, 1, 0x0, 1, .ro, 0x0, 0xffff, 0x0, 0x0, 0x0⟩,
   ⟨0xc1, 4, 1, 0x54, 0x0, 1, 0x0, 1, .ro, 0x0, 0x3fffffff, 0x0, 0x0, 0x0⟩,
   ⟨0xc1, 4, 1, 0x58, 0x0, 1, 0x0, 1, .ro, 0x0, 0x3f, 0x0, 0x0, 0x0⟩,
   ⟨0xc1, 4, 1, 0x5c, 0x0, 1, 0x0, 1, .rc, 0x0, 0xffffffff, 0x0, 0x0, 0x0⟩,
   ⟨0xc1, 4, 1, 0x60, 0x0, 1, 0x0, 1, .rc, 0x0, 0xffffffff, 0x0, 0x0, 0x0⟩,
   ⟨0xc1, 4, 1, 0x68, 0x0, 1, 0x0, 1, .rw, 0x0, 0xffffffff, 0xffffffff, 0x0, 0x0⟩,
   ⟨0xc5, 1, 1, 0x40, 0x0, 1, 0x0, 1, .ro, 0x0, 0x7fff, 0x0, 0x0, 0x0⟩,
   ⟨0xc5, 1, 1, 0x44, 0x0, 1, 0x0, 1, .ro, 0x0, 0x7f, 0x0, 0x0, 0x0⟩,
   ⟨0xc5, 1, 1, 0x48, 0x0, 1, 0x0, 1, .ro, 0x0, 0x7f, 0x0, 0x0, 0x0⟩,
   ⟨0xc5, 1, 1, 0x4c, 0x0, 1, 0x0, 1, .ro, 0x0, 0x3f, 0x0, 0x0, 0x0⟩,
   ⟨0xc5, 1, 1, 0x60, 0x0, 1, 0x0, 1, .rw, 0x0, 0x7f, 0x7f, 0x0, 0x0⟩,
   ⟨0xc5, 1, 1, 0x64, 0x0, 1, 0x0, 1, .rw, 0x0, 0x7f, 0x7f, 0x0, 0x0⟩,
   ⟨0xc5, 1, 1, 0x68, 0x0, 1, 0x0, 1, .rw, 0x0, 0x3f, 0x3f, 0x0, 0x0⟩,
   ⟨0xc5, 1, 1, 0x6c, 0x0, 1, 0x0, 1, .rw, 0x0, 0x7, 0x7, 0x0, 0x0⟩,
   ⟨0xc5, 1, 1, 0x70, 0x0, 1, 0x0, 1, .rw, 0x0, 0x3f, 0x3f, 0x0, 0x0⟩,
   ⟨0xc5, 1, 1, 0x74, 0x0, 1, 0x0, 1, .rw, 0x0, 0x1f, 0x1f, 0x0, 0x0⟩,
   ⟨0xc5, 1, 1, 0x78, 0x0, 1, 0x0, 1, .rw, 0x0, 0xffff, 0xffff, 0x0, 0x0⟩,
   ⟨0xc5, 1, 1, 0x7c, 0x0, 1, 0x0, 1, .wo, 0x0, 0xf, 0x0, 0x0, 0x0⟩,
   ⟨0xc5, 1, 1, 0x80, 0x0, 1, 0x0, 1, .ro, 0x0, 0x7, 0x0, 0x0, 0x0⟩,
   ⟨0xc5, 1, 1, 0x84, 0x0, 1, 0x0, 1, .rw, 0x0, 0x73f7f7f, 0x73f7f7f, 0x0, 0x0⟩,
   ⟨0xc5, 1, 1, 0x88, 0x0, 1, 0x0, 1, .rw, 0x0, 0x813f1f3f, 0x813f1f3f, 0x0, 0x0⟩,
   ⟨0xc5, 1, 1, 0x8c, 0x0, 1, 0x0, 1, .rw, 0x0, 0x73f7f7f, 0x73f7f7f, 0x0, 0x0⟩]

/-- Registers whose reset value is zero, part 7. -/
def regRows7 : List RegRow :=
  [⟨0xc5, 1, 1, 0x90, 0x0, 1, 0x0, 1, .rw, 0x0, 0x813f1f3f, 0x813f1f3f, 0x0, 0x0⟩,
   ⟨0xd0, 4, 3, 0x40, 0x0, 1, 0x0, 1, .rwl, 0x0, 0x133, 0x133, 0x0, 0x0⟩,
   ⟨0xd0, 4, 3, 0x44, 0x0, 1, 0x0, 1, .rwl, 0x0, 0xffffffff, 0xffffffff, 0x0, 0x0⟩,
   ⟨0xd0, 4, 3, 0x48, 0x0, 1, 0x0, 1, .rwl, 0x0, 0xffff, 0xffff, 0x0, 0x0⟩,
   ⟨0xd0, 4, 3, 0x4c, 0x0, 1, 0x0, 1, .ro, 0x0, 0x3, 0x0, 0x0, 0x0⟩,
   ⟨0xd0, 4, 3, 0x50, 0x4, 16, 0x0, 1, .rwl, 0x0, 0x173ffff, 0x173ffff, 0x0, 0x0⟩,
   ⟨0xd0, 4, 3, 0x90, 0x0, 1, 0x0, 1, .rwl, 0x0, 0x1efff, 0x1efff, 0x0, 0x0⟩,
   ⟨0xd0, 4, 3, 0x94, 0x0, 1, 0x0, 1, .wo, 0x0, 0xfff, 0x0, 0x0, 0x0⟩,
   ⟨0xd0, 4, 3, 0x98, 0x0, 1, 0x0, 1, .rw, 0x0, 0x8000ffff, 0xffff, 0x0, 0x0⟩,
   ⟨0xd0, 4, 3, 0xa0, 0x0, 1, 0x0, 1, .rwl, 0x0, 0x7f, 0x7f, 0x0, 0x0⟩,
   ⟨0xd0, 4, 3, 0xa4, 0x0, 1, 0x0, 1, .rwl, 0x0, 0xffffffff, 0xffffffff, 0x0, 0x0⟩,
   ⟨0xd0, 4, 3, 0xa8, 0x0, 1, 0x0, 1, .rw, 0x0, 0x3, 0x3, 0x0, 0x0⟩,
   ⟨0xd0, 4, 3, 0xac, 0x4, 4, 0x0, 1, .rw, 0x0, 0x8000007f, 0x8000007f, 0x0, 0x0⟩,
   ⟨0xd0, 4, 3, 0xcc, 0x4, 8, 0x0, 1, .rwl, 0x0, 0xffffffff, 0xffffffff, 0x0, 0x0⟩,
   ⟨0xd0, 4, 3, 0xec, 0x4, 16, 0x0, 1, .rw, 0x0, 0x8000007f, 0x8000007f, 0x0, 0x0⟩,
   ⟨0xd0, 4, 3, 0x170, 0x4, 12, 0x0, 1, .rc, 0x0, 0xffffffff, 0x0, 0x0, 0x0⟩,
   ⟨0xd1, 4, 3, 0x40, 0x20, 8, 0x0, 1, .rwl, 0x0, 0xffffffff, 0xffffffff, 0x0, 0x0⟩,
   ⟨0xd1, 4, 3, 0x44, 0x20, 8, 0x0, 1, .rwl, 0x0, 0x8003000f, 0x8003000f, 0x0, 0x0⟩,
   ⟨0xd1, 4, 3, 0x48, 0x20, 8, 0x0, 1, .rw, 0x0, 0x7ff, 0x7ff, 0x0, 0x0⟩,
   ⟨0xd1, 4, 3, 0x4c, 0x20, 8, 0x0, 1, .ro, 0x0, 0x7ff, 0x0, 0x0, 0x0⟩,
   ⟨0xd1, 4, 3, 0x50, 0x20, 8, 0x0, 1, .rwl, 0x0, 0x3fffff, 0x3fffff, 0x0, 0x0⟩,
   ⟨0xd1, 4, 3, 0x54, 0x20, 8, 0x0, 1, .ro, 0x0, 0xffffffff, 0x0, 0x0, 0x0⟩,
   ⟨0xd1, 4, 3, 0x140, 0x10, 8, 0x0, 1, .rwl, 0x0, 0xffffffff, 0xffffffff, 0x0, 0x0⟩,
   ⟨0xd1, 4, 3, 0x144, 0x10, 8, 0x0, 1, .rwl, 0x0, 0x8000000f, 0x8000000f, 0x0, 0x0⟩,
   ⟨0xd1, 4, 3, 0x148, 0x10, 8, 0x0, 1, .rw, 0x0, 0x7ff, 0x7ff, 0x0, 0x0⟩,
   ⟨0xd1, 4, 3, 0x14c, 0x10, 8, 0x0, 1, .ro, 0x0, 0x7ff, 0x0, 0x0, 0x0⟩,
   ⟨0xd2, 4, 3, 0x40, 0x0, 1, 0x0, 1, .rw, 0x0, 0x1ff0001, 0x1ff0001, 0x0, 0x0⟩,
   ⟨0xd2, 4, 3, 0x44, 0x0, 1, 0x0, 1, .rw, 0x0, 0x3fffffff, 0x3fffffff, 0x0, 0x0⟩,
   ⟨0xd2, 4, 3, 0x48, 0x0, 1, 0x0, 1, .rw, 0x0, 0x3fffffff, 0x3fffffff, 0x0, 0x0⟩,
   ⟨0xd2, 4, 3, 0x4c, 0x0, 1, 0x0, 1, .rw, 0x0, 0xffffffff, 0xffffffff, 0x0, 0x0⟩,
   ⟨0xd2, 4, 3, 0x50, 0x0, 1, 0x0, 1, .rw, 0x0, 0xffff, 0xffff, 0x0, 0x0⟩,
   ⟨0xd2, 4, 3, 0x54, 0x0, 1, 0x0, 1, .wo, 0x0, 0x1, 0x0, 0x0, 0x0⟩,
   ⟨0xd2, 4, 3, 0x58, 0x0, 1, 0x0, 1, .ro, 0x0, 0x3, 0x0, 0x0, 0x0⟩,
   ⟨0xe1, 8, 1, 0x40, 0x0, 1, 0x0, 1, .rwl, 0x0, 0x1ffff0f, 0x1ffff0f, 0x0, 0x0⟩,
   ⟨0xe1, 8, 1, 0x44, 0x0, 1, 0x0, 1, .rwl, 0x0, 0x7f7fffff, 0x7f7fffff, 0x0, 0x0⟩,
   ⟨0xe1, 8, 1, 0x48, 0x0, 1, 0x0, 1, .rwl, 0x0, 0xf0f1f1f, 0xf0f1f1f, 0x0, 0x0⟩,
   ⟨0xe1, 8, 1, 0x4c, 0x0, 1, 0x0, 1, .wo, 0x0, 0xf, 0x0, 0x0, 0x0⟩,
   ⟨0xe1, 8, 1, 0x50, 0x0, 1, 0x0, 1, .ro, 0x0, 0x7ffff07, 0x0, 0x0, 0x0⟩,
   ⟨0xe1, 8, 1, 0x54, 0x0, 1, 0x0, 1, .w1s, 0x0, 0xffffffff, 0x0, 0x0, 0xffffffff⟩,
   ⟨0xe1, 8, 1, 0x58, 0x0, 1, 0x0, 1, .w1s, 0x0, 0xffffffff, 0x0, 0x0, 0xffffffff⟩]

/-- Registers whose reset value is zero, part 8. -/
def regRows8 : List RegRow :=
  [⟨0xe1, 8, 1, 0x5c, 0x0, 1, 0x0, 1, .w1c, 0x0, 0xffffffff, 0x0, 0xffffffff, 0x0⟩,
   ⟨0xe1, 8, 1, 0x60, 0x0, 1, 0x0, 1, .w1c, 0x0, 0xffffffff, 0x0, 0xffffffff, 0x0⟩,
   ⟨0xe1, 8, 1, 0x64, 0x0, 1, 0x0, 1, .ro, 0x0, 0xffffffff, 0x0, 0x0, 0x0⟩,
   ⟨0xe1, 8, 1, 0x68, 0x0, 1, 0x0, 1, .ro, 0x0, 0xffffffff, 0x0, 0x0, 0x0⟩,
   ⟨0xe1, 8, 1, 0x6c, 0x0, 1, 0x0, 1, .rw, 0x0, 0x80003fff, 0x0, 0x0, 0x0⟩,
   ⟨0xe1, 8, 1, 0x70, 0x0, 1, 0x0, 1, .wo, 0x0, 0x3f, 0x0, 0x0, 0x0⟩,
   ⟨0xe1, 8, 1, 0x74, 0x0, 1, 0x0, 1, .rw, 0x0, 0x7f, 0x7f, 0x0, 0x0⟩,
   ⟨0xe1, 8, 1, 0x78, 0x0, 1, 0x0, 1, .ro, 0x0, 0x7f, 0x0, 0x0, 0x0⟩,
   ⟨0xe1, 8, 1, 0x7c, 0x0, 1, 0x0, 1, .rw, 0x0, 0x80003fff, 0x80003fff, 0x0, 0x0⟩,
   ⟨0xe1, 8, 1, 0x80, 0x0, 1, 0x0, 1, .rw, 0x0, 0xffffffff, 0xffffffff, 0x0, 0x0⟩,
   ⟨0xe1, 8, 1, 0x84, 0x0, 1, 0x0, 1, .rwl, 0x0, 0x3fffffff, 0x3fffffff, 0x0, 0x0⟩,
   ⟨0xe1, 8, 1, 0x88, 0x0, 1, 0x0, 1, .rwl, 0x0, 0x1fffffff, 0x1fffffff, 0x0, 0x0⟩,
   ⟨0xe1, 8, 1, 0x8c, 0x4, 2, 0x0, 1, .rwl, 0x0, 0xffffffff, 0xffffffff, 0x0, 0x0⟩,
   ⟨0xe1, 8, 1, 0x94, 0x4, 2, 0x0, 1, .rwl, 0x0, 0xffffffff, 0xffffffff, 0x0, 0x0⟩,
   ⟨0xe1, 8, 1, 0x9c, 0x0, 1, 0x0, 1, .rc, 0x0, 0xffffffff, 0x0, 0x0, 0x0⟩,
   ⟨0xe1, 8, 1, 0xa0, 0x0, 1, 0x0, 1, .rc, 0x0, 0xffffffff, 0x0, 0x0, 0x0⟩,
   ⟨0xe1, 8, 1, 0x100, 0x4, 64, 0x0, 1, .rwl, 0x0, 0xbfffffff, 0xbfffffff, 0x0, 0x0⟩,
   ⟨0xe1, 8, 1, 0x200, 0x4, 64, 0x0, 1, .rwl, 0x0, 0x1fffffff, 0x1fffffff, 0x0, 0x0⟩,
   ⟨0x20, 3, 1, 0x48, 0x0, 1, 0x0, 1, .rc, 0x0, 0xffffffff, 0x0, 0x0, 0x0⟩,
   ⟨0x20, 3, 1, 0x4c, 0x0, 1, 0x0, 1, .rc, 0x0, 0xffffffff, 0x0, 0x0, 0x0⟩,
   ⟨0x20, 3, 1, 0x50, 0x0, 1, 0x0, 1, .ro, 0x0, 0xffffffff, 0x0, 0x0, 0x0⟩,
   ⟨0x20, 3, 1, 0x54, 0x0, 1, 0x0, 1, .ro, 0x0, 0xffffffff, 0x0, 0x0, 0x0⟩,
   ⟨0x20, 3, 1, 0x58, 0x0, 1, 0x0, 1, .w1c, 0x0, 0x33f, 0x0, 0x1, 0x0⟩,
   ⟨0x20, 3, 1, 0x5c, 0x0, 1, 0x0, 1, .rw, 0x0, 0x31f, 0x1f, 0x200, 0x100⟩,
   ⟨0x20, 3, 1, 0x60, 0x4, 4, 0x0, 1, .rw, 0x0, 0xffffffff, 0xffffffff, 0x0, 0x0⟩,
   ⟨0x20, 3, 1, 0x70, 0x0, 1, 0x0, 1, .rw, 0x0, 0xffff, 0xffff, 0x0, 0x0⟩,
   ⟨0x20, 3, 1, 0x74, 0x0, 1, 0x0, 1, .ro, 0x0, 0xffffffff, 0x0, 0x0, 0x0⟩,
   ⟨0x20, 3, 1, 0x78, 0x0, 1, 0x0, 1, .rw, 0x0, 0x1f, 0x1f, 0x0, 0x0⟩,
   ⟨0x20, 3, 1, 0x7c, 0x0, 1, 0x0, 1, .ro, 0x0, 0xffffffff, 0x0, 0x0, 0x0⟩,
   ⟨0x20, 3, 1, 0x80, 0x0, 1, 0x0, 1, .ro, 0x0, 0x7ff, 0x0, 0x0, 0x0⟩,
   ⟨0x20, 3, 1, 0x84, 0x0, 1, 0x0, 1, .ro, 0x0, 0xffffffff, 0x0, 0x0, 0x0⟩,
   ⟨0x20, 3, 1, 0x88, 0x0, 1, 0x0, 1, .ro, 0x0, 0xffffffff, 0x0, 0x0, 0x0⟩,
   ⟨0x20, 3, 1, 0x8c, 0x0, 1, 0x0, 1, .rc, 0x0, 0xffffffff, 0x0, 0x0, 0x0⟩,
   ⟨0x23, 1, 1, 0x44, 0x0, 1, 0x0, 1, .ro, 0x0, 0xffffffff, 0x0, 0x0, 0x0⟩,
   ⟨0x23, 1, 1, 0x48, 0x0, 1, 0x0, 1, .ro, 0x0, 0xffffffff, 0x0, 0x0, 0x0⟩,
   ⟨0x23, 1, 1, 0x4c, 0x0, 1, 0x0, 1, .ro, 0x0, 0xffffffff, 0x0, 0x0, 0x0⟩,
   ⟨0x23, 1, 1, 0x54, 0x0, 1, 0x0, 1, .rc, 0x0, 0xffffffff, 0x0, 0x0, 0x0⟩,
   ⟨0x23, 1, 1, 0x58, 0x0, 1, 0x0, 1, .rc, 0x0, 0xffffffff, 0x0, 0x0, 0x0⟩,
   ⟨0x23, 1, 1, 0x5c, 0x0, 1, 0x0, 1, .rc, 0x0, 0xffffffff, 0x0, 0x0, 0x0⟩,
   ⟨0x24, 1, 1, 0x40, 0x0, 1, 0x0, 1, .wo, 0x0, 0x3ffff, 0x0, 0x0, 0x0⟩]

/-- Registers whose reset value is zero, part 9. -/
def regRows9 : List RegRow :=
  [⟨0x24, 1, 1, 0x44, 0x0, 1, 0x0, 1, .ro, 0x0, 0x3, 0x0, 0x0, 0x0⟩,
   ⟨0x24, 1, 1, 0x48, 0x0, 1, 0x0, 1, .rw, 0x0, 0xff, 0xff, 0x0, 0x0⟩,
   ⟨0x24, 1, 1, 0x4c, 0x0, 1, 0x0, 1, .ro, 0x0, 0x3f, 0x0, 0x0, 0x0⟩,
   ⟨0x24, 1, 1, 0x50, 0x0, 1, 0x0, 1, .rc, 0x0, 0xffffffff, 0x0, 0x0, 0x0⟩,
   ⟨0x24, 1, 1, 0x54, 0x0, 1, 0x0, 1, .ro, 0x0, 0x801fffff, 0x0, 0x0, 0x0⟩,
   ⟨0x17, 1, 1, 0x40, 0x8, 64, 0x0, 1, .rw, 0x0, 0xffffffc1, 0xffffffc1, 0x0, 0x0⟩,
   ⟨0x17, 1, 1, 0x44, 0x8, 64, 0x0, 1, .rw, 0x0, 0x7fff, 0x7fff, 0x0, 0x0⟩,
   ⟨0x17, 1, 1, 0x240, 0x0, 1, 0x0, 1, .wo, 0x0, 0x3f03, 0x0, 0x0, 0x0⟩,
   ⟨0x17, 1, 1, 0x244, 0x0, 1, 0x0, 1, .rw, 0x0, 0xffffffff, 0xffffffff, 0x0, 0x0⟩,
   ⟨0x17, 1, 1, 0x248, 0x0, 1, 0x0, 1, .rw, 0x0, 0xff, 0xff, 0x0, 0x0⟩,
   ⟨0x17, 1, 1, 0x24c, 0x0, 1, 0x0, 1, .ro, 0x0, 0x1, 0x0, 0x0, 0x0⟩,
   ⟨0x35, 1, 1, 0x40, 0x0, 1, 0x0, 1, .w1c, 0x0, 0x11f3f3f, 0x0, 0x1, 0x0⟩,
   ⟨0x35, 1, 1, 0x44, 0x0, 1, 0x0, 1, .ro, 0x0, 0xffffffff, 0x0, 0x0, 0x0⟩,
   ⟨0x35, 1, 1, 0x48, 0x0, 1, 0x0, 1, .ro, 0x0, 0xff, 0x0, 0x0, 0x0⟩,
   ⟨0x35, 1, 1, 0x4c, 0x0, 1, 0x0, 1, .rc, 0x0, 0xffffffff, 0x0, 0x0, 0x0⟩,
   ⟨0x35, 1, 1, 0x50, 0x0, 1, 0x0, 1, .rc, 0x0, 0xffffffff, 0x0, 0x0, 0x0⟩,
   ⟨0x31, 4, 1, 0x40, 0x40, 8, 0x0, 1, .rw, 0x0, 0xf0f013f, 0xf0f013f, 0x0, 0x0⟩,
   ⟨0x31, 4, 1, 0x44, 0x40, 8, 0x0, 1, .rw, 0x0, 0xffffffff, 0xffffffff, 0x0, 0x0⟩,
   ⟨0x31, 4, 1, 0x48, 0x40, 8, 0x0, 1, .rw, 0x0, 0xff, 0xff, 0x0, 0x0⟩,
   ⟨0x31, 4, 1, 0x4c, 0x40, 8, 0x0, 1, .wo, 0x0, 0x7, 0x0, 0x0, 0x0⟩,
   ⟨0x31, 4, 1, 0x50, 0x40, 8, 0x0, 1, .ro, 0x0, 0x7f0f0f, 0x0, 0x0, 0x0⟩,
   ⟨0x31, 4, 1, 0x54, 0x40, 8, 0x0, 1, .ro, 0x0, 0xffffffff, 0x0, 0x0, 0x0⟩,
   ⟨0x31, 4, 1, 0x58, 0x40, 8, 0x0, 1, .ro, 0x0, 0xff, 0x0, 0x0, 0x0⟩,
   ⟨0x31, 4, 1, 0x5c, 0x40, 8, 0x0, 1, .ro, 0x0, 0xffffffff, 0x0, 0x0, 0x0⟩,
   ⟨0x31, 4, 1, 0x60, 0x40, 8, 0x0, 1, .ro, 0x0, 0xffffffff, 0x0, 0x0, 0x0⟩,
   ⟨0x31, 4, 1, 0x64, 0x40, 8, 0x0, 1, .ro, 0x0, 0xff, 0x0, 0x0, 0x0⟩,
   ⟨0x10, 7, 1, 0x40, 0x0, 1, 0x0, 1, .rw, 0x0, 0x3f01, 0x3f01, 0x0, 0x0⟩,
   ⟨0x10, 7, 1, 0x44, 0x0, 1, 0x0, 1, .rw, 0x0, 0xffffffff, 0xffffffff, 0x0, 0x0⟩,
   ⟨0x10, 7, 1, 0x48, 0x0, 1, 0x0, 1, .rw, 0x0, 0xffffffff, 0xffffffff, 0x0, 0x0⟩,
   ⟨0x10, 7, 1, 0x50, 0x0, 1, 0x0, 1, .w1c, 0x0, 0xbf0f01ff, 0x0, 0x80000000, 0x0⟩,
   ⟨0x10, 7, 1, 0x54, 0x0, 1, 0x0, 1, .ro, 0x0, 0xffffffff, 0x0, 0x0, 0x0⟩,
   ⟨0x10, 7, 1, 0x58, 0x0, 1, 0x0, 1, .ro, 0x0, 0xff, 0x0, 0x0, 0x0⟩,
   ⟨0x10, 7, 1, 0x5c, 0x0, 1, 0x0, 1, .ro, 0x0, 0xffffffff, 0x0, 0x0, 0x0⟩,
   ⟨0x10, 7, 1, 0x60, 0x0, 1, 0x0, 1, .ro, 0x0, 0xff, 0x0, 0x0, 0x0⟩,
   ⟨0x10, 7, 1, 0x64, 0x0, 1, 0x0, 1, .ro, 0x0, 0x101ff, 0x0, 0x0, 0x0⟩,
   ⟨0x10, 7, 1, 0x68, 0x0, 1, 0x0, 1, .wo, 0x0, 0xffffffff, 0x0, 0x0, 0x0⟩,
   ⟨0xf0, 1, 1, 0x40, 0x0, 1, 0x0, 1, .wo, 0x0, 0xff0f37ff, 0x0, 0x0, 0x0⟩,
   ⟨0xf0, 1, 1, 0x44, 0x0, 1, 0x0, 1, .ro, 0x0, 0xff1, 0x0, 0x0, 0x0⟩,
   ⟨0xf0, 1, 1, 0x48, 0x0, 1, 0x0, 1, .rw, 0x0, 0xffffffff, 0xffffffff, 0x0, 0x0⟩,
   ⟨0xf0, 1, 1, 0x4c, 0x4, 4, 0x0, 1, .rw, 0x0, 0xffffffff, 0xffffffff, 0x0, 0x0⟩]

/-- Registers whose reset value is zero, part 10. -/
def regRows10 : List RegRow :=
  [⟨0xf0, 1, 1, 0x5c, 0x4, 8, 0x0, 1, .wo, 0x0, 0xffffffff, 0x0, 0x0, 0x0⟩,
   ⟨0xf0, 1, 1, 0x7c, 0x0, 1, 0x0, 1, .wo, 0x0, 0xffff, 0x0, 0x0, 0x0⟩,
   ⟨0xf0, 1, 1, 0x80, 0x4, 8, 0x0, 1, .rw, 0x0, 0xffffffff, 0xffffffff, 0x0, 0x0⟩,
   ⟨0xf0, 1, 1, 0xa0, 0x4, 4, 0x0, 1, .ro, 0x0, 0xffffffff, 0x0, 0x0, 0x0⟩,
   ⟨0xf0, 1, 1, 0xb0, 0x4, 4, 0x0, 1, .ro, 0x0, 0xffffffff, 0x0, 0x0, 0x0⟩,
   ⟨0xf0, 1, 1, 0xc0, 0x0, 1, 0x0, 1, .rw, 0x0, 0x7f, 0x7f, 0x0, 0x0⟩,
   ⟨0xf0, 1, 1, 0xc4, 0x0, 1, 0x0, 1, .ro, 0x0, 0x1733, 0x0, 0x0, 0x0⟩,
   ⟨0xf0, 1, 1, 0xc8, 0x0, 1, 0x0, 1, .rc, 0x0, 0xffffffff, 0x0, 0x0, 0x0⟩,
   ⟨0xf0, 1, 1, 0xcc, 0x0, 1, 0x0, 1, .ro, 0x0, 0x77f, 0x0, 0x0, 0x0⟩,
   ⟨0xf0, 1, 1, 0xd0, 0x4, 3, 0x0, 1, .rw, 0x0, 0xffffffff, 0xffffffff, 0x0, 0x0⟩,
   ⟨0xf0, 1, 1, 0xdc, 0x4, 4, 0x0, 1, .rw, 0x0, 0xffffffff, 0xffffffff, 0x0, 0x0⟩,
   ⟨0xf0, 1, 1, 0xec, 0x4, 4, 0x0, 1, .wo, 0x0, 0xffffffff, 0x0, 0x0, 0x0⟩,
   ⟨0xf0, 1, 1, 0xfc, 0x4, 4, 0x0, 1, .ro, 0x0, 0xffffffff, 0x0, 0x0, 0x0⟩,
   ⟨0xf0, 1, 1, 0x10c, 0x0, 1, 0x0, 1, .ro, 0x0, 0x7, 0x0, 0x0, 0x0⟩,
   ⟨0x100, 1, 1, 0x40, 0x0, 1, 0x0, 1, .rwl, 0x0, 0xff7f7f, 0xff7f7f, 0x0, 0x0⟩,
   ⟨0x100, 1, 1, 0x44, 0x0, 1, 0x0, 1, .wo, 0x0, 0x30f, 0x0, 0x0, 0x0⟩,
   ⟨0x100, 1, 1, 0x48, 0x0, 1, 0x0, 1, .ro, 0x0, 0x3f7, 0x0, 0x0, 0x0⟩,
   ⟨0x100, 1, 1, 0x50, 0x0, 1, 0x0, 1, .rwl, 0x0, 0x3fff73f, 0x3fff73f, 0x0, 0x0⟩,
   ⟨0x100, 1, 1, 0x54, 0x0, 1, 0x0, 1, .ro, 0x0, 0xffffffff, 0x0, 0x0, 0x0⟩,
   ⟨0x100, 1, 1, 0x58, 0x0, 1, 0x0, 1, .rc, 0x0, 0xffffffff, 0x0, 0x0, 0x0⟩,
   ⟨0x100, 1, 1, 0x60, 0x4, 12, 0x0, 1, .ro, 0x0, 0xffffffff, 0x0, 0x0, 0x0⟩,
   ⟨0x100, 1, 1, 0x90, 0x4, 12, 0x0, 1, .rw, 0x0, 0xffffffff, 0xffffffff, 0x0, 0x0⟩,
   ⟨0x100, 1, 1, 0xc0, 0x4, 12, 0x0, 1, .rw, 0x0, 0xffffffff, 0xffffffff, 0x0, 0x0⟩,
   ⟨0x100, 1, 1, 0xf0, 0x4, 12, 0x0, 1, .rw, 0x0, 0xffffffff, 0xffffffff, 0x0, 0x0⟩,
   ⟨0x100, 1, 1, 0x140, 0x40, 4, 0x0, 1, .rw, 0x0, 0x3f3f77, 0x3f3f77, 0x0, 0x0⟩,
   ⟨0x100, 1, 1, 0x144, 0x40, 4, 0x0, 1, .rw, 0x0, 0x3ff, 0x3ff, 0x0, 0x0⟩,
   ⟨0x100, 1, 1, 0x150, 0x40, 4, 0x4, 12, .rw, 0x0, 0xffffffff, 0xffffffff, 0x0, 0x0⟩,
   ⟨0x110, 1, 1, 0x40, 0x0, 1, 0x0, 1, .ro, 0x0, 0xff01, 0x0, 0x0, 0x0⟩,
   ⟨0x110, 1, 1, 0x44, 0x0, 1, 0x0, 1, .ro, 0x0, 0x8000ffff, 0x0, 0x0, 0x0⟩,
   ⟨0x110, 1, 1, 0x48, 0x0, 1, 0x0, 1, .rw, 0x0, 0xffffffff, 0xffffffff, 0x0, 0x0⟩,
   ⟨0x110, 1, 1, 0x4c, 0x0, 1, 0x0, 1, .wo, 0x0, 0x37dff, 0x0, 0x0, 0x0⟩,
   ⟨0x110, 1, 1, 0x50, 0x0, 1, 0x0, 1, .ro, 0x0, 0x1ff, 0x0, 0x0, 0x0⟩,
   ⟨0x110, 1, 1, 0x54, 0x0, 1, 0x0, 1, .rc, 0x0, 0xffffffff, 0x0, 0x0, 0x0⟩,
   ⟨0x71, 1, 1, 0x40, 0x4, 8, 0x0, 1, .rw, 0x0, 0xffffffff, 0xffffffff, 0x0, 0x0⟩,
   ⟨0x93, 1, 1, 0x40, 0x20, 16, 0x0, 1, .ro, 0x0, 0xffffffff, 0x0, 0x0, 0x0⟩,
   ⟨0x93, 1, 1, 0x44, 0x20, 16, 0x0, 1, .ro, 0x0, 0xffffffff, 0x0, 0x0, 0x0⟩,
   ⟨0x93, 1, 1, 0x48, 0x20, 16, 0x0, 1, .ro, 0x0, 0xffffffff, 0x0, 0x0, 0x0⟩,
   ⟨0x93, 1, 1, 0x4c, 0x20, 16, 0x0, 1, .ro, 0x0, 0xffffffff, 0x0, 0x0, 0x0⟩,
   ⟨0x93, 1, 1, 0x50, 0x20, 16, 0x0, 1, .ro, 0x0, 0xffffffff, 0x0, 0x0, 0x0⟩,
   ⟨0x93, 1, 1, 0x54, 0x20, 16, 0x0, 1, .ro, 0x0, 0x1f, 0x0, 0x0, 0x0⟩]

/-- Registers whose reset value is zero, part 11. -/
def regRows11 : List RegRow :=
  [⟨0x92, 1, 1, 0x40, 0x10, 192, 0x0, 1, .ro, 0x0, 0xffffffff, 0x0, 0x0, 0x0⟩,
   ⟨0x93, 1, 1, 0x240, 0x10, 112, 0x0, 1, .ro, 0x0, 0xffffffff, 0x0, 0x0, 0x0⟩,
   ⟨0x92, 1, 1, 0x44, 0x10, 192, 0x0, 1, .ro, 0x0, 0xffffffff, 0x0, 0x0, 0x0⟩,
   ⟨0x93, 1, 1, 0x244, 0x10, 112, 0x0, 1, .ro, 0x0, 0xffffffff, 0x0, 0x0, 0x0⟩,
   ⟨0x92, 1, 1, 0x48, 0x10, 192, 0x0, 1, .ro, 0x0, 0xffffffff, 0x0, 0x0, 0x0⟩,
   ⟨0x93, 1, 1, 0x248, 0x10, 112, 0x0, 1, .ro, 0x0, 0xffffffff, 0x0, 0x0, 0x0⟩,
   ⟨0x94, 1, 1, 0x40, 0x8, 8, 0x0, 1, .ro, 0x0, 0xffffffff, 0x0, 0x0, 0x0⟩,
   ⟨0x94, 1, 1, 0x44, 0x8, 8, 0x0, 1, .rc, 0x0, 0xffffffff, 0x0, 0x0, 0x0⟩,
   ⟨0xa5, 1, 1, 0x40, 0x4, 256, 0x0, 1, .ro, 0x0, 0xffff033f, 0x0, 0x0, 0x0⟩,
   ⟨0xb1, 1, 1, 0x40, 0x4, 16, 0x0, 1, .ro, 0x0, 0xffffffff, 0x0, 0x0, 0x0⟩,
   ⟨0xd2, 4, 3, 0x400, 0x4, 256, 0x0, 1, .rw, 0x0, 0xffffffff, 0xffffffff, 0x0, 0x0⟩,
   ⟨0xd2, 4, 3, 0x800, 0x4, 256, 0x0, 1, .rw, 0x0, 0xffffffff, 0xffffffff, 0x0, 0x0⟩,
   ⟨0x30, 1, 1, 0x40, 0x0, 1, 0x0, 1, .w1c, 0x0, 0xffffffff, 0x0, 0xffffffff, 0x0⟩,
   ⟨0x30, 1, 1, 0x44, 0x0, 1, 0x0, 1, .w1c, 0x0, 0xffffffff, 0x0, 0xffffffff, 0x0⟩,
   ⟨0x78, 8, 1, 0x40, 0x4, 512, 0x0, 1, .rw, 0x0, 0xf3ffff, 0x3ffff, 0x0, 0x0⟩]

/-- Every register at 0x040 and above of every page the spec lays out. -/
def regRows : List RegRow :=
  regRowsSet ++ regRows0 ++ regRows1 ++ regRows2 ++ regRows3 ++ regRows4 ++ regRows5 ++ regRows6 ++ regRows7 ++ regRows8 ++ regRows9 ++ regRows10 ++ regRows11

end Sys2Proof.Machine
end

