-- ==== Sys2Proof/Machine/State.lean ====
section
/-!
DEFINITION. The state of the LMR-8720 as plain data: its registers, its memories, every queue, buffer, counter and
mode its chapters give it, and the queue of commands that are waiting. A record below holds what one block keeps
beside its registers; the registers themselves (every status word, flag and counter software can see) have one home,
`State.regs`.
-/

namespace Sys2Proof.Machine

/-- Why the machine stops. -/
inductive Fault where
  /-- Raised by a command that is a host error under rule R`rule`. R38 calls the result of a host error
  unpredictable and gives it no effect, so the machine stops. Safe: it stops where the part may go on. -/
  | hostError (rule : Nat)
  deriving DecidableEq, Repr

/-- Why a command has no meaning. -/
inductive Refusal where
  /-- Raised by `exec` for a command whose meaning has not been written. Safe: nothing is claimed of it. -/
  | notModelled (mnemonic : String)
  deriving DecidableEq, Repr

/-- The PKEY state of one page (R25, R26). -/
structure PageKey where
  /-- the last PKEY write was 0x0000_A5C3 and the sequence is incomplete -/
  half : Bool := false
  /-- when the open window closes, in VCO cycles; none: closed -/
  closeAt : Option Nat := none
  deriving DecidableEq, Repr

/-- What an event of another block does to an Afterglow record (R519): byte offsets are within DATA. -/
inductive AglOp where
  /-- add to a saturating counter of `n` bytes -/
  | add (r off n v : Nat)
  /-- set a value of `n` bytes -/
  | put (r off n v : Nat)
  /-- a word has become LASTING: its log entry -/
  | lasting (entry : Nat)
  /-- a remap or its refusal sets a flag bit in the entry of its row -/
  | mark (region row bit : Nat)
  /-- a sample of the die temperature (0.1 °C) and of the five supplies (mV) -/
  | sample (temp : Int) (supplies : List Nat)
  /-- a software record becomes zero -/
  | clear (r : Nat)
  deriving DecidableEq, Repr

/-- A write of a copy in progress (R522): which, its generation, and the next of its three steps (2 or 3). -/
structure AglCopy where
  record : Nat := 0
  copyB : Bool := false
  gen : Nat := 0
  step : Nat := 2
  deriving DecidableEq, Repr

/-- Afterglow beside its registers (R517-R525). -/
structure Agl where
  /-- the working set: byte `off` of record r's copy at r × 256 + off; an unlisted byte is 0 -/
  work : List Host.Cell := []
  /-- records changed since their last write -/
  dirty : AMap Bool := []
  /-- MONO + 1 of the start of a record's last write -/
  wrote : AMap Nat := []
  /-- the write of a copy in progress -/
  copying : Option AglCopy := none
  /-- events that wait for the load -/
  queue : List AglOp := []
  /-- the last second of MONO taken -/
  seconds : Nat := 0
  deriving DecidableEq, Repr

/-- The start sequence of R43. -/
inductive StartStep where
  /-- POR is active (R41) -/
  | porActive
  /-- steps 1 and 2: the PLL starts -/
  | pllWait
  /-- steps 3 to 6: domains and fills -/
  | filling
  /-- step 6 done, SV0 in reset -/
  | filled
  /-- step 7 done: SV0 runs -/
  | running
  deriving DecidableEq, Repr

/-- The reset and start-up state of the part (R40-R55). -/
structure Startup where
  step : StartStep := .porActive
  /-- when POR was released, in VCO cycles -/
  porAt : Nat := 0
  /-- t_L (R43), when the PLL locked -/
  lockAt : Nat := 0
  /-- power domains enabled so far (R44) -/
  domains : Nat := 0
  /-- when the fill of bank 0 starts: t_L + 160 µs, or t_R (R49) -/
  fillAt : Nat := 0
  /-- banks whose fill has started, and whose fill has ended -/
  banksStarted : Nat := 0
  banksDone : Nat := 0
  /-- DEBUG reads that wait for the end of their bank's fill (R47): addresses -/
  debugStalled : List Nat := []
  /-- MONO at which the watchdog was enabled or last kicked (R53) -/
  wdgFrom : Nat := 0
  deriving DecidableEq, Repr

/-- The eFuse array (R56, R498, R499): kept over every reset. (DESIGN CHOICE, log entry 4.) -/
structure Efuse where
  /-- 0 PROVISIONING, 1 SECURED, 3 DECOMMISSIONED, as BOOT_STAT.LC encodes them -/
  lifeCycle : BitVec 2 := 0
  /-- the life-cycle state that takes effect at the next POR -/
  nextCycle : BitVec 2 := 0
  /-- SHA-256 of the accepted public key (R57) -/
  keyHash : BitVec 256 := 0
  deriving DecidableEq, Repr

/-- Where the Boot ROM stands (R55-R66). -/
inductive BootStep where
  | off
  /-- a failure with this code has come about and the failed state is not yet entered -/
  | failing (code : Nat)
  | puf
  /-- headers are read; the slots left to check -/
  | headers (left : List Nat)
  /-- sections of `slot` are loaded; `next` is the index of the next one, `others` the slots left to try -/
  | sections (slot : Nat) (next : Nat) (others : List Nat)
  | done
  | failed
  deriving DecidableEq, Repr

/-- The Boot ROM's working data. -/
structure Boot where
  step : BootStep := .off
  /-- when SV0 left reset, in MONO ns -/
  startMono : Nat := 0
  /-- slots whose header passed, in the order they were read -/
  valid : List Nat := []
  /-- the one slot image received by UART or from the peer (R62, R63), its bytes from offset 0 -/
  image : List Byte := []
  /-- UART prompts sent, and MONO of the last one (R62) -/
  prompts : Nat := 0
  promptMono : Option Nat := none
  /-- a BOOT_REQ has been sent to the peer (R63, R369) -/
  requested : Bool := false
  deriving DecidableEq, Repr

/-- The power-fail input and the orderly shutdown (R71-R75). -/
structure Power where
  /-- PWR_FAIL_N is low -/
  low : Bool := false
  /-- VCO cycle at which it last fell since the last reset -/
  fellAt : Option Nat := none
  /-- when it was qualified; none before -/
  qualifiedAt : Option Nat := none
  /-- when the last retentive commit or journal write of steps 3 and 4 ended -/
  writeEnd : Nat := 0
  deriving DecidableEq, Repr

/-- One operation of the transfer engine (R92). -/
inductive XferOp where
  /-- a freeze copy of a retentive commit (R117) -/
  | freeze
  /-- the input snapshot of a task (R93) -/
  | snapshot (task : Nat)
  /-- the commit copy of a task's cycle (R94) -/
  | commit (task : Nat)
  /-- the commit copy of a task's stop image, with the image as it was when the task entered OFF or FAULT (R101) -/
  | stopCommit (task : Nat) (image : List Byte)
  /-- the distribution of a task's published buffer (R95) -/
  | distribution (task : Nat)
  deriving DecidableEq, Repr

/-- What one RXE entry of an input map found at the release instant (R93). -/
structure Latch where
  session : Nat := 0
  quality : Nat := 0
  /-- the pinned buffer's virtual address and its image generation; none: nothing published since ENABLE -/
  buffer : Option (Nat × Nat) := none
  deriving DecidableEq, Repr

/-- What CYC keeps of one task beside its registers. -/
structure Task where
  /-- the snapshot is complete and the code of this cycle may run -/
  ready : Bool := false
  /-- CYC_END has been accepted and the commit instant has not come -/
  ended : Bool := false
  /-- its context stands in its save slot (pre-empted, or held mid-cycle) -/
  saved : Bool := false
  /-- a HOLD waits for the end of the cycle; a fault is pending (R98) -/
  holdPending : Bool := false
  faultPending : Bool := false
  /-- a first cycle after a start (R91) -/
  firstCycle : Bool := false
  /-- the earliest time, in ns of the task's time base, whose grid point may release it (R82-R84) -/
  gridFrom : Nat := 0
  /-- the last release: VCO cycle of its CLK_PTP cycle, MONO and PTP time in ns -/
  releasedAt : Nat := 0
  t0Mono : Nat := 0
  t0Ptp : Nat := 0
  /-- session qualities and buffers latched at the release, in map order -/
  latched : List Latch := []
  /-- the function-block stack depth and IB of the saved context (R86, R106, R107) -/
  fbsp : Nat := 0
  ib : Nat := 0
  /-- the input and output map, as read at START or at an exchange (R88) -/
  imap : List Byte := []
  omap : List Byte := []
  deriving DecidableEq, Repr

/-- Where a retentive commit stands (R117). -/
inductive RetPhase where
  | idle
  /-- the freeze copy waits or runs -/
  | freeze
  /-- the data are being written to the set -/
  | data
  /-- the header is being written -/
  | header
  deriving DecidableEq, Repr

/-- The retentive commit engine (R114-R118). -/
structure Retention where
  phase : RetPhase := .idle
  /-- when the present phase began, in VCO cycles -/
  since : Nat := 0
  /-- MONO of the last commit start; none: none since reset -/
  lastStart : Option Nat := none
  /-- PTP seconds at the commit start -/
  startPtpSec : Nat := 0
  /-- a request waits for CYC_RET_PERIOD (R116) -/
  deferred : Bool := false
  /-- the set being written: 0 A, 1 B -/
  target : Nat := 0
  /-- a retentive copy failed: no commit starts until this task's next commit (R482) -/
  blockedBy : Option Nat := none
  deriving DecidableEq, Repr

/-- The on-line exchange (R119-R136). -/
structure Exchange where
  /-- the command in progress is REVERT, not EXCH -/
  revert : Bool := false
  /-- the group, fixed at the command (R119) -/
  group : List Nat := []
  /-- MONO and VCO cycle at which the command was accepted; MONO and PTP ns at the exchange instant -/
  acceptedMono : Nat := 0
  acceptedAt : Nat := 0
  instantMono : Nat := 0
  instantPtp : Nat := 0
  /-- the exchange instant, in VCO cycles -/
  instantAt : Nat := 0
  /-- transfer-engine time taken in the gap, in VCO cycles (T_x of R130) -/
  engineTime : Nat := 0
  /-- STOP was accepted in the gap (R134) -/
  stopPending : Bool := false
  deriving DecidableEq, Repr

/-- The cyclic machine. -/
structure Cyc where
  /-- state of the 16 tasks, by task number -/
  tasks : AMap Task := []
  /-- the task whose code runs on each control core -/
  running : AMap (Option Nat) := []
  /-- the transfer engine: operation in progress, when it started (VCO cycles), and the waiting ones in the order they arose -/
  current : Option XferOp := none
  currentSince : Nat := 0
  waiting : List XferOp := []
  ret : Retention := {}
  exch : Exchange := {}
  deriving DecidableEq, Repr

/-- An LSX datagram steered to RXE (R153). -/
structure RxDatagram where
  /-- the UDP payload -/
  bytes : List Byte := []
  /-- source address as 16 bytes big-endian; an IPv4 address in the lowest 4 -/
  source : Nat := 0
  v6 : Bool := false
  /-- ingress time stamp of its first bit, PTP ns -/
  arrival : Nat := 0
  /-- the port it came from, and the CLK_NET cycle in which it came (R160) -/
  port : Nat := 0
  cycle : Nat := 0
  deriving DecidableEq, Repr

/-- An input image in assembly, or complete and waiting (R154, R155, R544). -/
structure InImage where
  seq : Nat := 0
  generation : Nat := 0
  /-- segments admitted: index, pool buffer and LENGTH, in order of arrival -/
  segments : List (Nat × Nat × Nat) := []
  /-- flags and arrival of the segment that completes it -/
  subst : Bool := false
  resyncReq : Bool := false
  /-- where its ISC block begins (R335) -/
  isc : Option Nat := none
  /-- arrival, in units of `Clock.ptp` -/
  arrival : Nat := 0
  deriving DecidableEq, Repr

/-- What RXE keeps of one session beside its status words. -/
structure Session where
  /-- the descriptor read at ENABLE (R144) -/
  desc : List Byte := []
  /-- the published input buffer; none: nothing published since ENABLE -/
  published : Option Nat := none
  /-- age reference of R146, in units of `Clock.ptp` -/
  ageRef : Nat := 0
  assembling : Option InImage := none
  waiting : Option InImage := none
  /-- roles of the output buffers (R150) and the generation each one holds -/
  newest : Nat := 0
  pending : Option Nat := none
  fill : Nat := 1
  spare : Option Nat := some 2
  gens : AMap Nat := []
  /-- the CLK_NET cycle in which NEWEST last changed, and the buffer that held it before (R149) -/
  renewed : Option (Nat × Nat) := none
  /-- the output generation, incremented for each buffer completed (R149) -/
  outGen : Nat := 0
  /-- PTP ns from which the next freeze point counts (R149) -/
  freezeFrom : Nat := 0
  /-- E/B reception: last accepted sequence, highest consecutive consumed one, buffers held and not consumed (R158-R160) -/
  ebRxSeq : Nat := 0
  ebConsumed : Nat := 0
  ebHeld : Nat := 0
  /-- number of the E/B sequence being received: each ENABLE and each accepted EB_SYNC frame begins another one -/
  ebRun : Nat := 0
  /-- E/B transmission: next sequence, EB_SYNC due, credit the station last advertised (R162, R163) -/
  ebTxSeq : Nat := 0
  ebSync : Bool := false
  ebCredit : Nat := 0
  deriving DecidableEq, Repr

/-- A frame in a transmit slot (R148, R149, R156, R162). -/
structure OutFrame where
  session : Nat := 0
  /-- LSX TYPE -/
  kind : Nat := 0
  /-- transmit slot -/
  slot : Nat := 0
  bytes : List Byte := []
  /-- the grid point claimed, PTP ns -/
  launch : Nat := 0
  /-- a forward step has passed its decision point (R151) -/
  late : Bool := false
  /-- tag of the request it carries, E/B frames only -/
  request : Option Nat := none
  deriving DecidableEq, Repr

/-- A class C frame that waits for a transmit slot and a grid point (R148, R152, R156, R160): its segments, each with its
FLAGS, ISC_OFF and payload. -/
structure Draft where
  session : Nat := 0
  kind : Nat := 0
  /-- earliest launch instant, PTP ns -/
  earliest : Nat := 0
  seq : Nat := 0
  gen : Nat := 0
  key : List Byte := []
  parts : List (Nat × Nat × List Byte) := []
  deriving DecidableEq, Repr

/-- A request in progress (R162, R163). -/
structure TxRequest where
  tag : Nat := 0
  session : Nat := 0
  kind : Nat := 0
  /-- buffer, length and planned launch -/
  buffer : Nat := 0
  length : Nat := 0
  launch : Nat := 0
  /-- a number of its own, to tell requests with equal tags apart -/
  serial : Nat := 0
  /-- its sequence, once its frame has been prepared -/
  seq : Option Nat := none
  /-- its frame carries EB_SYNC -/
  sync : Bool := false
  /-- its frame waits to be prepared again -/
  again : Bool := false
  /-- it has been sent; MONO of its last sending, and retransmissions made -/
  sent : Bool := false
  sentAt : Option Nat := none
  repeats : Nat := 0
  deriving DecidableEq, Repr

/-- A completion record of an EVENT or BULK frame that lies at or after RXE_CQ_HEAD (R159-R161). -/
structure RxRecord where
  index : Nat := 0
  session : Nat := 0
  buffer : Nat := 0
  seq : Nat := 0
  bulk : Bool := false
  reclaimed : Bool := false
  /-- its E/B sequence: `Session.ebRun` when it was accepted -/
  run : Nat := 0
  deriving DecidableEq, Repr

/-- The remote exchange engine beside its registers. -/
structure Rxe where
  sessions : AMap Session := []
  inbox : List RxDatagram := []
  /-- owner of each pool buffer: 0 free, 1 class C, 2 E/B not consumed, 3 firmware, 4 withdrawn by a fault -/
  pool : AMap Nat := []
  prepared : List OutFrame := []
  /-- class C frames that wait for a transmit slot or a grid point -/
  drafts : List Draft := []
  /-- transmit slots passed to a port and not sent yet -/
  busySlots : List Nat := []
  /-- frames launched per grid point, by 10 µs number (R148) -/
  grid : AMap Nat := []
  requests : List TxRequest := []
  nextSerial : Nat := 0
  records : List RxRecord := []
  /-- stopped by a fault of the completion queue or request ring (R164) -/
  stopped : Bool := false
  deriving DecidableEq, Repr

/-- A frame in an Ethernet transmit queue (R402, R403, R415). -/
structure TxFrame where
  /-- from RXE: its LSX datagram; built or forwarded by the device: the frame from its destination address, without FCS;
  from a ring: empty, its buffer is read when the frame starts -/
  bytes : List Byte := []
  /-- launch time, PTP ns; none: as early as possible -/
  launch : Option Nat := none
  /-- RXE transmit slot, when RXE handed it over -/
  slot : Option Nat := none
  /-- tag for the Echo queue, when a stamp is requested -/
  echo : Option Nat := none
  /-- from a ring: the port whose ring it is and the descriptor's index; buffer and length -/
  ring : Option (Nat × Nat) := none
  buf : Nat := 0
  len : Nat := 0
  nosec : Bool := false
  /-- one of two copies: number of the pair, and the sequence number of its tag -/
  pair : Option (Nat × Nat) := none
  /-- forwarded on an HSR ring, as it is; a PTP event message to correct: PTP ns of its ingress -/
  asIs : Bool := false
  tcIn : Option Nat := none
  /-- its launch time was reached while it stood at the head; it is late -/
  reached : Bool := false
  late : Bool := false
  deriving DecidableEq, Repr

/-- A write to the signal table in the present CLK_CLE cycle, with what the entry held before it (R14, R36). -/
structure SigWrite where
  signal : Nat := 0
  /-- writer class in the order of R11 -/
  cls : Nat := 0
  value : Nat := 0
  attr : Nat := 0
  time : Nat := 0
  deriving DecidableEq, Repr

/-- A write that waits for its class's port (R36): `value` none keeps the value. -/
structure SigRequest where
  cls : Nat := 0
  signal : Nat := 0
  value : Option Nat := none
  qual : Nat := 0
  deriving DecidableEq, Repr

/-- What CLE keeps beside its registers and CLE RAM. -/
structure Cle where
  /-- MONO of the next tick, ns; none: the engine is stopped -/
  nextTick : Option Nat := none
  /-- the CLK_CLE cycle of the last signal write, and the writes applied in it -/
  cycle : Nat := 0
  writes : List SigWrite := []
  /-- classes whose port has issued a write in that cycle, as a mask; writes that wait for their port (R36) -/
  issued : Nat := 0
  queued : List SigRequest := []
  /-- loops forced OFF by R169 that wait for a write of LCTL -/
  ueHold : List Nat := []
  /-- loops whose PIN_LEFT has reached 0, which ends their pin (R191) -/
  expiring : List Nat := []
  /-- values SAFE overrides loop outputs with, Q15, by loop (R189, R299) -/
  overrides : AMap (Option Nat) := []
  /-- a gain-set command whose copy runs (R193) -/
  copying : Option Word := none
  deriving DecidableEq, Repr

/-- A code word of an ECC-protected memory that does not hold what was written (R439-R442, R457). -/
structure EccWord where
  /-- flipped data bits and flipped check bits, as masks -/
  data : Nat := 0
  check : Nat := 0
  /-- marked uncorrectable whatever its bits (R444) -/
  poisoned : Bool := false
  /-- the 32-bit halves written since (R542) -/
  halves : Nat := 0
  deriving DecidableEq, Repr

/-- A line an L1 array holds (R437, R438). Data arrays are coherent (R468): the bytes of a line stand in memory. (DESIGN CHOICE, log entry 98.) -/
structure L1Line where
  /-- 0-3 CC0-CC3, 4 SV0, 5 SV1, and which of its two arrays -/
  core : Nat := 0
  inst : Bool := false
  /-- physical address and bytes -/
  addr : Nat := 0
  size : Nat := 8
  /-- a store has changed a data line since it came in or was written back -/
  dirty : Bool := false
  /-- its code words that hold an error, by physical address -/
  words : AMap EccWord := []
  deriving DecidableEq, Repr

/-- A sparse matrix in compressed-column form (R204), values as binary64 words. -/
structure PrismMat where
  rows : Nat := 0
  cols : Nat := 0
  ptr : List Nat := []
  idx : List Nat := []
  val : List (BitVec 64) := []
  deriving DecidableEq, Repr

/-- A network element (R209). -/
structure PrismElem where
  kind : Nat := 0
  fromNode : Nat := 0
  toNode : Nat := 0
  p : List (BitVec 64) := []
  deriving DecidableEq, Repr

/-- A model in a slot (R204-R212). -/
structure PrismModel where
  kind : Nat := 0
  order : Nat := 0
  n : Nat := 0
  mEq : Nat := 0
  nMeas : Nat := 0
  nodes : Nat := 0
  rho : BitVec 64 := 0
  nu : BitVec 64 := 0
  mat0 : PrismMat := {}
  mat1 : PrismMat := {}
  elems : List PrismElem := []
  vecs : List (List (BitVec 64)) := []
  /-- supplied permutation, and stage sizes -/
  supplied : List Nat := []
  stages : List Nat := []
  /-- rows of the symmetrised system pattern, original numbering -/
  pattern : List (List Nat) := []
  /-- the ordering, new position to old index -/
  perm : List Nat := []
  /-- below-diagonal rows of each column of the factor, in the new numbering -/
  below : List (List Nat) := []
  snodes : Nat := 0
  /-- the resident factor's rows in the new numbering: L without its diagonal, U with it -/
  lower : List (AMap (BitVec 64)) := []
  upper : List (AMap (BitVec 64)) := []
  deriving DecidableEq, Repr

/-- A model slot beside its registers. -/
structure PrismSlot where
  /-- the next load step, 1 to 6; none: no load in progress -/
  load : Option Nat := none
  loadCtx : Nat := 0
  /-- the virtual ranges of the model descriptor and of what it names -/
  named : List (Nat × Nat) := []
  desc : List Byte := []
  model : PrismModel := {}
  /-- the buffer PUB names: false A, true B -/
  pubB : Bool := false
  deriving DecidableEq, Repr

/-- What a job is doing (R218). -/
inductive PrismPhase where
  | importing
  | deltas
  | eval
  | kkt
  /-- supernodes finished -/
  | factor (done : Nat)
  | solve
  | residual
  | exporting
  | bestWrite
  deriving DecidableEq, Repr

/-- The working state of a started job. -/
structure PrismRun where
  phase : PrismPhase := .importing
  startMono : Nat := 0
  /-- when the job started -/
  startAt : Option Nat := none
  segAt : Nat := 0
  deltas : List Byte := []
  warm : Option (List (BitVec 64)) := none
  wsReject : Bool := false
  /-- the first evaluation has been made (R230) -/
  evaluated : Bool := false
  preempted : Bool := false
  bestWritten : Bool := false
  reused : Bool := false
  nonfinite : Bool := false
  /-- FP64 operations the rules count: factors, solves, residuals and deltas -/
  flops : Nat := 0
  /-- the order of the sums of the present factorisation -/
  seed : Nat := 0
  /-- the system being solved: its rows, right side, solution and residual -/
  rows : List (AMap (BitVec 64)) := []
  rhs : List (BitVec 64) := []
  sol : List (BitVec 64) := []
  res : List (BitVec 64) := []
  /-- refinement steps of the present solve -/
  steps : Nat := 0
  /-- the iterate: x, multipliers y and bound multipliers -/
  x : List (BitVec 64) := []
  y : List (BitVec 64) := []
  zl : List (BitVec 64) := []
  zu : List (BitVec 64) := []
  /-- the Newton step with its base point, length, halvings and the norm to beat -/
  dx : List (BitVec 64) := []
  base : List (BitVec 64) := []
  t : BitVec 64 := 0
  halvings : Nat := 0
  norm0 : BitVec 64 := 0
  /-- the interior-point predictor, once made -/
  aff : Option (List (BitVec 64)) := none
  iter : Nat := 0
  ir : Nat := 0
  perturb : Nat := 0
  pivMin : BitVec 64 := 0x7FF0000000000000#64
  resid : BitVec 64 := 0
  obj : BitVec 64 := 0
  /-- the best iterate: its measure, X, Y, iteration and objective -/
  best : Option (BitVec 64 × List (BitVec 64) × List (BitVec 64) × Nat × BitVec 64) := none
  deriving DecidableEq, Repr

/-- Where a job held in the queue stands. -/
inductive PrismJobState where
  | waiting
  | running
  | suspended
  /-- it has ended with this status, and its record is not yet written -/
  | ended (status : Nat) (cause : Nat) (gen : Nat)
  deriving DecidableEq, Repr

/-- A job accepted from the ring (R214, R215). -/
structure PrismJob where
  /-- order of acceptance -/
  seq : Nat := 0
  type : Nat := 0
  slot : Nat := 0
  cls : Nat := 0
  flags : Nat := 0
  ctx : Nat := 0
  irMax : Nat := 0
  iterMax : Nat := 0
  tag : Nat := 0
  deltaCnt : Nat := 0
  deltaVa : Nat := 0
  wsVa : Nat := 0
  bestVa : Nat := 0
  rtol : BitVec 64 := 0
  pivEps : BitVec 64 := 0
  acceptedAt : Nat := 0
  cancel : Bool := false
  /-- order in which jobs ended: records are written so -/
  endSeq : Nat := 0
  state : PrismJobState := .waiting
  run : PrismRun := {}
  deriving DecidableEq, Repr

/-- The Prism engine (R197-R237). -/
structure Prism where
  slots : AMap PrismSlot := []
  /-- jobs whose records are not written, in acceptance order -/
  jobs : List PrismJob := []
  /-- slots and classes of the jobs whose records firmware has not passed, oldest first -/
  unread : List (Nat × Nat) := []
  nextSeq : Nat := 0
  /-- when the next lane group wakes -/
  wakeAt : Nat := 0
  deriving DecidableEq, Repr

/-- The band selection of an electrical channel (R246, R247). -/
structure MtrBand where
  band : Nat := 0
  /-- a decided change that waits for its zero crossing, and MONO at its commit -/
  pending : Option Nat := none
  decidedAt : Nat := 0
  /-- the sample from which it takes effect without a crossing -/
  dueFrom : Option Nat := none
  deriving DecidableEq, Repr

/-- Phase-sequence and neutral detection of a feeder (R253, R254). -/
structure MtrFeeder where
  /-- L1's last positive crossing, in 1/64 sample -/
  lastCross : Option Int := none
  /-- the last samples of v1-v3, scaled -/
  last : List Int := []
  /-- crossings of L2 and L3 since L1's last positive one; none before its first -/
  cycle : Option (List Nat) := none
  wrong : Nat := 0
  correct : Nat := 0
  ndOver : Nat := 0
  ndUnder : Nat := 0
  /-- a change of PSEQ_WRONG, of NEUTRAL_MISSING, or a stuck stream, since the last interval record -/
  evPseq : Bool := false
  evNeutral : Bool := false
  evStuck : Bool := false
  deriving DecidableEq, Repr

/-- The sample path of an electrical channel (R241, R245). -/
structure MtrChan where
  /-- the decimator's integrators and combs, modulo 2³² -/
  acc1 : Nat := 0
  acc2 : Nat := 0
  acc3 : Nat := 0
  del1 : Nat := 0
  del2 : Nat := 0
  del3 : Nat := 0
  /-- the last 31 decimated sums and the last 32 codes, newest first -/
  sums : List Nat := []
  codes : List Int := []
  /-- the last level of the bitstream, and for how many periods it has held -/
  bit : Bool := false
  held : Nat := 0
  /-- since the last commit: a transition, and 64 periods without one -/
  moved : Bool := false
  stuck : Bool := false
  /-- the last corrected sample, of a voltage -/
  prev : Int := 0
  /-- the last 64 corrected samples before the block in progress, of a voltage -/
  tail : List Int := []
  deriving DecidableEq, Repr

/-- The flow inputs of a heat channel (R256). -/
structure MtrFlow where
  /-- edges of the block in progress, and of the ended block not yet committed -/
  fwd : Nat := 0
  rev : Nat := 0
  fwdEnded : Nat := 0
  revEnded : Nat := 0
  /-- MONO of the last two edges, newest first -/
  edges : List Nat := []
  /-- direction at the last edge, and the direction input's at the end of the ended block -/
  dirRev : Bool := false
  dirRevEnded : Bool := false
  /-- VCO cycle of the last edge -/
  edgeAt : Option Nat := none
  timedOut : Bool := false
  /-- of the interval: a reverse edge, REV blocks, temperature sums (µ°C) over blocks not in error -/
  anyRev : Bool := false
  revBlocks : Nat := 0
  tfSum : Int := 0
  trSum : Int := 0
  blocks : Nat := 0
  deriving DecidableEq, Repr

/-- An RTD input (R257). -/
structure MtrRtd where
  code : Nat := 0
  /-- blocks in a row without a new conversion -/
  stale : Nat := 0
  read : Bool := false
  fault : Bool := false
  /-- the block of the last read -/
  block : Nat := 0
  deriving DecidableEq, Repr

/-- A pulse output (R265). -/
structure MtrPulse where
  remainder : Nat := 0
  active : Bool := false
  /-- VCO cycle of the last start, and the width in 0.1 ms it started with -/
  lastStart : Option Nat := none
  width : Nat := 0
  deriving DecidableEq, Repr

/-- A block that has ended and is not committed. -/
structure MtrBlock where
  /-- it ends an interval; the interval was cut short -/
  boundary : Bool := false
  cut : Bool := false
  /-- MONO of its end, and PTP seconds at which the next interval starts -/
  endMono : Nat := 0
  nextStart : Nat := 0
  /-- metering stops with it -/
  last : Bool := false
  /-- its first sample, and how many it holds -/
  first : Nat := 0
  samples : Nat := 0
  deriving DecidableEq, Repr

/-- The metering block (R238-R268). -/
structure Mtr where
  /-- the configuration block as read when EN was set -/
  cfg : List Byte := []
  /-- number of the block in progress, its end and the interval's end (PTP ns), its start (MONO ns) -/
  block : Nat := 0
  blockEnd : Nat := 0
  ivalEnd : Nat := 0
  blockMono : Nat := 0
  /-- PTP seconds of the interval's start; it is cut short -/
  ivalStart : Nat := 0
  partialIval : Bool := false
  /-- a forward step ends the block in progress now -/
  stepped : Bool := false
  /-- EN has fallen: the block in progress is the last one -/
  stopping : Bool := false
  /-- VCO cycle at which MTR_MCLK started, and its periods taken since -/
  clkFrom : Nat := 0
  period : Nat := 0
  /-- the first sample of the block in progress; the corrected samples not committed, oldest first, one value a channel -/
  first : Nat := 0
  rows : List (List Int) := []
  chans : AMap MtrChan := []
  /-- the RTD bus: the converter selected and the bytes sent in the last transaction (R257) -/
  rtdSel : Option Nat := none
  rtdSent : List Byte := []
  ended : Option MtrBlock := none
  bands : AMap MtrBand := []
  feeders : AMap MtrFeeder := []
  flows : AMap MtrFlow := []
  rtd : AMap MtrRtd := []
  pulses : AMap MtrPulse := []
  /-- accumulators in units of 2⁻³²: 0-191 electrical, 192-303 heat; and their values at the interval's start -/
  acc : AMap Nat := []
  accBase : AMap Nat := []
  /-- records to be written, without SEQ and CRC, oldest first; the last of a boundary is marked -/
  records : List (List Byte) := []
  seq : Nat := 0
  /-- checkpoints: a CKPT_NOW waits, MONO of the last start, and the set and bytes being written -/
  ckptNow : Bool := false
  ckptLast : Option Nat := none
  ckpt : Option (Nat × List Byte) := none
  deriving DecidableEq, Repr

/-- A piece of an axis profile: its length in s, the acceleration it starts with and its jerk. -/
structure AxisSeg where
  dur : Rat := 0
  a : Rat := 0
  j : Rat := 0
  deriving DecidableEq, Repr

/-- A ratio change or blend of a geared axis (R288, R289). -/
structure AxisRatio where
  num : Int := 0
  den : Nat := 1
  /-- the master count at which it applies, and its blend distance -/
  at0 : Int := 0
  blend : Nat := 0
  /-- the master has reached its count -/
  reached : Bool := false
  /-- the count was reached during a blend -/
  late : Bool := false
  deriving DecidableEq, Repr

/-- A running blend (R289): master count P and its direction, distance, position there, old and new ratio. -/
structure AxisBlend where
  p : Int := 0
  dir : Int := 1
  dist : Nat := 0
  pos : Rat := 0
  r1 : Rat := 0
  r2 : Rat := 0
  deriving DecidableEq, Repr

/-- What waits for a start grid point (R279). -/
inductive AxisStart where
  | move
  | home
  | gear
  | follow
  /-- a new target of the external source, standing still in FOLLOW -/
  | target
  deriving DecidableEq, Repr

/-- An axis beside its registers (R269-R300). -/
structure Axis where
  /-- commanded position (microsteps), velocity and acceleration at the last evaluation, and its VCO cycle -/
  p : Rat := 0
  v : Rat := 0
  a : Rat := 0
  at0 : Nat := 0
  /-- the profile from there on, and the exact position it ends at, if it ends at a target -/
  segs : List AxisSeg := []
  endPos : Option Rat := none
  /-- the present target of a move; a target to take up at the next tick -/
  target : Int := 0
  newTarget : Option Int := none
  start : Option AxisStart := none
  /-- a stop to take up at the next tick, and the deceleration in force, microsteps/s² -/
  stop : Option Nat := none
  braking : Option Nat := none
  /-- the stop in progress ends in FAULT -/
  faulted : Bool := false
  /-- EXT_HOLD: set-points are ignored (R286) -/
  holding : Bool := false
  /-- gearing: the point of the last ratio change and the ratio -/
  m0 : Int := 0
  p0 : Rat := 0
  ratio : Rat := 0
  blend : Option AxisBlend := none
  queued : Option AxisRatio := none
  /-- the source's position at the last tick (R285) -/
  src0 : Rat := 0
  /-- legacy source: follow target, VCO cycle of the last two coarse edges, newest first; completing at AVMAX -/
  follow : Rat := 0
  edges : List Nat := []
  hurry : Bool := false
  /-- a soft limit at which following is held (R285) -/
  guard : Option Int := none
  /-- steps issued: their position, the last step's and the last direction change's VCO cycle, and the direction pin -/
  stepPos : Int := 0
  stepAt : Option Nat := none
  dirAt : Option Nat := none
  /-- the step timer: the CLK_MOT cycle at which it expires, and the rounding residue carried into the next interval, in cycles -/
  timer : Option Nat := none
  residue : Rat := 0
  /-- VCO cycle of the last accepted change of MXE_LIMPn, MXE_LIMNn, the reference and MXE_DRDYn -/
  limPAt : Option Nat := none
  limNAt : Option Nat := none
  refAt : Option Nat := none
  drdyAt : Option Nat := none
  dirNeg : Bool := false
  /-- steps due in this tick under a following source, and how many are issued -/
  spread : Nat := 0
  spreadDone : Nat := 0
  /-- class P: the phase accumulator with its carries, the increment, the CLK_MOT cycle of the last update, pulses issued -/
  phase : Nat := 0
  inc : Nat := 0
  phaseAt : Nat := 0
  pulses : Nat := 0
  /-- homing: the step of R290 (11: the further backoff of step 1), the qualified reference level, the latch (48.16), the
  position at the start of step 2, the VCO cycle of standstill in step 5, and the profile of the search with its start -/
  hstep : Nat := 0
  ref : Bool := false
  latch : Int := 0
  travel0 : Rat := 0
  standAt : Nat := 0
  hist : Option (Rat × Rat × Rat × Nat × List AxisSeg) := none
  /-- phase offset (R292, R296) -/
  offset : Int := 0
  /-- the driver is energised; it has reported ready; VCO cycle of a POWER_UP that waits -/
  energised : Bool := false
  ready : Bool := false
  powerAt : Option Nat := none
  /-- ADL: bad words and echo mismatches in a row, the phase sent last -/
  adlBad : Nat := 0
  echoBad : Nat := 0
  sent : Option Nat := none
  deriving DecidableEq, Repr

/-- The axis engine (R269-R300). -/
structure Mxe where
  axes : AMap Axis := []
  /-- encoder counts before they wrap -/
  counts : AMap Int := []
  /-- accepted levels of A and B, by encoder -/
  levels : AMap (Bool × Bool) := []
  /-- VCO cycle of the last accepted edge of an input: A of encoder e at 2e, B at 2e + 1 -/
  edgeAt : AMap Nat := []
  /-- last direction of an encoder's count -/
  dirs : AMap Int := []
  /-- the last profile tick, start grid point, ADL frame and signal write taken, counted from MONO 0 -/
  ticks : Nat := 0
  grids : Nat := 0
  frames : Nat := 0
  signals : Nat := 0
  /-- the words of the last ADL frame, slot 0 first -/
  adlOut : List Nat := []
  deriving DecidableEq, Repr

/-- A safety input channel (R315-R319). -/
structure SafeIn where
  /-- filtered level -/
  lvl : Bool := false
  /-- the level the filter sees: the last sample outside a hold window -/
  eff : Bool := false
  /-- MONO of the first sample at a new level that has held since -/
  cand : Option Nat := none
  /-- other sources' pulses: 1 just before, 0 in the last sample of it, as masks -/
  pre : Nat := 0
  low : Nat := 0
  /-- a test has passed since RUN began; tests passed in a row since the failure -/
  passed : Bool := false
  runs : Nat := 0
  deriving DecidableEq, Repr

/-- A safety output (R320-R323). -/
structure SafeOut where
  /-- MONO of the start of the last dark test, or of energising; the channel of the next test -/
  testFrom : Nat := 0
  nextB : Bool := false
  /-- a dark test in progress: its MONO and channel -/
  dark : Option (Nat × Bool) := none
  /-- VCO cycle of the last change of each channel whose readback is not yet checked -/
  chkA : Option Nat := none
  chkB : Option Nat := none
  passedA : Bool := false
  passedB : Bool := false
  /-- tests of the failed channel passed in a row -/
  runs : Nat := 0
  /-- a dark pulse has ended whose switch-off the readback showed: its channel, whose switch-on is still to be shown -/
  onAgain : Option Bool := none
  /-- at its safe value until the next reset -/
  safe : Bool := false
  deriving DecidableEq, Repr

/-- An ISC connection (R327-R336). -/
structure IscConn where
  /-- a PDU to send, its SEQ and data -/
  has : Bool := false
  seq : Nat := 0
  data : List Byte := []
  /-- the SEQ last accepted since the entry to STARTING -/
  last : Option Nat := none
  /-- accepted: the next application instant starts the next PDU -/
  ready : Bool := false
  /-- data the program has given, and has applied -/
  tx : List Byte := []
  /-- data of the last acceptance, whether they are to be delivered, and what the program reads -/
  rx : List Byte := []
  rxOk : Bool := false
  seen : List Byte := []
  seenOk : Bool := false
  seenPassive : Bool := false
  /-- MONO of the last acceptance or of the entry to STARTING -/
  since : Nat := 0
  /-- it has been in RUN since the RUN state of the block began -/
  passed : Bool := false
  deriving DecidableEq, Repr

/-- What SAFE_CYCLE_END stages for the application instant (R313). -/
structure SafeStage where
  outs : Nat := 0
  act : Nat := 0
  axes : Nat := 0
  tx : AMap (List Byte) := []
  at0 : Nat := 0
  deriving DecidableEq, Repr

/-- The safety block beside its registers (R301-R345). -/
structure Safe where
  /-- the loaded parameter set -/
  params : List Byte := []
  ins : AMap SafeIn := []
  outs : AMap SafeOut := []
  conns : AMap IscConn := []
  staged : Option SafeStage := none
  /-- demands, override bits and axis stops in force -/
  outSet : Nat := 0
  ovrAct : Nat := 0
  axStop : Nat := 0
  /-- index of the last cycle started and of the first one; the program has ended the present cycle -/
  cycle : Nat := 0
  firstCycle : Nat := 0
  ended : Bool := true
  /-- last input sample and SEAL reading taken, counted from MONO 0 -/
  samples : Nat := 0
  seals : Nat := 0
  /-- test sources whose pulse is low, and the last pulse taken of each -/
  pulsing : Nat := 0
  pulses : AMap Nat := []
  /-- MONO since which a pair disagrees -/
  discFrom : AMap (Option Nat) := []
  /-- pairs at their safe value until the next reset -/
  safePairs : Nat := 0
  /-- MONO + 1 of the entry to Penumbra: pairs 0-7, outputs 8-15, connections from 16, by the lower one of the pair -/
  penAt : AMap Nat := []
  /-- PDUs handed over: connection and bytes, oldest first -/
  inbox : List (Nat × List Byte) := []
  /-- VCO cycle of a fatal fault -/
  fatalAt : Option Nat := none
  /-- VCO cycle of the last cycle start, or of the start of RUN, and of the end of the last clock-monitor window -/
  startedAt : Nat := 0
  windowAt : Nat := 0
  deriving DecidableEq, Repr

/-- A copy set (R356-R361): task, number, the EXCH marker, IMAGE_ID, MONO of the commit, items in table order (code,
physical destination, bytes). -/
structure MirrorSet where
  task : Nat := 0
  number : Nat := 0
  exch : Bool := false
  image : Nat := 0
  mono : Nat := 0
  items : List (Nat × Nat × List Byte) := []
  /-- VCO cycle at which its freeze ends, its sending began, or it was received whole -/
  frozenAt : Nat := 0
  /-- standby: AXIS_START frames that had arrived before its SET_BEGIN -/
  starts : Nat := 0
  deriving DecidableEq, Repr

/-- MIRROR beside its registers (R346-R370). -/
structure Mirror where
  /-- the level of ARB_HB, the last MONO millisecond taken, MONO + 1 of the last kick -/
  hb : Bool := false
  hbTick : Nat := 0
  kick : Nat := 0
  /-- MONO since which INIT sees GRANT low -/
  lowFrom : Option Nat := none
  /-- the release actions of R351 have been asked for; they are in force -/
  releaseDue : Bool := false
  released : Bool := false
  /-- a cause of R351 has come since the last reset -/
  gaveUp : Bool := false
  /-- next SEQ to send and to expect -/
  txSeq : Nat := 0
  rxSeq : Nat := 0
  /-- valid frames in a row while down; VCO cycles of the last valid frame and of the last frame sent -/
  validRun : Nat := 0
  lastValid : Nat := 0
  lastSent : Nat := 0
  /-- frames sent and not yet known to have arrived, oldest first -/
  sent : List (List Byte) := []
  /-- what the peer reports -/
  peerRole : Nat := 0
  peerSync : Nat := 0
  peerImage : Nat := 0
  /-- last set number formed, by task; sets in their freeze, frozen, and the one on the link; sets not acknowledged -/
  numbers : AMap Nat := []
  /-- tasks whose commit instant has come and whose set is to be formed -/
  commits : List Nat := []
  /-- the last commit of a task formed no set (R359) -/
  lagged : AMap Bool := []
  freezing : List MirrorSet := []
  ready : List MirrorSet := []
  sending : Option MirrorSet := none
  unacked : List (Nat × Nat) := []
  /-- sweep: virtual pages of a task's context sent since the peer's SYNCING began; every global item has been sent -/
  swept : AMap (List Nat) := []
  globalSent : Bool := false
  /-- PUB of a Prism slot at its last copy -/
  pubSeen : AMap Nat := []
  /-- tasks whose next set carries the EXCH marker -/
  exchTasks : List Nat := []
  /-- output buffers withheld: task, session, the set that releases them (R360) -/
  held : List (Nat × Nat × Nat) := []
  /-- standby: the set being received, whole sets to apply, when the next one is applied -/
  receiving : Option MirrorSet := none
  journal : List MirrorSet := []
  /-- SYNCING: pages received of a task's context; tasks whose first set has been accepted; tasks done -/
  got : AMap (List Nat) := []
  firstSeen : List Nat := []
  sweepDone : List Nat := []
  further : List Nat := []
  /-- axes whose AXIS_START arrived after the applied set; the copied axis records -/
  axisStarts : List Nat := []
  axes : AMap (List Byte) := []
  /-- takeover: VCO cycle and MONO at step 1, VCO cycle at which the last set was applied -/
  takeAt : Option Nat := none
  gapFrom : Option Nat := none
  applied : Option Nat := none
  /-- planned swap: deadline in MONO ns; the instant has come -/
  swapBy : Nat := 0
  swapping : Bool := false
  /-- MONO + 1 of the last BOOT_REQ sent -/
  bootReqAt : Nat := 0
  /-- VCO cycle at which the boot image being sent has left the link (R369) -/
  bootUntil : Nat := 0
  deriving DecidableEq, Repr

/-- An Echo entry dropped for want of room (R387, R388): its CLK_PTP cycle + 1, the entry, PTP_ECHO_DROP and ECHO_OVF before. -/
structure EchoLost where
  cycle : Nat := 0
  entry : Nat × Nat × Bool × Nat := (0, 0, false, 0)
  drops : Nat := 0
  ovf : Bool := false
  deriving DecidableEq, Repr

/-- The time bases and their servo (R371-R388). -/
structure Clock where
  /-- MONO counts (from PLL_LOCK, R371) -/
  running : Bool := false
  /-- MONO in ns -/
  mono : Nat := 0
  /-- PTP time in units of 2⁻⁴⁸ · 10⁻⁹ ns, so that every rate of R373-R375 advances it by a whole number -/
  ptp : Nat := 0
  /-- what a slew has still to add, in the same units, and its direction -/
  slewLeft : Nat := 0
  slewNeg : Bool := false
  /-- the servo's integral term, in units of PTP_RATE over 2¹⁶ -/
  integral : Int := 0
  /-- qualification count and the tag of the sample before -/
  qual : Nat := 0
  prevTag : Nat := 0
  /-- samples in a row inside, and outside, LOCK_THR -/
  inside : Nat := 0
  outside : Nat := 0
  /-- MONO of the last accepted sample, and of the entry to HOLDOVER -/
  sampleAt : Nat := 0
  holdFrom : Nat := 0
  /-- the Echo queue of each port, oldest first: tag, STEP_GEN, late, stamp in ns -/
  echo : AMap (List (Nat × Nat × Bool × Nat)) := []
  /-- the entry each port dropped last: its CLK_PTP cycle, the entry, PTP_ECHO_DROP and ECHO_OVF before it -/
  echoLost : AMap EchoLost := []
  deriving DecidableEq, Repr

/-- The calendar clock beside its registers, which hold the running count (R391-R397). -/
structure Rtc where
  /-- number of the CLK_RTC edge at which the present second began, counted from the model's begin -/
  base : Nat := 0
  /-- a frozen shadow: MONO of the freeze and the eight words -/
  frozen : Option (Nat × List Word) := none
  /-- a SET waits since this VCO cycle -/
  setNow : Option Nat := none
  /-- a SET_DEFER waits: the PTP seconds at its command; they have changed since -/
  setPend : Option Nat := none
  setChanged : Bool := false
  /-- values an alarm register has been given, with the CLK_RTC edge from which matching uses each, by register -/
  alarms : AMap (List (Nat × Word)) := []
  deriving DecidableEq, Repr

/-- A frame on its way out of a port (R404, R408). -/
structure Sending where
  frame : TxFrame := {}
  queue : Nat := 0
  /-- the bytes on the wire from the destination address to the end, without FCS -/
  wire : List Byte := []
  /-- VCO cycle at which its last bit leaves -/
  until0 : Nat := 0
  /-- egress stamp in PTP ns, and the STEP_GEN of its cycle -/
  stamp : Nat := 0
  gen : Nat := 0
  deriving DecidableEq, Repr

/-- An Ethernet port beside its registers (R398-R418). -/
structure Port where
  sending : Option Sending := none
  /-- VCO cycle from which the port is free -/
  freeAt : Nat := 0
  /-- stopped by a descriptor fault (R417) -/
  stopped : Bool := false
  /-- next descriptor to fetch, by queue; descriptors done ahead of HEAD, by queue -/
  fetched : AMap Nat := []
  done : AMap (List Nat) := []
  /-- credits in units of 2 · 10⁻⁷ bit, and the VCO cycle they stand for -/
  credits : AMap Int := []
  creditAt : Nat := 0
  /-- open gates as of the last gate event; the operational list's length, cycle and base in ns; none: no list yet -/
  gates : Nat := 255
  oper : Option (Nat × Nat × Nat) := none
  /-- the change instant in PTP ns, while PEND is 1 -/
  changeAt : Nat := 0
  /-- an MDIO command and the VCO cycle it started at -/
  mdio : Option (Word × Nat) := none
  /-- two-step Sync messages forwarded: source and sequence, and what their Follow_Up is corrected by, in 2⁻¹⁶ ns -/
  syncs : List (List Byte × Nat) := []
  deriving DecidableEq, Repr

/-- A frame recorded in the duplicate table (R416). -/
structure Duplicate where
  source : List Byte := []
  seq : Nat := 0
  /-- MONO of the first arrival -/
  since : Nat := 0
  deriving DecidableEq, Repr

/-- What the four ports share. -/
structure Eth where
  ports : AMap Port := []
  /-- the duplicate table, oldest first -/
  dups : List Duplicate := []
  /-- next sequence number of a redundant frame -/
  redSeq : Nat := 0
  /-- pairs of copies with one copy done: its number and status -/
  half : List (Nat × Nat) := []
  nextPair : Nat := 0
  /-- frames received in the second of this number (R399) -/
  second : Nat := 0
  count : Nat := 0
  deriving DecidableEq, Repr

/-- The frame stored last in a receive object of a CAN channel, and what the store met (R428): a grab or a release of the same
cycle takes effect before it. -/
structure CanStored where
  /-- CLK_CAN cycle, and the object -/
  cycle : Nat := 0
  obj : Nat := 0
  /-- the buffer is the shadow one, and it held no frame -/
  shadow : Bool := false
  empty : Bool := true
  /-- the slot's bytes, those it replaced and their code words -/
  frame : List Byte := []
  old : List Byte := []
  ecc : AMap EccWord := []
  /-- CAN_OVW and INT_RAW before the store -/
  ovw : Word := 0
  raw : Word := 0
  deriving DecidableEq, Repr

/-- A CAN channel beside its registers (R419-R433). -/
structure CanChan where
  /-- the frame stored last in a receive object -/
  stored : Option CanStored := none
  /-- the transmit buffer whose frame is on the bus -/
  attempt : Option Nat := none
  /-- objects whose main buffer is the one in the shadow area, and whose shadow holds a frame, as masks -/
  swapped : Nat := 0
  shadow : Nat := 0
  /-- the object held -/
  hold : Option Nat := none
  /-- SLEEP waits for the first idle bus -/
  sleepDue : Bool := false
  /-- VCO cycle at which the bus has been rejoined, after a wake -/
  rejoinAt : Nat := 0
  /-- error counters as ISO 11898-1 counts them, of which the register shows at most 0xFF -/
  txErr : Nat := 0
  rxErr : Nat := 0
  /-- VCO cycle of the accepted RESTART -/
  restartAt : Nat := 0
  /-- level of CAN_STBc -/
  standby : Bool := false
  deriving DecidableEq, Repr

/-- An entry of a merge buffer (R441-R444). -/
structure MergeEntry where
  /-- address of the 64-bit word, and the mask of its bytes written -/
  word : Nat := 0
  mask : Nat := 0
  /-- initiator of the first write, and the set of initiators whose stores it holds, as a mask -/
  first : Nat := 0
  writers : Nat := 0
  deriving DecidableEq, Repr

/-- An entry of a repeat tracker (R449-R451). -/
structure TrackEntry where
  valid : Bool := false
  addr : Nat := 0
  count : Nat := 0
  /-- MONO of the first counted correction, and of the last one -/
  first : Nat := 0
  last : Nat := 0
  armed : Bool := false
  lasting : Bool := false
  deriving DecidableEq, Repr

/-- A Glint lane (R446-R448). -/
structure Lane where
  /-- index of the next word of the pass -/
  next : Nat := 0
  /-- MONO of the start of the pass, and the VCO cycle of the last read -/
  passStart : Nat := 0
  lastRead : Option Nat := none
  /-- a word to be written back -/
  writeBack : Option Nat := none
  deriving DecidableEq, Repr

/-- The memory system beside its registers (R434-R457). -/
structure MemSys where
  /-- merge-buffer entries of all groups, oldest first -/
  merge : List MergeEntry := []
  /-- trackers: region × 32 + entry -/
  track : AMap TrackEntry := []
  lanes : AMap Lane := []
  /-- remapped rows: bank × 256 + row ↦ spare + 1; spares used, by bank -/
  rows : AMap Nat := []
  spares : AMap Nat := []
  /-- a row copy in progress, as bank × 256 + row -/
  remap : Option Nat := none
  /-- the row whose remap was refused in the present pass of the MAIN lane -/
  refused : Option Nat := none
  deriving DecidableEq, Repr

/-- A cached translation (R465). -/
structure TlbEntry where
  /-- whose TLB: 0-5 the cores CC0-CC3, SV0, SV1; 6 the IOMMU -/
  who : Nat := 6
  ctx : Nat := 0
  /-- virtual page number -/
  vpn : Nat := 0
  /-- the leaf entry, and its address -/
  leaf : Nat := 0
  leafAt : Nat := 0
  deriving DecidableEq, Repr

/-- Translation caches and the invalidation in progress (R465). -/
structure Mmu where
  /-- cached entries, oldest first -/
  tlb : List TlbEntry := []
  /-- an accepted MMU_INVAL, with the page of a PAGE command -/
  inval : Option (Nat × Nat × Nat) := none
  deriving DecidableEq, Repr

/-- What a core keeps beside its registers (R86, R468, R472-R476). -/
structure CoreCtx where
  /-- the address of the last jump one of the model's events made; instruction streams are not modelled -/
  pc : Nat := 0
  /-- an interrupt handler has been entered and has not returned; it has acknowledged its source -/
  handler : Bool := false
  acked : Bool := false
  /-- IPRIO values pushed, newest first (R476) -/
  stack : List Nat := []
  /-- the interrupt link registers: PC and status (R475) -/
  linkPc : Nat := 0
  linkStat : Word := 0
  /-- the 32 integer and 32 FP registers the last restore of a context loaded (R86); what an instruction stream makes of them is
  not modelled -/
  gpr : List Byte := []
  /-- a supervisor trap has turned translation off (R473) -/
  trapped : Bool := false
  /-- lines of the instruction cache fetched before this VCO cycle are invalid (R468) -/
  icacheFrom : Nat := 0
  deriving DecidableEq, Repr

/-- Why a channel stops at its burst boundary (R480). -/
inductive DmaStop where
  | pause
  /-- an uncorrectable error on a read -/
  | dead
  | ended (code : Nat)
  | fault (code : Nat) (side : Nat) (va : Nat)
  deriving DecidableEq, Repr

/-- A burst of a DMA channel that has been issued and not completed: physical source and destination, and the bytes its read has
returned. -/
structure DmaBurst where
  src : Nat := 0
  dst : Nat := 0
  data : Option (List Byte) := none
  deriving DecidableEq, Repr

/-- The issue stage of the DMA engine (R478): the channel served next, and the CLK_FAB cycle, counted from 1, of the last burst. -/
structure DmaIssue where
  next : Nat := 0
  cycle : Nat := 0
  deriving DecidableEq, Repr

/-- A DMA channel beside its registers (R478-R481). -/
structure DmaChan where
  src : Nat := 0
  dst : Nat := 0
  len : Nat := 0
  flags : Nat := 0
  next : Nat := 0
  /-- bursts issued and not completed, oldest first; the first one's number in its descriptor is DMA_DONE / 32 -/
  out : List DmaBurst := []
  stop : Option DmaStop := none
  deriving DecidableEq, Repr

/-- A slot of the key RAM (R490). -/
structure KeySlot where
  /-- 0 EMPTY, 1 VALID, 2 BAD -/
  status : Nat := 0
  /-- 1 native, 2 K1 -/
  format : Nat := 0
  dest : Nat := 0
  wide : Bool := false
  key : List Byte := []
  /-- native: the share drawn last; the other one is its XOR with the key -/
  share : List Byte := []
  /-- K1: its CRC-16 -/
  crc : Nat := 0
  deriving DecidableEq, Repr

/-- A decryption in progress (R500). -/
structure GcmRun where
  key : List Byte := []
  iv : List Byte := []
  /-- blocks decrypted, and the GHASH value so far -/
  blocks : Nat := 0
  hash : Nat := 0
  deriving DecidableEq, Repr

/-- The key store beside its registers (R485-R503). -/
structure Keys where
  slots : AMap KeySlot := []
  /-- the root key, and the image key derived for the last header processed; none: absent -/
  root : Option (List Byte) := none
  image : Option (List Byte) := none
  /-- the command in progress, as written -/
  cmd : Option Word := none
  gcm : Option GcmRun := none
  /-- the PUF content latched at POR release is one its helper data can correct -/
  puf : Bool := false
  /-- the value drawn at the last reset, which permutes the cells of both shares -/
  perm : Nat := 0
  deriving DecidableEq, Repr

/-- A rectangle slot of Lantern, or the icon slot (R509-R514). -/
structure Rect where
  /-- 0 free; 1 submitted; 2 its journal entry is being written; 3 its drive is due; 4 its drive is being loaded;
  5 driven; 6 its end is due; 7 its end is being loaded; 8 its DONE word is being written; 9 class T, started -/
  phase : Nat := 0
  seq : Nat := 0
  replay : Bool := false
  bound : Word := 0
  pulse : Nat := 0
  data : List Word := []
  /-- VCO cycle at which the present phase began -/
  since : Nat := 0
  deriving DecidableEq, Repr

/-- A chain load (R511, R515). -/
structure ChainLoad where
  since : Nat := 0
  starts : List Nat := []
  ends : List Nat := []
  /-- every segment to hold: of ON (1) or of FALLING (2) -/
  blank : Nat := 0
  deriving DecidableEq, Repr

/-- Lantern beside its registers (R504-R516). -/
structure Lantern where
  /-- slots 0-3 and the icon slot 4 -/
  slots : AMap Rect := []
  /-- VCO cycle at which the present step of ON or OFF began -/
  since : Nat := 0
  /-- OFF was accepted and rectangles in progress have not completed -/
  offDue : Bool := false
  /-- an all-hold load is due: 1 of ON, 2 of FALLING -/
  blankDue : Nat := 0
  load : Option ChainLoad := none
  /-- slots whose journal entry is being written, the first one now, since this VCO cycle -/
  writing : List Nat := []
  writeFrom : Nat := 0
  /-- levels of LNT_VLCD_EN, LNT_VHVP_EN and LNT_VHVN_EN -/
  vlcd : Bool := false
  vhvp : Bool := false
  vhvn : Bool := false
  /-- class T drive: VCO cycle at which it started, and frame pairs begun since -/
  driveFrom : Option Nat := none
  pairs : Nat := 0
  /-- segments shown in the present frame pair, and the blink half of each rate, as masks -/
  shown : Nat := 0
  blinkOff : Nat := 0
  /-- class B: segments driven to set and to clear by the chain, as masks -/
  setMask : Nat := 0
  clearMask : Nat := 0
  /-- FORCE_IND as last seen; a change waits for slot 4 -/
  icon : Bool := false
  iconDue : Bool := false
  deriving DecidableEq, Repr

/-- The state of the part. -/
structure State where
  /-- the commands that are waiting, first in, first out -/
  pending : List Instr := []
  /-- the model's time: cycles of the 5 GHz VCO (200 ps) since the model began; every domain clock divides it (R15) -/
  now : Nat := 0
  /-- the model's own counter of free values (no part of the hardware) -/
  free : Nat := 0
  /-- the model's own record of what the last read command returned, oldest word first -/
  rdata : List Word := []
  /-- the model's own mark: the rule of a host error an engine met inside the present command; none between commands -/
  hostErr : Option Nat := none
  /-- software writes of the present cycle to registers that hardware clears bits of: VCO cycle and value (R24) -/
  swWrites : AMap (Nat × Word) := []
  /-- every register of the pages, keyed by its offset from 0xF000_0000; an absent one holds its reset value -/
  regs : AMap Word := []
  /-- memory (R18): Boot ROM, OSPI window, SysRAM, PrismRAM, MRAM and the core-local window; an unlisted byte reads 0 (R46, R48) -/
  mem : List Host.Cell := []
  /-- CLE RAM and CAN RAM, reached through pages only; an unlisted byte reads 0 (R46) -/
  cleRam : List Host.Cell := []
  canRam : List Host.Cell := []
  /-- PKEY state, by page (R25) -/
  pkey : AMap PageKey := []
  /-- owner of each semaphore: core number + 1, 0 free (R35) -/
  sem : AMap Nat := []
  /-- arbiter pointer of each fabric target (R34): 0 Boot ROM, 1 OSPI, 2-13 SysRAM bank groups, 14 PrismRAM, 15 MRAM, 16 core-local, 17 registers -/
  arb : AMap Nat := []
  start : Startup := {}
  efuse : Efuse := {}
  boot : Boot := {}
  power : Power := {}
  clock : Clock := {}
  rtc : Rtc := {}
  cyc : Cyc := {}
  cle : Cle := {}
  /-- code words of every ECC-protected memory that hold an error; keys: the word's byte address, CLE RAM at 2³², CAN RAM at 2³² + 2²⁸ -/
  ecc : AMap EccWord := []
  memSys : MemSys := {}
  /-- the lines of the L1 arrays -/
  l1 : List L1Line := []
  mmu : Mmu := {}
  dma : AMap DmaChan := []
  dmaIssue : DmaIssue := {}
  /-- the cores: 0-3 CC0-CC3, 4 SV0, 5 SV1, 6 the safety pair -/
  cores : AMap CoreCtx := []
  prism : Prism := {}
  mtr : Mtr := {}
  mxe : Mxe := {}
  rxe : Rxe := {}
  safe : Safe := {}
  mirror : Mirror := {}
  agl : Agl := {}
  keys : Keys := {}
  lantern : Lantern := {}
  eth : Eth := {}
  can : AMap CanChan := []
  /-- the Ethernet transmit queues, by port × 8 + queue, the head first (R403) -/
  handed : AMap (List TxFrame) := []
  deriving DecidableEq, Repr

/-- The part right after reset: every register at the value its table gives (an absent entry of `regs` holds it),
memory filled with zero (R46, R48), no command waiting. Values the spec gives no reset value for stand at the
defaults above (log entries 1 to 4). -/
def State.reset : State := {}

/-- The answer of a meaning. -/
abbrev Result := Host.Outcome State Fault Refusal

end Sys2Proof.Machine
end

