-- ==== Sys2Proof/Machine/Ops.lean ====
section
/-!
DEFINITION. The named operations every meaning is written over: sparse maps, registers and their fields, pages
and their access checks, memory bytes, interrupts, and the two shapes of an answer (a host error, an event that is
due or not).
-/

namespace Sys2Proof.Machine

/-! ### Sparse maps -/

/-- The entry at key `a`, or the default. -/
def mget {α : Type} (d : α) : AMap α → Nat → α
  | [], _ => d
  | (k, v) :: m, a => if k = a then v else mget d m a

/-- Insert at key `a`, keeping rising keys. -/
def mins {α : Type} : AMap α → Nat → α → AMap α
  | [], a, v => [(a, v)]
  | (k, w) :: m, a, v =>
    if k < a then (k, w) :: mins m a v
    else if k = a then (a, v) :: m
    else (a, v) :: (k, w) :: m

/-- Remove key `a`. -/
def mdel {α : Type} (m : AMap α) (a : Nat) : AMap α := m.filter (fun e => e.1 != a)

/-- Set key `a` to `v`; writing the default removes the entry, so equal maps are equal lists. -/
def mput {α : Type} [DecidableEq α] (d : α) (m : AMap α) (a : Nat) (v : α) : AMap α :=
  if v = d then mdel m a else mins m a v

/-- Keys strictly rising from `lo`, and no entry equal to its default. -/
def AMap.wfFrom {α : Type} [DecidableEq α] (d : Nat → α) : Nat → AMap α → Bool
  | _, [] => true
  | lo, (k, v) :: m => decide (lo ≤ k) && decide (v ≠ d k) && AMap.wfFrom d (k + 1) m

/-- The canonical form of a memory: addresses strictly rising, no entry equal to 0, what an unlisted address reads. (DESIGN CHOICE, log entry 3.) -/
def Memory.wf (m : List Host.Cell) : Bool := AMap.wfFrom (fun _ => (0 : Byte)) 0 m

/-! ### Sorting -/

/-- Insert before the first element that `x` may precede. -/
def sortIns {α : Type} (le : α → α → Bool) (x : α) : List α → List α
  | [] => [x]
  | y :: ys => if le x y then x :: y :: ys else y :: sortIns le x ys

/-- A stable sort. -/
def sortBy {α : Type} (le : α → α → Bool) (xs : List α) : List α := xs.foldr (sortIns le) []

/-! ### Words and fields -/

/-- Bit `k` of a word. -/
def bitAt (w : Word) (k : Nat) : Bool := w.getLsbD k

/-- A word with bit `k` set to `b`. -/
def putBit (w : Word) (k : Nat) (b : Bool) : Word :=
  if b then w ||| (1#32 <<< k) else w &&& ~~~(1#32 <<< k)

/-- A field of a word. -/
def fieldGet (f : Field) (w : Word) : Nat := (w.toNat >>> f.lo) % 2 ^ f.width

/-- A word with a field set (to the value modulo the field's width). -/
def fieldPut (f : Field) (w : Word) (v : Nat) : Word :=
  let mask := BitVec.ofNat 32 ((2 ^ f.width - 1) <<< f.lo)
  (w &&& ~~~mask) ||| (BitVec.ofNat 32 ((v % 2 ^ f.width) <<< f.lo))

/-- A two's complement value of `n` bits read as an integer. -/
def signed (n v : Nat) : Int := if v % 2 ^ n < 2 ^ (n - 1) then (v % 2 ^ n : Nat) else (v % 2 ^ n : Nat) - 2 ^ n

/-- An integer as a two's complement value of `n` bits. -/
def unsignedOf (n : Nat) (v : Int) : Nat := (v % (2 ^ n : Nat)).toNat

/-- The number a list of bytes spells, least significant byte first. -/
def leNat : List Byte → Nat
  | [] => 0
  | b :: bs => b.toNat + 256 * leNat bs

/-- `n` bytes of a number, least significant first. -/
def leBytes : Nat → Nat → List Byte
  | 0, _ => []
  | n + 1, v => BitVec.ofNat 8 v :: leBytes n (v / 256)

/-- The number a list of bytes spells, most significant byte first. -/
def beNat (bs : List Byte) : Nat := bs.foldl (fun acc b => acc * 256 + b.toNat) 0

/-- `n` bytes of a number, most significant first. -/
def beBytes (n v : Nat) : List Byte := (leBytes n v).reverse

/-! ### Time -/

/-- VCO cycles in a nanosecond, a microsecond and a millisecond (R15: 5.000 GHz). -/
def vcoNs : Nat := 5
def vcoUs : Nat := 5000
def vcoMs : Nat := 5000000

/-- Units of `Clock.ptp` in a nanosecond. (DEDUCED, log entry 85.) -/
def ptpUnit : Nat := 2 ^ 48 * 10 ^ 9

/-- MONO in ns (R371). -/
def monoNs (s : State) : Nat := s.clock.mono

/-- PTP time in whole ns. -/
def ptpNs (s : State) : Nat := s.clock.ptp / ptpUnit

/-- The time of a task's or gate's time base: false MONO, true PTP. -/
def baseNs (s : State) (ptp : Bool) : Nat := if ptp then ptpNs s else monoNs s

/-! ### The page index (R28) -/

/-- The assigned pages: first page, last page, TYPE, clock domain (R15's bit), first instance number. -/
def pageTable : List (Nat × Nat × Nat × Nat × Nat) :=
  [(0x000, 0x000, 0x0010, 3, 0), (0x001, 0x001, 0x0011, 3, 0), (0x002, 0x002, 0x0012, 3, 0),
   (0x003, 0x003, 0x0013, 3, 0), (0x004, 0x004, 0x0014, 3, 0), (0x005, 0x008, 0x0015, 3, 0),
   (0x009, 0x009, 0x0016, 3, 0), (0x00A, 0x00A, 0x0017, 3, 0), (0x010, 0x015, 0x0020, 0, 0),
   (0x016, 0x016, 0x0020, 1, 6), (0x017, 0x017, 0x0021, 3, 0), (0x020, 0x022, 0x0030, 3, 0),
   (0x023, 0x023, 0x0031, 3, 0), (0x024, 0x024, 0x0032, 3, 0), (0x030, 0x034, 0x0038, 3, 0),
   (0x035, 0x036, 0x003A, 3, 0), (0x040, 0x047, 0x0040, 3, 0), (0x050, 0x05F, 0x0050, 5, 0),
   (0x060, 0x069, 0x0060, 2, 0), (0x070, 0x07F, 0x0070, 4, 0), (0x080, 0x088, 0x0080, 7, 0),
   (0x090, 0x097, 0x0090, 9, 0), (0x0A0, 0x0A7, 0x00A0, 1, 0), (0x0B0, 0x0B7, 0x00B0, 5, 0),
   (0x0C0, 0x0C4, 0x00C0, 6, 0), (0x0C5, 0x0C5, 0x00C8, 6, 0), (0x0D0, 0x0DB, 0x00D0, 5, 0),
   (0x0E0, 0x0E8, 0x00E0, 10, 0), (0x0F0, 0x0F0, 0x00F0, 3, 0), (0x100, 0x100, 0x0100, 8, 0),
   (0x110, 0x110, 0x0110, 3, 0), (0x120, 0x127, 0x0120, 8, 0)]

/-- TYPE, domain and INSTANCE of an assigned page. -/
def pageInfo (pg : Nat) : Option (Nat × Nat × Nat) :=
  (pageTable.find? (fun r => decide (r.1 ≤ pg) && decide (pg ≤ r.2.1))).map
    (fun r => (r.2.2.1, r.2.2.2.1, r.2.2.2.2 + (pg - r.1)))

/-- The clock domain of a page. -/
def pageDomain (pg : Nat) : Option Nat := (pageInfo pg).map (fun i => i.2.1)

/-! ### Registers -/

/-- Header register addresses (R21). -/
def Reg.PID (pg : Nat) : Nat := pg * 0x1000
def Reg.PCTL (pg : Nat) : Nat := pg * 0x1000 + 0x004
def Reg.PSTAT (pg : Nat) : Nat := pg * 0x1000 + 0x008
def Reg.INT_RAW (pg : Nat) : Nat := pg * 0x1000 + 0x00C
def Reg.INT_EN (pg : Nat) : Nat := pg * 0x1000 + 0x010
def Reg.INT_PEND (pg : Nat) : Nat := pg * 0x1000 + 0x014
def Reg.INT_SET (pg : Nat) : Nat := pg * 0x1000 + 0x018
def Reg.PKEY (pg : Nat) : Nat := pg * 0x1000 + 0x01C
def F.PCTL_EN : Field := ⟨0, 1⟩
def F.PCTL_SRST : Field := ⟨1, 1⟩
def F.PCTL_LOCK : Field := ⟨2, 1⟩
def F.PSTAT_ENABLED : Field := ⟨0, 1⟩
def F.PSTAT_SRST_BUSY : Field := ⟨1, 1⟩
def F.PSTAT_UNLOCKED : Field := ⟨2, 1⟩

/-- A register row lays a register at offset `off` of page `pg`. -/
def rowAt (r : RegRow) (pg off : Nat) : Bool :=
  let k := pg - r.page
  let d := off - r.off
  let i := if r.n1 ≤ 1 then 0 else d / r.step1
  let d2 := d - i * r.step1
  decide (r.page ≤ pg) && decide (k % r.pageStep = 0) && decide (k / r.pageStep < r.pages) &&
    decide (r.off ≤ off) && decide (i < r.n1) &&
    (if r.n2 ≤ 1 then decide (d2 = 0) else decide (d2 % r.step2 = 0) && decide (d2 / r.step2 < r.n2))

/-- The reset value of the register at an address (R5, R21): the header's, its table row's, else 0. (DESIGN CHOICE, log entry 2.) -/
def regReset (a : Nat) : Word :=
  let pg := a / 0x1000
  let off := a % 0x1000
  if off = 0 then
    match pageInfo pg with
    | some (ty, _, ix) => BitVec.ofNat 32 (ty * 0x10000 + 0x0100 + ix)
    | none => 0
  else if off = 4 || off = 8 then (if pg < 0x40 then 1 else 0)
  else if off < 0x40 then 0
  else match regRowsSet.find? (fun r => rowAt r pg off) with
    | some r => BitVec.ofNat 32 r.reset
    | none => 0

/-- The value a register holds. -/
def rd (s : State) (a : Nat) : Word := mget (regReset a) s.regs a

/-- Set a register. -/
def wr (s : State) (a : Nat) (v : Word) : State := { s with regs := mput (regReset a) s.regs a v }

/-- A register as a number. -/
def rdn (s : State) (a : Nat) : Nat := (rd s a).toNat

/-- Set a register to a number modulo 2³². -/
def wrn (s : State) (a v : Nat) : State := wr s a (BitVec.ofNat 32 v)

/-- A field of a register. -/
def fld (s : State) (a : Nat) (f : Field) : Nat := fieldGet f (rd s a)

/-- A one-bit field of a register. -/
def flag (s : State) (a : Nat) (f : Field) : Bool := fld s a f != 0

/-- Set a field of a register. -/
def setFld (s : State) (a : Nat) (f : Field) (v : Nat) : State := wr s a (fieldPut f (rd s a) v)

/-- Set a one-bit field. -/
def setFlag (s : State) (a : Nat) (f : Field) (b : Bool) : State := setFld s a f (if b then 1 else 0)

/-- Set bits of a register. -/
def orReg (s : State) (a : Nat) (m : Word) : State := wr s a (rd s a ||| m)

/-- Clear bits of a register. -/
def clrReg (s : State) (a : Nat) (m : Word) : State := wr s a (rd s a &&& ~~~m)

/-- Add to a counter register that wraps at 2³². -/
def addReg (s : State) (a n : Nat) : State := wrn s a (rdn s a + n)

/-- Add to a counter field that saturates at its largest value. -/
def satFld (s : State) (a : Nat) (f : Field) (n : Nat) : State :=
  setFld s a f (min (fld s a f + n) (2 ^ f.width - 1))

/-- A 64-bit value held in two registers. -/
def rd64 (s : State) (lo hi : Nat) : Nat := rdn s lo + 2 ^ 32 * rdn s hi

/-- Set a 64-bit value held in two registers. -/
def wr64 (s : State) (lo hi v : Nat) : State := wrn (wrn s lo v) hi (v / 2 ^ 32)

/-- Raise an interrupt: set a bit of a page's INT_RAW (R24, R30). -/
def raise (s : State) (pg bit : Nat) : State := orReg s (Reg.INT_RAW pg) (1#32 <<< bit)

/-- PCTL.EN of a page. -/
def pageEn (s : State) (pg : Nat) : Bool := flag s (Reg.PCTL pg) F.PCTL_EN

/-! ### Ties of software with hardware (R24) -/

/-- VCO cycles in a cycle of each clock domain (R15). -/
def domainDiv (d : Nat) : Nat := [4, 8, 6, 8, 12, 16, 20, 25, 40, 50, 125].getD d 1

/-- Software has written register `a`; entries of past cycles go. (DEDUCED, log entry 25.) -/
def noteWrite (s : State) (a : Nat) (v : Word) : State :=
  { s with swWrites := mins (s.swWrites.filter (fun e => decide (s.now < e.2.1 + 125))) a (s.now, v) }

/-- What software wrote to register `a` in the present cycle of its page's clock. -/
def swWritten (s : State) (a : Nat) : Option Word :=
  let n := domainDiv ((pageDomain (a / 0x1000)).getD 3)
  match s.swWrites.find? (fun e => e.1 == a) with
  | some e => if e.2.1 / n = s.now / n then some e.2.2 else none
  | none => none

/-- Hardware clears RW fields of register `a`: a software write of the same cycle stands (R24). (DEDUCED, log entry 25.) -/
def hwClearRw (s : State) (a : Nat) (m : Word) : State :=
  match swWritten s a with
  | some _ => s
  | none => clrReg s a m

/-- Hardware clears W1S bits of register `a`: a bit set in the same cycle stays (R24). (DEDUCED, log entry 25.) -/
def hwClearW1s (s : State) (a : Nat) (m : Word) : State := clrReg s a (m &&& ~~~((swWritten s a).getD 0))

/-! ### Access checks (R17, R23, R27, R29) -/

/-- A domain's clock runs and it is not held in reset. (DEDUCED, log entry 17.) -/
def domainUp (s : State) (d : Nat) : Bool := bitAt (rd s Reg.CLK_RUN) d && !(bitAt (rd s Reg.CLK_DRST) d)

/-- The PKEY window of a page is open (R26). -/
def unlocked (s : State) (pg : Nat) : Bool :=
  match (mget {} s.pkey pg).closeAt with
  | some t => decide (s.now < t)
  | none => false

/-- An error with a rule's number, if a condition holds. (DEDUCED, log entry 11.) -/
def errIf (c : Bool) (rule : Nat) : Option Nat := if c then some rule else none

/-- The host error an access to offset `off` of page `pg` is, if it is one. (DEDUCED, log entries 11, 17.) -/
def pageErr (s : State) (pg off : Nat) : Option Nat :=
  match pageDomain pg with
  | none => some 29
  | some d =>
    if !(domainUp s d) then some 17
    else errIf (decide (0x40 ≤ off) && flag s (Reg.PSTAT pg) F.PSTAT_SRST_BUSY) 23

/-- The host error a write to a RWL register of page `pg` is, if it is one (R3, R27). (DEDUCED, log entry 11.) -/
def lockErr (s : State) (pg : Nat) : Option Nat :=
  if flag s (Reg.PCTL pg) F.PCTL_LOCK then some 27 else errIf (!(unlocked s pg)) 3

/-! ### Answers -/

/-- Stop on a host error, else go on. (DEDUCED, log entry 11.) -/
def check (e : Option Nat) (k : Result) : Result :=
  match e with
  | some n => .fault (.hostError n)
  | none => k

/-- An event takes place only in a state in which the spec lets it: else nothing happens. (DESIGN CHOICE, log entries 9, 10.) -/
def whenDue (c : Bool) (s t : State) : Result := .next (if c then t else s)

/-- A host error met inside a command by an engine of the device: the first one is kept. (DEDUCED, log entry 93.) -/
def bad (s : State) (rule : Nat) : State := { s with hostErr := s.hostErr.orElse (fun _ => some rule) }

/-- The same, if there is one. (DEDUCED, log entry 93.) -/
def badIf (s : State) (e : Option Nat) : State := match e with
  | some n => bad s n
  | none => s

/-- The answer of a command whose engines have accessed memory: `t`, unless one of them met a host error (R38). (DEDUCED, log entry 93.) -/
def settle (s t : State) : Result :=
  match t.hostErr with
  | some n => if s.hostErr = none then .fault (.hostError n) else .next t
  | none => .next t

/-- An event that accesses memory. (DESIGN CHOICE, log entries 9, 10.) -/
def settleDue (c : Bool) (s t : State) : Result := if c then settle s t else .next s

/-! ### The fabric arbiter (R34) -/

/-- The first requesting initiator at or after the pointer, counting up and wrapping from 15 to 0. (DEDUCED, log entry 16.) -/
def arbPick (reqs : BitVec 16) (ptr : Nat) : Option Nat :=
  ((List.range 16).map (fun k => (ptr + k) % 16)).find? (fun i => reqs.getLsbD i)

/-- One arbitration of a target: the grant, and the pointer advanced by one where a grant is made. (DEDUCED, log entry 16.) -/
def arbGrant (s : State) (target : Nat) (reqs : BitVec 16) : Option Nat × State :=
  let ptr := mget 0 s.arb target
  match arbPick reqs ptr with
  | some i => (some i, { s with arb := mput 0 s.arb target ((ptr + 1) % 16) })
  | none => (none, s)

/-- One access of one initiator to the register space: its target's pointer advances (R34). (DEDUCED, log entry 16.) -/
def granted (s : State) (ini : Fin 16) : State := (arbGrant s 17 (1#16 <<< ini.val)).2

/-- `k` bursts of one initiator at a target: its pointer advances by one for each (R34). (DEDUCED, log entry 16.) -/
def arbAdvance (m : AMap Nat) (target k : Nat) : AMap Nat := mput 0 m target ((mget 0 m target + k) % 16)

/-- A register write by software to page `pg`, offset `off`: the access checks, `extra` errors of the register, then
its effect. -/
def softWrite (ini : Fin 16) (pg off : Nat) (extra : Option Nat) (s : State) (f : State → State) : Result :=
  check ((pageErr s pg off).orElse (fun _ => extra)) (.next (f (granted s ini)))

/-- A register write whose effect accesses memory. (DEDUCED, log entry 93.) -/
def settleWrite (ini : Fin 16) (pg off : Nat) (extra : Option Nat) (s : State) (f : State → State) : Result :=
  check ((pageErr s pg off).orElse (fun _ => extra)) (settle s (f (granted s ini)))

/-! ### Memory (R18, R34, R436, R437) -/

/-- The regions that hold memory: first address, size, fabric target. -/
def memRegions : List (Nat × Nat × Nat) :=
  [(0x00000000, 0x10000, 0), (0x10000000, 0x10000000, 1)] ++
  (List.range 12).map (fun g => (0x20000000 + 0x200000 * g, 0x200000, 2 + g)) ++
  [(0x30000000, 0x1000000, 14), (0x40000000, 0x400000, 15)] ++
  (List.range 4).map (fun n => (0x50000000 + 0x40000 * n, 0x20000, 16)) ++
  [(0x50100000, 0x80000, 16), (0x50200000, 0x20000, 16)] ++
  (List.range 6).map (fun c => (0x50400000 + 0x10000 * c, 0x10000, 16))

/-- The address lies in a region that holds memory. -/
def mapped (a : Nat) : Bool := memRegions.any (fun r => decide (r.1 ≤ a) && decide (a < r.1 + r.2.1))

/-- The part of `n` bytes at `a` that lies in a region: its first address and its length. -/
def overlap (a n : Nat) (r : Nat × Nat × Nat) : Nat × Nat :=
  (max a r.1, min (a + n) (r.1 + r.2.1) - max a r.1)

/-- Every one of `n` bytes at `a` lies in a region. -/
def rangeMapped (a n : Nat) : Bool := ((memRegions.map (fun r => (overlap a n r).2)).foldl (· + ·) 0) == n

/-- Aligned 32-byte bursts that `n` bytes at `a` take. -/
def bursts (a n : Nat) : Nat := if n = 0 then 0 else (a + n - 1) / 32 - a / 32 + 1

/-- The L1 arrays in the core-local window (R437). -/
def isL1 (a : Nat) : Bool := decide (0x50400000 ≤ a) && decide (a < 0x50460000)

/-- A core's own local memory: it reaches it without the fabric (R437). (DEDUCED, log entry 16.) -/
def ownLocal (ini a : Nat) : Bool :=
  (decide (ini < 4) && decide (0x50000000 + 0x40000 * ini ≤ a) && decide (a < 0x50020000 + 0x40000 * ini)) ||
  ((ini == 4 || ini == 5) && decide (0x50100000 ≤ a) && decide (a < 0x50180000)) ||
  (ini == 6 && decide (0x50200000 ≤ a) && decide (a < 0x50220000))

/-- An access of `n` bytes at `a` over the fabric by initiator `ini`: it lies in memory (R18, R19), the L1 arrays are
DEBUG's (R437), and each target's pointer advances by its bursts (R34). Initiator 16 is Prism's private port, and a key
at or above 2³² is no fabric address. (DEDUCED, log entries 16, 93.) -/
def fabric (s : State) (ini a n : Nat) : State :=
  if n = 0 ∨ 16 ≤ ini ∨ 2 ^ 32 ≤ a ∨ ownLocal ini a then s
  else if !(rangeMapped a n) then bad s (if 0xF0000000 ≤ a ∧ a ≤ 0xF0FFFFFF then 19 else 18)
  else if isL1 a && ini != 15 then bad s 437
  else { s with arb := memRegions.foldl (fun m r =>
    let o := overlap a n r
    if o.2 = 0 then m else arbAdvance m r.2.2 (bursts o.1 o.2)) s.arb }

/-- The address lies in MRAM. -/
def isMram (a : Nat) : Bool := decide (0x40000000 ≤ a) && decide (a ≤ 0x403FFFFF)

/-- PWR_FAIL_N has been qualified since the last reset (R71). -/
def pfail (s : State) : Bool := s.power.qualifiedAt.isSome

/-- Every block is in its power-fail state: after qualification, or after a give-up (R351, R364). -/
def heldAll (s : State) : Bool := pfail s || s.mirror.gaveUp

/-- A retentive commit or a journal write ends; after qualification step 5 of R71 counts from it. -/
def writeEnds (s : State) : State := if pfail s then { s with power := { s.power with writeEnd := s.now } } else s

/-- The safety pair's second TCM copy holds what the first one holds (R305, R437). -/
def tcmAlias (a : Nat) : Nat := if 0x50210000 ≤ a ∧ a ≤ 0x5021FFFF then a - 0x10000 else a

/-- A byte of memory. (DESIGN CHOICE, log entry 3.) -/
def rdByte (s : State) (a : Nat) : Byte := mget 0 s.mem (tcmAlias a)

/-- Store a byte whatever the power state (steps 3 to 5 of R71 store so in MRAM). The Boot ROM and the safety pair's
second TCM copy are read-only (R18, R437). -/
def putByte (s : State) (a : Nat) (b : Byte) : State :=
  if a ≤ 0xFFFF ∨ (0x50210000 ≤ a ∧ a ≤ 0x5021FFFF) then s else { s with mem := mput 0 s.mem a b }

/-- Store a byte; after qualification a write to MRAM is discarded (R73). (DEDUCED, log entry 42.) -/
def wrByte (s : State) (a : Nat) (b : Byte) : State := if isMram a && pfail s then s else putByte s a b

/-- `n` bytes from address `a`. -/
def rdBytes (s : State) (a : Nat) : Nat → List Byte
  | 0 => []
  | n + 1 => rdByte s a :: rdBytes s (a + 1) n

/-- Store bytes from address `a` upward. -/
def wrBytes (s : State) (a : Nat) : List Byte → State
  | [] => s
  | b :: bs => wrBytes (wrByte s a b) (a + 1) bs

/-- Store bytes whatever the power state. -/
def putBytes (s : State) (a : Nat) : List Byte → State
  | [] => s
  | b :: bs => putBytes (putByte s a b) (a + 1) bs

/-- A little-endian number of `n` bytes at address `a`. -/
def rdLE (s : State) (a n : Nat) : Nat := leNat (rdBytes s a n)

/-- Store a little-endian number of `n` bytes at address `a`. -/
def wrLE (s : State) (a n v : Nat) : State := wrBytes s a (leBytes n v)

/-- Copy `n` bytes of memory. -/
def copyBytes (s : State) (src dst n : Nat) : State := wrBytes s dst (rdBytes s src n)

/-! ### Free values -/

/-- Take a fresh free value: its number, and the state with the counter advanced. (DESIGN CHOICE, log entry 13.) -/
def fresh (s : State) : Nat × State := (s.free, { s with free := s.free + 1 })

/-- Take `n` fresh free values: the number of the first one. (DESIGN CHOICE, log entry 13.) -/
def freshN (s : State) (n : Nat) : Nat × State := (s.free, { s with free := s.free + n })

/-- `n` bytes the spec leaves open. (DESIGN CHOICE, log entry 13.) -/
def freeBytes (s : State) (n : Nat) : List Byte × State :=
  let f := freshN s n
  ((List.range n).map (fun i => Config.freeByte (f.1 + i)), f.2)

/-- Record what a read returned. (DESIGN CHOICE, log entry 14.) -/
def answer (s : State) (ws : List Word) : State := { s with rdata := ws }

end Sys2Proof.Machine
end

