-- ==== Sys2Proof/Machine/Crc.lean ====
section
/-!
DEFINITION. The cyclic redundancy checks the spec names: CRC-32C of the retentive sets and other records, and the
bit-serial core that the other widths use.
-/

namespace Sys2Proof.Machine

/-- One bit of a reflected CRC register of any width. -/
def crcBitR (poly reg : Nat) (bit : Bool) : Nat :=
  let fb := xor (reg % 2 == 1) bit
  if fb then (reg / 2) ^^^ poly else reg / 2

/-- One byte, least significant bit first, through a reflected CRC register. -/
def crcByteR (poly reg : Nat) (b : Byte) : Nat :=
  (List.range 8).foldl (fun r k => crcBitR poly r (b.getLsbD k)) reg

/-- A reflected CRC over bytes. -/
def crcR (poly init xorOut : Nat) (bs : List Byte) : Nat := (bs.foldl (crcByteR poly) init) ^^^ xorOut

/-- One bit of a CRC register of `n` bits, most significant bit first. -/
def crcBitM (n poly reg : Nat) (bit : Bool) : Nat :=
  let fb := xor (reg.testBit (n - 1)) bit
  let r := (reg * 2) % 2 ^ n
  if fb then r ^^^ poly else r

/-- A CRC of `n` bits, most significant bit first, over bits. -/
def crcM (n poly init : Nat) (bits : List Bool) : Nat := bits.foldl (crcBitM n poly) init

/-- The bits of a byte, most significant first. -/
def byteBits (b : Byte) : List Bool := (List.range 8).map (fun k => b.getLsbD (7 - k))

/-- The lowest `n` bits of a number, most significant first. -/
def natBits (n v : Nat) : List Bool := (List.range n).map (fun k => v.testBit (n - 1 - k))

/-- CRC-32C (Castagnoli): polynomial 0x1EDC6F41 reflected, start and final exclusive-or all ones (log entry 6). -/
def crc32c (bs : List Byte) : Nat := crcR 0x82F63B78 0xFFFFFFFF 0xFFFFFFFF bs

/-- CRC-32 of IEEE 802.3, the Ethernet frame check (log entry 6). -/
def crc32e (bs : List Byte) : Nat := crcR 0xEDB88320 0xFFFFFFFF 0xFFFFFFFF bs

end Sys2Proof.Machine
end

