-- ==== Sys2Proof/Machine/Agl.lean ====
section
/-!
DEFINITION. The Afterglow working set (R517-R525) and the events other blocks give it.
-/

namespace Sys2Proof.Machine

def setAgl (s : State) (f : Agl → Agl) : State := { s with agl := f s.agl }

/-- A little-endian number of `n` bytes of the working set, at byte `off` of a record's copy. -/
def aglRd (s : State) (r off : Nat) : Nat → Nat
  | 0 => 0
  | n + 1 => (mget 0 s.agl.work (256 * r + off)).toNat + 256 * aglRd s r (off + 1) n

def aglWr (s : State) (r off : Nat) : Nat → Nat → State
  | 0, _ => s
  | n + 1, v =>
    aglWr (setAgl s (fun a => { a with work := mput 0 a.work (256 * r + off) (BitVec.ofNat 8 v) })) r (off + 1) n (v / 256)

/-- A DATA field of a record. -/
def aglGet (s : State) (r off n : Nat) : Nat := aglRd s r (0x18 + off) n
def aglPut (s : State) (r off n v : Nat) : State := aglWr s r (0x18 + off) n v

/-- KIND of a record (R518, R519). -/
def aglKind (r : Nat) : Nat :=
  if r = 2 ∨ (96 ≤ r ∧ r < 160) then 2 else if r = 3 ∨ r = 4 then 3 else if r = 9 then 4 else 1

def aglLoaded (s : State) : Bool := flag s Reg.AGL_STAT F.AGL_STAT_LOADED

/-- PTP time in the format of T_UPD. -/
def aglTime (s : State) : Nat := ptpNs s % 2 ^ 64

/-- The servo is LOCKED (R382). -/
def ptpLocked (s : State) : Bool := fld s Reg.PTP_STAT F.PTP_STAT_SERVO == 3

/-- AGL_PEND follows the dirty records. -/
def aglPend (s : State) : State := wrn s Reg.AGL_PEND s.agl.dirty.length

/-- A change of a record: its header, and the record becomes dirty (R518, R520). -/
def aglTouch (s : State) (r : Nat) : State :=
  let s := aglWr s r 4 2 r
  let s := aglWr s r 6 1 (aglKind r)
  let s := aglWr s r 7 1 (aglRd s r 7 1 / 2 * 2 + (if ptpLocked s then 1 else 0))
  let s := aglWr s r 8 8 (aglTime s)
  let s := aglWr s r 0x10 4 (aglGet s 0 0 4)
  aglPend (setAgl s (fun a => { a with dirty := mput false a.dirty r true }))

/-- Add to a saturating counter. -/
def aglBump (s : State) (r off n v : Nat) : State := aglPut s r off n (min (aglGet s r off n + v) (256 ^ n - 1))

/-- A record that has never been updated takes its first sample as both extremes. -/
def aglFresh (s : State) (r : Nat) : Bool := aglRd s r 6 1 == 0

/-- A new extreme of a value of two bytes at `off`, its time at `at0` (R519). -/
def aglExtreme (s : State) (r off at0 v : Nat) : State := aglPut (aglPut s r off 2 v) r at0 8 (aglTime s)

/-- The die sensor's part of a sample. (DEDUCED, log entry 65.) -/
def aglDie (s : State) (t : Int) : State :=
  let bin : Int := (t + 400) / 70
  let b := if bin < 0 then 0 else if 24 < bin then 24 else bin.toNat
  let s := aglTouch (aglBump s 2 (8 * b) 8 1) 2
  let new := aglFresh s 3
  let lo := new || decide (t < signed 16 (aglGet s 3 0 2))
  let hi := new || decide (signed 16 (aglGet s 3 2 2) < t)
  let s := if lo then aglPut (aglExtreme s 3 0 4 (unsignedOf 16 t)) 3 20 4 (aglGet s 0 0 4) else s
  let s := if hi then aglPut (aglExtreme s 3 2 12 (unsignedOf 16 t)) 3 24 4 (aglGet s 0 0 4) else s
  if lo || hi then raise (aglTouch s 3) 0x110 2 else s

/-- One supply's part of a sample; a record never updated takes it as both extremes. (DEDUCED, log entry 65.) -/
def aglSupply (new : Bool) (s : State) (k v : Nat) : State :=
  let o := 20 * k
  let lo := new || decide (v < aglGet s 4 o 2)
  let hi := new || decide (aglGet s 4 (o + 2) 2 < v)
  let s := if lo then aglExtreme s 4 o (o + 4) v else s
  let s := if hi then aglExtreme s 4 (o + 2) (o + 12) v else s
  if lo || hi then raise (aglTouch s 4) 0x110 2 else s

/-- The row of a LASTING_LOG entry, or the word of an MRAM one. -/
def logKey (e : Nat) : Nat := if e / 2 ^ 30 = 2 then e % 2 ^ 18 + 2 ^ 30 * 2 else e / 2 ^ 30 * 2 ^ 30 + e % 2 ^ 16

/-- The held entry of the same row or word. -/
def logFind (s : State) (e : Nat) : Option Nat :=
  (List.range 54).find? (fun k => decide (k < aglGet s 9 0 4) && logKey (aglGet s 9 (8 + 4 * k) 4) == logKey e)

/-- The write of a copy in progress is cut; its GEN stays 0, so the copy stays invalid until its next write (R523). -/
def aglCut (s : State) : State := setAgl s (fun a => { a with copying := none })

/-- Apply an event to the working set. -/
def aglApply (s : State) : AglOp → State
  | .add r off n v => aglTouch (aglBump s r off n v) r
  | .put r off n v => aglTouch (aglPut s r off n v) r
  | .lasting e =>
    match logFind s e with
    | some _ => s
    | none =>
      let n := aglGet s 9 4 4
      let s := aglPut s 9 (8 + 4 * (n % 54)) 4 e
      aglTouch (aglPut (aglBump s 9 0 4 1) 9 4 4 ((n + 1) % 2 ^ 32)) 9
  | .mark region row bit =>
    match logFind s (region * 2 ^ 30 + row) with
    | some k =>
      let e := aglGet s 9 (8 + 4 * k) 4
      aglTouch (aglPut s 9 (8 + 4 * k) 4 (if e.testBit bit then e else e + 2 ^ bit)) 9
    | none => s
  | .sample t vs =>
    let s := aglDie s t
    let new := aglFresh s 4
    (vs.take 5).zipIdx.foldl (fun s v => aglSupply new s v.2 v.1) s
  | .clear r => aglTouch ((List.range 224).foldl (fun s k => aglPut s r k 1 0) s) r

/-- An event reaches Afterglow: at once, or after the load (R520, R521). -/
def aglEvent (s : State) (e : AglOp) : State :=
  if aglLoaded s then aglApply s e else setAgl s (fun a => { a with queue := a.queue ++ [e] })

/-- A word has become LASTING (R450): region 0 SysRAM, 1 PrismRAM, 2 MRAM. The entry names bank and row, or the MRAM
word. -/
def aglLasting (s : State) (region addr : Nat) : State :=
  let e := if region = 2 then 2 * 2 ^ 30 + (addr - 0x40000000) / 16 % 2 ^ 18
    else
      let o := if region = 0 then (addr - 0x20000000) else (addr - 0x30000000)
      let bank := o / 262144 + (if region = 0 then 0 else 96)
      region * 2 ^ 30 + bank % 256 + 256 * ((addr / 1024) % 256)
  aglEvent (aglEvent s (.add (5 + region) 16 4 1)) (.lasting e)

/-- A remap of a row, or its refusal (R452, R453). -/
def aglRow (s : State) (bank row : Nat) (refused : Bool) : State :=
  let region := if bank < 96 then 0 else 1
  aglEvent (aglEvent s (.add (5 + region) (if refused then 24 else 20) 4 1))
    (.mark region (bank % 256 + 256 * (row % 256)) (if refused then 17 else 16))

end Sys2Proof.Machine
end

