-- ==== Sys2Proof/Machine/Role.lean ====
section
/-!
DEFINITION. The role of a unit of a mirrored pair (R346-R351), its link frames (R353, R354), and what the other blocks
ask of the pair.
-/

namespace Sys2Proof.Machine

def setMirror (s : State) (f : Mirror → Mirror) : State := { s with mirror := f s.mirror }

/-- Roles: 0 OFF, 1 INIT, 2 STANDBY, 3 TAKEOVER, 4 ACTIVE, 5 GIVEUP. -/
def role (s : State) : Nat := fld s Reg.MIRROR_STAT F.MIRROR_STAT_ROLE
def mirrorFlag (s : State) (f : Field) : Bool := flag s Reg.MIRROR_STAT f
def setMirrorFlag (s : State) (f : Field) (b : Bool) : State := setFlag s Reg.MIRROR_STAT f b

/-- A unit that becomes the active one prepares the frames whose freeze points come from now on (R149, R165). (DEDUCED, log entry 50.) -/
def freezeNow (s : State) : State :=
  { s with rxe := { s.rxe with
      sessions := s.rxe.sessions.map (fun e => (e.1, { e.2 with freezeFrom := max e.2.freezeFrom (ptpNs s) })) } }

/-- ROLE changes (R348, R370): ACT_OK follows ACTIVE. -/
def setRole (s : State) (r : Nat) : State :=
  if role s = r then s
  else
    let s := if r = 4 then freezeNow s else s
    raise (setMirrorFlag (setFld s Reg.MIRROR_STAT F.MIRROR_STAT_ROLE r) F.MIRROR_STAT_ACT_OK (r == 4)) 0xB0 0

/-- SYNC: 0 UNSYNCED, 1 SYNCING, 2 SYNCED (R362, R366, R370). -/
def syncOf (s : State) : Nat := fld s Reg.MIRROR_STAT F.MIRROR_STAT_SYNC
def setSync (s : State) (v : Nat) : State :=
  if syncOf s = v then s
  else
    let s := raise (setFld s Reg.MIRROR_STAT F.MIRROR_STAT_SYNC v) 0xB0 1
    if v = 2 then setMirrorFlag s F.MIRROR_STAT_GRANT_UNSYNC false else s

def linkUp (s : State) : Bool := mirrorFlag s F.MIRROR_STAT_LINK_UP

/-- The link is up and the peer reports ACTIVE or TAKEOVER (R349). -/
def peerActive (s : State) : Bool := linkUp s && mirrorFlag s F.MIRROR_STAT_PEER_ACTIVE

/-- The pair is synced (R360). -/
def pairSynced (s : State) : Bool := role s == 4 && linkUp s && s.mirror.peerRole == 2 && s.mirror.peerSync == 2

/-- IMAGE_ID of the unit's program: that of the descriptor CYC_XACT names (R119, R355). -/
def imageId (s : State) : Nat := rdLE s (rdn s Reg.CYC_XACT + 8) 8

/-- A link frame (R354). STATUS has no sequence of its own: that field is open. -/
def linkFrame (s : State) (kind extra seq task : Nat) (payload : List Byte) : List Byte :=
  let b := leBytes 1 kind ++ leBytes 1 (fld s Reg.MIRROR_CFG F.MIRROR_CFG_UNIT) ++
    leBytes 2 (role s + 16 * syncOf s + extra) ++ leBytes 4 seq ++ leBytes 1 task ++ leBytes 3 0 ++ leBytes 4 payload.length ++ payload
  b ++ leBytes 4 (crc32c b)

/-- Send a frame that carries a sequence number of its own; SET_BEGIN carries its set's number instead. (DESIGN CHOICE, log entry 66.) -/
def mirrorSend (s : State) (kind extra task : Nat) (setNumber : Option Nat) (payload : List Byte) : State :=
  let f := linkFrame s kind extra (setNumber.getD s.mirror.txSeq) task payload
  setMirror s (fun m => { m with
    sent := m.sent ++ [f], lastSent := s.now, txSeq := if setNumber.isSome then m.txSeq else (m.txSeq + 1) % 2 ^ 32 })

/-- A cause of R351: the role becomes GIVEUP, ACT_OK falls, three GIVEUP frames are sent, and the release actions are due.
The first cause stays recorded. -/
def giveUp (s : State) (cause : Nat) : State :=
  if role s = 0 ∨ role s = 5 then s
  else
    let s := setRole s 5
    let s := if fld s Reg.MIRROR_STAT F.MIRROR_STAT_GIVEUP_CAUSE = 0
      then setFld s Reg.MIRROR_STAT F.MIRROR_STAT_GIVEUP_CAUSE cause else s
    let s := setMirrorFlag s F.MIRROR_STAT_HB_RUN false
    let s := aglEvent s (.add 10 (8 + 4 * (cause - 1)) 4 1)
    let s := (List.range 3).foldl (fun s _ => mirrorSend s 7 0 0 none []) s
    setMirror s (fun m => { m with releaseDue := true, gaveUp := true })

/-- A SysRAM bank marked in MIRROR_CRIT (R351). -/
def criticalBank (s : State) (a : Nat) : Bool :=
  decide (0x20000000 ≤ a) && decide (a ≤ 0x217FFFFF) &&
    (let b := (a - 0x20000000) / 262144
     bitAt (rd s (Reg.MIRROR_CRIT (b / 32))) (b % 32))

/-- The blocks are in their power-fail state: after qualification, or by the release actions of R351. -/
def held (s : State) : Bool := pfail s || s.mirror.released || s.mirror.releaseDue

/-- RXE prepares, launches and receives nothing in STANDBY (R355), nor after a give-up. (DEDUCED, log entry 50.) -/
def mirrorActive (s : State) : Bool := role s != 2 && !s.mirror.gaveUp

/-- The unit is the active one of its pair, or works as a single controller (R165, R349): only it prepares and launches. -/
def mirrorLeads (s : State) : Bool := role s == 4 || role s == 0

/-! ### Withheld output buffers (R360) -/

/-- The task's next set number (R362). -/
def nextNumber (s : State) (t : Nat) : Nat :=
  let n := (mget 0 s.mirror.numbers t + 1) % 2 ^ 32
  if n = 0 then 1 else n

/-- A session output buffer of task `t` waits for an acknowledgement: its set has not been acknowledged, or was skipped. -/
def mirrorHolds (s : State) (t : Nat) : Bool :=
  pairSynced s && flag s (Reg.TCFG t) F.TCFG_MIRR &&
    (mget false s.mirror.lagged t || s.mirror.unacked.contains (t, mget 0 s.mirror.numbers t))

/-- Withhold the buffer: for the set of this commit, or, where that was skipped, for the next one. -/
def mirrorHeld (s : State) (t x : Nat) : State :=
  let n := if mget false s.mirror.lagged t then nextNumber s t
    else mget 0 s.mirror.numbers t
  setMirror s (fun m => { m with held := m.held.filter (fun e => e.2.1 != x) ++ [(t, x, n)] })

/-! ### The gap of a switch-over (R363) -/

def mirrorTask (s : State) (t : Nat) : Bool := flag s (Reg.TCFG t) F.TCFG_EN && flag s (Reg.TCFG t) F.TCFG_MIRR

/-- A release of the fastest mirrored task ends the gap. -/
def mirrorGap (s : State) (t : Nat) : State :=
  match s.mirror.gapFrom with
  | some g =>
    let p (t : Nat) : Nat := fld s (Reg.TPERIOD t) F.TPERIOD_PERIOD
    if role s == 4 && mirrorTask s t && (List.range 16).all (fun u => !(mirrorTask s u) || decide (p t ≤ p u)) then
      setMirror (wrn s Reg.MIRROR_GAP (monoNs s - g)) (fun m => { m with gapFrom := none })
    else s
  | none => s

end Sys2Proof.Machine
end

