-- ==== Sys2Proof/Machine/Isc.lean ====
section
/-!
DEFINITION. The loaded safety parameter set (R309) and the PDUs of the Ikido safe channel as RXE carries them
(R327-R331, R335).
-/

namespace Sys2Proof.Machine

def setSafe (s : State) (f : Safe → Safe) : State := { s with safe := f s.safe }

/-- A field of the loaded parameter set. -/
def parN (s : State) (off n : Nat) : Nat := leNat ((s.safe.params.drop off).take n)

/-- SAFE_STAT.STATE: 0 INIT, 1 RUN, 2 SAFESTATE. -/
def safeState (s : State) : Nat := fld s Reg.SAFE_STAT F.SAFE_STAT_STATE

/-- SAFE acts on its outputs: enabled, and not in a power-fail state (R304, R311). -/
def safeActs (s : State) : Bool := pageEn s 0xA0 && !(heldAll s)

/-- A write of another initiator to the safety pair's pages or TCM after its release (R308). -/
def safeReleased (s : State) : Bool := bitAt (rd s Reg.SYS_CORE_REL) 6
def safeForeign (s : State) : State := raise (satFld s Reg.SAFE_FOREIGN ⟨0, 32⟩ 1) 0xA0 6
def foreignPage (s : State) (ini : Fin 16) (pg : Nat) : Bool :=
  safeReleased s && ini.val != 6 && decide (0xA0 ≤ pg) && decide (pg ≤ 0xA7) && pg != 0xA3

/-! ### Connections (R329, R330) -/

def conn (s : State) (c : Nat) : IscConn := mget {} s.safe.conns c
def setConn (s : State) (c : Nat) (f : IscConn → IscConn) : State :=
  setSafe s (fun x => { x with conns := mput {} x.conns c (f (conn s c)) })
def connAt (c : Nat) : Nat := 0x400 + 32 * c
def connId (s : State) (c : Nat) : Nat := parN s (connAt c) 4
def connRole (s : State) (c : Nat) : Nat := parN s (connAt c + 4) 1
def connLsx (s : State) (c : Nat) : Bool := parN s (connAt c + 5) 1 == 1
def connSession (s : State) (c : Nat) : Nat := parN s (connAt c + 6) 2
def connTexp (s : State) (c : Nat) : Nat := parN s (connAt c + 8) 2
def connTxLen (s : State) (c : Nat) : Nat := parN s (connAt c + 10) 1
def connRxLen (s : State) (c : Nat) : Nat := parN s (connAt c + 11) 1
def connOff (s : State) (c : Nat) : Nat := parN s (connAt c + 12) 2
def connPartner (s : State) (c : Nat) : Nat := parN s (connAt c + 14) 2

/-- SAFE_ISC_ST.STATE: 0 IDLE, 1 STARTING, 2 RUN, 3 FAULT. -/
def connState (s : State) (c : Nat) : Nat := fld s (Reg.SAFE_ISC_ST c) F.SAFE_ISC_ST_STATE

/-- The CRC of a PDU (R328). (PRESUMED, log entry 6.) -/
def iscCrc (id : Nat) (body : List Byte) : Nat := crc32c (beBytes 4 id ++ body)

/-- `n` bytes of a list, zeros after its end. -/
def padTo (n : Nat) (bs : List Byte) : List Byte := bs.take n ++ List.replicate (n - bs.length) 0

/-- The newest PDU of a connection (R327, R330, R331), if it has one to send. -/
def iscPdu (s : State) (c : Nat) : Option (List Byte) :=
  let k := conn s c
  if !k.has then none
  else
    let passive := safeState s == 2 || connState s c == 3
    let n := connTxLen s c
    let data := if passive then List.replicate n 0 else padTo n k.data
    let b := beBytes 1 n ++ beBytes 1 ((if connRole s c = 2 then 1 else 0) + (if passive then 2 else 0)) ++
      beBytes 2 k.seq ++ beBytes 2 (connTexp s c) ++ data
    some (b ++ beBytes 4 (iscCrc (connId s c) b))

/-- The LSX connection on a session. -/
def iscOn (s : State) (x : Nat) : Option Nat :=
  (List.range 256).find? (fun c => connRole s c != 0 && connLsx s c && connSession s c == x)

/-- The bytes of a session's payload that a sent block takes: offset and length (R329). -/
def sentBlock (s : State) (x : Nat) : Option (Nat × Nat) :=
  if s.safe.params.isEmpty then none else (iscOn s x).map (fun c => (connOff s c, 10 + connTxLen s c))

/-- A session with this OUT_LEN cannot carry its sent block (R329). -/
def blockErr (s : State) (x outLen : Nat) : Bool :=
  match sentBlock s x with
  | some (o, n) => decide (outLen < o + n)
  | none => false

/-- Bytes of a session's payload are bytes of a sent block (R329). -/
def blockMeets (s : State) (x off len : Nat) : Bool :=
  match sentBlock s x with
  | some (o, n) => decide (off < o + n) && decide (o < off + len)
  | none => false

/-- The block a freeze point copies into a session's payload: offset and PDU (R335). -/
def iscBlock (s : State) (x : Nat) : Option (Nat × List Byte) :=
  if !(safeActs s) || s.safe.params.isEmpty then none
  else match iscOn s x with
    | some c => (iscPdu s c).map (fun p => (connOff s c, p))
    | none => none

/-- The bytes of an image from ISC_OFF are handed to SAFE for the connection on the session (R335). -/
def iscHand (s : State) (x off : Nat) (img : List Byte) : State :=
  if s.safe.params.isEmpty then s
  else match iscOn s x with
    | some c =>
      let n := 10 + leNat ((img.drop off).take 1)
      setSafe s (fun z => { z with inbox := z.inbox ++ [(c, (img.drop off).take n)] })
    | none => s

end Sys2Proof.Machine
end

