-- ==== Sys2Proof/Machine/Crypto.lean ====
section
/-!
DEFINITION. The cryptographic functions the spec names by their standards (log entry 61): AES (FIPS 197), CMAC
(SP 800-38B), GCM (SP 800-38D), key wrap (SP 800-38F), the counter-mode KDF (SP 800-108), SHA-256 (FIPS 180-4), ECDSA P-256
verification (FIPS 186-5), and the CRC-16 of a K1 slot.
-/

namespace Sys2Proof.Machine

/-! ### AES -/

/-- Product in GF(2⁸) modulo x⁸ + x⁴ + x³ + x + 1. -/
def gfMul (a b : Nat) : Nat :=
  ((List.range 8).foldl (fun st k =>
    (if b.testBit k then st.1 ^^^ st.2 else st.1, if 128 ≤ st.2 then (2 * st.2 - 256) ^^^ 0x1B else 2 * st.2)) (0, a)).1

/-- The inverse, a²⁵⁴; 0 for 0. -/
def gfInv (a : Nat) : Nat :=
  ((List.range 7).foldl (fun st _ => let q := gfMul st.2 st.2; (gfMul st.1 q, q)) (1, a)).1

def rotl8 (a n : Nat) : Nat := (a * 2 ^ n) % 256 ^^^ a / 2 ^ (8 - n)

/-- The substitution of a byte, as FIPS 197 defines it, and the inverse one. -/
def aesSubOf (a : Nat) : Nat :=
  let b := gfInv a
  b ^^^ rotl8 b 1 ^^^ rotl8 b 2 ^^^ rotl8 b 3 ^^^ rotl8 b 4 ^^^ 0x63
def aesUnsubOf (a : Nat) : Nat := gfInv (rotl8 a 1 ^^^ rotl8 a 3 ^^^ rotl8 a 6 ^^^ 0x05)

/-- The substitution of every byte, byte 0 lowest; Laws/Crypto.lean shows that it is `aesSubOf`. -/
def aesSubTable : Nat :=
  0xC072A49CAFA2D4ADF04759FA7DC982CA76ABD7FE2B670130C56F6BF27B777C63 +
  0x75B227EBE28012079A059618C323C7041531D871F1E5A534CCF73F362693FDB7 * 2 ^ 256 +
  0xCF584C4A39BECB6A5BB1FC20ED00D153842FE329B3D63B52A05A6E1B1A2C8309 * 2 ^ 512 +
  0xD2F3FF1021DAB6BCF5389D928F40A351A89F3C507F02F94585334D43FBAAEFD0 * 2 ^ 768 +
  0xDB0B5EDE14B8EE4688902A22DC4F816073195D643D7EA7C41744975FEC130CCD * 2 ^ 1024 +
  0x08AE7A65EAF4566CA94ED58D6D37C8E779E4959162ACD3C25C2406490A3A32E0 * 2 ^ 1280 +
  0x9E1DC186B95735610EF6034866B53E708A8BBD4B1F74DDE8C6B4A61C2E2578BA * 2 ^ 1536 +
  0x16BB54B00F2D99416842E6BF0D89A18CDF2855CEE9871E9B948ED9691198F8E1 * 2 ^ 1792

/-- The inverse substitution of every byte; Laws/Crypto.lean shows that it is `aesUnsubOf`. -/
def aesUnsubTable : Nat :=
  0xCBE9DEC444438E3487FF2F9B8239E37CFBD7F3819EA340BF38A53630D56A0952 +
  0x25D18B6D49A25B76B224D92866A12E084EC3FA420B954CEE3D23C2A632947B54 * 2 ^ 256 +
  0x849D8DA75746155EDAB9EDFD5048706C92B6655DCC5CA4D41698688664F6F872 * 2 ^ 512 +
  0x6B8A130103BDAFC1020F3FCA8F1E2CD00645B3B80558E4F70AD3BC8C00ABD890 * 2 ^ 768 +
  0x6EDF751CE837F9E28535ADE72274AC9673E6B4F0CECFF297EADC674F4111913A * 2 ^ 1024 +
  0xF45ACD78FEC0DB9A2079D2C64B3E56FC1BBE18AA0E62B76F89C5291D711AF147 * 2 ^ 1280 +
  0xEF9CC9939F7AE52D0D4AB519A97F51605FEC8027591012B131C7078833A8DD1F * 2 ^ 1536 +
  0x7D0C2155631469E126D677BA7E042B17619953833CBBEBC8B0F52AAE4D3BE0A0 * 2 ^ 1792

def aesSub (a : Nat) : Nat := aesSubTable / 2 ^ (8 * a) % 256
def aesUnsub (a : Nat) : Nat := aesUnsubTable / 2 ^ (8 * a) % 256

/-- Bytes of a schedule or a state are kept as numbers below 256. -/
def xorN (a b : List Nat) : List Nat := List.zipWith (fun x y => x ^^^ y) a b

/-- One more word of the key schedule; words come last first. -/
def aesNextWord (nk : Nat) (ws : List (List Nat)) (i rcon : Nat) : List Nat :=
  let t := ws.headD []
  let t := if i % nk = 0 then
      match t with
      | a :: r => xorN ((r ++ [a]).map aesSub) [rcon, 0, 0, 0]
      | [] => []
    else if nk = 8 ∧ i % nk = 4 then t.map aesSub else t
  xorN (ws.getD (nk - 1) []) t

/-- The round keys, in order, of 16 bytes each. -/
def aesKeys (key : List Byte) : List (List Nat) :=
  let nk := key.length / 4
  let k := key.map (fun b => b.toNat)
  let first := ((List.range nk).map (fun i => (k.drop (4 * i)).take 4)).reverse
  let n := 4 * (nk + 7)
  let all := (List.range (n - nk)).foldl (fun st j =>
    let i := nk + j
    (aesNextWord nk st.1 i st.2 :: st.1, if i % nk = 0 then gfMul st.2 2 else st.2)) (first, 1)
  let bs := all.1.reverse.flatten
  (List.range (nk + 7)).map (fun r => (bs.drop (16 * r)).take 16)

def aesShift (s : List Nat) : List Nat := (List.range 16).map (fun i => s.getD (i % 4 + 4 * ((i / 4 + i % 4) % 4)) 0)
def aesUnshift (s : List Nat) : List Nat := (List.range 16).map (fun i => s.getD (i % 4 + 4 * ((i / 4 + 4 - i % 4) % 4)) 0)

def aesMixWith (m : List Nat) (s : List Nat) : List Nat :=
  (List.range 16).map (fun i => (List.range 4).foldl (fun a k => a ^^^ gfMul (m.getD ((k + 4 - i % 4) % 4) 0) (s.getD (i / 4 * 4 + k) 0)) 0)

def toBytes (s : List Nat) : List Byte := s.map (BitVec.ofNat 8)
def toNats (b : List Byte) : List Nat := b.map (fun x => x.toNat)

/-- Encrypt one block with expanded keys. -/
def aesRun (ks : List (List Nat)) (block : List Byte) : List Byte :=
  let s := xorN (toNats block) (ks.headD [])
  let n := ks.length - 1
  toBytes ((ks.drop 1).zipIdx.foldl (fun s k =>
    let s := aesShift (s.map aesSub)
    xorN (if k.2 + 1 = n then s else aesMixWith [2, 3, 1, 1] s) k.1) s)

def aesEnc (key block : List Byte) : List Byte := aesRun (aesKeys key) block

/-- Decrypt one block. -/
def aesDec (key block : List Byte) : List Byte :=
  let ks := (aesKeys key).reverse
  let s := xorN (toNats block) (ks.headD [])
  let n := ks.length - 1
  toBytes ((ks.drop 1).zipIdx.foldl (fun s k =>
    let s := xorN ((aesUnshift s).map aesUnsub) k.1
    if k.2 + 1 = n then s else aesMixWith [14, 11, 13, 9] s) s)

def xorB (a b : List Byte) : List Byte := List.zipWith (fun x y => x ^^^ y) a b

/-- Bytes in blocks of 16; the last one may be shorter. -/
def blocks16 (bs : List Byte) : List (List Byte) := (List.range ((bs.length + 15) / 16)).map (fun k => (bs.drop (16 * k)).take 16)

def pad16 (bs : List Byte) : List Byte := bs ++ List.replicate ((16 - bs.length % 16) % 16) 0

/-! ### CMAC and the key derivation -/

/-- Doubling of a CMAC subkey. -/
def cmacDbl (b : List Byte) : List Byte :=
  let n := beNat b
  beBytes 16 (if n.testBit 127 then (2 * n) % 2 ^ 128 ^^^ 0x87 else 2 * n)

/-- AES-CMAC. (PRESUMED, log entry 61.) -/
def cmac (key m : List Byte) : List Byte :=
  let ks := aesKeys key
  let k1 := cmacDbl (aesRun ks (List.replicate 16 0))
  let n := (m.length + 15) / 16
  let body := m.take (16 * (n - 1))
  let last := m.drop (16 * (n - 1))
  let last := if last.length = 16 then xorB last k1
    else xorB (last ++ [0x80] ++ List.replicate (15 - last.length) 0) (cmacDbl k1)
  aesRun ks (xorB ((blocks16 body).foldl (fun c b => aesRun ks (xorB c b)) (List.replicate 16 0)) last)

/-- The KDF of R496: `bits` bits from a key, a label and a 16-byte context. (PRESUMED, log entry 61.) -/
def kdf (key : List Byte) (label : Nat) (ctx : List Byte) (bits : Nat) : List Byte :=
  ((List.range ((bits + 127) / 128)).flatMap (fun i =>
    cmac key (beBytes 4 (i + 1) ++ beBytes 4 label ++ [0] ++ ctx ++ beBytes 4 bits))).take (bits / 8)

/-! ### GCM -/

/-- Product in GF(2¹²⁸) as GHASH takes it, on numbers whose bit 127 is the first bit. -/
def ghMul (x y : Nat) : Nat :=
  ((List.range 128).foldl (fun st k =>
    (if x.testBit (127 - k) then st.1 ^^^ st.2 else st.1,
      if st.2.testBit 0 then st.2 / 2 ^^^ 0xE1000000000000000000000000000000 else st.2 / 2)) (0, y)).1

/-- GHASH over bytes already padded to blocks, from a value. -/
def ghash (h : Nat) (from0 : Nat) (bs : List Byte) : Nat := (blocks16 bs).foldl (fun y b => ghMul (y ^^^ beNat b) h) from0

/-- Counter block `n` of a 96-bit IV; the tag uses number 1. -/
def gcmCounter (iv : List Byte) (n : Nat) : List Byte := iv ++ beBytes 4 n

/-- Encrypt or decrypt bytes in counter mode from block number `n`. (PRESUMED, log entry 61.) -/
def gcmCrypt (key iv : List Byte) (n : Nat) (bs : List Byte) : List Byte :=
  let ks := aesKeys key
  (blocks16 bs).zipIdx.flatMap (fun b => xorB b.1 (aesRun ks (gcmCounter iv (n + b.2))))

def gcmHash (key : List Byte) : Nat := beNat (aesEnc key (List.replicate 16 0))

/-- The tag of additional data and ciphertext. -/
def gcmTag (key iv aad ct : List Byte) : List Byte :=
  let h := gcmHash key
  let y := ghash h (ghash h 0 (pad16 aad)) (pad16 ct)
  let y := ghMul (y ^^^ (aad.length * 8 * 2 ^ 64 + ct.length * 8)) h
  xorB (beBytes 16 y) (aesEnc key (gcmCounter iv 1))

/-! ### Key wrap -/

/-- Wrap a key of 16 or 32 bytes. (PRESUMED, log entry 61.) -/
def kwWrap (kek key : List Byte) : List Byte :=
  let n := key.length / 8
  let st := (List.range (6 * n)).foldl (fun st t =>
    let i := t % n
    let b := aesEnc kek (st.1 ++ (st.2.drop (8 * i)).take 8)
    (beBytes 8 (beNat (b.take 8) ^^^ (t + 1)), st.2.take (8 * i) ++ b.drop 8 ++ st.2.drop (8 * i + 8)))
    (List.replicate 8 (0xA6 : Byte), key)
  st.1 ++ st.2

/-- Unwrap: none where the check value does not come back. -/
def kwUnwrap (kek wrapped : List Byte) : Option (List Byte) :=
  let n := wrapped.length / 8 - 1
  let st := (List.range (6 * n)).foldl (fun st u =>
    let t := 6 * n - 1 - u
    let i := t % n
    let b := aesDec kek (beBytes 8 (beNat st.1 ^^^ (t + 1)) ++ (st.2.drop (8 * i)).take 8)
    (b.take 8, st.2.take (8 * i) ++ b.drop 8 ++ st.2.drop (8 * i + 8))) (wrapped.take 8, wrapped.drop 8)
  if st.1 = List.replicate 8 (0xA6 : Byte) then some st.2 else none

/-! ### SHA-256 -/

def shaK : List Nat :=
  [0x428a2f98, 0x71374491, 0xb5c0fbcf, 0xe9b5dba5, 0x3956c25b, 0x59f111f1, 0x923f82a4, 0xab1c5ed5] ++
  [0xd807aa98, 0x12835b01, 0x243185be, 0x550c7dc3, 0x72be5d74, 0x80deb1fe, 0x9bdc06a7, 0xc19bf174] ++
  [0xe49b69c1, 0xefbe4786, 0x0fc19dc6, 0x240ca1cc, 0x2de92c6f, 0x4a7484aa, 0x5cb0a9dc, 0x76f988da] ++
  [0x983e5152, 0xa831c66d, 0xb00327c8, 0xbf597fc7, 0xc6e00bf3, 0xd5a79147, 0x06ca6351, 0x14292967] ++
  [0x27b70a85, 0x2e1b2138, 0x4d2c6dfc, 0x53380d13, 0x650a7354, 0x766a0abb, 0x81c2c92e, 0x92722c85] ++
  [0xa2bfe8a1, 0xa81a664b, 0xc24b8b70, 0xc76c51a3, 0xd192e819, 0xd6990624, 0xf40e3585, 0x106aa070] ++
  [0x19a4c116, 0x1e376c08, 0x2748774c, 0x34b0bcb5, 0x391c0cb3, 0x4ed8aa4a, 0x5b9cca4f, 0x682e6ff3] ++
  [0x748f82ee, 0x78a5636f, 0x84c87814, 0x8cc70208, 0x90befffa, 0xa4506ceb, 0xbef9a3f7, 0xc67178f2]

def shaH0 : List Nat := [0x6a09e667, 0xbb67ae85, 0x3c6ef372, 0xa54ff53a, 0x510e527f, 0x9b05688c, 0x1f83d9ab, 0x5be0cd19]

def ror32 (x n : Nat) : Nat := x / 2 ^ n + x % 2 ^ n * 2 ^ (32 - n)
def add32 (a b : Nat) : Nat := (a + b) % 2 ^ 32

/-- The message schedule of a block, first word first. -/
def shaSchedule (b : List Byte) : List Nat :=
  let w := ((List.range 16).map (fun i => beNat ((b.drop (4 * i)).take 4))).reverse
  ((List.range 48).foldl (fun ws _ =>
    let x := ws.getD 14 0
    let y := ws.getD 1 0
    let s0 := ror32 x 7 ^^^ ror32 x 18 ^^^ x / 2 ^ 3
    let s1 := ror32 y 17 ^^^ ror32 y 19 ^^^ y / 2 ^ 10
    add32 (add32 (ws.getD 15 0) s0) (add32 (ws.getD 6 0) s1) :: ws) w).reverse

/-- One round. -/
def shaRound (h : List Nat) (kw : Nat × Nat) : List Nat :=
  match h with
  | [a, b, c, d, e, f, g, x] =>
    let s1 := ror32 e 6 ^^^ ror32 e 11 ^^^ ror32 e 25
    let ch := (e &&& f) ^^^ ((0xFFFFFFFF ^^^ e) &&& g)
    let t1 := add32 (add32 (add32 x s1) (add32 ch kw.1)) kw.2
    let s0 := ror32 a 2 ^^^ ror32 a 13 ^^^ ror32 a 22
    let maj := (a &&& b) ^^^ (a &&& c) ^^^ (b &&& c)
    [add32 t1 (add32 s0 maj), a, b, c, add32 d t1, e, f, g]
  | _ => h

/-- SHA-256 of bytes. (PRESUMED, log entry 61.) -/
def sha256 (m : List Byte) : List Byte :=
  let p := m ++ [0x80] ++ List.replicate ((119 - m.length % 64) % 64) 0 ++ beBytes 8 (8 * m.length)
  let h := (List.range (p.length / 64)).foldl (fun h k =>
    List.zipWith add32 h ((List.zip shaK (shaSchedule ((p.drop (64 * k)).take 64))).foldl shaRound h)) shaH0
  h.flatMap (beBytes 4)

/-! ### ECDSA over P-256 -/

def p256P : Nat := 0xffffffff00000001000000000000000000000000ffffffffffffffffffffffff
def p256N : Nat := 0xffffffff00000000ffffffffffffffffbce6faada7179e84f3b9cac2fc632551
def p256B : Nat := 0x5ac635d8aa3a93e7b3ebbd55769886bc651d06b0cc53b0f63bce3c3e27d2604b
def p256G : Nat × Nat :=
  (0x6b17d1f2e12c4247f8bce6e563a440f277037d812deb33a0f4a13945d898c296,
    0x4fe342e2fe1a7f9b8ee7eb4a7c0f9e162bce33576b315ececbb6406837bf51f5)

/-- A power modulo `m`; the exponent has at most 256 bits. -/
def powMod (m a e : Nat) : Nat :=
  ((List.range 256).foldl (fun st k => (if e.testBit k then st.1 * st.2 % m else st.1, st.2 * st.2 % m)) (1, a % m)).1

def invMod (m a : Nat) : Nat := powMod m a (m - 2)

/-- Addition of points; none is the point at infinity. -/
def ecAdd (p q : Option (Nat × Nat)) : Option (Nat × Nat) :=
  match p, q with
  | none, _ => q
  | _, none => p
  | some a, some b =>
    if a.1 = b.1 ∧ (a.2 + b.2) % p256P = 0 then none
    else
      let l := if a.1 = b.1 then (3 * a.1 * a.1 + p256P - 3) * invMod p256P (2 * a.2) % p256P
        else (b.2 + p256P - a.2) * invMod p256P (b.1 + p256P - a.1) % p256P
      let x := (l * l + 2 * p256P - a.1 - b.1) % p256P
      some (x, (l * (a.1 + p256P - x) + p256P - a.2) % p256P)

/-- A multiple of a point. -/
def ecMul (k : Nat) (p : Nat × Nat) : Option (Nat × Nat) :=
  ((List.range 256).foldl (fun st i => (if k.testBit i then ecAdd st.1 st.2 else st.1, ecAdd st.2 st.2)) (none, some p)).1

/-- The point lies on the curve, with reduced coordinates. -/
def ecOn (p : Nat × Nat) : Bool :=
  decide (p.1 < p256P) && decide (p.2 < p256P) &&
    (p.2 * p.2) % p256P == (p.1 * p.1 * p.1 + (p256P - 3) * p.1 + p256B) % p256P

/-- A signature r ‖ s over a message, by a public key X ‖ Y. (PRESUMED, log entry 61.) -/
def ecdsaOk (pub sig m : List Byte) : Bool :=
  let q := (beNat (pub.take 32), beNat (pub.drop 32))
  let r := beNat (sig.take 32)
  let t := beNat (sig.drop 32)
  if !(ecOn q) || r == 0 || t == 0 || decide (p256N ≤ r) || decide (p256N ≤ t) then false
  else
    let w := invMod p256N t
    match ecAdd (ecMul (beNat (sha256 m) * w % p256N) p256G) (ecMul (r * w % p256N) q) with
    | some x => x.1 % p256N == r
    | none => false

/-! ### Checks -/

/-- The CRC-16 of a K1 slot (R491): polynomial 0x1021, from 0xFFFF. (PRESUMED, log entry 6.) -/
def crc16k (bs : List Byte) : Nat := crcM 16 0x1021 0xFFFF (bs.flatMap byteBits)

end Sys2Proof.Machine
end

