-- ==== Sys2Proof/Machine/KeyRead.lean ====
section
/-!
DEFINITION. Slots of the key store and an engine's read of one (R490-R495).
-/

namespace Sys2Proof.Machine

def setKeys (s : State) (f : Keys → Keys) : State := { s with keys := f s.keys }
def keySlot (s : State) (i : Nat) : KeySlot := mget {} s.keys.slots i

/-- KEYS_SLOT_INFO follows the selected slot. -/
def slotInfo (s : State) : State :=
  let k := keySlot s (fld s Reg.KEYS_SLOT_SEL F.KEYS_SLOT_SEL_SLOT)
  let w := fieldPut F.KEYS_SLOT_INFO_STATE 0 k.status
  let w := fieldPut F.KEYS_SLOT_INFO_DEST (fieldPut F.KEYS_SLOT_INFO_FORMAT w k.format) k.dest
  wr s Reg.KEYS_SLOT_INFO (fieldPut F.KEYS_SLOT_INFO_LEN w (if k.wide then 1 else 0))

/-- A slot gets new content: KEYS_VALID, KEYS_BAD and KEYS_SLOT_INFO follow; a slot that becomes BAD sets INT_RAW
bit 2 (R490). -/
def putSlot (s : State) (i : Nat) (k : KeySlot) : State :=
  let was := (keySlot s i).status
  let s := setKeys s (fun q => { q with slots := mput {} q.slots i k })
  let s := wr s (Reg.KEYS_VALID (i / 32)) (putBit (rd s (Reg.KEYS_VALID (i / 32))) (i % 32) (k.status == 1))
  let s := wr s (Reg.KEYS_BAD (i / 32)) (putBit (rd s (Reg.KEYS_BAD (i / 32))) (i % 32) (k.status == 2))
  slotInfo (if k.status = 2 ∧ was ≠ 2 then raise s 0xF0 2 else s)

/-- A native slot's shares are written anew (R490). (DEDUCED, log entry 80.) -/
def redraw (s : State) (i : Nat) : State :=
  let k := keySlot s i
  if k.format = 1 then
    let f := freeBytes s k.key.length
    setKeys f.2 (fun q => { q with slots := mput {} q.slots i { k with share := f.1 } })
  else s

/-- Bytes 0x00 to 0x27 of a K1 record (R491). (DEDUCED, log entry 80.) -/
def k1Bytes (dest : Nat) (wide : Bool) (key : List Byte) : List Byte :=
  [2, BitVec.ofNat 8 dest, if wide then 1 else 0, 0, 0, 0, 0, 0] ++ key ++ List.replicate (32 - key.length) 0

/-- The CRC-16 of a K1 slot is right. -/
def k1Ok (k : KeySlot) : Bool := k.format != 2 || crc16k (k1Bytes k.dest k.wide k.key) == k.crc

/-- An engine's read of a slot (R490, R494): the key, or a denial. `req` is the requester of KEYS_DENY_LAST. -/
def keyUse (s : State) (i dest req : Nat) (lenOk : Bool → Bool) : Option (List Byte) × State :=
  let k := keySlot s i
  let bad := k.status = 1 ∧ !(k1Ok k)
  let s := if bad then putSlot s i { k with status := 2 } else s
  if k.status = 1 ∧ !bad ∧ k.dest = dest ∧ lenOk k.wide then (some k.key, redraw s i)
  else
    let s := satFld s Reg.KEYS_DENIED ⟨0, 32⟩ 1
    let w := fieldPut F.KEYS_DENY_LAST_REQ (fieldPut F.KEYS_DENY_LAST_SLOT 0 i) req
    (none, raise (wr s Reg.KEYS_DENY_LAST w) 0xF0 1)

/-- The key of a session's slot, for RXE (R493, R494). -/
def sessionKey (s : State) (i : Nat) : Option (List Byte) × State := keyUse s i 6 2 (fun _ => true)

/-- An LSX tag: the first 8 bytes of AES-CMAC over a frame (R139). -/
def lsxTag (key m : List Byte) : List Byte := (cmac key m).take 8

end Sys2Proof.Machine
end

