-- ==== Sys2Proof/Machine/Panel.lean ====
section
/-!
DEFINITION. Rectangles of the Lantern panel: submission, order of starting, and the loads of a class B chain (R504,
R509-R512).
-/

namespace Sys2Proof.Machine

def setLantern (s : State) (f : Lantern → Lantern) : State := { s with lantern := f s.lantern }
def rect (s : State) (n : Nat) : Rect := mget {} s.lantern.slots n
def setRect (s : State) (n : Nat) (f : Rect → Rect) : State :=
  setLantern s (fun l => { l with slots := mput {} l.slots n (f (rect s n)) })

/-- LANTERN_STAT.STATE and its values. -/
def lanState (s : State) : Nat := fld s Reg.LANTERN_STAT F.LANTERN_STAT_STATE
def lsOff : Nat := 0
def lsRising : Nat := 1
def lsClearing : Nat := 2
def lsReplay : Nat := 3
def lsOn : Nat := 4
def lsFalling : Nat := 5
def classB (s : State) : Bool := flag s Reg.LANTERN_CFG F.LANTERN_CFG_CLASS

/-- A slot enters a phase. -/
def rectPhase (s : State) (n p : Nat) : State := setRect s n (fun r => { r with phase := p, since := s.now })

/-- BUSY of a slot. -/
def setBusy (s : State) (n : Nat) (b : Bool) : State :=
  setFlag s Reg.LANTERN_STAT ⟨F.LANTERN_STAT_BUSY.lo + n, 1⟩ b
def lanBusy (s : State) (n : Nat) : Bool := (fld s Reg.LANTERN_STAT F.LANTERN_STAT_BUSY).testBit n

/-- A segment number lies inside the bounds of a rectangle (R504, R509). -/
def inRect (b : Word) (k : Nat) : Bool :=
  let c := k / 48
  let g := k % 48
  decide (fieldGet F.LANTERN_RBOUND_C0 b ≤ c) && decide (c ≤ fieldGet F.LANTERN_RBOUND_C1 b) &&
    decide (fieldGet F.LANTERN_RBOUND_S0 b ≤ g) && decide (g ≤ fieldGet F.LANTERN_RBOUND_S1 b)

/-- The segments of a rectangle, as a mask of 384 bits. -/
def rectMask (b : Word) : Nat := (List.range 384).foldl (fun m k => if inRect b k then m + 2 ^ k else m) 0

/-- Two rectangles share a segment (R509). -/
def rectsMeet (a b : Word) : Bool :=
  let f := fun (x : Word) (g : Field) => fieldGet g x
  decide (f a F.LANTERN_RBOUND_C0 ≤ f b F.LANTERN_RBOUND_C1) && decide (f b F.LANTERN_RBOUND_C0 ≤ f a F.LANTERN_RBOUND_C1) &&
    decide (f a F.LANTERN_RBOUND_S0 ≤ f b F.LANTERN_RBOUND_S1) && decide (f b F.LANTERN_RBOUND_S0 ≤ f a F.LANTERN_RBOUND_S1)

/-- A sequence number precedes another one in serial number arithmetic (R514). -/
def seqBefore (a b : Nat) : Bool := decide (a ≠ b) && decide ((b + 0x100000000 - a) % 0x100000000 < 0x80000000)

/-- The submitted rectangles in ascending sequence order. -/
def submitted (s : State) : List Nat :=
  sortBy (fun a b => !(seqBefore (rect s b).seq (rect s a).seq)) ((List.range 5).filter (fun n => (rect s n).phase == 1))

/-- A submitted rectangle may start (R509); after OFF (R515) and after power-fail qualification (R516) none does. -/
def startable (s : State) (n : Nat) : Bool :=
  let r := rect s n
  !(heldAll s) && !s.lantern.offDue && (lanState s == lsOn || (lanState s == lsReplay && r.replay)) &&
    (List.range 5).all (fun m => m == n || (rect s m).phase == 0 || !(seqBefore (rect s m).seq r.seq) || !(rectsMeet (rect s m).bound r.bound))

/-- A rectangle starts: class T waits for a frame pair (R510), class B writes its journal entry (R511), a replay goes
to its drive (R514). -/
def startRect (s : State) (n : Nat) : State :=
  if !(startable s n) then s
  else if !(classB s) then rectPhase s n 9
  else if (rect s n).replay then rectPhase s n 3
  else
    let s := rectPhase s n 2
    setLantern s (fun l => { l with
      writing := l.writing ++ [n], writeFrom := if l.writing.isEmpty then s.now else l.writeFrom })

/-- The next chain load begins where one is due and none runs (R511, R515). -/
def loadBegin (s : State) : State :=
  let due := fun (p : Nat) => (List.range 5).filter (fun n => (rect s n).phase == p)
  if s.lantern.load.isSome || heldAll s || !s.lantern.vhvn then s
  else if s.lantern.blankDue != 0 then
    setLantern s (fun l => { l with load := some { since := s.now, blank := l.blankDue }, blankDue := 0 })
  else if (due 3).isEmpty && (due 6).isEmpty then s
  else
    let t := (due 3).foldl (fun s n => rectPhase s n 4) ((due 6).foldl (fun s n => rectPhase s n 7) s)
    setLantern t (fun l => { l with load := some { since := s.now, starts := due 3, ends := due 6 } })

/-- Whatever may start, starts. -/
def lanternGo (s : State) : State := loadBegin ((submitted s).foldl startRect s)

/-- A rectangle is submitted under the next sequence number, 0 skipped (R509). -/
def submitRect (s : State) (n : Nat) (bound : Word) (pulse : Nat) (data : List Word) : State :=
  let q := (rdn s Reg.LANTERN_JSEQ + 1) % 0x100000000
  let q := if q = 0 then 1 else q
  let s := setRect (wrn s Reg.LANTERN_JSEQ q) n (fun _ => {
    phase := 1, seq := q, bound := bound, pulse := pulse, data := data, since := s.now })
  lanternGo (setBusy s n true)

/-- FORCE_IND (R113). -/
def forceInd (s : State) : Bool := flag s Reg.CYC_STAT F.CYC_STAT_FORCE_IND

/-- The class B icon takes the level present now (R512). -/
def submitIcon (s : State) : State :=
  let c := fld s Reg.LANTERN_FORCE F.LANTERN_FORCE_COM
  let g := fld s Reg.LANTERN_FORCE F.LANTERN_FORCE_SEG
  let b := fieldPut F.LANTERN_RBOUND_C1 (fieldPut F.LANTERN_RBOUND_C0 0 c) c
  let b := fieldPut F.LANTERN_RBOUND_S1 (fieldPut F.LANTERN_RBOUND_S0 b g) g
  let k := 48 * c + g
  let data := (List.range 12).map (fun i => if i = k / 32 ∧ s.lantern.icon then (1#32 <<< (k % 32)) else 0)
  submitRect (setLantern s (fun l => { l with iconDue := false })) 4 b (fld s Reg.LANTERN_FORCE F.LANTERN_FORCE_PULSE_MS) data

/-- FORCE_IND changes to a level (R512). -/
def iconChanged (s : State) (on : Bool) : State :=
  let s := setLantern s (fun l => { l with icon := on })
  if !(flag s Reg.LANTERN_FORCE F.LANTERN_FORCE_EN && classB s && domainUp s 8) then s
  else if lanBusy s 4 then setLantern s (fun l => { l with iconDue := true })
  else submitIcon s

end Sys2Proof.Machine
end

