-- ==== Sys2Proof/Machine/Hooks.lean ====
section
/-!
DEFINITION. What one block does to another when its own event comes about.
-/

namespace Sys2Proof.Machine

/-- A commit instant has come: the copy set of a mirrored task is to be formed (R356). -/
def mirrorCommit (s : State) (t : Nat) : State :=
  if flag s (Reg.TCFG t) F.TCFG_MIRR then setMirror s (fun m => { m with commits := m.commits ++ [t] }) else s
/-- FORCE_IND changes (R113, R512, R519): Lantern shows it, Afterglow counts it. -/
def forceChanged (s : State) (on : Bool) : State :=
  let s := iconChanged s on
  if on then aglEvent (aglEvent s (.add 14 0 4 1)) (.put 14 12 8 (aglTime s)) else aglEvent s (.put 14 20 8 (aglTime s))

/-! ### Core mode (R464, R472-R477) -/

/-- A core's hidden state. -/
def coreOf (s : State) (c : Nat) : CoreCtx := mget {} s.cores c
def setCore (s : State) (c : Nat) (f : CoreCtx → CoreCtx) : State :=
  { s with cores := mput {} s.cores c (f (coreOf s c)) }

/-- The core has been released (R43, R51, R52), is not halted and is not held in the shut state (R71). -/
def coreRuns (s : State) (c : Nat) : Bool :=
  s.start.step == .running && bitAt (rd s Reg.SYS_CORE_REL) c && !(flag s (Reg.CORE_STAT c) F.CORE_STAT_HALTED) &&
    !(flag s Reg.PWR_STAT F.PWR_STAT_SHUT)

/-- CYC may switch the core's task: no handler runs (R477). -/
def coreFree (s : State) (c : Nat) : Bool :=
  coreRuns s c && !(coreOf s c).handler && fld s (Reg.CORE_STAT c) F.CORE_STAT_IPRIO == 16

/-- CORE_STAT.TMODE, TASK and CTX follow what the core runs: its task, or supervisor code (R464). (DEDUCED, log entry 29.) -/
def coreSync (s : State) (c : Nat) : State :=
  match mget none s.cyc.running c with
  | some t =>
    if (coreOf s c).handler || flag s (Reg.CORE_STAT c) F.CORE_STAT_HALTED then s
    else
      let s := setFld (setFlag s (Reg.CORE_STAT c) F.CORE_STAT_TMODE true) (Reg.CORE_STAT c) F.CORE_STAT_TASK t
      setFld s (Reg.CORE_STAT c) F.CORE_STAT_CTX (fld s (Reg.TCTX t) F.TCTX_CTX)
  | none =>
    let s := setFlag s (Reg.CORE_STAT c) F.CORE_STAT_TMODE false
    setFld s (Reg.CORE_STAT c) F.CORE_STAT_CTX
      (if flag s (Reg.CORE_CFG c) F.CORE_CFG_XLATE && !(coreOf s c).trapped then fld s (Reg.CORE_CFG c) F.CORE_CFG_SCTX else 0)

end Sys2Proof.Machine
end

