-- ==== Sys2Proof/Machine/Image.lean ====
section
/-!
DEFINITION. What a map (R88) and an image descriptor (R122) hold, and the memory they name (R121).
-/

namespace Sys2Proof.Machine

/-! ### Maps (R88) -/

def mapRd (m : List Byte) (off n : Nat) : Nat := leNat ((m.drop off).take n)
def mapKind (e : List Byte) : Nat := mapRd e 0 1
def mapQual (e : List Byte) : Bool := (mapRd e 1 1).testBit 0
def mapSrc (e : List Byte) : Nat := mapRd e 2 2
def mapOff (e : List Byte) : Nat := mapRd e 4 4
def mapImgOff (e : List Byte) : Nat := mapRd e 8 4
def mapLen (e : List Byte) : Nat := mapRd e 12 4

/-- A map's header fields and its entries. -/
def mapCount (m : List Byte) : Nat := mapRd m 4 4
def mapImg (m : List Byte) : Nat := mapRd m 8 4
def mapImgLen (m : List Byte) : Nat := mapRd m 12 4
def mapBuf (m : List Byte) (b : Bool) : Nat := mapRd m (if b then 0x14 else 0x10) 4
def mapEntries (m : List Byte) : List (List Byte) := (List.range (mapCount m)).map (fun k => (m.drop (32 + 16 * k)).take 16)

/-- Two ranges, each a start and a length, have a byte in common. -/
def rangesMeet (a b : Nat × Nat) : Bool :=
  decide (0 < a.2) && decide (0 < b.2) && decide (a.1 < b.1 + b.2) && decide (b.1 < a.1 + a.2)

/-- Some two ranges of a list have a byte in common. -/
def anyMeet : List (Nat × Nat) → Bool
  | [] => false
  | r :: rs => rs.any (rangesMeet r) || anyMeet rs

/-- The bytes of the map at a physical address. -/
def mapBytesAt (s : State) (a : Nat) : List Byte := rdBytes s a (32 + 16 * min 4096 (rdLE s (a + 4) 4))

/-! ### Image descriptors (R122) -/

def dSegBase (s : State) (d : Nat) : Nat := rdLE s (d + 0x10) 4
def dDirBase (s : State) (d : Nat) : Nat := rdLE s (d + 0x18) 4
def dDirCnt (s : State) (d : Nat) : Nat := rdLE s (d + 0x1C) 4
def dMapBase (s : State) (d : Nat) : Nat := rdLE s (d + 0x20) 4
def dMapCnt (s : State) (d : Nat) : Nat := rdLE s (d + 0x24) 4
def dSeedBase (s : State) (d : Nat) : Nat := rdLE s (d + 0x28) 4
def dSeedCnt (s : State) (d : Nat) : Nat := rdLE s (d + 0x2C) 4
def dRetBase (s : State) (d : Nat) : Nat := rdLE s (d + 0x30) 4
def dRetLen (s : State) (d : Nat) : Nat := rdLE s (d + 0x34) 4
def dRetSig (s : State) (d : Nat) : Nat := rdLE s (d + 0x38) 8
def dTaskWord (s : State) (d t k : Nat) : Nat := rdLE s (d + 0x40 + 48 * t + 4 * k) 4

/-- The memory the map at `a` names: itself, its image, and the buffers of an output map. -/
def mapRanges (s : State) (out : Bool) (a : Nat) : List (Nat × Nat) :=
  let m := mapBytesAt s a
  [(a, m.length), (mapImg m, mapImgLen m)] ++
    (if out then [(mapBuf m false, mapImgLen m), (mapBuf m true, mapImgLen m)] else [])

/-- The memory a descriptor names for these tasks: itself, segment, directory, field map, seed table, retentive buffers, and
the maps, images and buffers of its task entries. (DEDUCED, log entry 47.) -/
def imageRanges (s : State) (d : Nat) (group : List Nat) : List (Nat × Nat) :=
  [(d, 832), (dSegBase s d, rdLE s (d + 0x14) 4), (dDirBase s d, 32 * dDirCnt s d), (dMapBase s d, 24 * dMapCnt s d),
    (dSeedBase s d, 16 * dSeedCnt s d), (dRetBase s d, 3 * dRetLen s d)] ++
  (group.filter (fun t => (dTaskWord s d t 0).testBit 31)).flatMap (fun t =>
    mapRanges s false (dTaskWord s d t 6) ++ mapRanges s true (dTaskWord s d t 7))

/-- `n` bytes at `a` lie in the image kept for REVERT (R121). (DEDUCED, log entry 42.) -/
def inPrevious (s : State) (a n : Nat) : Bool :=
  flag s Reg.CYC_XSTAT F.CYC_XSTAT_REVERT_OK &&
    (imageRanges s (rdn s Reg.CYC_XPREV) s.cyc.exch.group).any (rangesMeet (a, n))

/-- `n` bytes at `a` lie in a staged image: CYC_XDESC names a descriptor that is not the running image's (R121). (DEDUCED, log entry 47.) -/
def inStaged (s : State) (a n : Nat) : Bool :=
  let d := rdn s Reg.CYC_XDESC
  d != 0 && d != rdn s Reg.CYC_XACT && rdLE s d 4 == 0x4C584431 &&
    (imageRanges s d (List.range 16)).any (rangesMeet (a, n))

end Sys2Proof.Machine
end

