-- ==== Sys2Proof/Machine/Time.lean ====
section
/-!
DEFINITION. The passing of time: one VCO cycle, and in it MONO, PTP time and a slew (R371, R373, R375); the Echo queues
(R387, R388).
-/

namespace Sys2Proof.Machine

def setClock (s : State) (f : Clock → Clock) : State := { s with clock := f s.clock }

/-- PTP time in whole seconds. -/
def ptpSec (s : State) : Nat := ptpNs s / 10 ^ 9

/-- A number that lies between two integers is shown as either of them, where the spec gives no rounding. (DESIGN CHOICE, log entry 71.) -/
def roundOpen (s : State) (num : Int) (den : Nat) : Int × State :=
  if num % (den : Int) = 0 then (num / (den : Int), s)
  else
    let f := fresh s
    (num / (den : Int) + (if Config.freeBool f.1 then 1 else 0), f.2)

/-- PTP_RATE (R374). -/
def ptpRate (s : State) : Int := signed 32 (rdn s Reg.PTP_RATE)

/-- What a slew adds in one CLK_PTP cycle, in units of `Clock.ptp`. (DEDUCED, log entry 85.) -/
def slewStep (s : State) : Nat := min s.clock.slewLeft (fld s Reg.PTP_SLEW_CFG F.PTP_SLEW_CFG_PPM * 4000 * 2 ^ 48)

/-- PTP_SLEW_LEFT shows the remainder. (DESIGN CHOICE, log entry 71.) -/
def showSlew (s : State) : State :=
  let r := roundOpen s (if s.clock.slewNeg then -(s.clock.slewLeft : Int) else (s.clock.slewLeft : Int)) ptpUnit
  wrn r.2 Reg.PTP_SLEW_LEFT (unsignedOf 32 r.1)

/-- One CLK_PTP cycle (R371, R373, R375); PTP_HOLD_S counts in HOLDOVER (R382); a pending SET_DEFER sees the seconds
change (R394). (DEDUCED, log entry 85.) -/
def ptpTick (s : State) : State :=
  let add := slewStep s
  let inc : Int := 4 * (ptpUnit : Int) + ptpRate s * 2 ^ 40 + (if s.clock.slewNeg then -(add : Int) else (add : Int))
  let t := setClock s (fun c => { c with
    mono := c.mono + 4, ptp := ((c.ptp : Int) + inc).toNat, slewLeft := c.slewLeft - add })
  let t := if s.clock.slewLeft = 0 then t else showSlew t
  let t := if fld t Reg.PTP_STAT F.PTP_STAT_SERVO = 1 then wrn t Reg.PTP_HOLD_S ((monoNs t - t.clock.holdFrom) / 10 ^ 9) else t
  match t.rtc.setPend with
  | some sec =>
    if !t.rtc.setChanged && ptpSec t != sec then { t with rtc := { t.rtc with setChanged := true, setNow := t.rtc.setNow.orElse (fun _ => some t.now) } } else t
  | none => t

/-- One VCO cycle passes. (DESIGN CHOICE, log entry 5; DEDUCED, log entry 70.) -/
def passCycle (s : State) : State :=
  let t := { s with now := s.now + 1 }
  if t.clock.running && t.now % 20 == 0 then ptpTick t else t

/-- `n` VCO cycles pass. -/
def passCycles : Nat → State → State
  | 0, s => s
  | n + 1, s => passCycles n (passCycle s)

/-! ### Echo queues -/

def echoOf (s : State) (k : Nat) : List (Nat × Nat × Bool × Nat) := mget [] s.clock.echo k
def setEcho (s : State) (k : Nat) (q : List (Nat × Nat × Bool × Nat)) : State :=
  wrn (setClock s (fun c => { c with echo := mput [] c.echo k q })) (Reg.PTP_ECHO_CNT k) q.length

/-- STEP_GEN of the present CLK_PTP cycle. -/
def stepGen (s : State) : Nat := fld s Reg.PTP_STAT F.PTP_STAT_STEP_GEN

/-- Append an entry to the Echo queue of a port, which returns egress stamps (R383): the tag, the STEP_GEN, whether the frame
was late, and its stamp in ns (R387). -/
def echoAppend (s : State) (k tag gen : Nat) (late : Bool) (stamp : Nat) : State :=
  let q := echoOf s k
  let e := (tag, gen, late, if late then 0 else stamp)
  if 32 ≤ q.length then
    let t := setClock s (fun c => { c with
      echoLost := mput {} c.echoLost k {
        cycle := s.now / 20 + 1, entry := e, drops := rdn s (Reg.PTP_ECHO_DROP k), ovf := bitAt (rd s (Reg.INT_RAW (0xC1 + k))) 1 } })
    raise (satFld t (Reg.PTP_ECHO_DROP k) ⟨0, 32⟩ 1) (0xC1 + k) 1
  else raise (setEcho s k (q ++ [e])) (0xC1 + k) 0

/-- A removal in the CLK_PTP cycle of an append to a full queue: the new entry is accepted after all (R388). -/
def echoAccept (s : State) (k : Nat) : State :=
  let x := mget {} s.clock.echoLost k
  if x.cycle = s.now / 20 + 1 then
    let t := setClock s (fun c => { c with echoLost := mput {} c.echoLost k {} })
    let t := wrn t (Reg.PTP_ECHO_DROP k) x.drops
    let t := if x.ovf then t else clrReg t (Reg.INT_RAW (0xC1 + k)) 2#32
    raise (setEcho t k (echoOf t k ++ [x.entry])) (0xC1 + k) 0
  else s

end Sys2Proof.Machine
end

