-- ==== Sys2Proof/Machine/Port.lean ====
section
/-!
DEFINITION. The transmit queues of the Ethernet ports: entering, reaching the head, lateness (R386, R400, R403, R415).
-/

namespace Sys2Proof.Machine

def setEth (s : State) (f : Eth → Eth) : State := { s with eth := f s.eth }
def port (s : State) (k : Nat) : Port := mget {} s.eth.ports k
def setPort (s : State) (k : Nat) (f : Port → Port) : State :=
  setEth s (fun e => { e with ports := mput {} e.ports k (f (port s k)) })

/-- First page of a port. -/
def portPage (k : Nat) : Nat := 0xD0 + 3 * k
def ethCount (s : State) (k c : Nat) : State :=
  let s := satFld s (Reg.ETH_CNT (12 * k + c)) ⟨0, 32⟩ 1
  if c = 6 ∨ c = 7 ∨ c = 8 then raise s (portPage k) 4
  else if c = 4 ∨ c = 5 ∨ c = 10 then raise s (portPage k) 5
  else s

/-- The port runs (R400, R417): enabled, its domain up, no descriptor fault. -/
def portUp (s : State) (k : Nat) : Bool := pageEn s (portPage k) && domainUp s 5 && !(port s k).stopped

def queueOf (s : State) (k q : Nat) : List TxFrame := mget [] s.handed (8 * k + q)
def setQueue (s : State) (k q : Nat) (fs : List TxFrame) : State := { s with handed := mput [] s.handed (8 * k + q) fs }

/-! ### Transmit rings (R402) -/

def tqSize (s : State) (k q : Nat) : Nat := 2 ^ fld s (Reg.ETH_TQ_CFG (8 * k + q)) F.ETH_TQ_CFG_LOG2
def tqHead (s : State) (k q : Nat) : Nat := fld s (Reg.ETH_TQ_HEAD (8 * k + q)) F.ETH_TQ_HEAD_IDX
def tqTail (s : State) (k q : Nat) : Nat := fld s (Reg.ETH_TQ_TAIL (8 * k + q)) F.ETH_TQ_TAIL_IDX
def tqDesc (s : State) (k q i : Nat) : Nat := rdn s (Reg.ETH_TQ_BASE (8 * k + q)) + 32 * (i % tqSize s k q)

/-- The transmit queues whose indices are not both zero, by their registers. -/
def tqUsed (s : State) : List (Nat × Nat) :=
  (s.regs.filterMap (fun e =>
    let pg := e.1 / 0x1000
    let off := e.1 % 0x1000
    if 0xD1 ≤ pg ∧ pg ≤ 0xDA ∧ (pg - 0xD1) % 3 = 0 ∧ 0x40 ≤ off ∧ off < 0x140 ∧ (off % 0x20 = 8 ∨ off % 0x20 = 12)
    then some ((pg - 0xD1) / 3, (off - 0x40) / 0x20) else none)).eraseDups

/-- The descriptors and frame buffers that belong to a port: those between HEAD and TAIL that are not done (R402). -/
def txOwned (s : State) : List (Nat × Nat) :=
  (tqUsed s).flatMap (fun e =>
    let n := 2 * tqSize s e.1 e.2
    let h := tqHead s e.1 e.2
    ((List.range ((tqTail s e.1 e.2 + n - h) % n)).filter (fun j => !((mget [] (port s e.1).done e.2).contains ((h + j) % n)))).flatMap
      (fun j =>
        let d := tqDesc s e.1 e.2 (h + j)
        [(d, 32), (rdLE s d 4, rdLE s (d + 4) 2)]))

/-- HSR 1, PRP 2, none 0 (R415). -/
def redMode (s : State) : Nat := fld s (Reg.ETH_RED_CFG 0) F.ETH_RED_CFG_MODE

/-- LATE_TOL of a port. -/
def lateTol (s : State) (k : Nat) : Nat := fld s (Reg.PTP_PORT_CFG k) F.PTP_PORT_CFG_LATE_TOL

/-- PTP time lies later than `L` + LATE_TOL, at full resolution. -/
def pastTol (s : State) (k l : Nat) : Bool := decide ((l + lateTol s k) * ptpUnit < s.clock.ptp)

/-- A frame that reaches the head later than its launch time allows is late (R386). -/
def headCheck (s : State) (k q : Nat) : State :=
  match queueOf s k q with
  | f :: fs =>
    match f.launch with
    | some l => if pastTol s k l && !f.late then setQueue s k q ({ f with late := true } :: fs) else s
    | none => s
  | [] => s

/-- A frame joins the end of a queue. -/
def queuePush (s : State) (k q : Nat) (f : TxFrame) : State :=
  let fs := queueOf s k q
  let t := setQueue s k q (fs ++ [f])
  if fs.isEmpty then headCheck t k q else t

/-- RXE's transmit slot is free again. -/
def freeSlot (s : State) (f : TxFrame) : State :=
  match f.slot with
  | some n => { s with rxe := { s.rxe with busySlots := s.rxe.busySlots.erase n } }
  | none => s

/-- Step 2 of R71 (R418): a frame in transmission ends broken, and none starts. -/
def ethPowerFail (s : State) : State :=
  (List.range 4).foldl (fun s k => setPort s k (fun p => { p with sending := none })) s

/-- A frame enters a queue. One from RXE, or built by the device, that comes to a port that is not enabled is discarded
(R400); every frame of E0's queues without NORED is sent as two copies in a redundant pair (R415). -/
def ethEnter (s : State) (k q : Nat) (nored : Bool) (f : TxFrame) : State :=
  if !(pageEn s (portPage k)) then (if f.slot.isSome then ethCount (freeSlot s f) k 11 else s)
  else if k = 0 ∧ redMode s ≠ 0 ∧ !nored ∧ !f.asIs then
    let n := s.eth.nextPair
    let g := { f with pair := some (n, s.eth.redSeq) }
    let alone := !(pageEn s (portPage 1))
    let s := setEth s (fun e => { e with
      nextPair := n + 1, redSeq := (e.redSeq + 1) % 65536, half := if alone then e.half ++ [(n, 255)] else e.half })
    let s := queuePush s 0 q g
    if alone then s else queuePush s 1 q g
  else queuePush s k q f

end Sys2Proof.Machine
end

