-- ==== Sys2Proof/Machine/Owned.lean ====
section
/-!
DEFINITION. Memory that must stay as it is while a block uses it: session descriptors (R144), transmit descriptors and frames
(R402), DMA descriptors and their source data (R479), a model that is being loaded (R205), the metering configuration (R239).
-/

namespace Sys2Proof.Machine

/-! ### Virtual ranges -/

/-- Split `n` bytes at `va` at page ends; `fuel` bounds the number of pieces. -/
def pieces : Nat → Nat → Nat → List (Nat × Nat)
  | 0, _, _ => []
  | fuel + 1, va, n =>
    if n = 0 then []
    else
      let k := min n (4096 - va % 4096)
      (va, k) :: pieces fuel (va + k) (n - k)

/-- Physical address of a virtual one, by the tables as memory holds them (R459, R460). -/
def tablesAt (s : State) (ctx va : Nat) : Option Nat :=
  let b := rdn s (Reg.MMU_CTXB ctx)
  let ri := va / 2 ^ 26 % 2 ^ 14
  let li := va / 2 ^ 12 % 2 ^ 14
  let root := rdLE s (b / 64 * 64 + 8 * ri) 8
  let leaf := rdLE s (root % 2 ^ 32 / 64 * 64 + 8 * li) 8
  if b.testBit 0 && decide (ri < fld s (Reg.MMU_CTXL ctx) F.MMU_CTXL_LEN) && root.testBit 0 && decide (li < root / 2 ^ 32 % 2 ^ 15) &&
    leaf.testBit 0 then some (leaf % 2 ^ 32 / 4096 * 4096 + va % 4096) else none

/-- The mapped parts of a virtual range, as physical ranges. -/
def physRanges (s : State) (ctx : Nat) (r : Nat × Nat) : List (Nat × Nat) :=
  (pieces (r.2 / 4096 + 2) r.1 r.2).filterMap (fun p => (tablesAt s ctx p.1).map (fun a => (a, p.2)))

/-! ### What each block owns -/

/-- The context a DMA channel translates in (R466). -/
def dmaCtx (s : State) (ch : Nat) : Nat :=
  if flag s (Reg.DMA_CFG ch) F.DMA_CFG_BOUND then fld s (Reg.TCTX (fld s (Reg.DMA_CFG ch) F.DMA_CFG_TASK)) F.TCTX_CTX
  else fld s (Reg.DMA_CFG ch) F.DMA_CFG_CTX

/-- The current descriptors of channels in RUN, PAUSED or FAULT, and their source data (R479). -/
def dmaOwned (s : State) : List (Nat × Nat) :=
  s.dma.flatMap (fun e =>
    let st := fld s (Reg.DMA_STAT e.1) F.DMA_STAT_STATE
    if st = 0 ∨ 4 ≤ st then []
    else [(rd64 s (Reg.DMA_CUR_LO e.1) (Reg.DMA_CUR_HI e.1) % 2 ^ 40, 32), (e.2.src, e.2.len)].flatMap (physRanges s (dmaCtx s e.1)))

/-- The models that are being loaded (R205). -/
def loadOwned (s : State) : List (Nat × Nat) :=
  s.prism.slots.flatMap (fun e => if e.2.load.isSome then e.2.named.flatMap (physRanges s e.2.loadCtx) else [])

/-- The metering configuration block (R239). -/
def mtrOwned (s : State) : List (Nat × Nat) := if pageEn s 0x90 then [(rdn s Reg.MTR_DESC, 0x1540)] else []

/-- A store of bytes at `a` changes some byte of a range. -/
def changesRange (s : State) (a : Nat) (bs : List Byte) (r : Nat × Nat) : Bool :=
  rangesMeet (a, bs.length) r && bs.zipIdx.any (fun b =>
    let p := a + b.2
    decide (r.1 ≤ p) && decide (p < r.1 + r.2) && rdByte s p != b.1)

/-- The descriptors of enabled sessions (R144). -/
def sessionOwned (s : State) (a n : Nat) : List (Nat × Nat) :=
  let t := rdn s Reg.RXE_STAB
  if !(rangesMeet (a, n) (t, 65536)) then []
  else ((List.range (n / 64 + 2)).map (fun k => (max a t - t) / 64 + k)).filterMap (fun x =>
    if x < 1024 ∧ fld s (Reg.SSTAT x) F.SSTAT_STATE ≠ 0 then some (t + 64 * x, 64) else none)

/-- The rule that a store of bytes at `a` by initiator `ini` breaks by changing memory a block owns; a block's own stores do
not. (DEDUCED, log entry 42.) -/
def ownedErr (s : State) (ini a : Nat) (bs : List Byte) : Option Nat :=
  let changes := fun (rs : List (Nat × Nat)) => rs.any (changesRange s a bs)
  (errIf (changes (sessionOwned s a bs.length)) 144).orElse (fun _ =>
  (errIf (ini != 11 && changes (txOwned s)) 402).orElse (fun _ =>
  (errIf (ini != 7 && changes (dmaOwned s)) 479).orElse (fun _ =>
  (errIf (ini != 9 && ini != 16 && changes (loadOwned s)) 205).orElse (fun _ =>
  errIf (changes (mtrOwned s)) 239))))

end Sys2Proof.Machine
end

