-- ==== Sys2Proof/Machine/Mem.lean ====
section
/-!
DEFINITION. Memories under their error-correcting codes (R434-R457): code words, the read path, the merge buffer,
stores, the repeat trackers, Glint and row repair.
-/

namespace Sys2Proof.Machine

/-! ### Regions and code words (R434, R435) -/

/-- CLE RAM and CAN RAM in the key space of the error map. -/
def cleEcc : Nat := 2 ^ 32
def canEcc : Nat := 2 ^ 32 + 2 ^ 28

/-- MEM instance of an address: 0 SysRAM, 1 PrismRAM, 2 MRAM; none: a local memory. -/
def memInst (a : Nat) : Option Nat :=
  if 0x20000000 ≤ a ∧ a ≤ 0x217FFFFF then some 0
  else if 0x30000000 ≤ a ∧ a ≤ 0x30FFFFFF then some 1
  else if 0x40000000 ≤ a ∧ a ≤ 0x403FFFFF then some 2
  else none

/-- Bytes of the code word that holds an address: 16 in MRAM, else 8. -/
def cwBytes (a : Nat) : Nat := if isMram a then 16 else 8

/-- Address of the code word that holds an address. -/
def cwAt (a : Nat) : Nat := a / cwBytes a * cwBytes a

/-- Bank of an address in SysRAM or PrismRAM, numbered as in R43, and its row as bank × 256 + row (R435). -/
def bankOf (a : Nat) : Nat :=
  if a < 0x30000000 then (a - 0x20000000) / 262144 else 96 + (a - 0x30000000) / 262144
def rowOf (a : Nat) : Nat := bankOf a * 256 + (a / 1024) % 256

/-- Fabric port of an address: bank group 0-11 of SysRAM, 12 PrismRAM, 13 MRAM (R441, R457). -/
def portOf (a : Nat) : Nat :=
  if a < 0x30000000 then bankOf a / 8 else if a < 0x40000000 then 12 else 13

/-- The number of ones in a mask of up to 144 bits. -/
def ones (m : Nat) : Nat := ((List.range 144).filter (fun k => m.testBit k)).length

/-- What a check of a code word finds (R434). -/
inductive EccFind where
  | clean
  | correctable
  | uncorrectable
  /-- more changed bits than the code detects: no defined outcome -/
  | beyond
  deriving DecidableEq, Repr

/-- The check of a code word whose code corrects `t` bits. (DEDUCED, log entry 40.) -/
def eccCheck (t : Nat) (e : EccWord) : EccFind :=
  let n := ones e.data + ones e.check
  if e.poisoned then .uncorrectable
  else if n = 0 then .clean
  else if n ≤ t then .correctable
  else if n = t + 1 then .uncorrectable
  else .beyond

/-- The check of the code word at address `w`. (DEDUCED, log entry 40.) -/
def eccFind (s : State) (w : Nat) : EccFind := eccCheck (if isMram w then 2 else 1) (mget {} s.ecc w)

/-- A word reports an uncorrectable error on a read. -/
def ueAt (s : State) (w : Nat) : Bool := eccFind s w == .uncorrectable

def setEcc (s : State) (w : Nat) (e : EccWord) : State := { s with ecc := mput {} s.ecc w e }
def setMem (s : State) (f : MemSys → MemSys) : State := { s with memSys := f s.memSys }

/-- The code words with an entry in the error map that overlap `n` bytes from `a`, in address order. -/
def eccIn (s : State) (a n : Nat) : List Nat :=
  (s.ecc.map (fun e => e.1)).filter (fun w => decide (w < a + n) && decide (a < w + cwBytes w))

/-! ### Trackers (R449-R451) -/

def trk (s : State) (r i : Nat) : TrackEntry := mget {} s.memSys.track (32 * r + i)
def setTrk (s : State) (r i : Nat) (e : TrackEntry) : State :=
  setMem s (fun m => { m with track := mput {} m.track (32 * r + i) e })

/-- The view registers of the selected entry. -/
def trkSync (s : State) (r : Nat) : State :=
  let e := trk s r (fld s (Reg.MEM_TRK_SEL r) F.MEM_TRK_SEL_SEL)
  let s := wrn s (Reg.MEM_TRK_ADDR r) e.addr
  let b := fun (x : Bool) => if x then 1 else 0
  let s := wrn s (Reg.MEM_TRK_STAT r) (min e.count 255 + 256 * b e.valid + 512 * b e.lasting + 1024 * b e.armed)
  wr64 s (Reg.MEM_TRK_FIRST_LO r) (Reg.MEM_TRK_FIRST_HI r) e.first

/-- The window of a region's tracker, ns. -/
def trkWindow (s : State) (r : Nat) : Nat := fld s (Reg.MEM_TRK_W r) F.MEM_TRK_W_W * 10 ^ 9

/-- The entry of an address. -/
def trkFind (s : State) (r w : Nat) : Option Nat :=
  (List.range 32).find? (fun i => (trk s r i).valid && (trk s r i).addr == w)

/-- The entry a new correction replaces: the oldest first time, window passed, not LASTING (R451). -/
def trkVictim (s : State) (r : Nat) : Option Nat :=
  ((List.range 32).filter (fun i => !(trk s r i).lasting && decide ((trk s r i).first + trkWindow s r ≤ monoNs s))).foldl
    (fun b i => match b with
      | none => some i
      | some j => if (trk s r i).first < (trk s r j).first then some i else some j) none

/-- A counted correction may make the entry LASTING (R450). -/
def trkCheck (s : State) (r i : Nat) : State :=
  let e := trk s r i
  if !e.lasting && decide (fld s (Reg.MEM_CFG r) F.MEM_CFG_TRK_N ≤ e.count) then
    aglLasting (raise (setTrk s r i { e with lasting := true }) (0x20 + r) 2) r e.addr
  else s

/-- A correction is offered to the tracker of region `r` (R449-R451). -/
def trkCorrect (s : State) (r w : Nat) : State :=
  let m := monoNs s
  let s1 := match trkFind s r w with
    | some i =>
      let e := trk s r i
      if !e.armed then s
      else
        let e1 := if e.first + trkWindow s r ≤ m then { e with armed := false, count := 1, first := m, last := m }
          else { e with armed := false, count := e.count + 1, last := m }
        trkCheck (setTrk s r i e1) r i
    | none =>
      let new : TrackEntry := { valid := true, addr := w, count := 1, first := m, last := m }
      match (List.range 32).find? (fun i => !(trk s r i).valid) with
      | some i => setTrk s r i new
      | none => match trkVictim s r with
        | some i => setTrk s r i new
        | none => raise (satFld s (Reg.MEM_TRK_MISS r) ⟨0, 32⟩ 1) (0x20 + r) 4
  trkSync s1 r

/-- A write to a word sets ARMED of its entry (R449). -/
def trkArm (s : State) (w : Nat) : State :=
  match memInst w with
  | some r => match trkFind s r w with
    | some i => trkSync (setTrk s r i { trk s r i with armed := true }) r
    | none => s
  | none => s

/-! ### The read path (R439, R455) -/

/-- A correction (R439). -/
def recordCe (s : State) (w : Nat) : State :=
  match memInst w with
  | some r =>
    let s := aglEvent (satFld s (Reg.MEM_CE_CNT r) ⟨0, 32⟩ 1) (.add (5 + r) 0 8 1)
    trkCorrect (raise (wrn s (Reg.MEM_CE_ADDR r) w) (0x20 + r) 0) r w
  | none => aglEvent (satFld s Reg.GLINT_LOC_CE ⟨0, 32⟩ 1) (.add 8 0 8 1)

/-- Kinds of MEM_UE_INFO. -/
def ueRead : Nat := 0
def ueFetch : Nat := 1
def ueRmw : Nat := 2
def ueScrub : Nat := 3

/-- An uncorrectable error of initiator `ini` (R455); in a critical bank, or on a fetch of a CC or SV, the unit gives
up (R351). -/
def recordUe (s : State) (w ini kind : Nat) : State :=
  let s := match memInst w with
    | some r =>
      let s := aglEvent (raise (satFld s (Reg.MEM_UE_CNT r) ⟨0, 32⟩ 1) (0x20 + r) 1) (.add (5 + r) 8 8 1)
      if flag s (Reg.MEM_UE_INFO r) F.MEM_UE_INFO_VALID then s
      else wrn (wrn s (Reg.MEM_UE_ADDR r) w) (Reg.MEM_UE_INFO r) (1 + 2 * ini + 256 * kind)
    | none => s
  if criticalBank s w || (kind == ueFetch && decide (ini ≤ 5)) then giveUp s 2 else s

/-- Bytes stored at a word of memory, of CLE RAM or of CAN RAM. -/
def putWord (s : State) (w : Nat) (bs : List Byte) : State :=
  let put (m : AMap Byte) (a : Nat) : AMap Byte := (bs.foldl (fun (x : AMap Byte × Nat) b => (mput 0 x.1 x.2 b, x.2 + 1)) (m, a)).1
  if w < cleEcc then putBytes s w bs
  else if w < canEcc then { s with cleRam := put s.cleRam (w - cleEcc) }
  else { s with canRam := put s.canRam (w - canEcc) }

/-- One word of a read: corrected, or the read stops at an uncorrectable error. What lies beyond the code is open
(R434): a free choice among its three outcomes, with free data in the word. (DEDUCED, log entry 40.) -/
def scanWord (s : State) (ini kind w : Nat) : Bool × State :=
  match eccFind s w with
  | .clean => (false, s)
  | .correctable => (false, recordCe s w)
  | .uncorrectable => (true, recordUe s w ini kind)
  | .beyond =>
    let f := fresh s
    let k := Config.freeNat f.1 % 3
    if k = 0 then (true, recordUe f.2 w ini kind)
    else
      let g := freeBytes f.2 (cwBytes w)
      let s1 := putWord g.2 w g.1
      (false, if k = 1 then recordCe s1 w else s1)

/-- A read of several words in order; the first uncorrectable one stops it. -/
def scanWords (ini kind : Nat) : List Nat → State → Option Nat × State
  | [], s => (none, s)
  | w :: ws, s =>
    let r := scanWord s ini kind w
    if r.1 then (some w, r.2) else scanWords ini kind ws r.2

/-- A read of `n` bytes at `a` by initiator `ini`: where it meets an uncorrectable error, if it does. -/
def readScan (s : State) (ini a n : Nat) : Option Nat × State := scanWords ini ueRead (eccIn s a n) (fabric s ini a n)

/-! ### The write path (R441-R445, R457, R542) -/

/-- The injected error of an armed port strikes the array write of word `w` (R457). -/
def flipWrite (s : State) (w : Nat) (isPrivate : Bool) : State :=
  match memInst w with
  | none => s
  | some r =>
    let port := if r = 0 then portOf w else if r = 1 && isPrivate then 1 else 0
    if flag s (Reg.MEM_FLIP_CFG r) F.MEM_FLIP_CFG_ARM && fld s (Reg.MEM_FLIP_CFG r) F.MEM_FLIP_CFG_PORT == port then
      let d := (List.range (if r = 2 then 4 else 2)).foldl (fun n k => n + rdn s (Reg.MEM_FLIP_D (4 * r + k)) * 2 ^ (32 * k)) 0
      let c := fld s (Reg.MEM_FLIP_C r) F.MEM_FLIP_C_C % (if r = 2 then 65536 else 256)
      let s := setEcc s w { data := d, check := c }
      let s := setFlag (setFlag s (Reg.MEM_FLIP_CFG r) F.MEM_FLIP_CFG_ARM false) (Reg.MEM_FLIP_CFG r) F.MEM_FLIP_CFG_DONE true
      raise (wrn s (Reg.MEM_FLIP_ADDR r) w) (0x20 + r) 3
    else s

/-- The word was written: a pending write-back of it is skipped (R447), its tracker entry is armed (R449). -/
def wordWritten (s : State) (w : Nat) : State :=
  let s := setMem s (fun m => { m with
    lanes := m.lanes.map (fun e => (e.1, if e.2.writeBack = some w then { e.2 with writeBack := none } else e.2)) })
  trkArm s w

/-- A write of a whole code word: new check bits, and a merge-buffer entry for it is discarded (R441). -/
def wholeWord (s : State) (w : Nat) (isPrivate : Bool) : State :=
  let s := setMem (setEcc s w {}) (fun m => { m with merge := m.merge.filter (fun e => e.word != w) })
  flipWrite (wordWritten s w) w isPrivate

/-- A read-modify-write of a word (R443-R445, R542): corrected and merged, or stored poisoned. -/
def modifyWord (s : State) (w ini : Nat) (isPrivate : Bool) : State :=
  let r := scanWord s ini ueRmw w
  let s1 := match eccFind s w with
    | .uncorrectable => (if (memInst w).isSome then r.2 else s)
    | _ => r.2
  let s2 := setEcc s1 w (if r.1 then { poisoned := true } else {})
  flipWrite (wordWritten s2 w) w isPrivate

/-- Flush a merge-buffer entry (R443, R444). (DEDUCED, log entry 41.) -/
def flushEntry (s : State) (e : MergeEntry) : State :=
  let s := setMem s (fun m => { m with merge := m.merge.filter (fun x => x.word != e.word) })
  if e.mask % 256 = 255 then wholeWord s e.word false else modifyWord s e.word e.first false

/-- A narrow write enters the merge buffer of its port (R441, R443). (DEDUCED, log entry 41.) -/
def mergeWrite (s : State) (ini w mask : Nat) : State :=
  match s.memSys.merge.find? (fun e => e.word == w) with
  | some _ => setMem s (fun m => { m with merge := m.merge.map (fun e =>
      if e.word = w then { e with mask := e.mask ||| mask, writers := e.writers ||| 2 ^ ini } else e) })
  | none =>
    let mine := s.memSys.merge.filter (fun e => portOf e.word == portOf w)
    let s := if mine.length < 8 then s else (match mine.head? with | some e => flushEntry s e | none => s)
    setMem s (fun m => { m with merge := m.merge ++ [{ word := w, mask := mask, first := ini, writers := 2 ^ ini }] })

/-- The mask of the bytes of word `w` that a write of `n` bytes at `a` covers. -/
def coverMask (w a n : Nat) : Nat :=
  (List.range (cwBytes w)).foldl (fun m k => if a ≤ w + k ∧ w + k < a + n then m + 2 ^ k else m) 0

/-- One word of a store. Initiator 16 is Prism's private port. -/
def touchWord (a n ini : Nat) (s : State) (w : Nat) : State :=
  let m := coverMask w a n
  if m = 2 ^ cwBytes w - 1 then wholeWord s w (ini == 16)
  else if (memInst w == some 0 || memInst w == some 1) && ini != 16 then mergeWrite s ini w m
  else modifyWord s w ini (ini == 16)

/-- The words a store must be followed in: those with an error, a tracker entry, a merge entry or a lane's
write-back, the first and the last, and, where an injection is armed, every word. -/
def touchWords (s : State) (a n : Nat) : List Nat :=
  if n = 0 then []
  else
    let armed := match memInst a with
      | some r => flag s (Reg.MEM_FLIP_CFG r) F.MEM_FLIP_CFG_ARM
      | none => false
    let ks := if armed then (List.range ((n + cwBytes a - 1) / cwBytes a + 1)).map (fun k => cwAt a + cwBytes a * k)
      else [cwAt a, cwAt (a + n - 1)] ++ eccIn s a n ++ s.memSys.merge.map (fun e => e.word) ++
        (s.memSys.track.map (fun e => e.2.addr)) ++ (s.memSys.lanes.filterMap (fun e => e.2.writeBack))
    sortBy (fun x y => decide (x ≤ y)) (ks.filter (fun w => decide (w < a + n) && decide (a < w + cwBytes w))).eraseDups

/-- The host error a write of `n` bytes at `a` over the fabric is, if it is one: the Boot ROM, the OSPI window and the
safety pair's second copy are read-only (R436, R437), PrismRAM belongs to Prism while it is enabled (R198), the image kept for REVERT to CYC (R121), and the Afterglow area to AGL
(R517). (DEDUCED, log entry 42.) -/
def storeErr (s : State) (ini a n : Nat) : Option Nat :=
  if n = 0 ∨ 16 ≤ ini then none
  else (errIf (decide (a ≤ 0x1FFFFFFF)) 436).orElse (fun _ =>
    (errIf (decide (0x50210000 ≤ a) && decide (a ≤ 0x5021FFFF)) 437).orElse (fun _ =>
    (errIf (decide (0x30000000 ≤ a) && decide (a ≤ 0x30FFFFFF) && pageEn s 0x60) 198).orElse (fun _ =>
    (errIf (ini != 13 && inPrevious s a n) 121).orElse (fun _ =>
      errIf (ini != 14 && decide (a ≤ 0x4017FFFF) && decide (0x40080000 < a + n)) 517))))

/-- A write of bytes at `a` reaches the fabric: its host errors, and its bursts (R18, R34, R38, R436). (DEDUCED, log entry 93.) -/
def writeBegin (s : State) (ini a : Nat) (bs : List Byte) : State :=
  badIf (fabric s ini a bs.length) ((storeErr s ini a bs.length).orElse (fun _ => ownedErr s ini a bs))

/-- A store of bytes by initiator `ini` with its effect on the code words. A store to MRAM after power-fail
qualification is discarded whole (R73), and one to the released safety pair's TCM is ignored (R308). (DEDUCED, log entry 42.) -/
def store (s0 : State) (ini a : Nat) (bs : List Byte) : State :=
  let s := writeBegin s0 ini a bs
  if isMram a && pfail s then s
  else if decide (0x50200000 ≤ a) && decide (a ≤ 0x5021FFFF) && safeReleased s && ini != 6 && decide (ini < 16) then safeForeign s
  else (touchWords s a bs.length).foldl (touchWord a bs.length ini) (wrBytes s a bs)

/-- A store that steps 3 to 5 of R71 make. -/
def storeMram (s0 : State) (ini a : Nat) (bs : List Byte) : State :=
  let s := writeBegin s0 ini a bs
  (touchWords s a bs.length).foldl (touchWord a bs.length ini) (putBytes s a bs)

/-- The bytes from `src` that have been read when a read of them stops at word `w`: those of the bursts before it. -/
def readBefore (src w : Nat) : Nat := w / 32 * 32 - src

/-- Copy `n` bytes: the read stops at an uncorrectable error; what was read before it is written, nothing after it (R482). -/
def copyChecked (s : State) (ini src dst n : Nat) : Option Nat × State :=
  let r := readScan s ini src n
  match r.1 with
  | some w => (some w, store r.2 ini dst (rdBytes r.2 src (readBefore src w)))
  | none => (none, store r.2 ini dst (rdBytes r.2 src n))

/-- A write of `n` bytes at key `a` of CLE RAM or CAN RAM, within one word (R542): a whole word is clean again; a narrower
write corrects the word, or leaves it poisoned until both of its 32-bit halves have been written since. -/
def eccPart (s : State) (a n : Nat) : State :=
  let w := a / 8 * 8
  let s := wordWritten s w
  let e : EccWord := mget {} s.ecc w
  if n = 8 then setEcc s w {}
  else match eccFind s w with
  | .clean => s
  | .correctable => setEcc (recordCe s w) w {}
  | _ =>
    let hs := (if e.poisoned then e.halves else 0) ||| (if n = 4 then 2 ^ (a / 4 % 2) else 0)
    setEcc s w (if hs = 3 then {} else { poisoned := true, halves := hs })

/-- A 32-bit write. -/
def eccHalf (s : State) (a : Nat) : State := eccPart s a 4

/-! ### Glint (R446-R448) -/

/-- The words of the LOCAL lane: CC TCMs, L2, both safety TCM copies, CLE RAM, CAN RAM. -/
def localWord (k : Nat) : Nat :=
  let o := 8 * k
  if o < 0x80000 then 0x50000000 + o / 0x20000 * 0x40000 + o % 0x20000
  else if o < 0x100000 then 0x50100000 + (o - 0x80000)
  else if o < 0x120000 then 0x50200000 + (o - 0x100000)
  else if o < 0x160000 then cleEcc + (o - 0x120000)
  else canEcc + (o - 0x160000)

/-- Words in a lap of a lane, and the address of a lane's `k`-th word. -/
def laneWords (lane : Nat) : Nat := if lane = 0 then 5242880 else if lane = 1 then 196608 else 262144
def laneWord (lane k : Nat) : Nat :=
  if lane = 0 then (if k < 3145728 then 0x20000000 + 8 * k else 0x30000000 + 8 * (k - 3145728))
  else if lane = 1 then localWord k
  else 0x40000000 + 16 * k

def lane (s : State) (i : Nat) : Lane := mget {} s.memSys.lanes i
def setLane (s : State) (i : Nat) (l : Lane) : State := setMem s (fun m => { m with lanes := mput {} m.lanes i l })

/-- The lap register of a lane. -/
def lapReg (i : Nat) : Nat := if i = 0 then Reg.GLINT_LAP else if i = 1 then Reg.GLINT_LAP_LOC else Reg.GLINT_LAP_MRAM

/-- The lane goes to its next word; at the end of a pass the lap is recorded (R448). -/
def laneAdvance (s : State) (i : Nat) : State :=
  let l := lane s i
  let s1 := if l.next + 1 < laneWords i then setLane s i { l with next := l.next + 1, lastRead := some s.now }
    else
      let s1 := raise (wrn s (lapReg i) ((monoNs s - l.passStart + 999999) / 1000000)) 0x23 0
      setLane s1 i { l with next := 0, passStart := monoNs s, lastRead := some s.now }
  if i = 0 then setMem (wrn s1 Reg.GLINT_POS (laneWord 0 (lane s1 0).next))
      (fun m => { m with refused := if m.refused == some (rowOf (laneWord 0 (lane s1 0).next)) then m.refused else none })
  else s1

/-- A row holds a LASTING word (R452). -/
def rowLasting (s : State) (row : Nat) : Bool :=
  [0, 1].any (fun r => (List.range 32).any (fun i => (trk s r i).valid && (trk s r i).lasting && rowOf (trk s r i).addr == row))

/-- Bits of a word of `n` bytes that have changed in the array since it was written: 0-127 data, 128-143 check. -/
def eccFlip (n : Nat) (e : EccWord) (bits : List Nat) : EccWord :=
  let d := bits.foldl (fun m b => if b < 8 * n then m ^^^ 2 ^ b else m) 0
  let c := bits.foldl (fun m b => if 128 ≤ b ∧ b < 128 + n then m ^^^ 2 ^ (b - 128) else m) 0
  { e with data := e.data ^^^ d, check := e.check ^^^ c }

def flipBits (s : State) (w : Nat) (bits : List Nat) : State := setEcc s w (eccFlip (cwBytes w) (mget {} s.ecc w) bits)

/-- One lane read (R447): a correction is to be written back; an uncorrectable error is recorded and counted. -/
def laneRead (s : State) (i : Nat) : State :=
  let w := laneWord i (lane s i).next
  let r := scanWord s 17 ueScrub w
  let s := if r.1 then aglEvent (raise (satFld r.2 Reg.GLINT_UE ⟨0, 32⟩ 1) 0x23 1) (.add 8 8 8 1)
    else if eccFind s w = .correctable then setLane r.2 i { lane r.2 i with writeBack := some w }
    else r.2
  laneAdvance s i

/-- Least distance between two reads of a lane, in VCO cycles (R446). -/
def laneGap (i : Nat) : Nat := if i = 2 then 512 else 8

/-- The clock of the memory that holds a word runs: CLE RAM and CAN RAM lie in domains that may be gated (R15). (DEDUCED, log entries 40, 41.) -/
def memoryUp (s : State) (w : Nat) : Bool :=
  if w < cleEcc then true else if w < canEcc then domainUp s 4 else domainUp s 10

/-- The lane is enabled and may read. (DEDUCED, log entry 41.) -/
def laneReady (s : State) (i : Nat) : Bool :=
  bitAt (rd s Reg.GLINT_CFG) i && pageEn s 0x23 && (lane s i).writeBack.isNone && memoryUp s (laneWord i (lane s i).next) &&
    (s.start.step == .filled || s.start.step == .running) &&
    (match (lane s i).lastRead with | some t => decide (t + laneGap i ≤ s.now) | none => true)

/-- GLINT_READ (R446-R452, R455): the lane's next word, with the bits that have changed in it since it was written.
Where the MAIN lane reaches a row that holds a LASTING word, the row's remap starts first. (DEDUCED, log entry 41.) -/
def execGlintRead (i : Fin 3) (flips : List Nat) (s : State) : Result :=
  let w := laneWord i.val (lane s i.val).next
  let row := rowOf w
  whenDue (laneReady s i.val && s.memSys.remap.isNone) s
    (if i.val == 0 && rowLasting s row && s.memSys.refused != some row then setMem s (fun m => { m with remap := some row })
     else laneRead (flipBits s w flips) i.val)

/-- GLINT_WRITE_BACK (R447, R449). After qualification a write to MRAM is discarded (R73). -/
def execGlintWriteBack (i : Fin 3) (s : State) : Result :=
  match (lane s i.val).writeBack with
  | none => .next s
  | some w =>
    let s1 := setLane s i.val { lane s i.val with writeBack := none }
    whenDue (memoryUp s w) s (if s.memSys.merge.any (fun e => e.word == w) || (isMram w && pfail s) then s1
      else trkArm (satFld (setEcc s1 w {}) Reg.GLINT_WB ⟨0, 32⟩ 1) w)

/-- A write of GLINT_CFG: setting a lane's enable again restarts its pass (R448). -/
def glintCfg (s : State) (v : Word) : State :=
  let old := rd s Reg.GLINT_CFG
  (List.range 3).foldl (fun s i =>
    if bitAt v i && !(bitAt old i) then
      let s := setLane s i { lane s i with next := 0, passStart := monoNs s }
      if i = 0 then wrn s Reg.GLINT_POS 0x20000000 else s
    else s) (wr s Reg.GLINT_CFG v)

/-! ### Tracker windows, row repair, merge flush, injection -/

/-- TRACKER_WINDOW_EXPIRY (R450): a LASTING entry of MRAM whose window passed with no counted correction is freed. -/
def execTrackerWindowExpiry (region : Fin 3) (entry : Fin 32) (s : State) : Result :=
  let e := trk s region.val entry.val
  whenDue (region.val == 2 && e.valid && e.lasting && decide (e.last + trkWindow s 2 ≤ monoNs s)) s
    (trkSync (setTrk s 2 entry.val {}) 2)

/-- The entries of a row's LASTING words are freed (R450). -/
def freeRow (s : State) (row : Nat) : State :=
  [0, 1].foldl (fun s r => trkSync ((List.range 32).foldl (fun s i =>
    if (trk s r i).valid && (trk s r i).lasting && rowOf (trk s r i).addr == row then setTrk s r i {} else s) s) r) s

/-- Base address of a row. -/
def rowBase (row : Nat) : Nat :=
  let b := row / 256
  (if b < 96 then 0x20000000 + b * 262144 else 0x30000000 + (b - 96) * 262144) + row % 256 * 1024

/-- One word of a repair copy: corrected, or written to the spare poisoned (R452). -/
def repairWord (s : State) (w : Nat) : State :=
  let r := scanWord s 17 ueScrub w
  setEcc r.2 w (if r.1 then { poisoned := true } else {})

/-- The used-spares view of the selected bank. -/
def repairSync (s : State) : State :=
  wrn s Reg.REPAIR_USED (mget 0 s.memSys.spares (fld s Reg.REPAIR_USED_SEL F.REPAIR_USED_SEL_BANK))

/-- The remap of a row ends (R452, R453). -/
def remapRow (s : State) (row : Nat) : State :=
  let bank := row / 256
  let used := mget 0 s.memSys.spares bank
  let s := setFlag s Reg.REPAIR_STAT F.REPAIR_STAT_BUSY false
  let s := setMem s (fun m => { m with remap := none })
  if mget 0 s.memSys.rows row != 0 then s
  else if 32 ≤ used then
    aglRow (raise (setFlag (setMem s (fun m => { m with refused := some row })) Reg.REPAIR_STAT F.REPAIR_STAT_NOSPARE true) 0x24 1) bank row true
  else
    let s := (eccIn s (rowBase row) 1024).foldl repairWord s
    let s := setMem s (fun m => { m with rows := mput 0 m.rows row (used + 1), spares := mput 0 m.spares bank (used + 1) })
    let s := setFlag s Reg.REPAIR_STAT F.REPAIR_STAT_NOSPARE false
    let s := wrn s Reg.REPAIR_LAST (bank + 256 * (row % 256) + 65536 * used + 2 ^ 31)
    let s := raise (satFld s Reg.REPAIR_CNT ⟨0, 32⟩ 1) 0x24 0
    aglRow (repairSync (freeRow s row)) bank row false

/-- ROW_REMAP (R452, R453). -/
def execRowRemap (s : State) : Result :=
  match s.memSys.remap with
  | some row => .next (remapRow s row)
  | none => .next s

/-- MAP (R454): remap a named row; a row already remapped is left alone. -/
def execRepairMap (ini : Fin 16) (value : Word) (s : State) : Result :=
  let row := fieldGet F.REPAIR_CMD_BANK value * 256 + fieldGet F.REPAIR_CMD_ROW value
  softWrite ini 0x24 0x40
    ((errIf (value &&& 0xFFFC0000#32 != 0 || fieldGet F.REPAIR_CMD_CMD value != 1) 37).orElse (fun _ =>
      (errIf (decide (159 < fieldGet F.REPAIR_CMD_BANK value)) 38).orElse (fun _ =>
        errIf (flag s Reg.REPAIR_STAT F.REPAIR_STAT_BUSY) 454))) s
    (fun s => if mget 0 s.memSys.rows row != 0 then s
      else setFlag (setMem s (fun m => { m with remap := some row })) Reg.REPAIR_STAT F.REPAIR_STAT_BUSY true)

/-- MERGE_FLUSH (R443, R444): the entry at a place of the buffers is flushed. -/
def execMergeFlush (index : Nat) (s : State) : Result :=
  match s.memSys.merge[index]? with
  | some e => .next (flushEntry s e)
  | none => .next s

/-- Flush every entry that holds a store of an initiator (R443, R469). -/
def flushFor (s : State) (ini : Nat) : State :=
  (s.memSys.merge.filter (fun e => e.writers.testBit ini)).foldl flushEntry s

/-- FLIP_ARM (R457): a write of MEM_FLIP_CFG. -/
def execFlipArm (ini : Fin 16) (region : Fin 3) (value : Word) (s : State) : Result :=
  let r := region.val
  let a := Reg.MEM_FLIP_CFG r
  softWrite ini (0x20 + r) 0x5C
    ((errIf (value &&& 0xFFFFFCE0#32 != 0) 37).orElse (fun _ => (errIf (flag s a F.MEM_FLIP_CFG_ARM) 457).orElse (fun _ =>
      errIf (decide ((if r = 0 then 11 else if r = 1 then 1 else 0) < fieldGet F.MEM_FLIP_CFG_PORT value)) 38))) s
    (fun s =>
      let s := setFld s a F.MEM_FLIP_CFG_PORT (fieldGet F.MEM_FLIP_CFG_PORT value)
      let s := if fieldGet F.MEM_FLIP_CFG_ARM value = 1 then setFlag s a F.MEM_FLIP_CFG_ARM true else s
      if fieldGet F.MEM_FLIP_CFG_DONE value = 1 then setFlag s a F.MEM_FLIP_CFG_DONE false else s)

end Sys2Proof.Machine
end

