-- ==== Sys2Proof/Machine/Afterglow.lean ====
section
/-!
DEFINITION. The Afterglow lifetime recorder (R517-R525): its copies in MRAM, the load after a reset, the writing of dirty
records, the samples of each second and the software records.
-/

namespace Sys2Proof.Machine

/-- Copy A (false) or B (true) of a record (R517). -/
def aglCopyAt (r : Nat) (b : Bool) : Nat := 0x40080000 + 512 * r + if b then 256 else 0

def aglGenOf (s : State) (r : Nat) (b : Bool) : Nat := rdLE s (aglCopyAt r b) 4

/-- A copy is valid (R518); an uncorrectable word in it counts as a failed CRC (R456). -/
def aglValid (s : State) (r : Nat) (b : Bool) : Bool :=
  let a := aglCopyAt r b
  aglGenOf s r b != 0 && rdLE s (a + 4) 2 == r && rdLE s (a + 0xF8) 4 == crc32c (rdBytes s a 0xF8) &&
    !((eccIn s a 256).any (ueAt s))

/-- `a` is later than `b` in 32-bit serial number arithmetic. -/
def serialLater (a b : Nat) : Bool := decide (a ≠ b) && decide ((a + 0x100000000 - b) % 0x100000000 < 0x80000000)

/-- The newer valid copy of a record. -/
def aglNewer (s : State) (r : Nat) : Option Bool :=
  match aglValid s r false, aglValid s r true with
  | true, true => some (serialLater (aglGenOf s r true) (aglGenOf s r false))
  | true, false => some false
  | false, true => some true
  | false, false => none

/-- Load one record (R521). -/
def aglLoadRecord (s : State) (r : Nat) : State :=
  let s := (readScan s 14 (aglCopyAt r false) 512).2
  match aglNewer s r with
  | some b =>
    (rdBytes s (aglCopyAt r b) 0xF8).zipIdx.foldl (fun s p =>
      setAgl s (fun a => { a with work := mput 0 a.work (256 * r + p.2) p.1 })) s
  | none =>
    if aglGenOf s r false = 0 ∧ aglGenOf s r true = 0 then s
    else raise (satFld (aglWr s r 7 1 2) Reg.AGL_STAT F.AGL_STAT_LOAD_BAD 1) 0x110 1

/-- AGL_LOAD (R521): every record, then the events that waited; a POR's count of POWER.CYCLES comes first among them. -/
def execAglLoad (s : State) : Result :=
  whenDue ((s.start.step == .filled || s.start.step == .running) && !(aglLoaded s)) s
    (let s := (List.range 288).foldl aglLoadRecord s
     let q := s.agl.queue
     let s := setFlag (setAgl s (fun a => { a with queue := [] })) Reg.AGL_STAT F.AGL_STAT_LOADED true
     raise (q.foldl aglApply s) 0x110 0)

/-- Bytes 0x04 to 0xFF of a copy with generation `g` (R518). -/
def aglCopyBytes (s : State) (r g : Nat) : List Byte :=
  let b := (List.range 0xF4).map (fun k => mget 0 s.agl.work (256 * r + 4 + k))
  b ++ leBytes 4 (crc32c (leBytes 4 g ++ b)) ++ leBytes 4 0

/-- Step 1 of a write: GEN of the copy other than the newer valid one becomes 0 (R522). (DEDUCED, log entry 65.) -/
def aglBegin (s : State) (r : Nat) : State :=
  let n := aglNewer s r
  let g := match n with | some b => (aglGenOf s r b + 1) % 0x100000000 | none => 1
  let c : AglCopy := { record := r, copyB := n == some false, gen := if g = 0 then 1 else g }
  let s := storeMram s 14 (aglCopyAt r c.copyB) (leBytes 4 0)
  setAgl s (fun a => { a with wrote := mput 0 a.wrote r (monoNs s + 1), copying := some c })

/-- Step 2: the record as it is now is written, and is dirty no longer. Step 3: GEN is set, and the copy counts; AGL whose
EN has been cleared stops (R22, R522). (DEDUCED, log entry 65.) -/
def aglStep (s : State) (c : AglCopy) : State :=
  if c.step = 2 then
    let s := storeMram s 14 (aglCopyAt c.record c.copyB + 4) (aglCopyBytes s c.record c.gen)
    aglPend (setAgl s (fun a => { a with dirty := mput false a.dirty c.record false, copying := some { c with step := 3 } }))
  else
    let s := aglCut (storeMram s 14 (aglCopyAt c.record c.copyB) (leBytes 4 c.gen))
    let s := satFld s Reg.AGL_WR_CNT ⟨0, 32⟩ 1
    if pageEn s 0x110 then s else setFlag s (Reg.PSTAT 0x110) F.PSTAT_ENABLED false

/-- The next step of the write in progress. -/
def aglNext (s : State) : State :=
  match s.agl.copying with
  | some c => aglStep s c
  | none => s

/-- All three steps of a write, one after another (R522, R523). (DEDUCED, log entry 65.) -/
def aglWrite (s : State) (r : Nat) : State := aglNext (aglNext (aglBegin s r))

/-- A record may be written: it is dirty and its last write began 1 ms ago or more (R522). -/
def aglReady (s : State) (r : Nat) : Bool :=
  mget false s.agl.dirty r && (mget 0 s.agl.wrote r == 0 || decide (mget 0 s.agl.wrote r + 1000000 ≤ monoNs s + 1))

/-- AGL_RECORD_WRITE (R522): the next step of the write of this record, begun where none runs and it is the lowest record
that may be written. (DEDUCED, log entry 65.) -/
def execAglRecordWrite (record : Fin 288) (s : State) : Result :=
  match s.agl.copying with
  | some c => settleDue (c.record == record.val) s (aglStep s c)
  | none =>
    settleDue (pageEn s 0x110 && aglLoaded s && !(pfail s) && aglReady s record.val &&
      (List.range record.val).all (fun r => !(aglReady s r))) s (aglBegin s record.val)

/-- The seconds of Penumbra (R519): pairs 0-7, outputs 8-15, connections from 16. (DEDUCED, log entry 65.) -/
def aglPenumbra (s : State) : State :=
  let es := s.safe.penAt.map (fun e => e.1)
  let s := es.foldl (fun s e =>
    if e < 8 then aglEvent s (.add 13 (8 + 4 * e) 4 1)
    else if e < 16 then aglEvent s (.add 13 (40 + 4 * (e - 8)) 4 1)
    else s) s
  if es.any (fun e => decide (16 ≤ e)) then aglEvent s (.add 13 72 4 1) else s

/-- AGL_SECOND (R519): a second of MONO. -/
def execAglSecond (temp : BitVec 16) (supplies : List Nat) (s : State) : Result :=
  whenDue (decide (s.agl.seconds < monoNs s / 1000000000)) s
    (let s := setAgl s (fun a => { a with seconds := a.seconds + 1 })
     let s := setFlag (setFld s Reg.AGL_TEMP F.AGL_TEMP_TEMP temp.toNat) Reg.AGL_TEMP F.AGL_TEMP_VALID true
     let s := aglEvent (aglEvent s (.add 0 8 8 1)) (.sample temp.toInt (supplies.map (fun v => v % 65536)))
     let s := aglPenumbra s
     if flag s Reg.CYC_STAT F.CYC_STAT_FORCE_IND then aglEvent s (.add 14 4 8 1) else s)

/-! ### Software records (R525) -/

/-- A write of AGL_SW_CMD for operation `op`; a command before the load is complete is applied after it (R521). -/
def aglSoftware (ini : Fin 16) (op : Nat) (ok : Nat → Bool) (value : Word) (s : State) (e : Nat → AglOp) : Result :=
  let r := fieldGet F.AGL_SW_CMD_REC value
  softWrite ini 0x110 0x4C
    ((errIf (value &&& 0xFFFC8200#32 != 0) 37).orElse (fun _ => errIf (fieldGet F.AGL_SW_CMD_OP value != op || !(ok r)) 525)) s
    (fun s => aglEvent s (e r))

/-- ADD. -/
def execAglAdd (ini : Fin 16) (value : Word) (s : State) : Result :=
  aglSoftware ini 1 (fun r => decide (160 ≤ r) && decide (r < 288)) value s (fun r => .add r 0 8 (rdn s Reg.AGL_SW_VAL))

/-- HIST. -/
def execAglHist (ini : Fin 16) (value : Word) (s : State) : Result :=
  let b := fieldGet F.AGL_SW_CMD_BIN value
  aglSoftware ini 2 (fun r => decide (96 ≤ r) && decide (r < 160) && decide (b < 28)) value s (fun r => .add r (8 * b) 8 (rdn s Reg.AGL_SW_VAL))

/-- CLEAR. -/
def execAglClear (ini : Fin 16) (value : Word) (s : State) : Result :=
  aglSoftware ini 3 (fun r => decide (96 ≤ r) && decide (r < 288)) value s (fun r => .clear r)

end Sys2Proof.Machine
end

