-- ==== Sys2Proof/Machine/Keys.lean ====
section
/-!
DEFINITION. The key store (R485-R503): root key, slot records, commands and the image GCM engine. MRAM is reached as
initiator 14.
-/

namespace Sys2Proof.Machine

/-! ### The root key (R485-R489) -/

/-- The key store area of R68. -/
def keyArea : Nat := 0x40184000
def slotRecordAt (i : Nat) : Nat := keyArea + 0x1000 + 64 * i

/-- Labels of R489. -/
def labelChk : Nat := 0x43484B31
def labelImg : Nat := 0x494D4731
def labelStor : Nat := 0x53544F52

def rootState (s : State) : Nat := fld s Reg.KEYS_STAT F.KEYS_STAT_ROOT
def setRoot (s : State) (v : Nat) : State := setFld s Reg.KEYS_STAT F.KEYS_STAT_ROOT v

/-- The enrolment record: valid if MAGIC, HDR_VER and CRC are right (R486, R488). An uncorrectable word fails the CRC
(R456). -/
def enrolRead (s : State) : Option (List Byte) × State :=
  let r := readScan s 14 keyArea 0x1000
  let b := rdBytes r.2 keyArea 0x1000
  (if r.1.isNone && leNat (b.take 4) == 0x50554631 && leNat ((b.drop 4).take 2) == 1 && leNat (b.drop 0xFFC) == crc32c (b.take 0xFFC)
   then some b else none, r.2)

/-- The root key the PUF gives with helper data (R485). -/
def rootOf (helper : List Byte) : List Byte := beBytes 32 (Config.pufKey helper).toNat

/-- The check value of a root key (R489). -/
def rootCheck (root : List Byte) : List Byte := kdf root labelChk (List.replicate 16 0) 256

/-- Regeneration (R485): the root key, or none where it fails. -/
def regenerate (s : State) : Option (List Byte) × State :=
  let r := enrolRead s
  match r.1 with
  | none => (none, r.2)
  | some b =>
    let root := rootOf ((b.drop 0x28).take 4052)
    (if s.keys.puf && rootCheck root == (b.drop 8).take 32 then some root else none, r.2)

/-! ### Slot records (R491, R492) -/

/-- The storage key of a slot (R489). -/
def storageKey (root : List Byte) (i dest : Nat) (wide : Bool) : List Byte :=
  kdf root labelStor (leBytes 1 i ++ leBytes 1 dest ++ [if wide then 1 else 0] ++ List.replicate 13 0) 256

/-- The record of a slot (R491). -/
def keyRecord (s : State) (i : Nat) : List Byte :=
  let k := keySlot s i
  if k.format = 2 then k1Bytes k.dest k.wide k.key ++ beBytes 2 k.crc ++ List.replicate 22 0
  else
    let w := kwWrap (storageKey (s.keys.root.getD []) i k.dest k.wide) k.key
    let h := [1, BitVec.ofNat 8 k.dest, if k.wide then 1 else 0, 0, 0, 0, 0, 0] ++ w ++ List.replicate (52 - w.length) 0
    h ++ leBytes 4 (crc32c h)

/-- What a slot record makes of its slot (R492). (DEDUCED, log entry 80.) -/
def slotOf (root : List Byte) (i : Nat) (failed : Bool) (b : List Byte) : KeySlot :=
  let at1 := fun (k : Nat) => (b.getD k 0).toNat
  let wide := at1 2 == 1
  let n := if wide then 32 else 16
  let d : KeySlot := { format := at1 0 % 4, dest := at1 1 % 8, wide := wide }
  if at1 0 = 0 && !failed then {}
  else if at1 0 = 1 then
    match (if failed || leNat (b.drop 0x3C) != crc32c (b.take 0x3C) then none
      else kwUnwrap (storageKey root i (at1 1) wide) ((b.drop 8).take (n + 8))) with
    | some key => { d with status := 1, key := key, share := List.replicate n 0 }
    | none => { d with status := 2 }
  else if at1 0 = 2 then
    let key := (b.drop 8).take n
    let crc := beNat ((b.drop 0x28).take 2)
    if failed || crc16k (b.take 0x28) != crc then { d with status := 2 } else { d with status := 1, key := key, crc := crc }
  else { d with status := 2 }

/-- Load one slot from its record; both shares are written. -/
def loadSlot (root : List Byte) (s : State) (i : Nat) : State :=
  let r := readScan s 14 (slotRecordAt i) 64
  redraw (putSlot r.2 i (slotOf root i r.1.isSome (rdBytes r.2 (slotRecordAt i) 64))) i

/-- The root key becomes present: every slot is loaded in ascending order (R492). -/
def rootPresent (s : State) (root : List Byte) : State :=
  let s := setRoot (setKeys s (fun q => { q with root := some root })) 1
  setFlag ((List.range 128).foldl (loadSlot root) s) Reg.KEYS_STAT F.KEYS_STAT_LOADED true

/-- Regeneration and what follows it. -/
def regenerateLoad (s : State) : State :=
  let r := regenerate s
  match r.1 with
  | some root => rootPresent r.2 root
  | none => setRoot r.2 2

/-- KEY_STORE_LOAD (R488): once, after the boot, in PROVISIONING. -/
def execKeyStoreLoad (s : State) : Result :=
  whenDue (fld s Reg.BOOT_STAT F.BOOT_STAT_PHASE == 4 && s.efuse.lifeCycle == 0 && rootState s == 0 &&
      !(flag s Reg.KEYS_STAT F.KEYS_STAT_ENROLLED) && (enrolRead s).1.isSome) s
    (regenerateLoad (setFlag s Reg.KEYS_STAT F.KEYS_STAT_ENROLLED true))

/-! ### Commands (R487, R490, R495-R500) -/

def cmdField (v : Word) (f : Field) : Nat := fieldGet f v

/-- FORMAT and DEST of a command that writes a slot hold codes that exist (R37, R493). -/
def slotCodesErr (v : Word) : Option Nat :=
  let f := cmdField v F.KEYS_CMD_FORMAT
  errIf (f == 0 || f == 3 || cmdField v F.KEYS_CMD_DEST == 0) 37

/-- A write of KEYS_CMD with the code of its command; it is accepted unless one is in progress (R496 and before). -/
def keysCommand (ini : Fin 16) (code : Nat) (value : Word) (extra : Option Nat) (s : State) : Result :=
  softWrite ini 0xF0 0x40
    ((errIf (cmdField value F.KEYS_CMD_CMD != code || value &&& 0x00F0C800 != 0) 37).orElse (fun _ =>
      (errIf (flag s Reg.KEYS_STAT F.KEYS_STAT_BUSY) 38).orElse (fun _ => extra))) s
    (fun s => setFlag (setKeys s (fun q => { q with cmd := some value })) Reg.KEYS_STAT F.KEYS_STAT_BUSY true)

/-- IMPORT (R490). -/
def execKeyImport (ini : Fin 16) (value : Word) (s : State) : Result :=
  keysCommand ini 1 value (slotCodesErr value) s

/-- DERIVE (R496): FORMAT is native, SRC a slot or the root key. -/
def execKeyDerive (ini : Fin 16) (value : Word) (s : State) : Result :=
  keysCommand ini 2 value ((slotCodesErr value).orElse (fun _ =>
    errIf (cmdField value F.KEYS_CMD_FORMAT == 2 || decide (0x80 < cmdField value F.KEYS_CMD_SRC)) 38)) s

/-- STORE (R491, R497). -/
def execKeyStore (ini : Fin 16) (value : Word) (s : State) : Result := keysCommand ini 3 value none s

/-- ERASE (R497). -/
def execKeyErase (ini : Fin 16) (value : Word) (s : State) : Result := keysCommand ini 4 value none s

/-- CLEAR (R490). -/
def execKeysClear (ini : Fin 16) (value : Word) (s : State) : Result := keysCommand ini 5 value none s

/-- ENROLL (R487). -/
def execKeyEnroll (ini : Fin 16) (value : Word) (s : State) : Result := keysCommand ini 6 value none s

/-- SECURE (R498). -/
def execKeySecure (ini : Fin 16) (value : Word) (s : State) : Result := keysCommand ini 7 value none s

/-- DECOMMISSION (R499). -/
def execKeyDecommission (ini : Fin 16) (value : Word) (s : State) : Result := keysCommand ini 8 value none s

/-- GCM_START (R500). -/
def execGcmStart (ini : Fin 16) (value : Word) (s : State) : Result := keysCommand ini 9 value none s

/-- GCM_FINAL (R500). -/
def execGcmFinal (ini : Fin 16) (value : Word) (s : State) : Result := keysCommand ini 10 value none s

/-- A byte string in consecutive registers (R501). -/
def regBytes (s : State) (r : Nat → Nat) (n : Nat) : List Byte := (List.range n).flatMap (fun i => leBytes 4 (rdn s (r i)))
def wrRegBytes (s : State) (r : Nat → Nat) (bs : List Byte) : State :=
  (List.range (bs.length / 4)).foldl (fun s i => wrn s (r i) (leNat ((bs.drop (4 * i)).take 4))) s

/-- RESULT codes. -/
def krState : Nat := 1
def krSource : Nat := 2
def krCheck : Nat := 3
def krMram : Nat := 4

/-- IMPORT takes effect: a K1 key is checked first; the staging registers become zero (R490, R501). (DEDUCED, log entry 80.) -/
def doImport (s : State) (v : Word) : Nat × State :=
  let wide := cmdField v F.KEYS_CMD_LEN == 1
  let key := (regBytes s Reg.KEYS_STG 8).take (if wide then 32 else 16)
  let crc := fld s Reg.KEYS_STG_CRC F.KEYS_STG_CRC_CRC
  let i := cmdField v F.KEYS_CMD_SLOT
  let k : KeySlot := {
    status := 1, format := cmdField v F.KEYS_CMD_FORMAT, dest := cmdField v F.KEYS_CMD_DEST, wide := wide, key := key,
    crc := if cmdField v F.KEYS_CMD_FORMAT = 2 then crc else 0 }
  let r := if k1Ok k then (0, redraw (putSlot s i k) i) else (krCheck, s)
  (r.1, (List.range 9).foldl (fun s j => wr s (Reg.KEYS_STG j) 0) r.2)

/-- The source key of a DERIVE (R489, R494, R496). (DEDUCED, log entry 80.) -/
def deriveKey (s : State) (v : Word) : Option (List Byte) × State :=
  let src := cmdField v F.KEYS_CMD_SRC
  if src = 0x80 then
    (if [labelChk, labelImg, labelStor].contains (rdn s Reg.KEYS_LABEL) then none else s.keys.root, s)
  else keyUse s src 7 4 (fun _ => true)

/-- DERIVE takes effect (R496). -/
def doDerive (s : State) (v : Word) : Nat × State :=
  let r := deriveKey s v
  match r.1 with
  | none => (krSource, r.2)
  | some key =>
    let wide := cmdField v F.KEYS_CMD_LEN == 1
    let ctx := (List.range 4).flatMap (fun i => beBytes 4 (rdn s (Reg.KEYS_CTX i)))
    let i := cmdField v F.KEYS_CMD_SLOT
    (0, redraw (putSlot r.2 i {
      status := 1, format := 1, dest := cmdField v F.KEYS_CMD_DEST, wide := wide,
      key := kdf key (rdn s Reg.KEYS_LABEL) ctx (if wide then 256 else 128) }) i)

/-- A write of the key store to MRAM (R497): RESULT MRAM where the area shows an uncorrectable word; after
power-fail qualification nothing is written and RESULT is open. (DESIGN CHOICE, log entry 79.) -/
def keyWrite (s : State) (a : Nat) (bs : List Byte) : Nat × State :=
  if pfail s then
    let f := fresh s
    (Config.freeNat f.1 % 5, f.2)
  else
    let before := (eccIn s a bs.length).any (ueAt s)
    let s := store s 14 a bs
    (if before || (eccIn s a bs.length).any (ueAt s) then krMram else 0, s)

/-- STORE and ERASE take effect (R491, R497). -/
def doStore (s : State) (i : Nat) : Nat × State :=
  let k := keySlot s i
  if k.status != 1 || (k.format == 1 && s.keys.root.isNone) then (krState, s)
  else keyWrite s (slotRecordAt i) (keyRecord s i)

/-- ENROLL takes effect (R487). -/
def doEnroll (s : State) : Nat × State :=
  let r := enrolRead s
  if s.efuse.lifeCycle != 0 || r.1.isSome || flag s Reg.KEYS_STAT F.KEYS_STAT_ENROLLED then (krState, r.2)
  else
    let helper := (List.range 4052).map Config.pufHelper
    let root := rootOf helper
    let h := leBytes 4 0x50554631 ++ leBytes 2 1 ++ leBytes 2 0 ++ rootCheck root ++ helper
    let w := keyWrite r.2 keyArea (h ++ leBytes 4 (crc32c h))
    (w.1, rootPresent (setFlag w.2 Reg.KEYS_STAT F.KEYS_STAT_ENROLLED true) root)

/-- SECURE takes effect (R498); the life cycle only advances, so a DECOMMISSION of the same power cycle stands (R56). (DESIGN CHOICE, log entry 4.) -/
def doSecure (s : State) : Nat × State :=
  let hash := regBytes s Reg.KEYS_HASH 8
  if s.efuse.lifeCycle == 0 && flag s Reg.KEYS_STAT F.KEYS_STAT_ENROLLED && rootState s == 1 && hash.any (fun b => b != 0) then
    (0, { s with efuse := { s.efuse with
      keyHash := BitVec.ofNat 256 (beNat hash), nextCycle := if s.efuse.nextCycle = 3 then 3 else 1 } })
  else (krState, s)

/-- The bytes DECOMMISSION writes over the whole key store. (DESIGN CHOICE, log entry 79.) -/
def erasedKeys : List Byte := List.replicate 0x10000 0

/-- DECOMMISSION takes effect (R499). (DESIGN CHOICE, log entries 4, 79.) -/
def doDecommission (s : State) : Nat × State :=
  if rdn s Reg.KEYS_LABEL != 0x4445434D then (krState, s)
  else
    let w := keyWrite s keyArea erasedKeys
    let s := (List.range 128).foldl (fun s i => putSlot s i {}) w.2
    let s := setRoot (setKeys s (fun q => { q with root := none })) 0
    (w.1, { s with efuse := { s.efuse with nextCycle := 3 } })

/-- Start a stream under a key (R500). -/
def gcmStart (s : State) (key : List Byte) : State :=
  let s := setKeys s (fun q => { q with gcm := some { key := key, iv := regBytes s Reg.KEYS_GCM_IV 3 } })
  wr s Reg.KEYS_GCM_STAT 1

/-- One block of ciphertext: the plaintext (R500). With no stream the plaintext is open. (DESIGN CHOICE, log entry 79.) -/
def gcmBlock (s : State) (ct : List Byte) : State :=
  match s.keys.gcm with
  | some g =>
    let pt := gcmCrypt g.key g.iv (2 + g.blocks) ct
    let s := setKeys s (fun q => { q with gcm := some { g with blocks := g.blocks + 1, hash := ghash (gcmHash g.key) g.hash ct } })
    wrRegBytes s Reg.KEYS_GCM_DOUT pt
  | none =>
    let f := freeBytes s 16
    wrRegBytes f.2 Reg.KEYS_GCM_DOUT f.1

/-- The tag of the stream so far. -/
def gcmRunTag (g : GcmRun) : List Byte :=
  let h := ghash (gcmHash g.key) g.hash (beBytes 8 0 ++ beBytes 8 (128 * g.blocks))
  xorB (beBytes 16 h) (aesEnc g.key (gcmCounter g.iv 1))

/-- The end of a stream (R500). With no stream TAG_OK is open. (DESIGN CHOICE, log entry 79.) -/
def gcmFinal (s : State) : State :=
  let r := match s.keys.gcm with
    | some g => (gcmRunTag g == regBytes s Reg.KEYS_GCM_TAG 4, s)
    | none => let f := fresh s; (Config.freeBool f.1, f.2)
  raise (wr (setKeys r.2 (fun q => { q with gcm := none })) Reg.KEYS_GCM_STAT (if r.1 then 6 else 2)) 0xF0 3

/-- GCM_START by firmware takes effect: the key is that of SLOT (R493, R494, R500). -/
def doGcmStart (s : State) (v : Word) : Nat × State :=
  let r := keyUse s (cmdField v F.KEYS_CMD_SLOT) 5 3 (fun w => w)
  match r.1 with
  | some key => (0, gcmStart r.2 key)
  | none => (krSource, r.2)

/-- What the command in progress does: RESULT and the state. -/
def keysDo (s : State) (v : Word) : Nat × State :=
  let i := cmdField v F.KEYS_CMD_SLOT
  match cmdField v F.KEYS_CMD_CMD with
  | 1 => doImport s v
  | 2 => doDerive s v
  | 3 => doStore s i
  | 4 => keyWrite s (slotRecordAt i) (List.replicate 64 0)
  | 5 => (0, putSlot s i {})
  | 6 => doEnroll s
  | 7 => doSecure s
  | 8 => doDecommission s
  | 9 => doGcmStart s v
  | _ => (0, gcmFinal s)

/-- The command in progress takes effect in one cycle, with RESULT and INT_RAW bit 0 (R495). -/
def keysEnd (s : State) (v : Word) : State :=
  let r := keysDo s v
  let s := setFld (setKeys r.2 (fun q => { q with cmd := none })) Reg.KEYS_STAT F.KEYS_STAT_RESULT r.1
  raise (setFlag s Reg.KEYS_STAT F.KEYS_STAT_BUSY false) 0xF0 0

/-- KEYS_COMMAND_DONE (R495). -/
def execKeysCommandDone (s : State) : Result :=
  match s.keys.cmd with
  | none => .next s
  | some v => settleDue (domainUp s 3) s (keysEnd s v)

/-- GCM_DIN_WRITE (R500): the write of KEYS_GCM_DIN[3]. -/
def execGcmDinWrite (ini : Fin 16) (value : Word) (s : State) : Result :=
  softWrite ini 0xF0 0xF8 none s (fun s =>
    let s := wr s (Reg.KEYS_GCM_DIN 3) value
    gcmBlock s (regBytes s Reg.KEYS_GCM_DIN 4))

end Sys2Proof.Machine
end

