-- ==== Sys2Proof/Machine/L1.lean ====
section
/-!
DEFINITION. The L1 arrays of the cores (R437-R439, R542): the lines they hold, a core's access to one, and what happens to
them beside it.
-/

namespace Sys2Proof.Machine

/-- A line of core `c`'s instruction or data array that holds address `a`. -/
def l1Holds (c : Nat) (inst : Bool) (a : Nat) (l : L1Line) : Bool :=
  l.core == c && l.inst == inst && decide (l.addr ≤ a) && decide (a < l.addr + l.size)

def l1Find (s : State) (c : Nat) (inst : Bool) (a : Nat) : Option L1Line := s.l1.find? (l1Holds c inst a)
def l1Map (s : State) (c : Nat) (inst : Bool) (a : Nat) (f : L1Line → L1Line) : State :=
  { s with l1 := s.l1.map (fun l => if l1Holds c inst a l then f l else l) }
def l1Drop (s : State) (c : Nat) (inst : Bool) (a : Nat) : State :=
  { s with l1 := s.l1.filter (fun l => !(l1Holds c inst a l)) }

/-- A core's instruction array holds nothing (R130, R468). -/
def l1Empty (s : State) (c : Nat) : State := { s with l1 := s.l1.filter (fun l => !(l.core == c && l.inst)) }

/-- Address of the code word in a line's array. -/
def l1Word (a : Nat) : Nat := a / 8 * 8
def l1Ecc (l : L1Line) (a : Nat) : EccWord := mget {} l.words (l1Word a)
def l1SetEcc (l : L1Line) (a : Nat) (e : EccWord) : L1Line := { l with words := mput {} l.words (l1Word a) e }

/-- A correction in an L1 array counts with those of the local memories (R439). -/
def l1Correct (s : State) : State := recordCe s 0x50400000

/-- The line holds an uncorrectable error. -/
def l1Bad (l : L1Line) : Bool := l.words.any (fun e => eccCheck 1 e.2 == .uncorrectable)

/-- What an access finds in an L1 array (R438). -/
inductive L1Find where
  /-- nothing, or a clean line that an uncorrectable error has invalidated: the access goes to the next level -/
  | miss
  | hit
  /-- data that the code cannot vouch for (R434) -/
  | wrong
  /-- an uncorrectable error in a dirty line -/
  | ue
  deriving DecidableEq, Repr

/-- An access of core `c` to address `a` through an L1 array (R438): a correctable error is corrected in the read path, an
uncorrectable one invalidates a clean line, and every access to a dirty line that holds one is an uncorrectable error. (DESIGN CHOICE, log entry 98.) -/
def l1Access (s : State) (c : Nat) (inst : Bool) (a : Nat) : L1Find × State :=
  match l1Find s c inst a with
  | none => (.miss, s)
  | some l =>
    if l.dirty && l1Bad l then (.ue, s)
    else match eccCheck 1 (l1Ecc l a) with
      | .clean => (.hit, s)
      | .correctable => (.hit, l1Correct s)
      | .uncorrectable => (.miss, l1Drop s c inst a)
      | .beyond =>
        let f := fresh s
        let k := Config.freeNat f.1 % 3
        if k = 0 then (if l.dirty then (.ue, f.2) else (.miss, l1Drop f.2 c inst a))
        else (.wrong, if k = 1 then l1Correct f.2 else f.2)

/-- A store narrower than its code word reads and modifies it (R542). -/
def l1Store (s : State) (c a : Nat) : State :=
  match l1Find s c false a with
  | none => s
  | some l =>
    let e := l1Ecc l a
    match eccCheck 1 e with
    | .clean => l1Map s c false a (fun l => { l with dirty := true })
    | .correctable => l1Correct (l1Map s c false a (fun l => l1SetEcc { l with dirty := true } a {}))
    | _ => l1Map s c false a (fun l => l1SetEcc { l with dirty := true } a { poisoned := true })

/-- A dirty line is written back, corrected, to the memory it belongs to; one with an uncorrectable error is not (R438). After
qualification a write to MRAM is discarded (R73). (DESIGN CHOICE, log entry 98.) -/
def l1WriteBack (s : State) (c a : Nat) : State :=
  match l1Find s c false a with
  | none => s
  | some l =>
    if !l.dirty || l1Bad l then s
    else
      let n := (l.words.filter (fun e => eccCheck 1 e.2 == .correctable)).length
      let t := (List.range n).foldl (fun s _ => l1Correct s) (l1Map s c false a (fun l => { l with dirty := false, words := [] }))
      if isMram a && pfail s then t
      else (List.range (l.size / cwBytes a)).foldl (fun s k => wholeWord s (l.addr + cwBytes a * k) false) t

/-- One thing that happens in a core's L1 arrays; the safety pair has none (R437). -/
def l1Event (c : Nat) (s : State) (e : L1Event) : State :=
  if 6 ≤ c then s
  else match e with
    | .fill inst a n =>
      let b := a / n * n
      if n % 16 != 0 || n == 0 || !(rangeMapped b n) || s.l1.any (fun l => l.core == c && l.inst == inst && decide (l.addr < b + n) && decide (b < l.addr + l.size))
      then s else { s with l1 := s.l1 ++ [{ core := c, inst := inst, addr := b, size := n }] }
    | .store a => l1Store s c a
    | .writeBack a => l1WriteBack s c a
    | .evict inst a => match l1Find s c inst a with
      | some l => if l.dirty then s else l1Drop s c inst a
      | none => s
    | .flip inst a bits => l1Map s c inst a (fun l => l1SetEcc l a (eccFlip 8 (l1Ecc l a) bits))

/-- What has happened in a core's L1 arrays. (DESIGN CHOICE, log entry 98.) -/
def l1Events (s : State) (c : Nat) (es : List L1Event) : State := es.foldl (l1Event c) s

end Sys2Proof.Machine
end

