-- ==== Sys2Proof/Machine/Mmu.lean ====
section
/-!
DEFINITION. Contexts and translation (R459-R467): page tables, the TLBs of the cores and of the IOMMU, fault records,
and memory access by virtual address.
-/

namespace Sys2Proof.Machine

/-- The faults of an access: 1 translation, 2 permission, 3 uncorrectable ECC (R461, R467). -/
abbrev AccFault := Nat × Nat

/-- Requesters of the IOMMU: 0 DMA, 1 RXE, 2 Prism, 3 CYC, 4 MIRROR (R467), and their fabric initiators (R34). -/
def reqIni (req : Nat) : Nat :=
  match req with
  | 0 => 7
  | 1 => 8
  | 2 => 9
  | 3 => 13
  | _ => 10

def leafBit (leaf k : Nat) : Bool := leaf.testBit k

/-- What a valid table entry must not hold: reserved bits, a length outside 1 to 16,384 (R37, R460). (DEDUCED, log entry 99.) -/
def rootErr (root : Nat) : Option Nat :=
  let n := root / 2 ^ 32 % 2 ^ 15
  (errIf (root % 64 / 2 != 0 || root / 2 ^ 47 != 0) 37).orElse (fun _ => errIf (n == 0 || decide (16384 < n)) 38)
def leafErr (leaf : Nat) : Option Nat := errIf (leaf / 512 % 8 != 0 || leaf / 2 ^ 32 != 0) 37

/-- A walk (R459, R460): the leaf entry and its address, or the fault's cause. (DEDUCED, log entry 99.) -/
def walk (s : State) (ini ctx va : Nat) : (Nat ⊕ (Nat × Nat)) × State :=
  let ri := va / 2 ^ 26 % 2 ^ 14
  let li := va / 2 ^ 12 % 2 ^ 14
  let b := rdn s (Reg.MMU_CTXB ctx)
  if !(b.testBit 0) || decide (fld s (Reg.MMU_CTXL ctx) F.MMU_CTXL_LEN ≤ ri) then (.inl 1, s)
  else
    let ra := b / 64 * 64 + 8 * ri
    let r1 := readScan s ini ra 8
    if r1.1.isSome then (.inl 3, r1.2)
    else
      let root := rdLE r1.2 ra 8
      let s1 := if root.testBit 0 then badIf r1.2 (rootErr root) else r1.2
      if !(root.testBit 0) || decide (root / 2 ^ 32 % 2 ^ 15 ≤ li) then (.inl 1, s1)
      else
        let la := root % 2 ^ 32 / 64 * 64 + 8 * li
        let r2 := readScan s1 ini la 8
        if r2.1.isSome then (.inl 3, r2.2)
        else
          let leaf := rdLE r2.2 la 8
          if leaf.testBit 0 then (.inr (leaf, la), badIf r2.2 (leafErr leaf)) else (.inl 1, r2.2)

/-- Entries of a TLB: 64 in a core's, 256 in the IOMMU's (R465). (DESIGN CHOICE, log entry 12.) -/
def tlbSize (who : Nat) : Nat := if who = 6 then 256 else 64

def setMmu (s : State) (f : Mmu → Mmu) : State := { s with mmu := f s.mmu }

/-- The cached entry of a page. -/
def tlbFind (s : State) (who ctx vpn : Nat) : Option TlbEntry :=
  s.mmu.tlb.find? (fun e => e.who == who && e.ctx == ctx && e.vpn == vpn)

/-- Cache an entry; where the TLB is full its oldest entry makes room (log entry 12). -/
def tlbAdd (s : State) (e : TlbEntry) : State :=
  let mine := s.mmu.tlb.filter (fun x => x.who == e.who)
  let t := if mine.length < tlbSize e.who then s.mmu.tlb
    else (match mine.head? with | some o => s.mmu.tlb.erase o | none => s.mmu.tlb)
  setMmu s (fun m => { m with tlb := t ++ [e] })

/-- Look a page up in a TLB, walking on a miss; the IOMMU counts its misses. -/
def lookup (s : State) (who ini ctx va : Nat) : (Nat ⊕ TlbEntry) × State :=
  match tlbFind s who ctx (va / 4096) with
  | some e => (.inr e, s)
  | none =>
    let s := if who = 6 then satFld s Reg.IOMMU_MISS_CNT ⟨0, 32⟩ 1 else s
    let w := walk s ini ctx va
    match w.1 with
    | .inl c => (.inl c, w.2)
    | .inr (leaf, la) =>
      let e : TlbEntry := { who := who, ctx := ctx, vpn := va / 4096, leaf := leaf, leafAt := la }
      (.inr e, tlbAdd w.2 e)

/-- The first write through a clean entry sets DIRTY in memory and in the cached entry (R462). -/
def setDirty (s : State) (ini : Nat) (e : TlbEntry) : State :=
  if leafBit e.leaf 7 then s
  else
    let s := store s ini e.leafAt (leBytes 8 (rdLE s e.leafAt 8 ||| 0x80))
    setMmu s (fun m => { m with tlb := m.tlb.map (fun x =>
      if x.leafAt = e.leafAt ∧ x.ctx = e.ctx ∧ x.vpn = e.vpn then { x with leaf := x.leaf ||| 0x80 } else x) })

/-- Record a fault of the IOMMU (R467). -/
def iommuFault (s : State) (req cause ctx ch va : Nat) (write : Bool) : State :=
  let s := satFld s Reg.IOMMU_FLT_CNT ⟨0, 32⟩ 1
  if flag s Reg.IOMMU_FLT_INFO F.IOMMU_FLT_INFO_VALID then s
  else
    let s := wrn s Reg.IOMMU_FLT_INFO (1 + 2 * req + 16 * cause + 256 * ctx + 65536 * ch + (if write then 2 ^ 24 else 0))
    raise (wr64 s Reg.IOMMU_FLT_VA_LO Reg.IOMMU_FLT_VA_HI (va % 2 ^ 40)) 0x35 0

/-- Translate one access of an IOMMU requester (R461): the physical address, or the cause of the fault, recorded. -/
def iommu (s : State) (req ctx ch va : Nat) (write : Bool) : (Nat ⊕ Nat) × State :=
  let l := lookup s 6 (reqIni req) ctx va
  match l.1 with
  | .inl c => (.inl c, iommuFault l.2 req c ctx ch va write)
  | .inr e =>
    let ok := if write then leafBit e.leaf 2 && !(leafBit e.leaf 5) else leafBit e.leaf 1
    if !ok then (.inl 2, iommuFault l.2 req 2 ctx ch va write)
    else
      let s := if write then setDirty l.2 (reqIni req) e else l.2
      (.inr (e.leaf % 2 ^ 32 / 4096 * 4096 + va % 4096), s)

/-- Read `n` bytes at a virtual address: the fault (cause, address) of the first failing access, if one fails, and the bytes
read before it. -/
def vreadPart (s : State) (req ctx ch va n : Nat) : (Option AccFault × List Byte) × State :=
  (pieces (n / 4096 + 2) va n).foldl (fun st p =>
    match st.1.1 with
    | some _ => st
    | none =>
      let t := iommu st.2 req ctx ch p.1 false
      match t.1 with
      | .inl c => ((some (c, p.1), st.1.2), t.2)
      | .inr pa =>
        let r := readScan t.2 (reqIni req) pa p.2
        match r.1 with
        | some w => ((some (3, p.1 + (w - pa)), st.1.2 ++ rdBytes r.2 pa (readBefore pa w)), iommuFault r.2 req 3 ctx ch p.1 false)
        | none => ((none, st.1.2 ++ rdBytes r.2 pa p.2), r.2)) ((none, []), s)

/-- Read `n` bytes at a virtual address: the bytes, or the fault of the first failing access. -/
def vread (s : State) (req ctx ch va n : Nat) : (AccFault ⊕ List Byte) × State :=
  let r := vreadPart s req ctx ch va n
  (match r.1.1 with | some f => .inl f | none => .inr r.1.2, r.2)

/-- A page with the mirror attribute is written by CYC, by MIRROR and by the task whose context holds it only (R357); a
channel of the DMA is looked at where its burst is issued (R463). -/
def mirrorPageErr (s : State) (req ctx va : Nat) : Option Nat :=
  errIf ((req == 1 || req == 2) && (match tlbFind s 6 ctx (va / 4096) with | some e => leafBit e.leaf 6 | none => false)) 357

/-- Store bytes at a virtual address; the accesses before a failing one complete. -/
def vwrite (s : State) (req ctx ch va : Nat) (bs : List Byte) : Option AccFault × State :=
  let r := (pieces (bs.length / 4096 + 2) va bs.length).foldl (fun st p =>
    match st.1.1 with
    | some f => ((some f, st.1.2), st.2)
    | none =>
      let t := iommu st.2 req ctx ch p.1 true
      match t.1 with
      | .inl c => ((some (c, p.1), st.1.2), t.2)
      | .inr pa => ((none, st.1.2.drop p.2),
          store (badIf t.2 (mirrorPageErr t.2 req ctx p.1)) (reqIni req) pa (st.1.2.take p.2))) ((none, bs), s)
  (r.1.1, r.2)

/-! ### Invalidation (R465) -/

/-- A write of MMU_INVAL is accepted: BUSY, and the entries it covers. -/
def invalBegin (ini : Fin 16) (kind ctx : Nat) (s : State) : Result :=
  softWrite ini 0x17 0x240 (errIf (flag s Reg.MMU_INVAL_STAT F.MMU_INVAL_STAT_BUSY) 465) s (fun s =>
    let va := (rd64 s Reg.MMU_INVAL_VA_LO Reg.MMU_INVAL_VA_HI) % 2 ^ 40
    setFlag (setMmu s (fun m => { m with inval := some (kind, ctx, va / 4096) })) Reg.MMU_INVAL_STAT F.MMU_INVAL_STAT_BUSY true)

/-- ALL, CONTEXT and PAGE (R465). -/
def execInvalAll (ini : Fin 16) (s : State) : Result := invalBegin ini 1 0 s
def execInvalContext (ini : Fin 16) (ctx : Fin 64) (s : State) : Result := invalBegin ini 2 ctx.val s
def execInvalPage (ini : Fin 16) (ctx : Fin 64) (s : State) : Result := invalBegin ini 3 ctx.val s

/-- The entries an invalidation covers. -/
def invalCovers (k : Nat × Nat × Nat) (e : TlbEntry) : Bool :=
  k.1 == 1 || (e.ctx == k.2.1 && (k.1 == 2 || e.vpn == k.2.2))

/-- INVAL_DONE (R465): every TLB has dropped the matching entries. -/
def execInvalDone (s : State) : Result :=
  match s.mmu.inval with
  | none => .next s
  | some k =>
    let s := setMmu s (fun m => { m with tlb := m.tlb.filter (fun e => !(invalCovers k e)), inval := none })
    .next (raise (setFlag s Reg.MMU_INVAL_STAT F.MMU_INVAL_STAT_BUSY false) 0x17 0)

end Sys2Proof.Machine
end

