-- ==== Sys2Proof/Machine/Dma.lean ====
section
/-!
DEFINITION. The DMA engine (R478-R481): descriptors, bursts, the states of a channel, and channels bound to a task.
-/

namespace Sys2Proof.Machine

/-- DMA_STAT.STATE and END values. -/
def dIdle : Nat := 0
def dRun : Nat := 1
def dPaused : Nat := 2
def dFault : Nat := 3
def dDead : Nat := 4
def endDone : Nat := 0
def endCut : Nat := 1
def endTaskFault : Nat := 2
def endAborted : Nat := 3
def endXlate : Nat := 4
def endPerm : Nat := 5
def endUe : Nat := 6

def chan (s : State) (ch : Nat) : DmaChan := mget {} s.dma ch
def setChan (s : State) (ch : Nat) (c : DmaChan) : State := { s with dma := mput {} s.dma ch c }
def dmaState (s : State) (ch : Nat) : Nat := fld s (Reg.DMA_STAT ch) F.DMA_STAT_STATE

/-- A channel's state changes; FAULT and DEAD set its bit of DMA_FLT_PEND (R479). -/
def setDma (s : State) (ch st : Nat) : State :=
  let s := setFld s (Reg.DMA_STAT ch) F.DMA_STAT_STATE st
  if st == dFault || st == dDead then raise (orReg s Reg.DMA_FLT_PEND (1#32 <<< ch)) 0x30 1 else s

def dmaEnd (s : State) (ch e : Nat) : State := setFld s (Reg.DMA_STAT ch) F.DMA_STAT_END e

def dmaBound (s : State) (ch : Nat) : Bool := flag s (Reg.DMA_CFG ch) F.DMA_CFG_BOUND
def dmaTask (s : State) (ch : Nat) : Nat := fld s (Reg.DMA_CFG ch) F.DMA_CFG_TASK

/-- The core executes the code of task `t` in its own context (R94, R464). -/
def inContext (s : State) (c t : Nat) : Bool :=
  mget none s.cyc.running c == some t && flag s (Reg.CORE_STAT c) F.CORE_STAT_TMODE && coreRuns s c

/-- The task of a bound channel is the running task of its core, handlers included, and the core is not halted (R481). -/
def dmaTaskRuns (s : State) (ch : Nat) : Bool :=
  let c := fld s (Reg.TCFG (dmaTask s ch)) F.TCFG_CORE
  !(dmaBound s ch) || (mget none s.cyc.running c == some (dmaTask s ch) && !(flag s (Reg.CORE_STAT c) F.CORE_STAT_HALTED))

/-- DMA_STAT.OUT follows the outstanding bursts. -/
def dmaOut (s : State) (ch : Nat) : State := setFld s (Reg.DMA_STAT ch) F.DMA_STAT_OUT (chan s ch).out.length

/-- A stop takes effect once no burst is outstanding (R480). (DEDUCED, log entry 42.) -/
def dmaSettle (s : State) (ch : Nat) : State :=
  let c := chan s ch
  let still := fun (st : Nat) => setDma (setChan s ch { c with stop := none }) ch st
  if !c.out.isEmpty then s
  else match c.stop with
    | none => s
    | some .pause => still dPaused
    | some .dead => dmaEnd (still dDead) ch endUe
    | some (.ended e) => dmaEnd (still dIdle) ch e
    | some (.fault e side va) =>
      wr64 (setFld (dmaEnd (still dFault) ch e) (Reg.DMA_STAT ch) F.DMA_STAT_SIDE side) (Reg.DMA_FLT_LO ch) (Reg.DMA_FLT_HI ch) (va % 2 ^ 40)

/-- Settle a stop, and show the outstanding count. -/
def dmaShow (s : State) (ch : Nat) : State := dmaOut (dmaSettle s ch) ch

/-- A channel stops at the burst boundary; an uncorrectable error stays what stops it. -/
def dmaStop (s : State) (ch : Nat) (x : DmaStop) : State :=
  if (chan s ch).stop = some .dead then s else dmaShow (setChan s ch { chan s ch with stop := some x }) ch

/-- Bursts outstanding over all channels (R478: at most 64). -/
def dmaAll (s : State) : Nat := s.dma.foldl (fun n e => n + e.2.out.length) 0

/-- The next burst's number in its descriptor. -/
def dmaNextBurst (s : State) (ch : Nat) : Nat := rdn s (Reg.DMA_DONE ch) / 32 + (chan s ch).out.length

/-- The channel can issue a burst (R478, R481). -/
def dmaCan (s : State) (ch : Nat) : Bool :=
  let c := chan s ch
  dmaState s ch == dRun && c.stop.isNone && dmaTaskRuns s ch && decide (32 * dmaNextBurst s ch < c.len) &&
    decide (c.out.length ≤ fld s (Reg.DMA_CFG ch) F.DMA_CFG_MAXOUT) && decide (dmaAll s < 64)

/-- A burst writes a mirror page for a channel that no task holds (R357, R463). (DEDUCED, log entry 42.) -/
def mirrorBurst (s : State) (ch va : Nat) : Option Nat :=
  errIf (!(dmaBound s ch) && (match tlbFind s 6 (dmaCtx s ch) (va / 4096) with | some e => leafBit e.leaf 6 | none => false)) 357

/-- One channel issues its next burst: it translates its source and its destination first; a faulting burst is not issued (R478, R480). -/
def dmaIssueOne (s : State) (ch : Nat) : State :=
  let c := chan s ch
  let o := 32 * dmaNextBurst s ch
  let a := iommu s 0 (dmaCtx s ch) ch (c.src + o) false
  match a.1 with
  | .inl e => dmaStop a.2 ch (.fault (e + 3) 0 (c.src + o))
  | .inr sp =>
    let b := iommu a.2 0 (dmaCtx s ch) ch (c.dst + o) true
    match b.1 with
    | .inl e => dmaStop b.2 ch (.fault (e + 3) 1 (c.dst + o))
    | .inr dp =>
      let t := badIf b.2 (mirrorBurst b.2 ch (c.dst + o))
      let t := { t with dmaIssue := { next := (ch + 1) % 32, cycle := t.now / 8 + 1 } }
      dmaOut (setChan t ch { c with out := c.out ++ [{ src := sp, dst := dp }] }) ch

/-- The issue slot of the present CLK_FAB cycle goes to the next channel in turn that can issue, if it has not been used (R478).
A channel whose burst faults leaves it to the next one. (DEDUCED, log entry 42.) -/
def dmaSlot : Nat → State → State
  | 0, s => s
  | fuel + 1, s =>
    if s.dma.isEmpty || s.dmaIssue.cycle == s.now / 8 + 1 then s
    else match ((List.range 32).map (fun i => (s.dmaIssue.next + i) % 32)).find? (dmaCan s) with
      | none => s
      | some ch => dmaSlot fuel (dmaIssueOne s ch)

/-- A CLK_FAB cycle begins: one burst is issued. (DESIGN CHOICE, log entry 5.) -/
def dmaCycle (s : State) : State := if s.now % 8 = 0 then dmaSlot 33 s else s

/-- Settle a stop, and use the issue slot of this cycle where it is still free. -/
def dmaGo (s : State) (ch : Nat) : State := dmaSlot 33 (dmaShow s ch)

/-- A descriptor at `va` breaks R479: alignment, length, flags, overlapping ranges. (DEDUCED, log entry 42.) -/
def dmaDescErr (va : Nat) (bs : List Byte) : Option Nat :=
  let f := fun (off n : Nat) => leNat ((bs.drop off).take n)
  let src := f 0 8 % 2 ^ 40
  let dst := f 8 8 % 2 ^ 40
  let len := f 16 4
  (errIf (f 5 3 != 0 || f 13 3 != 0 || decide (3 < f 20 4) || f 29 3 != 0) 37).orElse (fun _ =>
    errIf (va % 32 != 0 || src % 32 != 0 || dst % 32 != 0 || len % 32 != 0 || len == 0 || decide (16777216 < len) ||
      (decide (src < dst + len) && decide (dst < src + len))) 479)

/-- Read the descriptor at `va` (R479); a fault on it has SIDE 1, an uncorrectable error makes the channel DEAD. (DEDUCED, log entry 42.) -/
def dmaFetch (s : State) (ch va : Nat) : State :=
  let s := wr64 s (Reg.DMA_CUR_LO ch) (Reg.DMA_CUR_HI ch) (va % 2 ^ 40)
  let r := vread s 0 (dmaCtx s ch) ch va 32
  match r.1 with
  | .inl (3, _) => dmaStop r.2 ch .dead
  | .inl (c, a) => dmaStop r.2 ch (.fault (c + 3) 1 a)
  | .inr bs =>
    dmaGo (setChan (badIf r.2 (dmaDescErr va bs)) ch {
      src := leNat (bs.take 8) % 2 ^ 40, dst := leNat ((bs.drop 8).take 8) % 2 ^ 40, len := leNat ((bs.drop 16).take 4),
      flags := leNat ((bs.drop 20).take 4), next := leNat ((bs.drop 24).take 8) % 2 ^ 40 }) ch

/-- The page of a channel's block and the offset of a register in it (R479). -/
def dmaPage (ch : Nat) : Nat := 0x31 + ch / 8
def dmaOff (ch r : Nat) : Nat := 0x40 + 0x40 * (ch % 8) + r

/-! ### DMA_CTL (R480, R481) -/

/-- A bound channel is started only by its task during its cycle (R481). -/
def startErr481 (ini : Fin 16) (ch : Nat) (s : State) : Option Nat :=
  errIf (dmaBound s ch && !(ini.val == fld s (Reg.TCFG (dmaTask s ch)) F.TCFG_CORE && inContext s ini.val (dmaTask s ch))) 481

/-- START, RESUME and ABORT; each has no effect in a state it is not listed for. -/
def dmaStart (s : State) (ch : Nat) : State :=
  if dmaState s ch != dIdle then s
  else
    let s := setDma (wrn (setChan s ch {}) (Reg.DMA_DONE ch) 0) ch dRun
    dmaFetch s ch (rd64 s (Reg.DMA_DESC_LO ch) (Reg.DMA_DESC_HI ch) % 2 ^ 40)
def dmaResume (s : State) (ch : Nat) : State :=
  if dmaState s ch != dFault then s
  else dmaFetch (setDma s ch dRun) ch (rd64 s (Reg.DMA_CUR_LO ch) (Reg.DMA_CUR_HI ch))
def dmaAbort (s : State) (ch : Nat) : State :=
  let st := dmaState s ch
  if st == dRun then dmaStop s ch (.ended endAborted)
  else if st == dFault || st == dDead then setDma s ch dIdle
  else s

/-- A write of DMA_CTL: each of its bits acts on its own, in bit order. (DEDUCED, log entry 19.) -/
def dmaControl (ini : Fin 16) (ch : Fin 32) (start resume abort : Bool) (s : State) : Result :=
  settleWrite ini (dmaPage ch.val) (dmaOff ch.val 0x0C) (if start then startErr481 ini ch.val s else none) s (fun s =>
    let s := if start then dmaStart s ch.val else s
    let s := if resume then dmaResume s ch.val else s
    if abort then dmaAbort s ch.val else s)

/-- DMA_START (R478-R481). -/
def execDmaStart (ini : Fin 16) (ch : Fin 32) (s : State) : Result := dmaControl ini ch true false false s

/-- DMA_RESUME (R480): in FAULT the descriptor is read again and bursts go on from the faulting one. -/
def execDmaResume (ini : Fin 16) (ch : Fin 32) (s : State) : Result := dmaControl ini ch false true false s

/-- DMA_ABORT (R480). -/
def execDmaAbort (ini : Fin 16) (ch : Fin 32) (s : State) : Result := dmaControl ini ch false false true s

/-! ### Bursts (R478, R480) -/

/-- A 32-byte burst does not reach the core-local window, which takes single accesses only (R436). (DEDUCED, log entry 42.) -/
def burstErr (b : DmaBurst) : Option Nat := errIf (decide (0x50000000 ≤ b.src ∧ b.src ≤ 0x50FFFFFF) || decide (0x50000000 ≤ b.dst ∧ b.dst ≤ 0x50FFFFFF)) 436

/-- The writes that may be issued: those of the oldest bursts whose reads have completed, in order (R478). -/
def dmaWrites (ch : Nat) : Nat → State → State
  | 0, s => s
  | fuel + 1, s =>
    match (chan s ch).out with
    | b :: bs => match b.data with
      | some d => dmaWrites ch fuel (addReg (setChan (store s 7 b.dst d) ch { chan s ch with out := bs }) (Reg.DMA_DONE ch) 32)
      | none => s
    | [] => s

/-- The read of the outstanding burst `i` completes. One that meets an uncorrectable error takes the later bursts with it, and
the channel is DEAD once the earlier ones have completed (R455, R480). (DEDUCED, log entry 42.) -/
def dmaRead (s : State) (ch i : Nat) (b : DmaBurst) : State :=
  let r := readScan (badIf s (burstErr b)) 7 b.src 32
  let c := chan r.2 ch
  match r.1 with
  | some _ => dmaGo (setChan r.2 ch { c with out := c.out.take i, stop := some .dead }) ch
  | none =>
    dmaGo (dmaWrites ch 16 (setChan r.2 ch { c with out := c.out.set i { b with data := some (rdBytes r.2 b.src 32) } })) ch

/-- DMA_BURST_COMPLETE (R9, R455, R460, R461, R467, R478, R480): the completion carries the tag of its request, here the number
of the burst in its descriptor; completions return out of order. (DEDUCED, log entry 16.) -/
def execDmaBurstComplete (ch : Fin 32) (burst : Nat) (s : State) : Result :=
  let first := rdn s (Reg.DMA_DONE ch.val) / 32
  if burst < first then .next s
  else match (chan s ch.val).out[burst - first]? with
    | some b => settleDue b.data.isNone s (dmaRead s ch.val (burst - first) b)
    | none => .next s

/-- All bursts of the descriptor have completed. -/
def dmaDescDone (s : State) (ch : Nat) : Bool :=
  dmaState s ch == dRun && (chan s ch).out.isEmpty && (chan s ch).stop.isNone && (chan s ch).len != 0 &&
    rdn s (Reg.DMA_DONE ch) == (chan s ch).len

/-- A descriptor ends (R479, R480): IRQ, then the next descriptor, or IDLE. -/
def dmaDescEnd (s : State) (ch : Nat) : State :=
  let c := chan s ch
  let s1 := if c.flags.testBit 0 then raise (orReg s Reg.DMA_DONE_PEND (1#32 <<< ch)) 0x30 0 else s
  if c.flags.testBit 1 then dmaFetch (wrn (setChan s1 ch {}) (Reg.DMA_DONE ch) 0) ch c.next
  else dmaEnd (setDma s1 ch dIdle) ch endDone

/-- DMA_DESCRIPTOR_COMPLETE (R479, R480). -/
def execDmaDescriptorComplete (ch : Fin 32) (s : State) : Result := settleDue (dmaDescDone s ch.val) s (dmaDescEnd s ch.val)

/-! ### Bound channels (R480, R481) -/

/-- The channels bound to a task. -/
def boundTo (s : State) (t : Nat) : List Nat :=
  (List.range 32).filter (fun ch => dmaBound s ch && dmaTask s ch == t)

/-- The task leaves its core: its running channels stop at the burst boundary. -/
def dmaTaskStop (s : State) (t : Nat) : State :=
  (boundTo s t).foldl (fun s ch =>
    if dmaState s ch == dRun && (chan s ch).stop.isNone then dmaStop s ch .pause else s) s

/-- The task runs again: paused channels go on. -/
def dmaTaskGo (s : State) (t : Nat) : State :=
  (boundTo s t).foldl (fun s ch =>
    if dmaState s ch == dPaused then dmaGo (setDma s ch dRun) ch
    else if (chan s ch).stop == some .pause then dmaGo (setChan s ch { chan s ch with stop := none }) ch
    else s) s

/-- The task's cycle ends, or it enters FAULT: its channels are cut. -/
def dmaTaskCut (s : State) (t code : Nat) : State :=
  (boundTo s t).foldl (fun s ch =>
    let st := dmaState s ch
    if st == dRun || st == dPaused || st == dFault then dmaStop s ch (.ended code) else s) s

/-- No burst of a task's channels is outstanding (R481: the commit instant follows them). -/
def dmaTaskQuiet (s : State) (t : Nat) : Bool := (boundTo s t).all (fun ch => (chan s ch).out.isEmpty)

end Sys2Proof.Machine
end

