-- ==== Sys2Proof/Machine/Signals.lean ====
section
/-!
DEFINITION. The signal table in CLE RAM (R11-R14, R36, R166-R173): its entries, the writes of the four writer classes
and their ties.
-/

namespace Sys2Proof.Machine

/-! ### CLE RAM -/

/-- A little-endian number in CLE RAM. -/
def cleRd (s : State) (a : Nat) : Nat → Nat
  | 0 => 0
  | n + 1 => (mget 0 s.cleRam a).toNat + 256 * cleRd s (a + 1) n

/-- Store a little-endian number of `n` bytes in CLE RAM. -/
def cleWr (s : State) (a : Nat) : Nat → Nat → State
  | 0, _ => s
  | n + 1, v => cleWr { s with cleRam := mput 0 s.cleRam a (BitVec.ofNat 8 v) } (a + 1) n (v / 256)

/-- The same with its effect on the code words (R542). -/
def cleSet (s : State) (a n v : Nat) : State := eccPart (cleWr s a n v) (cleEcc + a) n

/-- A read of the code words at these places of CLE RAM: corrections are counted (R439); whether one is uncorrectable. -/
def cleScan (s : State) (ws : List Nat) : Bool × State :=
  let r := scanWords 0 ueRead (ws.map (fun a => cleEcc + a / 8 * 8)) s
  (r.1.isSome, r.2)

/-- A read of the 32-bit word at `a` through the page port: of an uncorrectable word the data are free, and INT_RAW bit 5
is set (R169). -/
def cleReadPage (s : State) (a : Nat) : Word × State :=
  let r := cleScan s [a]
  if r.1 then let f := fresh (raise r.2 0x70 5); (Config.freeWord f.1, f.2)
  else (BitVec.ofNat 32 (cleRd r.2 a 4), r.2)

/-! ### Entries (R170) -/

/-- VALUE, QUAL, WMASK and TIME of a signal. -/
def sigValue (s : State) (g : Nat) : Nat := cleRd s (16 * g) 2
def sigAttr (s : State) (g : Nat) : Nat := cleRd s (16 * g + 2) 2
def sigQual (s : State) (g : Nat) : Nat := sigAttr s g % 4
def sigMask (s : State) (g : Nat) : Nat := sigAttr s g / 16 % 16
def sigTime (s : State) (g : Nat) : Nat := cleRd s (16 * g + 8) 8

/-- The quality order of R188: GOOD, then STALE, then LOST. -/
def worstQual (a b : Nat) : Nat := max a b

/-- Store VALUE, QUAL and TIME of an entry; WMASK stays. -/
def sigStoreAt (s : State) (g value qual time : Nat) : State :=
  let s := cleSet s (16 * g) 2 value
  let s := cleSet s (16 * g + 2) 2 (sigAttr s g / 4 * 4 + qual % 4)
  cleSet s (16 * g + 8) 8 time

/-- The same with TIME the present MONO (R13). -/
def sigStore (s : State) (g value qual : Nat) : State := sigStoreAt s g value qual (monoNs s)

/-- The CLK_CLE cycle (R15: the VCO divided by 12). -/
def cleCycle (s : State) : Nat := s.now / 12

/-- The writes already applied in the present CLK_CLE cycle. -/
def sigWritesNow (s : State) : List SigWrite := if s.cle.cycle = cleCycle s then s.cle.writes else []

/-- Apply a permitted write and remember what it replaced. -/
def sigApply (s : State) (cls g value qual : Nat) : State :=
  let w : SigWrite := { signal := g, cls := cls, value := sigValue s g, attr := sigAttr s g, time := sigTime s g }
  let ws := sigWritesNow s
  let s := sigStore s g value qual
  { s with cle := { s.cle with cycle := cleCycle s, writes := ws ++ [w] } }

/-- A class's port has issued a write in the present CLK_CLE cycle. -/
def portUsed (s : State) (cls : Nat) : Bool := s.cle.cycle == cleCycle s && s.cle.issued.testBit cls

/-- The port of a class issues a write in the present CLK_CLE cycle. -/
def portUse (s : State) (cls : Nat) : State :=
  { s with cle := { s.cle with
      cycle := cleCycle s, writes := sigWritesNow s,
      issued := (if s.cle.cycle = cleCycle s then s.cle.issued else 0) ||| 2 ^ cls } }

/-- Count a denied write (R11) or a lost one (R36). -/
def sigDenied (s : State) : State := raise (satFld s Reg.CLE_DENIED F.CLE_DENIED_COUNT 1) 0x70 1
def sigLost (s : State) : State := raise (satFld s Reg.CLE_LOSS F.CLE_LOSS_COUNT 1) 0x70 2

/-- A write meets the table: denied by the mask; lost to an earlier-listed class that wrote in this cycle; else applied, and
an earlier write of a later-listed class in this cycle is undone first and lost (R11, R36). `value` none keeps the value
(a quality rewrite, R147). (DEDUCED, log entry 94.) -/
def sigIssue (s0 : State) (cls g : Nat) (value : Option Nat) (qual : Nat) : State :=
  let s := portUse s0 cls
  if !((sigMask s g).testBit cls) then sigDenied s
  else
    let mine := (sigWritesNow s).filter (fun w => w.signal == g)
    if mine.any (fun w => decide (w.cls < cls)) then sigLost s
    else match mine.find? (fun w => decide (cls < w.cls)) with
      | some w =>
        let s := sigLost (cleSet (cleSet (cleSet s (16 * g) 2 w.value) (16 * g + 2) 2 w.attr) (16 * g + 8) 8 w.time)
        let ws := (sigWritesNow s).filter (fun v => v.signal != g)
        sigApply { s with cle := { s.cle with writes := ws } } cls g (value.getD (sigValue s g)) qual
      | none => sigApply s cls g (value.getD (sigValue s g)) qual

/-- A write of a writer class (0 cores, 1 MDSP, 2 RXE, 3 MXE): its port issues one write per CLK_CLE cycle, in the order in
which the class produces them; the others wait, and all wait while CLK_CLE does not run (R15, R36). (DEDUCED, log entry 94.) -/
def sigWrite (s : State) (cls g : Nat) (value : Option Nat) (qual : Nat) : State :=
  if !(domainUp s 4) || portUsed s cls || s.cle.queued.any (fun q => q.cls == cls) then
    { s with cle := { s.cle with queued := s.cle.queued ++ [{ cls := cls, signal := g, value := value, qual := qual }] } }
  else sigIssue s cls g value qual

/-- The port of a class issues its oldest waiting write. (DEDUCED, log entry 94.) -/
def portDrain (s : State) (cls : Nat) : State :=
  match s.cle.queued.find? (fun q => q.cls == cls) with
  | some q => sigIssue { s with cle := { s.cle with queued := s.cle.queued.erase q } } cls q.signal q.value q.qual
  | none => s

/-- A new CLK_CLE cycle: while the domain runs, every port issues its oldest waiting write (R36). (DEDUCED, log entry 94.) -/
def cleDrain (s : State) : State :=
  if s.cle.queued.isEmpty || !(domainUp s 4) || decide (s.now % 12 ≠ 0) then s
  else (List.range 4).foldl portDrain s

/-- A write of the cores class by a distribution: one window word with QUAL GOOD (R96, R172), an access to
its page (R17, R23). -/
def sigWriteCores (s : State) (g v : Nat) : State :=
  sigWrite (badIf s (pageErr s (0x78 + g / 512) (0x40 + 4 * (g % 512)))) 0 g (some v) 0

/-- A read of a signal's value through the page port (R93, R169), an access to its page (R17, R23). -/
def sigReadCores (s : State) (g : Nat) : Nat × State :=
  let r := cleReadPage (badIf s (pageErr s (0x78 + g / 512) (0x40 + 4 * (g % 512)))) (16 * g)
  (r.1.toNat % 65536, r.2)

/-- What a loop reads of a signal: in the cycle of a write, the value before it (R14). -/
def sigLoopValue (s : State) (g : Nat) : Nat :=
  match (sigWritesNow s).find? (fun w => w.signal == g) with
  | some w => w.value
  | none => sigValue s g

def sigLoopQual (s : State) (g : Nat) : Nat :=
  match (sigWritesNow s).find? (fun w => w.signal == g) with
  | some w => w.attr % 4
  | none => sigQual s g

/-- SIGNAL_WINDOW_WRITE (R11-R13, R36, R171). -/
def execSignalWindowWrite (ini : Fin 16) (g : Fin 4096) (value : Word) (s : State) : Result :=
  let q := fieldGet F.CLE_SIG_QUAL value
  softWrite ini (0x78 + g.val / 512) (0x40 + 4 * (g.val % 512))
    ((errIf (q == 3) 12).orElse (fun _ => errIf (value &&& 0xFF0C0000#32 != 0) 37)) s
    (fun s => sigWrite s 0 g.val (some (fieldGet F.CLE_SIG_VALUE value)) q)

end Sys2Proof.Machine
end

