-- ==== Sys2Proof/Machine/Rxe.lean ====
section
/-!
DEFINITION. Remote station exchange (R137-R165, R544): sessions, launch timing, reception, scaling, flow control,
requests and the faults of RXE.
-/

namespace Sys2Proof.Machine

/-! ### Sessions -/

/-- SSTAT.STATE values. -/
def ssDisabled : Nat := 0
def ssLost : Nat := 1
def ssStale : Nat := 2
def ssGood : Nat := 3
def ssSuspended : Nat := 4

def setRxe (s : State) (f : Rxe → Rxe) : State := { s with rxe := f s.rxe }
def sess (s : State) (x : Nat) : Session := mget {} s.rxe.sessions x
def setSess (s : State) (x : Nat) (f : Session → Session) : State :=
  setRxe s (fun r => { r with sessions := mput {} r.sessions x (f (sess s x)) })
def sState (s : State) (x : Nat) : Nat := fld s (Reg.SSTAT x) F.SSTAT_STATE
def rxeDisabled (s : State) (x : Nat) : Bool := sState s x == ssDisabled

/-- Descriptor fields (R144). -/
def dsc (s : State) (x off n : Nat) : Nat := leNat (((sess s x).desc.drop off).take n)
def xCtrl (s : State) (x : Nat) : Nat := dsc s x 0 4
def xWide (s : State) (x : Nat) : Bool := (xCtrl s x).testBit 1
def xCmac (s : State) (x : Nat) : Bool := (xCtrl s x).testBit 2
def xV6 (s : State) (x : Nat) : Bool := (xCtrl s x).testBit 3
def xPort (s : State) (x : Nat) : Nat := xCtrl s x / 16 % 4
def xQueue (s : State) (x : Nat) : Nat := xCtrl s x / 256 % 8
def xTmo (s : State) (x : Nat) : Nat := xCtrl s x / 65536 % 256
def xCredit (s : State) (x : Nat) : Nat := xCtrl s x / 2 ^ 24 % 16
def xPeriod (s : State) (x : Nat) : Nat := dsc s x 4 2
def xPhase (s : State) (x : Nat) : Nat := dsc s x 6 2
def xOffset (s : State) (x : Nat) : Nat := dsc s x 8 2
def xRxWin (s : State) (x : Nat) : Nat := dsc s x 10 2
def xInLen (s : State) (x : Nat) : Nat := dsc s x 12 2
def xOutLen (s : State) (x : Nat) : Nat := dsc s x 14 2
def xIp (s : State) (x : Nat) : Nat := beNat (((sess s x).desc.drop 16).take 16)
def xMac (s : State) (x : Nat) : List Byte := ((sess s x).desc.drop 0x20).take 6
def xKeySlot (s : State) (x : Nat) : Nat := dsc s x 0x26 1
def xInBuf (s : State) (x : Nat) : Nat := dsc s x 0x28 8 % 2 ^ 40
def xOutBuf (s : State) (x : Nat) : Nat := dsc s x 0x30 8 % 2 ^ 40
def xScaleFirst (s : State) (x : Nat) : Nat := dsc s x 0x38 2
def xScaleCnt (s : State) (x : Nat) : Nat := dsc s x 0x3A 2
def xInSize (s : State) (x : Nat) : Nat := if xWide s x then 4096 else 1024
def xOutSize (s : State) (x : Nat) : Nat := if xWide s x then 2048 else 512

/-- RXE's context in the IOMMU (R466). -/
def rxeCtx (s : State) : Nat := fld s Reg.RXE_CFG F.RXE_CFG_CTX

/-- RXE works: enabled, not stopped by a fault or by a cleared EN (R164), not in its power-fail state (R165). -/
def rxeRuns (s : State) : Bool := pageEn s 0x50 && !s.rxe.stopped && !held s && domainUp s 5

/-- RXE receives: not in STANDBY, nor after a give-up (R355). -/
def rxeReceives (s : State) : Bool := rxeRuns s && mirrorActive s

/-- RXE prepares and launches: in a mirrored pair only the active unit does (R165). -/
def rxeSends (s : State) : Bool := rxeRuns s && mirrorLeads s

/-- Increment an event counter. -/
def rxeCount (s : State) (k : Nat) : State := satFld s (Reg.RXE_CNT k) ⟨0, 32⟩ 1

/-- The exchange tick, 10 ms, and the launch grid, 10 µs, in ns of PTP time. -/
def tickNs : Nat := 10000000
def gridNs : Nat := 10000

/-! ### Pool -/

def poolOwner (s : State) (i : Nat) : Nat := mget 0 s.rxe.pool i

/-- A pool buffer changes hands; RXE_POOL_FREE follows, and POOL_LOW is raised when the count falls below LWM. -/
def setPool (s : State) (i o : Nat) : State :=
  let was := poolOwner s i
  let s := setRxe s (fun r => { r with pool := mput 0 r.pool i o })
  let f := fld s Reg.RXE_POOL_FREE F.RXE_POOL_FREE_CNT
  if was = 0 ∧ o ≠ 0 then
    let s := setFld s Reg.RXE_POOL_FREE F.RXE_POOL_FREE_CNT (f - 1)
    if f = fld s Reg.RXE_POOL_WM F.RXE_POOL_WM_LWM then raise s 0x50 4 else s
  else if was ≠ 0 ∧ o = 0 then setFld s Reg.RXE_POOL_FREE F.RXE_POOL_FREE_CNT (f + 1)
  else s

def poolFree (s : State) : Nat := fld s Reg.RXE_POOL_FREE F.RXE_POOL_FREE_CNT

/-- The free buffer taken next: the lowest index (the spec names none). (DESIGN CHOICE, log entry 49.) -/
def poolNext (s : State) : Option Nat := (List.range 2048).find? (fun i => poolOwner s i == 0)

def poolVa (s : State) (i : Nat) : Nat := (rd64 s Reg.RXE_POOL_LO Reg.RXE_POOL_HI) % 2 ^ 40 + 2048 * i

/-- Return the pool buffers of an image. -/
def freeImage (s : State) (im : Option InImage) : State :=
  match im with
  | some i => i.segments.foldl (fun s g => setPool s g.2.1 0) s
  | none => s

/-! ### Completion queue (R161) and faults (R164) -/

def cqHead (s : State) : Nat := fld s Reg.RXE_CQ_HEAD F.RXE_CQ_HEAD_IDX
def cqTail (s : State) : Nat := fld s Reg.RXE_CQ_TAIL F.RXE_CQ_TAIL_IDX
def cqUsed (s : State) : Nat := (cqTail s + 4096 - cqHead s) % 4096
def cqVa (s : State) (i : Nat) : Nat := (rd64 s Reg.RXE_CQ_LO Reg.RXE_CQ_HI) % 2 ^ 40 + 32 * (i % 2048)

/-- Note a fault in RXE_FLT_CAUSE and RXE_FLT_VA, with INT_RAW bit 3. -/
def noteFault (s : State) (path : Nat) (f : AccFault) (x : Nat) : State :=
  let s := wrn s Reg.RXE_FLT_CAUSE (f.1 + 16 * path + 65536 * (x % 1024))
  raise (wr64 s Reg.RXE_FLT_VA_LO Reg.RXE_FLT_VA_HI (f.2 % 2 ^ 40)) 0x50 3

/-- RXE stops (R164, last row): by a fault of its queues, or by a cleared EN. (DEDUCED, log entries 43, 92.) -/
def rxeStop (s : State) : State :=
  setFlag (setRxe s (fun r => { r with stopped := true })) (Reg.PSTAT 0x50) F.PSTAT_ENABLED false

/-- The bytes of a completion record (R161). -/
def cqRecord (kind status session seqTag buffer length time detail : Nat) : List Byte :=
  leBytes 1 kind ++ leBytes 1 status ++ leBytes 2 session ++ leBytes 4 seqTag ++ leBytes 2 buffer ++
    leBytes 2 length ++ leBytes 4 0 ++ leBytes 8 time ++ leBytes 8 detail

/-- Add a completion record: lost where the queue is full; a fault of the queue stops RXE, and nothing is written then. -/
def cqAdd (s : State) (bs : List Byte) : State :=
  if s.rxe.stopped then s
  else if cqUsed s = 2048 then raise (rxeCount s 10) 0x50 5
  else
    let w := vwrite s 1 (rxeCtx s) 0 (cqVa s (cqTail s)) bs
    match w.1 with
    | some f => rxeStop (noteFault w.2 5 f 0)
    | none => raise (setFld w.2 Reg.RXE_CQ_TAIL F.RXE_CQ_TAIL_IDX ((cqTail s + 1) % 4096)) 0x50 0

/-- A fault with its FAULT record (R164). -/
def rxeFault (s : State) (path : Nat) (f : AccFault) (x : Option Nat) : State :=
  let s := noteFault s path f (x.getD 0)
  cqAdd s (cqRecord 5 (rdn s Reg.RXE_FLT_CAUSE % 256) (x.getD 0xFFFF) 0 0 0 (ptpNs s) f.2)

/-! ### State changes (R146, R147) -/

/-- The quality of a session in a state (R145). -/
def stateQual (st : Nat) : Nat := if st = ssGood then 0 else if st = ssStale then 1 else 2

/-- The scaling entries of a session, as physical addresses. -/
def scaleEntries (s : State) (x : Nat) : List Nat :=
  (List.range (xScaleCnt s x)).map (fun k => rdn s Reg.RXE_SCALE + 16 * (xScaleFirst s x + k))

/-- Rewrite the quality of the session's signals, in table order, up to a failing read. (DEDUCED, log entry 86.) -/
def requalify (s : State) (x q : Nat) : Option AccFault × State :=
  (scaleEntries s x).foldl (fun st e =>
    match st.1 with
    | some f => (some f, st.2)
    | none =>
      let r := readScan st.2 8 e 16
      match r.1 with
      | some w => (some (3, w), r.2)
      | none => (none, sigWrite r.2 2 (rdLE r.2 e 2 % 4096) none q)) (none, s)

/-- Whole periods of a session's age (R145, R146). (DESIGN CHOICE, log entry 49.) -/
def missedPeriods (s : State) (x : Nat) : Nat :=
  (s.clock.ptp - (sess s x).ageRef) / (max 1 (xPeriod s x) * tickNs * ptpUnit)

def showMissed (s : State) (x : Nat) : State :=
  setFld s (Reg.SSTAT x) F.SSTAT_MISSED (min 255 (missedPeriods s x))

/-- The record of a state change. -/
def stateRecord (s : State) (x st : Nat) : State := cqAdd s (cqRecord 4 st x 0 0 0 (ptpNs s) 0)

/-- Prepared frames are discarded: their transmit slots and their places at grid points are free again (R148, R152).
(DEDUCED, log entry 50.) -/
def dropFrames (s : State) (p : OutFrame → Bool) : State :=
  setRxe s (fun r => { r with
    prepared := r.prepared.filter (fun f => !(p f)),
    grid := (r.prepared.filter p).foldl (fun g f => mput 0 g (f.launch / gridNs) (mget 0 g (f.launch / gridNs) - 1)) r.grid })

/-- Every frame of a session that has not been launched is discarded, those that wait for a slot too. -/
def dropSession (s : State) (x : Nat) : State :=
  setRxe (dropFrames s (fun g => g.session == x)) (fun r => { r with drafts := r.drafts.filter (fun d => d.session != x) })

/-- End the requests that match, each with a TX_DONE record, in order (R161-R163). -/
def endRequests (s : State) (p : TxRequest → Bool) (status : Nat) : State :=
  let gone := s.rxe.requests.filter p
  let s := gone.foldl (fun s q => cqAdd s (cqRecord 3 status q.session q.tag 0 0 (ptpNs s) 0)) s
  let s := dropFrames s (fun f => match f.request with | some n => gone.any (fun q => q.serial == n) | none => false)
  setRxe s (fun r => { r with requests := r.requests.filter (fun q => !(p q)) })

/-- EB_OPEN counts the session's frames that have been sent and not acknowledged (R145). -/
def showOpen (s : State) (x : Nat) : State :=
  setFld s (Reg.SSTAT x) F.SSTAT_EB_OPEN (s.rxe.requests.filter (fun q => q.session == x && q.sent)).length

/-- A session takes a state (R145-R147): the record, the end of its requests where the state ends them, then the quality
rewrite; whether a read of that rewrite failed. A queue fault stops RXE before the rewrite (R164). -/
def takeState (s : State) (x st : Nat) : Bool × State :=
  let s := setFld (setFld s (Reg.SSTAT x) F.SSTAT_STATE st) (Reg.SSTAT x) F.SSTAT_QUAL (stateQual st)
  let s := stateRecord s x st
  let s := if st == ssLost || st == ssSuspended || st == ssDisabled then
      showOpen (endRequests s (fun q => q.session == x) 2) x else s
  if s.rxe.stopped then (false, s)
  else
    let r := requalify s x (stateQual st)
    match r.1 with
    | none => (false, r.2)
    | some f => (true, rxeFault r.2 7 f (some x))

/-- A session changes state; a fault of the quality rewrite suspends it, which is a change of state of its own with a
rewrite of its own (R146, R147, R164). -/
def changeState (s : State) (x st : Nat) : State :=
  let r := takeState s x st
  if r.1 && st != ssDisabled && st != ssSuspended then (takeState (dropSession r.2 x) x ssSuspended).2 else r.2

/-- A fault suspends the session: its prepared frames are discarded (R146, R164). -/
def suspend (s : State) (path : Nat) (f : AccFault) (x : Nat) : State :=
  let s := rxeFault s path f (some x)
  changeState (dropSession s x) x ssSuspended

/-! ### Regular launch instants (R148, R149) -/

/-- The next regular launch instant whose freeze point is at or after the session's mark. -/
def nextLaunch (s : State) (x : Nat) : Nat :=
  let p := xPeriod s x * tickNs
  let b := xPhase s x * tickNs + xOffset s x * gridNs
  let t := (sess s x).freezeFrom + tickNs
  if t ≤ b then b else b + (t - b + p - 1) / p * p

/-- A regular frame is due for preparation. A suspended session prepares none. (DEDUCED, log entry 50.) -/
def freezeDue (s : State) (x : Nat) : Bool :=
  rxeSends s && sState s x != ssDisabled && sState s x != ssSuspended && xPeriod s x != 0 &&
    decide (nextLaunch s x - tickNs ≤ ptpNs s)

/-- The regular frame of session `x` is the one to be prepared now: frames are prepared in the order of their launch instants,
those of one instant by ascending session number (R148). -/
def freezeFirst (s : State) (x : Nat) : Bool :=
  freezeDue s x && s.rxe.sessions.all (fun e => !(freezeDue s e.1) ||
    (let l := nextLaunch s x
     let m := nextLaunch s e.1
     decide (l < m) || (l == m && decide (x ≤ e.1))))

/-! ### Preparing frames (R137-R140, R148, R149, R152, R156) -/

/-- The first grid point at or after `g` (10 µs number) with room for `n` frames; `fuel` bounds the search. -/
def gridRoom (s : State) (n : Nat) : Nat → Nat → Nat
  | 0, g => g
  | fuel + 1, g => if mget 0 s.rxe.grid g + n ≤ 16 then g else gridRoom s n fuel (g + 1)

/-- Transmit slots in use, and the first `n` free ones (R152). -/
def slotsUsed (s : State) : List Nat := s.rxe.prepared.map (fun f => f.slot) ++ s.rxe.busySlots
def slotsNext (s : State) (n : Nat) : List Nat :=
  if 2048 < (slotsUsed s).length + n then []
  else ((List.range 2048).filter (fun i => !((slotsUsed s).contains i))).take n

/-- Where `n` frames of one kind whose earliest instant is PTP ns `t` are launched, if they can be prepared now: there are `n`
free slots, and every frame but a regular one (2) takes its grid point only after every regular frame has made its claim
there: no freeze point is due, and the point is at most one exchange tick ahead (R148, R152). All segments of an image take
one grid point. (DEDUCED, log entry 50.) -/
def launchAt (s : State) (kind n t : Nat) : Option Nat :=
  let t := if kind = 2 then t else if kind = 5 then max t (ptpNs s + 20000) else max t (ptpNs s)
  let g := gridRoom s n 4096 ((t + gridNs - 1) / gridNs)
  if (slotsNext s n).length < n then none
  else if kind ≠ 2 ∧ (ptpNs s + tickNs < g * gridNs ∨ s.rxe.sessions.any (fun e => freezeDue s e.1)) then none
  else some g

/-- `n` frames claim grid point `g`; a regular frame that had to move is counted (R148). Points of the past are forgotten. -/
def claimGrid (s : State) (g n : Nat) : State :=
  setRxe s (fun r => { r with
    grid := mput 0 (r.grid.filter (fun e => decide (ptpNs s / gridNs ≤ e.1 + 1))) g (mget 0 r.grid g + n) })

/-- CREDIT of every frame sent: the session's CREDIT minus its unconsumed E/B buffers (R160). -/
def creditField (s : State) (x : Nat) : Nat := xCredit s x - (sess s x).ebHeld

/-- The key a preparation reads where the session is authenticated (R493); a denial prepares nothing and counts (R494). (DEDUCED, log entry 50.) -/
def prepareKey (s : State) (x : Nat) : Option (List Byte) × State :=
  if xCmac s x then
    let k := sessionKey s (xKeySlot s x)
    match k.1 with
    | some _ => k
    | none => (none, rxeCount k.2 9)
  else (some [], s)

/-- An LSX frame (R137): header with its CRC, payload, and the tag under `key`. -/
def lsxFrame (s : State) (key : List Byte) (x kind flags seq launch gen iscOff : Nat) (payload : List Byte) : List Byte :=
  let fl := flags + (if xCmac s x then 1 else 0) + 4096 * creditField s x
  let h := beBytes 2 0x4C58 ++ beBytes 1 1 ++ beBytes 1 kind ++ beBytes 2 x ++ beBytes 2 fl ++ beBytes 4 seq ++
    beBytes 8 (launch % 2 ^ 64) ++ beBytes 4 gen ++ beBytes 2 payload.length ++ beBytes 2 iscOff
  let f := h ++ beBytes 4 (crc32c h) ++ payload
  if xCmac s x then f ++ lsxTag key f else f

/-- Put a frame into a transmit slot: the slot's memory holds it, and it waits for its decision point. A fault of the write
prepares no frame and gives its place back; R164 names no path for it. (PRESUMED, log entry 60; DESIGN CHOICE, log entry 49.) -/
def slotFrame (s : State) (fr : OutFrame) : State :=
  let va := (rd64 s Reg.RXE_TXA_LO Reg.RXE_TXA_HI) % 2 ^ 40 + 1536 * fr.slot
  let w := vwrite s 1 (rxeCtx s) 0 va fr.bytes
  let t := setRxe w.2 (fun r => { r with prepared := r.prepared ++ [fr] })
  match w.1 with
  | none => t
  | some f =>
    let n := fresh (dropFrames t (fun g => g == fr))
    rxeFault n.2 (Config.freeNat n.1 % 8) f (some fr.session)

/-- Replace bytes of a payload from an offset. -/
def overlay (bs : List Byte) (off : Nat) (b : List Byte) : List Byte :=
  bs.take off ++ (b.take (bs.length - off)) ++ bs.drop (off + b.length)

/-- The segments of an image of `n` bytes. -/
def segCount (n : Nat) : Nat := (n + 1023) / 1024

/-- The segments of an output image (R138, R139): the one that holds the ISC block says so. -/
def imageParts (img : List Byte) (isc : Option Nat) : List (Nat × Nat × List Byte) :=
  let n := segCount img.length
  (List.range n).map (fun i =>
    let here := match isc with | some off => off / 1024 == i | none => false
    ((if here then 2 else 0) + 4 * i + 16 * (n - 1), (if here then isc.getD 0 % 1024 else 0), (img.drop (1024 * i)).take 1024))

/-- A waiting class C frame is prepared, if it can be now: grid point, slots, header, CRC and tag. -/
def slotDraft (s : State) (d : Draft) : Option State :=
  match launchAt s d.kind d.parts.length d.earliest with
  | none => none
  | some g =>
    let slots := slotsNext s d.parts.length
    let moved := d.kind == 2 && g != (d.earliest + gridNs - 1) / gridNs
    let s := claimGrid s g d.parts.length
    let s := if moved then d.parts.foldl (fun s _ => rxeCount s 8) s else s
    some ((d.parts.zip slots).foldl (fun s p => slotFrame s {
      session := d.session, kind := d.kind, slot := p.2, launch := g * gridNs,
      bytes := lsxFrame s d.key d.session d.kind p.1.1 d.seq (g * gridNs) d.gen p.1.2.1 p.1.2.2 }) s)

/-- Waiting frames are prepared, in the order of their arrival. -/
def slotDrafts (s : State) : State :=
  s.rxe.drafts.foldl (fun s d =>
    if !(rxeSends s) then s
    else match slotDraft s d with
      | some t => setRxe t (fun r => { r with drafts := r.drafts.erase d })
      | none => s) s

/-- A class C frame is to be prepared. -/
def prepareDraft (s : State) (d : Draft) : State :=
  slotDrafts (setRxe s (fun r => { r with drafts := r.drafts ++ [d] }))

/-- The newest output buffer in the present CLK_NET cycle: one that took the role in this cycle is used by later frames only (R149). -/
def newestBuf (s : State) (x : Nat) : Nat :=
  match (sess s x).renewed with
  | some (c, old) => if c = s.now / 16 then old else (sess s x).newest
  | none => (sess s x).newest

/-- Prepare a class C output frame, of every segment (R149, R156): the newest buffer, the sequence, and what the slots hold.
`kind` 2 CYC_OUT for its regular launch instant, 5 RESYNC from its earliest one. A RESYNC discards the regular frames prepared
before it. -/
def prepareOut (s0 : State) (x kind earliest : Nat) : State :=
  let k := newestBuf s0 x
  let kr := prepareKey s0 x
  if !(rxeSends s0) then s0
  else match kr.1 with
  | none => kr.2
  | some key =>
    let r := vread kr.2 1 (rxeCtx s0) 0 (xOutBuf s0 x + k * xOutSize s0 x) (xOutLen s0 x)
    match r.1 with
    | .inl f => suspend r.2 3 f x
    | .inr img =>
      let old := fun (f : OutFrame) => f.session == x && f.kind == 2
      let s := if kind = 5 then
          setRxe ((r.2.rxe.prepared.filter old).foldl (fun s _ => rxeCount s 9) (dropFrames r.2 old)) (fun q => { q with
            drafts := q.drafts.filter (fun d => !(d.session == x && d.kind == 2)) })
        else r.2
      let isc := iscBlock s x
      let img := match isc with | some b => overlay img b.1 b.2 | none => img
      prepareDraft (addReg s (Reg.STX_SEQ x) 1) {
        session := x, kind := kind, earliest := earliest, seq := rdn s (Reg.STX_SEQ x), gen := mget 0 (sess s x).gens k,
        key := key, parts := imageParts img (isc.map (fun b => b.1)) }

/-- Prepare a RESYNC (R156): the first grid point at least 20 µs ahead. -/
def prepareResync (s : State) (x : Nat) : State := prepareOut s x 5 (ptpNs s + 20000)

/-- Prepare an ACK of the highest consecutive consumed sequence (R160). -/
def prepareAck (s : State) (x : Nat) : State :=
  let kr := prepareKey s x
  if !(rxeSends s) then s
  else match kr.1 with
  | none => kr.2
  | some key => prepareDraft kr.2 {
      session := x, kind := 6, earliest := ptpNs s, seq := (sess s x).ebConsumed, key := key, parts := [(0, 0, [])] }

/-! ### Preparing EVENT and BULK frames (R148, R162, R163) -/

/-- Prepare, or prepare again, the frame of a request, which is launched at grid point `g`. -/
def sendRequest (s : State) (q : TxRequest) (g : Nat) : State :=
  let x := q.session
  let kr := prepareKey s x
  match kr.1 with
  | none => kr.2
  | some key =>
    let r := vread kr.2 1 (rxeCtx s) 0 q.buffer q.length
    match r.1 with
    | .inl f => showOpen (endRequests (rxeFault r.2 4 f (some x)) (fun p => p.serial == q.serial) 3) x
    | .inr body =>
      let first := q.seq.isNone
      let seq := q.seq.getD (sess s x).ebTxSeq
      let sync := if first then (sess s x).ebSync else q.sync
      let s := if first then setSess r.2 x (fun k => { k with ebTxSeq := (k.ebTxSeq + 1) % 2 ^ 32, ebSync := false }) else r.2
      let s := setRxe (claimGrid s g 1) (fun r => { r with requests := r.requests.map (fun p =>
        if p.serial = q.serial then { p with seq := some seq, sync := sync, again := false } else p) })
      slotFrame s {
        session := x, kind := q.kind, slot := (slotsNext s 1).headD 0, launch := g * gridNs, request := some q.serial,
        bytes := lsxFrame s key x q.kind (if sync then 256 else 0) seq (g * gridNs) 0 0 body }

/-- A request's frame is to be prepared. -/
def wantsFrame (q : TxRequest) : Bool := q.seq.isNone || q.again

/-- Where the frame of a request is launched, if it can be prepared now (R162): credit is left, no earlier request of the
session waits, and none of its frames is launched later. (DEDUCED, log entry 50.) -/
def requestAt (s : State) (q : TxRequest) : Option Nat :=
  let mine := s.rxe.requests.filter (fun p => p.session == q.session)
  let last := (s.rxe.prepared.filter (fun f => f.session == q.session && f.request.isSome)).foldl (fun t f => max t f.launch) 0
  if q.seq.isNone && decide ((sess s q.session).ebCredit ≤ (mine.filter (fun p => p.seq.isSome)).length) then none
  else if (mine.takeWhile (fun p => p.serial != q.serial)).any wantsFrame then none
  else launchAt s q.kind 1 (max q.launch last)

/-- Requests whose frames credit, order, slots and grid points let prepare now (R152, R162). (DEDUCED, log entry 50.) -/
def sendReady (s : State) : State :=
  s.rxe.requests.foldl (fun s q0 =>
    match s.rxe.requests.find? (fun p => p.serial == q0.serial) with
    | none => s
    | some q =>
      if !(rxeSends s) || !(wantsFrame q) then s
      else match requestAt s q with
        | some g => sendRequest s q g
        | none => s) s

/-- Frames that waited for a slot, a grid point or credit. -/
def rxeServe (s : State) : State := sendReady (slotDrafts s)

/-! ### Freeze and decision points (R149, R151) -/

/-- FREEZE_POINT (R140, R148-R150, R152, R164). -/
def execFreezePoint (x : Fin 1024) (s : State) : Result :=
  let l := nextLaunch s x.val
  let s1 := setSess s x.val (fun k => { k with freezeFrom := l - tickNs + 1 })
  settleDue (freezeFirst s x.val) s (rxeServe (showMissed (prepareOut s1 x.val 2 l) x.val))

/-- A forward PTP step from `old` to `new`, in units of `Clock.ptp` (R149, R151): freeze points passed together with their
decision points are skipped; of the others one is left to prepare at the step; prepared frames whose decision point lies
between are late. (DEDUCED, log entry 50.) -/
def rxeForward (s : State) (old new : Nat) : State :=
  let s := setRxe s (fun r => { r with prepared := r.prepared.map (fun f =>
    if old < (f.launch - 2000) * ptpUnit ∧ (f.launch - 2000) * ptpUnit < new then { f with late := true } else f) })
  s.rxe.sessions.foldl (fun s e =>
    let x := e.1
    if sState s x != ssDisabled && xPeriod s x != 0 then
      -- instants whose decision point lies before the new time are not prepared at all
      setSess s x (fun k => { k with freezeFrom := max k.freezeFrom ((new + ptpUnit - 1) / ptpUnit + 2000 - tickNs) })
    else s) s

/-- The order in which the frames of a grid point leave (R148): regular frames by session, then by segment; the others after
them, as they claimed it. -/
def frameRank (f : OutFrame) : Nat := if f.kind = 2 then f.session else 1024
def leavesBefore (f g : OutFrame) : Bool :=
  decide (f.launch < g.launch) || (f.launch == g.launch && decide (frameRank f < frameRank g))

/-- The decision point of a prepared frame has come, or a step has passed it. -/
def decisionDue (s : State) (f : OutFrame) : Bool := f.late || decide (f.launch - 2000 ≤ ptpNs s)

/-- The frame whose decision is made next. -/
def decisionFrame (s : State) : Option OutFrame :=
  (s.rxe.prepared.filter (decisionDue s)).foldl (fun b f => match b with
    | none => some f
    | some g => if leavesBefore f g then some f else some g) none

/-- A frame passes to its Ethernet queue with its launch instant (R151, R386); a frame of a request counts as sent (R145, R163). (DESIGN CHOICE, log entry 49.) -/
def launchFrame (s : State) (f : OutFrame) : State :=
  let x := f.session
  let t : TxFrame := { bytes := f.bytes, launch := some f.launch, slot := some f.slot }
  let s := setRxe s (fun r => { r with prepared := r.prepared.filter (fun g => !(g == f)), busySlots := r.busySlots ++ [f.slot] })
  let s := if f.kind = 5 then setFlag s (Reg.SSTAT x) F.SSTAT_OUT_HELD false else s
  let s := match f.request with
    | some n => showOpen (setRxe s (fun r => { r with
        requests := r.requests.map (fun (q : TxRequest) => if q.serial = n then
          { q with sentAt := some (monoNs s), repeats := if q.sent then q.repeats + 1 else 0, sent := true } else q) })) x
    | none => s
  ethEnter s (xPort s x) (xQueue s x) false t

/-- The decision on a frame (R151). -/
def decideFrame (s : State) (f : OutFrame) : State :=
  let x := f.session
  let gone := dropFrames s (fun g => g == f)
  if sState s x == ssSuspended || sState s x == ssDisabled then gone
  else
    let t := if sState s x == ssLost then setFlag gone (Reg.SSTAT x) F.SSTAT_OUT_HELD true else gone
    if f.late then raise (rxeCount t 9) 0x50 6
    else if sState s x == ssLost then t
    else launchFrame s f

/-- DECISION_POINT (R148, R151, R152, R156). -/
def execDecisionPoint (x : Fin 1024) (s : State) : Result :=
  match decisionFrame s with
  | none => .next s
  | some f => settleDue (rxeSends s && f.session == x.val) s (rxeServe (decideFrame s f))

/-! ### Output buffers (R149, R150) -/

/-- Store distributed bytes in the FILL buffer; CYC makes this access in RXE's context (R466). -/
def rxeOutStore (s : State) (x off : Nat) (bs : List Byte) : Option AccFault × State :=
  vwrite s 3 (rxeCtx s) 0 (xOutBuf s x + (sess s x).fill * xOutSize s x + off) bs

/-- The last consecutive entry of a session has been written (R95, R149, R150). (DESIGN CHOICE, log entry 49.) -/
def rxeOutNew (s : State) (t x : Nat) : State :=
  let k := sess s x
  let g := k.outGen + 1
  let k := { k with outGen := g, gens := mput 0 k.gens k.fill g }
  let wait := mirrorHolds s t
  let k := if !wait then
      -- a buffer that still waits for its acknowledgement is older than this one: it is never launched
      { k with
        newest := k.fill, spare := some k.newest, fill := (k.pending.orElse (fun _ => k.spare)).getD k.newest, pending := none,
        renewed := some (s.now / 16, k.newest) }
    else match k.pending with
      | none => { k with pending := some k.fill, fill := k.spare.getD k.newest, spare := none }
      | some p => { k with pending := some k.fill, fill := p }
  let s := setSess s x (fun _ => k)
  if wait then mirrorHeld s t x else s

/-- The acknowledgement of R360 releases the PENDING buffer (R150). -/
def rxeRelease (s : State) (x : Nat) : State :=
  setSess s x (fun k => match k.pending with
    | some p => { k with newest := p, spare := some k.newest, pending := none, renewed := some (s.now / 16, k.newest) }
    | none => k)

/-- What a snapshot latches of a session at the release instant (R90, R93). -/
def rxeLatch (s : State) (x : Nat) : Latch :=
  {
    session := x, quality := fld s (Reg.SSTAT x) F.SSTAT_QUAL,
    buffer := (sess s x).published.map (fun k => (xInBuf s x + k * xInSize s x, rdn s (Reg.SGEN x))) }

/-- An input buffer is pinned by a snapshot that has not read it (R93). -/
def pinned (s : State) (x k : Nat) : Bool :=
  s.cyc.tasks.any (fun e => e.2.latched.any (fun l => l.session == x &&
    (match l.buffer with | some b => b.1 == xInBuf s x + k * xInSize s x | none => false)))

/-- The lowest-numbered input buffer that is neither published nor pinned (R155). -/
def inFree (s : State) (x : Nat) : Option Nat :=
  (List.range 3).find? (fun k => (sess s x).published != some k && !(pinned s x k))

/-! ### Reception (R153, R154, R158, R544) -/

/-- Header fields of a received frame. -/
def hdr (bs : List Byte) (off n : Nat) : Nat := beNat ((bs.drop off).take n)
def rxType (d : RxDatagram) : Nat := hdr d.bytes 3 1
def rxSession (d : RxDatagram) : Nat := hdr d.bytes 4 2
def rxFlags (d : RxDatagram) : Nat := hdr d.bytes 6 2
def rxSeq (d : RxDatagram) : Nat := hdr d.bytes 8 4
def rxLaunch (d : RxDatagram) : Nat := hdr d.bytes 12 8
def rxGen (d : RxDatagram) : Nat := hdr d.bytes 20 4
def rxLen (d : RxDatagram) : Nat := hdr d.bytes 24 2
def rxTagged (d : RxDatagram) : Bool := (rxFlags d).testBit 0

/-- Check 1 of R153. -/
def rxForm (d : RxDatagram) : Bool :=
  decide (32 ≤ d.bytes.length) && hdr d.bytes 0 2 == 0x4C58 && hdr d.bytes 2 1 == 1 &&
    [1, 3, 4, 6].contains (rxType d) && hdr d.bytes 28 4 == crc32c (d.bytes.take 28) && decide (rxLen d ≤ 1024) &&
    d.bytes.length == 32 + rxLen d + (if rxTagged d then 8 else 0) &&
    (if rxType d = 6 then rxLen d == 0 else if rxType d = 1 then true else rxLen d != 0)

/-- The signed distance of two launch instants modulo 2⁶⁴. -/
def fresh64 (a b : Nat) : Nat := let d := (a % 2 ^ 64 + 2 ^ 64 - b % 2 ^ 64) % 2 ^ 64; min d (2 ^ 64 - d)

/-- Checks 1 to 4 of R153: the counter of the first that fails, and the key read check 3 makes (R493, R494). -/
def rxCheck (s : State) (d : RxDatagram) : Option Nat × State :=
  let x := rxSession d
  let late := if xRxWin s x * 10000 < fresh64 d.arrival (rxLaunch d) then some 3 else none
  if !(rxForm d) then (some 0, s)
  else if decide (1024 ≤ x) || sState s x == ssDisabled || sState s x == ssSuspended || xIp s x != d.source ||
      xV6 s x != d.v6 then (some 1, s)
  else if rxTagged d != xCmac s x then (some 2, s)
  else if xCmac s x then
    let k := sessionKey s (xKeySlot s x)
    match k.1 with
    | none => (some 2, k.2)
    | some key =>
      (if d.bytes.drop (32 + rxLen d) != lsxTag key (d.bytes.take (32 + rxLen d)) then some 2 else late, k.2)
  else (late, s)

/-- (a − b) mod 2³² lies in 1 to 2³¹ − 1. -/
def seqAfter (a b : Nat) : Bool :=
  let d := (a + 2 ^ 32 - b % 2 ^ 32) % 2 ^ 32
  decide (1 ≤ d) && decide (d < 2 ^ 31)

/-- Check 5 of R153 on a CYC_IN segment (R154). -/
def segmentOk (s : State) (d : RxDatagram) : Bool :=
  let x := rxSession d
  let k := sess s x
  let seg := rxFlags d / 4 % 4
  let segn := rxFlags d / 16 % 4
  let lost := sState s x == ssLost
  let ref := match k.waiting with | some i => i.seq | none => rdn s (Reg.SRX_SEQ x)
  segn + 1 == segCount (xInLen s x) && decide (seg ≤ segn) && decide (1024 * seg + rxLen d ≤ xInLen s x) &&
    (seg == segn || rxLen d == 1024) && (lost || seqAfter (rxSeq d) ref) &&
    (match k.assembling with
      | none => true
      | some a => (lost || !(seqAfter a.seq (rxSeq d))) &&
          !(a.seq == rxSeq d && a.segments.any (fun g => g.1 == seg)))

/-- Reclaim the buffer of a record: RECLAIMED in memory, and the buffer back in the pool (R159); a fault of the write stops
RXE (R164). -/
def reclaimRecord (s : State) (r : RxRecord) : State :=
  if s.rxe.stopped then s
  else
    let w := vwrite s 1 (rxeCtx s) 0 (cqVa s r.index + 1) (leBytes 1 1)
    match w.1 with
    | some f => rxeStop (noteFault w.2 5 f 0)
    | none => setRxe (rxeCount (setPool w.2 r.buffer 0) 7) (fun q => { q with
        records := q.records.map (fun (p : RxRecord) => if p = r then { p with reclaimed := true } else p) })

/-- Reclaim one buffer for a class C frame (R159): the most recently received BULK one, else EVENT; with it every
E/B frame of its session received later. The records stand in the order of their arrival. -/
def reclaim (s : State) : Option State :=
  let live := s.rxe.records.filter (fun r => !r.reclaimed)
  let pick := match (live.filter (fun r => r.bulk)).getLast? with
    | some r => some r
    | none => live.getLast?
  match pick with
  | none => none
  | some p =>
    let gone := (live.dropWhile (fun r => !(r == p))).filter (fun r => r.session == p.session)
    some (setSess (gone.foldl reclaimRecord s) p.session (fun k => { k with
      ebRxSeq := (p.seq + 2 ^ 32 - 1) % 2 ^ 32, ebHeld := k.ebHeld - gone.length }))

/-- Store a frame in a pool buffer; a fault withdraws the buffer (R164). -/
def poolStore (s : State) (d : RxDatagram) (owner : Nat) : Option Nat × State :=
  match poolNext s with
  | none => (none, s)
  | some b =>
    let w := vwrite s 1 (rxeCtx s) 0 (poolVa s b) d.bytes
    match w.1 with
    | some f => (none, rxeFault (setPool w.2 b 4) 1 f (some (rxSession d)))
    | none => (some b, setPool w.2 b owner)

/-- The credit and SUBST a station frame carries (R138, R145, R162). -/
def stationFlags (s : State) (d : RxDatagram) : State :=
  let x := rxSession d
  let s := setSess s x (fun k => { k with ebCredit := rxFlags d / 4096 % 16 })
  setFlag s (Reg.SSTAT x) F.SSTAT_SUBST ((rxFlags d).testBit 6)

/-- The image is complete when all segments of one sequence have arrived (R544): it waits, replacing a waiting one. -/
def completeImage (s : State) (x : Nat) : State :=
  match (sess s x).assembling with
  | none => s
  | some a =>
    if a.segments.length < segCount (xInLen s x) then s
    else
      let s := match (sess s x).waiting with
        | some w => rxeCount (freeImage s (some w)) 11
        | none => s
      setSess s x (fun k => { k with assembling := none, waiting := some a })

/-- A segment of another sequence replaces the image being assembled, whose buffers return to the pool (R544). -/
def replaceImage (s : State) (d : RxDatagram) : State :=
  let x := rxSession d
  match (sess s x).assembling with
  | some a => if a.seq = rxSeq d then s else setSess (freeImage s (some a)) x (fun k => { k with assembling := none })
  | none => s

/-- An admitted CYC_IN segment joins its image (R154, R544). -/
def admitSegment (s : State) (d : RxDatagram) (b : Nat) : State :=
  let x := rxSession d
  let seg := rxFlags d / 4 % 4
  let base : InImage := (sess s x).assembling.getD { seq := rxSeq d, generation := rxGen d }
  let a := { base with
    segments := base.segments ++ [(seg, b, rxLen d)], isc := if (rxFlags d).testBit 1 then some (1024 * seg + hdr d.bytes 26 2) else base.isc,
    subst := (rxFlags d).testBit 6, resyncReq := (rxFlags d).testBit 7,
    arrival := d.arrival * ptpUnit }
  let s := setSess s x (fun k => { k with assembling := some a, ebCredit := rxFlags d / 4096 % 16 })
  completeImage s x

/-- Check 6 and admission of a class C frame (R158): its pool buffer, or none where it is dropped. -/
def admitC (s : State) (d : RxDatagram) : Option Nat × State :=
  match if poolFree s = 0 then reclaim s else some s with
  | none => (none, rxeCount s 5)
  | some s => if s.rxe.stopped then (none, s) else poolStore s d 1

/-- A CYC_IN segment that has passed check 5: the image it replaces goes, then it is admitted (R158, R544). -/
def receiveSegment (s : State) (d : RxDatagram) : State :=
  let p := admitC (replaceImage s d) d
  match p.1 with
  | none => p.2
  | some b => admitSegment p.2 d b

/-- Take the front of the inbox. -/
def popInbox (s : State) : State := setRxe s (fun r => { r with inbox := r.inbox.tail })

/-- The datagram at the front of the inbox leaves it: checks 1 to 4 of R153, the counter of a failed one, and `f` beyond them. -/
def takeDatagram (s : State) (d : RxDatagram) (f : State → RxDatagram → State) : State :=
  let c := rxCheck (popInbox s) d
  match c.1 with
  | some k => rxeCount c.2 k
  | none => f c.2 d

/-- A CYC_IN segment that has passed checks 1 to 4: check 5, then its admission (R153, R154). -/
def receiveCycIn (s : State) (d : RxDatagram) : State := if segmentOk s d then receiveSegment s d else rxeCount s 4

/-- CYC_IN_RECEIVE (R139, R153, R154, R158, R159, R544): a datagram no other check takes further is dropped here. -/
def execCycInReceive (s : State) : Result :=
  match s.rxe.inbox with
  | [] => .next s
  | d :: _ => settleDue (rxeReceives s && (!(rxForm d) || rxType d == 1)) s (takeDatagram s d receiveCycIn)

/-- Order, credit, watermark and queue of an EVENT or BULK frame (R158, R161). -/
def receiveEb (s : State) (d : RxDatagram) (bulk : Bool) : State :=
  let x := rxSession d
  let k := sess s x
  let sync := (rxFlags d).testBit 8
  let next := (k.ebRxSeq + 1) % 2 ^ 32
  if !sync && rxSeq d != next then
    if seqAfter next (rxSeq d) then prepareAck (rxeCount s 4) x else rxeCount s 4
  else if xCredit s x ≤ k.ebHeld then rxeCount s 5
  else
    let wm := if bulk then fld s Reg.RXE_POOL_WM F.RXE_POOL_WM_LWM else fld s Reg.RXE_POOL_WM F.RXE_POOL_WM_CYC_RES
    if poolFree s < wm || cqUsed s == 2048 then rxeCount s 6
    else if poolFree s = 0 then rxeCount s 5
    else
      let p := poolStore s d 2
      match p.1 with
      | none => p.2
      | some b =>
        let s := stationFlags p.2 d
        let s := setSess s x (fun k => { k with
          ebRxSeq := rxSeq d, ebHeld := k.ebHeld + 1, ebRun := if sync then k.ebRun + 1 else k.ebRun,
          ebConsumed := if sync then (rxSeq d + 2 ^ 32 - 1) % 2 ^ 32 else k.ebConsumed })
        let rec0 : RxRecord := {
          index := cqTail s, session := x, buffer := b, seq := rxSeq d, bulk := bulk, run := (sess s x).ebRun }
        let s := setRxe s (fun r => { r with records := r.records ++ [rec0] })
        cqAdd s (cqRecord (if bulk then 2 else 1) 0 x (rxSeq d) b (rxLen d) d.arrival 0)

/-- Reception of a well-formed frame of one type. -/
def receiveType (ty : Nat) (s : State) (f : State → RxDatagram → State) : Result :=
  match s.rxe.inbox with
  | [] => .next s
  | d :: _ => settleDue (rxeReceives s && rxForm d && rxType d == ty) s (takeDatagram s d f)

/-- EVENT_RECEIVE and BULK_RECEIVE (R139, R153, R158, R160, R161, R164). -/
def execEventReceive (s : State) : Result := receiveType 3 s (fun s d => receiveEb s d false)
def execBulkReceive (s : State) : Result := receiveType 4 s (fun s d => receiveEb s d true)

/-! ### Publication and scaling (R155-R157) -/

/-- q of R157: exact, rounded towards zero, saturated to Q15. -/
def scaleValue (raw zero gain : Int) : Int :=
  max (-32768) (min 32767 (Int.tdiv ((raw - zero) * gain) 65536))

/-- The raw value of a scaling entry, of the bytes of its field. -/
def scaleRaw (raw : List Byte) (ty : Nat) : Int :=
  let v := leNat raw
  if ty = 1 then signed 16 v else if ty = 3 then signed 32 v else (v : Int)

/-- The scaling writes of a publication, in table order, up to a failing read of the table or of the input buffer, which is
at virtual address `buf`. (DEDUCED, log entry 86.) -/
def scaleWrites (s : State) (x buf : Nat) : Option AccFault × State :=
  (scaleEntries s x).foldl (fun st e =>
    match st.1 with
    | some f => (some f, st.2)
    | none =>
      let r := readScan st.2 8 e 16
      match r.1 with
      | some w => (some (3, w), r.2)
      | none =>
        let ty := rdLE r.2 (e + 4) 1
        let v := vread r.2 1 (rxeCtx s) 0 (buf + rdLE r.2 (e + 2) 2) (if ty ≤ 2 then 2 else 4)
        match v.1 with
        | .inl f => (some f, v.2)
        | .inr raw =>
          let s := v.2
          let q := scaleValue (scaleRaw raw ty) (signed 32 (rdLE s (e + 8) 4)) (signed 32 (rdLE s (e + 12) 4))
          (none, sigWrite s 2 (rdLE s e 2 % 4096) (some (unsignedOf 16 q)) 0)) (none, s)

/-- The image's bytes, read from its pool buffers in segment order. -/
def imageBytes (s : State) (x : Nat) (im : InImage) : (AccFault ⊕ List Byte) × State :=
  (List.range (segCount (xInLen s x))).foldl (fun st i =>
    match st.1 with
    | .inl f => (.inl f, st.2)
    | .inr bs =>
      match im.segments.find? (fun g => g.1 == i) with
      | none => (.inr bs, st.2)
      | some g =>
        let r := vread st.2 1 (rxeCtx s) 0 (poolVa s g.2.1 + 32) g.2.2
        match r.1 with
        | .inl f => (.inl f, r.2)
        | .inr b => (.inr (bs ++ b), r.2)) (.inr [], s)

/-- The image may be published: newer than the last accepted one, or the session is LOST (R155). -/
def imageCurrent (s : State) (x : Nat) (im : InImage) : Bool :=
  sState s x == ssLost || seqAfter im.seq (rdn s (Reg.SRX_SEQ x))

/-- Publication into buffer `k` (R146, R147, R155, R156). (DEDUCED, log entry 86.) -/
def publishInput (s : State) (x k : Nat) (im : InImage) : State :=
  let drop1 := fun (s : State) => setSess (freeImage s (some im)) x (fun q => { q with waiting := none })
  let rd0 := imageBytes s x im
  match rd0.1 with
  | .inl f => suspend (drop1 rd0.2) 2 f x
  | .inr img =>
    let w := vwrite rd0.2 1 (rxeCtx s) 0 (xInBuf s x + k * xInSize s x) img
    match w.1 with
    | some f => suspend (drop1 w.2) 2 f x
    | none =>
      let s := drop1 w.2
      let was := sState s x
      let s := setSess s x (fun q => { q with published := some k, ageRef := im.arrival })
      let s := wrn (wrn s (Reg.SRX_SEQ x) im.seq) (Reg.SGEN x) im.generation
      let s := setFld (setFlag s (Reg.SSTAT x) F.SSTAT_SUBST im.subst) (Reg.SSTAT x) F.SSTAT_MISSED 0
      let s := match im.isc with | some off => iscHand s x off img | none => s
      let sc := scaleWrites s x (xInBuf s x + k * xInSize s x)
      match sc.1 with
      | some f => suspend sc.2 7 f x
      | none =>
        let s := if was = ssGood then sc.2 else changeState sc.2 x ssGood
        let s := if was = ssLost then raise s 0x50 2 else s
        if sState s x = ssGood ∧ (was = ssLost ∨ im.resyncReq = true) then prepareResync s x else s

/-- A scaling entry of the session breaks R157. (DESIGN CHOICE, log entry 49.) -/
def scaleErr (s : State) (x : Nat) : Bool :=
  (scaleEntries s x).any (fun e =>
    let ty := rdLE s (e + 4) 1
    decide (4095 < rdLE s e 2) || ty == 0 || decide (4 < ty) || rdLE s (e + 5) 3 != 0 ||
      decide (xInLen s x < rdLE s (e + 2) 2 + (if ty ≤ 2 then 2 else 4)))

/-- IMAGE_PUBLISH (R146-R148, R155-R157): the waiting image of a session takes a free buffer; while the session is
SUSPENDED it waits (R146). -/
def execImagePublish (x : Fin 1024) (s : State) : Result :=
  match (sess s x.val).waiting, inFree s x.val with
  | some im, some k =>
    if rxeReceives s && sState s x.val != ssSuspended then
      if imageCurrent s x.val im then check (errIf (scaleErr s x.val) 157) (settle s (publishInput s x.val k im))
      else .next (rxeCount (setSess (freeImage s (some im)) x.val (fun q => { q with waiting := none })) 4)
    else .next s
  | _, _ => .next s

/-! ### Age (R146) -/

/-- The session's age is greater than `n` ticks by any amount. -/
def ageExceeds (s : State) (x n : Nat) : Bool := decide ((sess s x).ageRef + n * tickNs * ptpUnit < s.clock.ptp)

/-- SESSION_STALE (R146, R147, R161). (DEDUCED, log entry 86.) -/
def execSessionStale (x : Fin 1024) (s : State) : Result :=
  settleDue (rxeReceives s && sState s x.val == ssGood && ageExceeds s x.val (xPeriod s x.val)) s
    (showMissed (changeState s x.val ssStale) x.val)

/-- SESSION_LOST (R146, R147, R161). (DEDUCED, log entry 86.) -/
def execSessionLost (x : Fin 1024) (s : State) : Result :=
  settleDue (rxeReceives s && sState s x.val == ssStale && ageExceeds s x.val (xTmo s x.val * xPeriod s x.val)) s
    (showMissed (raise (changeState s x.val ssLost) 0x50 1) x.val)

/-! ### Session commands (R144, R146) -/

/-- A write of RXE_SCMD; while RXE does not run it has no effect. (DESIGN CHOICE, log entry 49.) -/
def sessCommand (ini : Fin 16) (extra : Option Nat) (s : State) (f : State → State) : Result :=
  settleWrite ini 0x50 0x8C extra s (fun s => if rxeRuns s then f s else s)

/-- The descriptor of session `x` in the session table. -/
def stabAt (s : State) (x : Nat) : Nat := rdn s Reg.RXE_STAB + 64 * x

/-- ENABLE reads the descriptor and opens the session (R144, R146, R150, R164). (DESIGN CHOICE, log entry 49.) -/
def enableSession (s : State) (x : Nat) : State :=
  let r := readScan s 8 (stabAt s x) 64
  match r.1 with
  | some w => rxeFault r.2 6 (3, w) (some x)
  | none =>
    let d := rdBytes r.2 (stabAt s x) 64
    let s := setSess r.2 x (fun k => {
      desc := d, ageRef := s.clock.ptp, freezeFrom := ptpNs s, ebSync := true, ebHeld := k.ebHeld, ebRun := k.ebRun + 1 })
    let s := setFld (wrn s (Reg.SGEN x) 0) (Reg.SSTAT x) F.SSTAT_MISSED 0
    changeState s x ssLost

/-- A field of a session's descriptor breaks R144. -/
def sessionDescErr (s : State) (x : Nat) : Bool :=
  let a := stabAt s x
  let f := fun (off n : Nat) => rdLE s (a + off) n
  let c := f 0 4
  let wide := c.testBit 1
  c &&& 0xF000F8C1 != 0 || (wide && decide (63 < x)) || decide (c / 65536 % 256 < 2) || c / 2 ^ 24 % 16 == 0 ||
    f 4 2 == 0 || decide (1000 < f 4 2) || decide (f 4 2 ≤ f 6 2) || decide (999 < f 8 2) || f 10 2 == 0 ||
    f 12 2 == 0 || decide ((if wide then 4096 else 1024) < f 12 2) || f 14 2 == 0 || decide ((if wide then 2048 else 512) < f 14 2) ||
    (!(c.testBit 3) && f 16 12 != 0) || decide (127 < f 0x26 1) || f 0x27 1 != 0 || f 0x28 8 % 64 != 0 || f 0x30 8 % 64 != 0 ||
    f 0x3C 4 != 0 || (f 0x3A 2 != 0 && decide (rdn s Reg.RXE_SCALE_CNT < f 0x38 2 + f 0x3A 2))

/-- RXE's four areas, and the buffers a descriptor's fields name, as virtual ranges (R143, R144). -/
def rxeAreas (s : State) : List (Nat × Nat) :=
  [(rd64 s Reg.RXE_POOL_LO Reg.RXE_POOL_HI, 2048 * 2048), (rd64 s Reg.RXE_TXA_LO Reg.RXE_TXA_HI, 2048 * 1536),
    (rd64 s Reg.RXE_CQ_LO Reg.RXE_CQ_HI, 2048 * 32), (rd64 s Reg.RXE_TXQ_LO Reg.RXE_TXQ_HI, 256 * 32)]

/-- Two of RXE's areas overlap, or a session buffer overlaps one (R143). -/
def sessionAreaErr (s : State) (x : Nat) : Bool :=
  let a := stabAt s x
  let wide := (rdLE s a 4).testBit 1
  let bufs := [(rdLE s (a + 0x28) 8, 3 * (if wide then 4096 else 1024)), (rdLE s (a + 0x30) 8, 3 * (if wide then 2048 else 512))]
  anyMeet (rxeAreas s) || bufs.any (fun b => (rxeAreas s).any (rangesMeet b))

/-- Enabling this session is a host error: a field of its descriptor (R144), an address family that RXE_CFG does not enable,
areas that overlap (R143), or port E1 in a redundancy mode (R415). A descriptor that cannot be read is not looked at. (DESIGN CHOICE, log entry 49.) -/
def sessionErr (s : State) (x : Nat) : Option Nat :=
  let c := rdLE s (stabAt s x) 4
  if (readScan s 8 (stabAt s x) 64).1.isSome then none
  else (errIf (sessionDescErr s x || !(flag s Reg.RXE_CFG (if c.testBit 3 then F.RXE_CFG_V6 else F.RXE_CFG_V4))) 144).orElse (fun _ =>
    (errIf (blockErr s x (rdLE s (stabAt s x + 12) 2)) 329).orElse fun _ => (errIf (sessionAreaErr s x) 143).orElse (fun _ => errIf (redMode s != 0 && c / 16 % 4 == 1) 415))

/-- ENABLE (R144, R146, R147, R150, R164, R415). -/
def execSessionEnable (ini : Fin 16) (x : Fin 1024) (s : State) : Result :=
  sessCommand ini (if rxeRuns s = true ∧ sState s x.val = ssDisabled then sessionErr s x.val else none) s
    (fun s => if sState s x.val == ssDisabled then enableSession s x.val else s)

/-- DISABLE ends prepared frames and open requests (R144, R146). The buffers of an image in assembly, or waiting, return to
the pool: the image ends with the session. (DESIGN CHOICE, log entry 49.) -/
def disableSession (s : State) (x : Nat) : State :=
  let s := dropSession (showMissed s x) x
  let s := freeImage (freeImage s (sess s x).assembling) (sess s x).waiting
  let s := setSess s x (fun k => { k with assembling := none, waiting := none, published := none })
  changeState s x ssDisabled

/-- DISABLE (R93, R144, R146, R147). -/
def execSessionDisable (ini : Fin 16) (x : Fin 1024) (s : State) : Result :=
  sessCommand ini none s (fun s => if sState s x.val == ssDisabled then s else disableSession s x.val)

/-- SESSION_RESUME (R146). -/
def execSessionResume (ini : Fin 16) (x : Fin 1024) (s : State) : Result :=
  sessCommand ini none s (fun s =>
    if sState s x.val == ssSuspended then
      changeState (setSess s x.val (fun k => { k with freezeFrom := max k.freezeFrom (ptpNs s) })) x.val ssLost
    else s)

/-- RESYNC (R146, R156). -/
def execResync (ini : Fin 16) (x : Fin 1024) (s : State) : Result :=
  sessCommand ini none s (fun s =>
    let st := sState s x.val
    if st == ssGood || st == ssStale || st == ssLost then prepareResync s x.val else s)

/-! ### Consumption (R158-R160) -/

/-- The consumption of one record (R160): firmware holds its buffer. The acknowledged sequence follows the records of the
session's present E/B sequence only. (DEDUCED, log entry 50.) -/
def consume (s : State) (r : RxRecord) : State :=
  if r.reclaimed then s
  else
    let s := setPool s r.buffer 3
    setSess s r.session (fun k => { k with
      ebHeld := k.ebHeld - 1, ebConsumed := if r.run = k.ebRun then r.seq else k.ebConsumed })

/-- A new consumer index: records between the old and the new one are consumed, and each session concerned is
acknowledged once. -/
def cqConsume (s : State) (v : Word) : State :=
  let n := (fieldGet F.RXE_CQ_HEAD_IDX v + 4096 - cqHead s) % 4096
  let h := cqHead s
  let hit := s.rxe.records.filter (fun r => decide ((r.index + 4096 - h) % 4096 < n))
  let s := wr s Reg.RXE_CQ_HEAD v
  let s := setRxe s (fun r => { r with records := r.records.filter (fun q => !(hit.contains q)) })
  let s := hit.foldl consume s
  ((hit.filter (fun r => !r.reclaimed)).map (fun r => r.session)).eraseDups.foldl
    (fun s x => if sState s x != ssDisabled then prepareAck s x else s) s

/-- RXE_CQ_HEAD_WRITE (R148, R159, R160). -/
def execRxeCqHeadWrite (ini : Fin 16) (value : Word) (s : State) : Result :=
  settleWrite ini 0x50 0x78
    ((errIf (decide (4096 ≤ value.toNat)) 37).orElse (fun _ =>
      errIf (decide (cqUsed s < (value.toNat + 4096 - cqHead s) % 4096)) 38)) s (fun s => cqConsume s value)

/-- RXE_FREE_RET_WRITE (R160): an index firmware does not hold is a host error. -/
def execRxeFreeRetWrite (ini : Fin 16) (value : Word) (s : State) : Result :=
  let o := poolOwner s value.toNat
  softWrite ini 0x50 0x88 ((errIf (decide (2048 ≤ value.toNat)) 37).orElse (fun _ => errIf (o != 3 && o != 4) 160)) s
    (fun s => setPool s value.toNat 0)

/-! ### Requests (R148, R161-R163) -/

/-- The ring holds entries. -/
def txqHead (s : State) : Nat := fld s Reg.RXE_TXQ_HEAD F.RXE_TXQ_HEAD_IDX
def txqTail (s : State) : Nat := fld s Reg.RXE_TXQ_TAIL F.RXE_TXQ_TAIL_IDX

/-- RXE_TXQ_TAIL_WRITE (R162). -/
def execRxeTxqTailWrite (ini : Fin 16) (value : Word) (s : State) : Result :=
  softWrite ini 0x50 0x80
    ((errIf (decide (512 ≤ value.toNat)) 37).orElse (fun _ =>
      errIf (decide (256 < (value.toNat + 512 - txqHead s) % 512)) 38)) s (fun s => wr s Reg.RXE_TXQ_TAIL value)

/-- REQUEST_TAKE (R140, R148, R162, R163, R164): the next ring entry is taken into progress. -/
def takeRequest (s : State) : State :=
  if txqHead s == txqTail s || decide (64 ≤ s.rxe.requests.length) then rxeServe s
  else
    let va := (rd64 s Reg.RXE_TXQ_LO Reg.RXE_TXQ_HI) % 2 ^ 40 + 32 * (txqHead s % 256)
    let r := vread s 1 (rxeCtx s) 0 va 32
    match r.1 with
    | .inl f => rxeStop (noteFault r.2 4 f 0)
    | .inr e =>
      let s := setFld r.2 Reg.RXE_TXQ_HEAD F.RXE_TXQ_HEAD_IDX ((txqHead s + 1) % 512)
      let q : TxRequest := {
        tag := leNat (e.take 4), session := leNat ((e.drop 4).take 2) % 1024,
        kind := leNat ((e.drop 6).take 1), buffer := leNat ((e.drop 8).take 8) % 2 ^ 40,
        length := leNat ((e.drop 16).take 2), launch := leNat ((e.drop 24).take 8), serial := s.rxe.nextSerial }
      let s := setRxe s (fun r => { r with requests := r.requests ++ [q], nextSerial := r.nextSerial + 1 })
      let st := sState s q.session
      if st == ssLost || st == ssSuspended || st == ssDisabled then endRequests s (fun p => p.serial == q.serial) 2
      else rxeServe s

/-- The ring entry taken next breaks R162. (DESIGN CHOICE, log entry 49.) -/
def requestErr (s : State) : Bool :=
  if txqHead s == txqTail s || decide (64 ≤ s.rxe.requests.length) then false
  else
    match (vread s 1 (rxeCtx s) 0 ((rd64 s Reg.RXE_TXQ_LO Reg.RXE_TXQ_HI) % 2 ^ 40 + 32 * (txqHead s % 256)) 32).1 with
    | .inl _ => false
    | .inr e =>
      let f := fun (off n : Nat) => leNat ((e.drop off).take n)
      decide (1023 < f 4 2) || !(f 6 1 == 3 || f 6 1 == 4) || f 7 1 != 0 || f 16 2 == 0 || decide (1024 < f 16 2) || f 18 6 != 0

def execRequestTake (s : State) : Result :=
  if rxeSends s then check (errIf (requestErr s) 162) (settle s (takeRequest s)) else .next s

/-- An ACK is admitted as a class C frame (R158), ends the requests up to its sequence, in order (R139, R161, R163), and its
pool buffer returns. -/
def receiveAck (s0 : State) (d : RxDatagram) : State :=
  let x := rxSession d
  let p := admitC s0 d
  match p.1 with
  | none => p.2
  | some b =>
  let s := stationFlags p.2 d
  let s := endRequests s (fun q => q.session == x && (match q.seq with
    | some n => n == rxSeq d || seqAfter (rxSeq d) n
    | none => false)) 0
  rxeServe (showOpen (setPool s b 0) x)

/-- LSX_ACK_RECEIVE (R153, R161, R163). -/
def execLsxAckReceive (s : State) : Result := receiveType 6 s receiveAck

/-- The session has a frame whose time-out has passed (R163). -/
def retryDue (s : State) (x : Nat) : Bool :=
  s.rxe.requests.any (fun q => q.session == x && (match q.sentAt with
    | some t => decide (t + fld s Reg.RXE_RETRY F.RXE_RETRY_TMO * 1000000 ≤ monoNs s)
    | none => false))

/-- A frame of the request stands in a transmit slot. -/
def requestSlotted (s : State) (q : TxRequest) : Bool := s.rxe.prepared.any (fun f => f.request == some q.serial)

/-- Every unacknowledged E/B frame of the session is sent again, in sequence order; one sent MAX times over ends it and every
later one. -/
def retry (s : State) (x : Nat) : State :=
  let mx := fld s Reg.RXE_RETRY F.RXE_RETRY_MAX
  let mine := s.rxe.requests.filter (fun q => q.session == x)
  match mine.find? (fun q => q.sent && decide (mx ≤ q.repeats) && !(requestSlotted s q)) with
  | some f =>
    let gone := mine.dropWhile (fun q => q.serial != f.serial)
    let s := endRequests s (fun q => gone.any (fun g => g.serial == q.serial)) 1
    showOpen (setSess s x (fun k => { k with ebSync := true })) x
  | none =>
    rxeServe (setRxe s (fun r => { r with requests := r.requests.map (fun q =>
      if q.session = x ∧ q.seq.isSome ∧ requestSlotted s q = false then { q with again := true, sentAt := none } else q) }))

/-- RETRANSMISSION_TIMEOUT (R140, R161, R163). -/
def execRetransmissionTimeout (x : Fin 1024) (s : State) : Result :=
  settleDue (rxeSends s && retryDue s x.val) s (retry s x.val)

/-- RXE is reset or stopped: every session is DISABLED, queues and pool start again (R164). -/
def rxeReset (s : State) : State :=
  let s := setRxe s (fun _ => {})
  { s with regs := s.regs.filter (fun e => !(decide (0x51000 ≤ e.1) && decide (e.1 < 0x59000) && decide (0x40 ≤ e.1 % 0x1000))) }

end Sys2Proof.Machine
end

