-- ==== Sys2Proof/Machine/Cyc.lean ====
section
/-!
DEFINITION. The cyclic program machine (R76-R118): tasks and their release grid, the transfer engine, snapshot,
commit and distribution, forcing, and the retentive commits.
-/

namespace Sys2Proof.Machine

/-! ### Machine and task state -/

/-- CYC_STAT.MACHINE values. -/
def machUnset : Nat := 0
def machStopped : Nat := 1
def machRunning : Nat := 2
def machStopping : Nat := 3

/-- TSTAT.STATE values. -/
def tOff : Nat := 0
def tWait : Nat := 1
def tActive : Nat := 2
def tHeld : Nat := 3
def tFault : Nat := 4

/-- CYC_STAT.MACHINE. -/
def machine (s : State) : Nat := fld s Reg.CYC_STAT F.CYC_STAT_MACHINE
def setMachine (s : State) (m : Nat) : State := setFld s Reg.CYC_STAT F.CYC_STAT_MACHINE m

/-- CYC_MODESET.SET. -/
def modeSet (s : State) : Nat := fld s Reg.CYC_MODESET F.CYC_MODESET_SET

/-- The task's hidden state. -/
def task (s : State) (t : Nat) : Task := mget {} s.cyc.tasks t

/-- Change a task's hidden state. -/
def setTask (s : State) (t : Nat) (f : Task → Task) : State :=
  { s with cyc := { s.cyc with tasks := mput {} s.cyc.tasks t (f (task s t)) } }

/-- TSTAT.STATE of a task. -/
def taskState (s : State) (t : Nat) : Nat := fld s (Reg.TSTAT t) F.TSTAT_STATE

/-- Set a task's state, with its bits in CYC_HELD and CYC_FAULTED and the interrupts of entering HELD and FAULT (R78). -/
def setTaskState (s : State) (t st : Nat) : State :=
  let was := taskState s t
  let s := setFld s (Reg.TSTAT t) F.TSTAT_STATE st
  let s := wr s Reg.CYC_HELD (putBit (rd s Reg.CYC_HELD) t (st == tHeld))
  let s := wr s Reg.CYC_FAULTED (putBit (rd s Reg.CYC_FAULTED) t (st == tFault))
  if st == was then s
  else if st == tHeld then raise s 0x40 2
  else if st == tFault then raise s 0x40 1
  else s

/-- TCFG fields of a task. -/
def taskEn (s : State) (t : Nat) : Bool := flag s (Reg.TCFG t) F.TCFG_EN
def taskCore (s : State) (t : Nat) : Nat := fld s (Reg.TCFG t) F.TCFG_CORE
def taskPrio (s : State) (t : Nat) : Nat := fld s (Reg.TCFG t) F.TCFG_PRIO
def taskPtp (s : State) (t : Nat) : Bool := flag s (Reg.TCFG t) F.TCFG_TB
def taskStopOut (s : State) (t : Nat) : Bool := flag s (Reg.TCFG t) F.TCFG_STOP_OUT

/-- The sixteen tasks. -/
def allTasks : List Nat := List.range 16

/-- The page of a task's registers and its block in it (R76). -/
def taskPage (t : Nat) : Nat := 0x41 + t / 4

/-! ### Release grid (R82-R84) -/

/-- The grid unit of TPERIOD and TPHASE: 250 µs in ns. -/
def gridUnit : Nat := 250000

/-- The first grid point at or after `from0` (R82). -/
def gridAtOrAfter (period phase from0 : Nat) : Nat :=
  let p := period * gridUnit
  let b := phase * gridUnit
  if from0 ≤ b then b else b + (from0 - b + p - 1) / p * p

/-- The next grid point of a task in its time base, ns. -/
def nextGrid (s : State) (t : Nat) : Nat :=
  gridAtOrAfter (fld s (Reg.TPERIOD t) F.TPERIOD_PERIOD) (fld s (Reg.TPHASE t) F.TPHASE_PHASE) (task s t).gridFrom

/-- The exchange is in its gap, and the task belongs to the group (R132). -/
def inGap (s : State) (t : Nat) : Bool :=
  fld s Reg.CYC_XSTAT F.CYC_XSTAT_STATE == 2 && decide (t ∈ s.cyc.exch.group)

/-- A forward PTP step to `ptp` ns passed grid points of the task: one release is due, at the last of them (R83). -/
def gridForward (s : State) (t ptp : Nat) : State :=
  if taskPtp s t && taskEn s t && !(inGap s t) && fld s (Reg.TPERIOD t) F.TPERIOD_PERIOD != 0 then
    let p := fld s (Reg.TPERIOD t) F.TPERIOD_PERIOD * gridUnit
    let g := nextGrid s t
    if g + p ≤ ptp then setTask s t (fun k => { k with gridFrom := g + (ptp - g) / p * p }) else s
  else s

/-! ### The transfer engine (R92) -/

/-- The rank of an operation: a freeze copy first, then PRIO and number of its task. -/
def xferTask : XferOp → Option Nat
  | .freeze => none
  | .snapshot t => some t
  | .commit t => some t
  | .stopCommit t _ => some t
  | .distribution t => some t

def xferRank (s : State) (o : XferOp) : Nat :=
  match xferTask o with
  | none => 0
  | some t => 1 + taskPrio s t * 16 + t

/-- The waiting operation served first; among equals the one that arose first. -/
def xferBest (s : State) : List XferOp → Option XferOp
  | [] => none
  | o :: os =>
    match xferBest s os with
    | none => some o
    | some b => if xferRank s b < xferRank s o then some b else some o

/-- CYC_STAT.XFER_BUSY follows the engine. -/
def xferBusy (s : State) : Bool := s.cyc.current.isSome || !s.cyc.waiting.isEmpty

def syncBusy (s : State) : State := setFlag s Reg.CYC_STAT F.CYC_STAT_XFER_BUSY (xferBusy s)

/-- An operation arises. -/
def enqueue (s : State) (o : XferOp) : State :=
  syncBusy { s with cyc := { s.cyc with waiting := s.cyc.waiting ++ [o] } }

/-- MACHINE becomes STOPPED once every task is OFF or FAULT and the engine is idle (R102). -/
def checkStopped (s : State) : State :=
  if machine s == machStopping && !xferBusy s &&
      allTasks.all (fun t => taskState s t == tOff || taskState s t == tFault) then
    raise (setMachine s machStopped) 0x40 3
  else s

/-- The operation in progress ends. -/
def xferDone (s : State) : State :=
  let x := s.cyc.exch
  let spent := s.now - max s.cyc.currentSince x.instantAt
  let x := if fld s Reg.CYC_XSTAT F.CYC_XSTAT_STATE == 2 then { x with engineTime := x.engineTime + spent } else x
  syncBusy { s with cyc := { s.cyc with current := none, exch := x } }

/-! ### Maps (R88)

A map is read while the machine is STOPPED or at an exchange; what was read stands in the task's state. -/

/-- A task's input and output map. -/
def inMap (s : State) (t : Nat) : List Byte := (task s t).imap
def outMap (s : State) (t : Nat) : List Byte := (task s t).omap

/-- Bytes an input map moves: data, and 8 bytes of status where QUAL = 1. -/
def mapBytes (m : List Byte) : Nat :=
  (mapEntries m).foldl (fun n e => n + mapLen e + (if mapKind e == 1 && mapQual e then 8 else 0)) 0

/-- Read the map at a physical address; none where its read meets an uncorrectable error (R482). -/
def readMap (s : State) (a : Nat) : Option (List Byte) × State :=
  let n := 32 + 16 * min 4096 (rdLE s (a + 4) 4)
  let r := readScan s 13 a n
  match r.1 with
  | some _ => (none, r.2)
  | none => (some (rdBytes r.2 a n), r.2)

/-! ### What maps and retentive regions must be (R81, R88, R89) -/

/-- The bytes of the image one entry takes: its data, and a status before them (R90). -/
def mapArea (e : List Byte) : Nat := mapLen e + (if mapQual e then 8 else 0)

/-- An entry breaks R88; `out`: of an output map; `len`: IMG_LEN. -/
def mapEntryErr (out : Bool) (len : Nat) (e : List Byte) : Bool :=
  let k := mapKind e
  k == 0 || decide (3 < k) || decide (1 < mapRd e 1 1) || (mapQual e && (out || k != 1)) ||
    (k == 1 && decide (1023 < mapSrc e)) ||
    (k == 2 && (mapOff e != 0 || mapLen e % 2 != 0 || decide (4096 < mapSrc e + mapLen e / 2))) ||
    (!out && decide (mapImgOff e < 0x20)) || decide (len < mapImgOff e + mapArea e)

/-- The header of the map at `a` breaks R88. -/
def mapHeadErr (out : Bool) (a : Nat) (m : List Byte) : Bool :=
  a % 16 != 0 || mapRd m 0 2 != 0x494D || mapRd m 2 2 != 1 || decide (4096 < mapCount m) || mapImg m % 64 != 0 ||
    mapImgLen m % 64 != 0 || decide (mapImgLen m < 64) || decide (1048576 < mapImgLen m) ||
    (!out && mapRd m 0x10 8 != 0) || mapRd m 0x18 8 != 0

/-- An element comes back after another one. -/
def splitRun : List (Option Nat) → Bool
  | [] => false
  | k :: ks => (k.isSome && (ks.dropWhile (fun x => x == k)).contains k) || splitRun ks

/-- A map breaks R88, or R89 on its own. -/
def mapErr (out : Bool) (a : Nat) (m : List Byte) : Option Nat :=
  if mapHeadErr out a m then some 88
  else
    let es := mapEntries m
    (errIf (es.any (mapEntryErr out (mapImgLen m))) 88).orElse (fun _ =>
      errIf (if out then splitRun (es.map (fun e => if mapKind e = 1 then some (mapSrc e) else none))
        else anyMeet (es.map (fun e => (mapImgOff e, mapArea e)))) 89)

/-- The destination of an output entry, destinations of different kinds apart. -/
def destRange (e : List Byte) : Nat × Nat :=
  if mapKind e = 1 then (2 ^ 60 + 2 ^ 40 * mapSrc e + mapOff e, mapLen e)
  else if mapKind e = 2 then (2 ^ 61 + mapSrc e, mapLen e / 2)
  else (mapOff e, mapLen e)

/-- The maps of a program, by their two addresses for each task, break R88, R89 or R329. -/
def mapsErr (s : State) (ts : List (Nat × Nat)) : Option Nat :=
  let ins := ts.filterMap (fun p => (readMap s p.1).1.map (fun m => (p.1, m)))
  let outs := ts.filterMap (fun p => (readMap s p.2).1.map (fun m => (p.2, m)))
  (ins.filterMap (fun p => mapErr false p.1 p.2) ++ outs.filterMap (fun p => mapErr true p.1 p.2)).head?.orElse (fun _ =>
    (errIf (anyMeet (outs.flatMap (fun p => (mapEntries p.2).map destRange))) 89).orElse (fun _ =>
      errIf (outs.any (fun p => (mapEntries p.2).any (fun e =>
        mapKind e == 1 && blockMeets s (mapSrc e) (mapOff e) (mapLen e)))) 329))

/-- Retentive regions, offset and length, break R81 in a working buffer of this length. -/
def regionsErr (len : Nat) (rs : List (Nat × Nat)) : Option Nat :=
  errIf (anyMeet rs || rs.any (fun r => decide (0 < r.2) && decide (len < r.1 + r.2))) 81

/-- The retentive region a TRET word gives. -/
def regionOf (tret : Nat) : Nat × Nat :=
  (64 * fieldGet F.TRET_OFF64 (BitVec.ofNat 32 tret), 64 * fieldGet F.TRET_LEN64 (BitVec.ofNat 32 tret))

/-- The period or the phase of a task is outside its range (R38). -/
def gridErr (period phase : Nat) : Bool := decide (period < 4) || decide (40000 < period) || decide (period ≤ phase)

/-! ### Forcing (R110-R113) -/

/-- The condition of FORCE_IND: the force table is in use. -/
def forcing (s : State) : Bool :=
  (modeSet s == 2 || modeSet s == 3) && flag s Reg.CYC_FORCE_EN F.CYC_FORCE_EN_EN &&
    fld s Reg.CYC_FORCE_CNT F.CYC_FORCE_CNT_CNT != 0

/-- The active force entries of a task and image kind, in table order: offset, mask, value. -/
def forcesOf (s : State) (t kind : Nat) : List (Nat × Nat × Nat) :=
  if forcing s then
    let base := rdn s Reg.CYC_FORCE_BASE
    (List.range (fld s Reg.CYC_FORCE_CNT F.CYC_FORCE_CNT_CNT)).filterMap (fun k =>
      let e := base + 16 * k
      if rdLE s e 1 == t && rdLE s (e + 1) 1 == kind && (rdByte s (e + 2)).getLsbD 0 then
        some (rdLE s (e + 4) 4, rdLE s (e + 8) 4, rdLE s (e + 12) 4)
      else none)
  else []

/-- The table, where it is in use, is read entry by entry; an uncorrectable error stops the operation (R482). (DEDUCED, log entry 48.) -/
def forceScan (s : State) : Option Nat × State :=
  if forcing s then readScan s 13 (rdn s Reg.CYC_FORCE_BASE) (16 * fld s Reg.CYC_FORCE_CNT F.CYC_FORCE_CNT_CNT) else (none, s)

/-- An entry of the table breaks R110, or one for an image of this task and kind lies beyond its length. (DEDUCED, log entry 48.) -/
def forceErr (s : State) (t kind len : Nat) : Bool :=
  forcing s && ((List.range (fld s Reg.CYC_FORCE_CNT F.CYC_FORCE_CNT_CNT)).any (fun k =>
    let e := rdn s Reg.CYC_FORCE_BASE + 16 * k
    decide (15 < rdLE s e 1) || decide (1 < rdLE s (e + 1) 1) || decide (1 < rdLE s (e + 2) 2) || rdLE s (e + 4) 4 % 4 != 0 ||
      (rdLE s (e + 1) 1 == 0 && decide (rdLE s (e + 4) 4 < 0x20))) ||
    (forcesOf s t kind).any (fun f => decide (len < f.1 + 4)))

/-- word := (word AND NOT MASK) OR (VALUE AND MASK), on one byte of the forced word (R111). -/
def forceByte (off : Nat) (b : Byte) (f : Nat × Nat × Nat) : Byte :=
  if off / 4 * 4 == f.1 then
    let lane := 8 * (off % 4)
    let m := BitVec.ofNat 8 (f.2.1 >>> lane)
    let v := BitVec.ofNat 8 (f.2.2 >>> lane)
    (b &&& ~~~m) ||| (v &&& m)
  else b

/-- A byte of an image at `off` under a list of forces, applied in order. (DEDUCED, log entry 48.) -/
def forcedByte (fs : List (Nat × Nat × Nat)) (off : Nat) (b : Byte) : Byte := fs.foldl (forceByte off) b

/-- FORCE_IND follows its condition; a change to active sets FORCE_ON, and each change goes to Lantern and
Afterglow (R113). (DESIGN CHOICE, log entry 22.) -/
def syncForce (s : State) : State :=
  let was := flag s Reg.CYC_STAT F.CYC_STAT_FORCE_IND
  let on := forcing s
  if was == on then s
  else
    let s := setFlag s Reg.CYC_STAT F.CYC_STAT_FORCE_IND on
    let s := if on then raise s 0x40 6 else s
    forceChanged s on

/-! ### Cores (R85, R86) -/

def runningOn (s : State) (c : Nat) : Option Nat := mget none s.cyc.running c
def setRunning (s : State) (c : Nat) (t : Option Nat) : State :=
  { s with cyc := { s.cyc with running := mput none s.cyc.running c t } }

/-- The order in which ACTIVE tasks of one core run: PRIO, then release cycle, then number. -/
def runsBefore (s : State) (a b : Nat) : Bool :=
  let ka := (taskPrio s a, (task s a).releasedAt / 20, a)
  let kb := (taskPrio s b, (task s b).releasedAt / 20, b)
  decide (ka.1 < kb.1) || (ka.1 == kb.1 && (decide (ka.2.1 < kb.2.1) || (ka.2.1 == kb.2.1 && decide (ka.2.2 < kb.2.2))))

/-- The task of a core that should run: ACTIVE, snapshot complete, cycle not ended. -/
def bestOn (s : State) (c : Nat) : Option Nat :=
  (allTasks.filter (fun t => taskState s t == tActive && (task s t).ready && !(task s t).ended && taskCore s t == c)).foldl
    (fun best t => match best with
      | none => some t
      | some b => if runsBefore s t b then some t else some b) none

/-- The save slot of a task in the TCM of its core (R87). -/
def slotAt (s : State) (t : Nat) : Nat := 0x50000000 + 0x40000 * taskCore s t + 0x18000 + 0x800 * t

/-- The 544 bytes of a context (R86, R87): 32 integer registers, 31 of which is IB, 32 FP registers, PC, status, FBSP and the
context ID, 8 bytes each. What the program made of its registers, where it stands and its status are free. (DESIGN CHOICE, log entries 27, 96.) -/
def contextBytes (s : State) (t : Nat) : List Byte × State :=
  let f := freeBytes s 525
  let b := f.1
  (b.take 248 ++ leBytes 8 (task s t).ib ++ (b.drop 256).take 256 ++ (b.drop 512).take 5 ++ leBytes 3 0 ++ (b.drop 517).take 8 ++
    leBytes 8 (task s t).fbsp ++ leBytes 8 (fld s (Reg.TCTX t) F.TCTX_CTX), f.2)

/-- Save the running task's context in its slot (R86): it is pre-empted or held, and its DMA channels stop (R480). (DEDUCED, log entry 46.) -/
def saveContext (s : State) (t : Nat) : State :=
  let c := contextBytes s t
  dmaTaskStop (setTask (store c.2 (taskCore s t) (slotAt s t) c.1) t (fun k => { k with saved := true })) t

/-- The context of a task is read back from its slot: the bytes, free ones where a word cannot be corrected. (DESIGN CHOICE, log entry 96.) -/
def contextRead (s : State) (t : Nat) : List Byte × State :=
  let r := readScan s (taskCore s t) (slotAt s t) 544
  if r.1.isSome then freeBytes r.2 544 else (rdBytes r.2 (slotAt s t) 544, r.2)

/-- A saved context is restored (R86): registers, IB, PC and FBSP stand again as its slot holds them. (DESIGN CHOICE, log entry 96.) -/
def restoreContext (s : State) (t : Nat) : State :=
  let r := contextRead s t
  let f := fun (off n : Nat) => leNat ((r.1.drop off).take n)
  setCore (setTask r.2 t (fun k => { k with saved := false, ib := f 248 8, fbsp := f 528 8 })) (taskCore s t)
    (fun k => { k with gpr := r.1.take 512, pc := f 512 5 })

/-- A task starts a new cycle at TENTRY with FBSP 0; its other registers are unpredictable (R86). -/
def startContext (s : State) (t : Nat) : State :=
  setCore (setTask s t (fun k => { k with fbsp := 0 })) (taskCore s t)
    (fun k => { k with gpr := [], pc := rdn s (Reg.TENTRY_LO t) + 2 ^ 32 * rdn s (Reg.TENTRY_HI t) })

/-- Start or restore a task's code on its core (R86, R464). (DEDUCED, log entry 46.) -/
def enterTask (s0 : State) (t : Nat) : State :=
  let s := badIf s0 (errIf (!(flag s0 (Reg.CORE_CFG (taskCore s0 t)) F.CORE_CFG_XLATE)) 464)
  let s := if (task s t).saved then restoreContext s t else startContext s t
  let s := setFlag s (Reg.TSTAT t) F.TSTAT_PREEMPTED false
  dmaTaskGo (coreSync (setRunning s (taskCore s t) (some t)) (taskCore s t)) t

/-- Let the right task run on a core: a strictly lower PRIO pre-empts (R85), and only while no handler runs (R477). -/
def schedule (s : State) (c : Nat) : State :=
  if !(coreFree s c) then s
  else match runningOn s c, bestOn s c with
  | none, some b => enterTask s b
  | some r, some b =>
    if taskPrio s b < taskPrio s r then
      let s := setFlag (saveContext s r) (Reg.TSTAT r) F.TSTAT_PREEMPTED true
      enterTask s b
    else s
  | _, none => s

/-- A task leaves its core: the next one may run. -/
def leaveCore (s : State) (t : Nat) : State :=
  let c := taskCore s t
  if runningOn s c = some t then schedule (coreSync (setRunning s c none) c) c else s

/-! ### The retentive sets (R114-R118) -/

def retSet (k : Nat) : Nat := 0x40000000 + 0x40000 * k
def retLen (s : State) : Nat := rdn s Reg.CYC_RET_LEN
def retGenOf (s : State) (k : Nat) : Nat := rdLE s (retSet k + 8) 8
def retLenOf (s : State) (k : Nat) : Nat := rdLE s (retSet k + 0x18) 4

/-- A set is valid (R115). A set whose data cannot be read whole fails its CRC (R456). A LENGTH above
262,080 does not fit the set and makes it invalid too. (DESIGN CHOICE, log entry 101.) -/
def retValid (s : State) (k : Nat) : Bool :=
  let b := retSet k
  let n := retLenOf s k
  rdLE s b 4 == 0x4C525431 && rdLE s (b + 4) 2 == 1 && retGenOf s k != 0 && decide (n ≤ 262080) &&
    (eccIn s b (64 + n)).all (fun w => !(ueAt s w)) &&
    rdLE s (b + 0x3C) 4 == crc32c (rdBytes s b 0x3C ++ rdBytes s (b + 0x40) n)

/-- The newest valid set (R115). -/
def retNewest (s : State) : Option Nat :=
  match retValid s 0, retValid s 1 with
  | false, false => none
  | true, false => some 0
  | false, true => some 1
  | true, true => if retGenOf s 1 > retGenOf s 0 then some 1 else some 0

/-- CYC_RET_STAT and CYC_RET_GEN follow the sets in MRAM. -/
def retRefresh (s : State) : State :=
  let n := retNewest s
  let s := setFlag s Reg.CYC_RET_STAT F.CYC_RET_STAT_VALID_A (retValid s 0)
  let s := setFlag s Reg.CYC_RET_STAT F.CYC_RET_STAT_VALID_B (retValid s 1)
  let s := setFlag s Reg.CYC_RET_STAT F.CYC_RET_STAT_NEWEST (n == some 1)
  wr64 s Reg.CYC_RET_GEN_LO Reg.CYC_RET_GEN_HI (match n with | some k => retGenOf s k | none => 0)

def setRet (s : State) (f : Retention → Retention) : State :=
  { s with cyc := { s.cyc with ret := f s.cyc.ret } }

/-- A commit request arises (R116): it starts a commit, or sets PEND while one is in progress, in the gap (R133), or while
a failed retentive copy blocks commits (R482). BUSY is 1 from the request on. (DESIGN CHOICE, log entry 101.) -/
def retRequest (s : State) : State :=
  if flag s Reg.CYC_RET_STAT F.CYC_RET_STAT_BUSY || fld s Reg.CYC_XSTAT F.CYC_XSTAT_STATE == 2 || s.cyc.ret.blockedBy.isSome then
    setFlag s Reg.CYC_RET_STAT F.CYC_RET_STAT_PEND true
  else if held s then s
  else
    let s := setFlag s Reg.CYC_RET_STAT F.CYC_RET_STAT_BUSY true
    enqueue (setRet s (fun r => { r with phase := .freeze })) .freeze

/-- MONO at which CYC_RET_PERIOD has passed since the last commit start; with none since reset it has passed. (DESIGN CHOICE, log entry 101.) -/
def retPeriodEnd (s : State) : Nat :=
  match s.cyc.ret.lastStart with
  | none => 0
  | some m => m + fld s Reg.CYC_RET_PERIOD F.CYC_RET_PERIOD_PERIOD * 1000000

/-- The request of a committed cycle of a task with a retentive region (R116). -/
def retCycleRequest (s : State) : State :=
  if retPeriodEnd s ≤ monoNs s then retRequest s else setRet s (fun r => { r with deferred := true })

/-! ### Release (R91, R93, R98, R99) -/

/-- LAST_START as the start kind of the input image. -/
def lastStart (s : State) : Nat := fld s Reg.CYC_STAT F.CYC_STAT_LAST_START

/-- The first 32 bytes of an input image (R91). -/
def imageHeader (s : State) (t : Nat) : List Byte :=
  let k := task s t
  leBytes 8 k.t0Mono ++ leBytes 8 (k.t0Ptp / 10 ^ 9) ++ leBytes 4 (k.t0Ptp % 10 ^ 9) ++ leBytes 4 (rdn s (Reg.TCYCLES t)) ++
    leBytes 4 ((if k.firstCycle then 1 else 0) + 2 * lastStart s) ++ leBytes 4 (fld s (Reg.TSTAT t) F.TSTAT_OVR_RUN)

/-- The RXE entries of a map, latched at the release instant (R93). -/
def latchMap (s : State) (m : List Byte) : List Latch :=
  ((mapEntries m).filter (fun e => mapKind e == 1)).map (fun e => rxeLatch s (mapSrc e))

/-- A release of a WAIT task. (DEDUCED, log entry 46.) -/
def releaseTask (s : State) (t : Nat) : State :=
  let s := setTask s t (fun k => { k with
    ready := false, ended := false, saved := false, releasedAt := s.now, t0Mono := monoNs s, t0Ptp := ptpNs s,
    latched := latchMap s (inMap s t) })
  let s := wr64 s (Reg.TT0_LO t) (Reg.TT0_HI t) (monoNs s)
  let s := store s 13 (mapImg (inMap s t)) (imageHeader s t)
  let s := setTaskState s t tActive
  enqueue s (.snapshot t)

/-- An overrun (R99): counted, and a fault becomes pending at OVR_LIMIT. (DEDUCED, log entry 46.) -/
def overrun (s : State) (t : Nat) : State :=
  let s := satFld s (Reg.TOVR_CNT t) F.TOVR_CNT_COUNT 1
  let s := satFld s (Reg.TSTAT t) F.TSTAT_OVR_RUN 1
  let s := raise (raise s 0x40 0) (taskPage t) (4 + t % 4)
  let lim := fld s (Reg.TCFG t) F.TCFG_OVR_LIMIT
  if lim != 0 && fld s (Reg.TSTAT t) F.TSTAT_OVR_RUN == lim then
    setTask s t (fun k => { k with faultPending := true })
  else s

/-- The release is due: the grid point of the task has been reached in its time base (R82), and releases go on. -/
def releaseDue (s : State) (t : Nat) : Bool :=
  (machine s == machRunning || machine s == machStopping) && taskEn s t && !held s && !(inGap s t) &&
    fld s (Reg.TPERIOD t) F.TPERIOD_PERIOD != 0 && taskState s t != tOff &&
    decide (nextGrid s t ≤ baseNs s (taskPtp s t))

/-- TASK_RELEASE (R82, R90-R93, R98, R99, R363). -/
def execTaskRelease (task0 : Fin 16) (s : State) : Result :=
  let t := task0.val
  let s1 := setTask s t (fun k => { k with gridFrom := nextGrid s t + 1 })
  settleDue (releaseDue s t) s
    (if taskState s t == tWait then mirrorGap (releaseTask s1 t) t
     else if taskState s t == tActive then overrun s1 t
     else s1)

/-! ### Transfer operations -/

/-- Bytes of a force table while forcing is on (F of t_snap). -/
def forceBytes (s : State) : Nat := if forcing s then 16 * fld s Reg.CYC_FORCE_CNT F.CYC_FORCE_CNT_CNT else 0

/-- The length of a transfer operation in VCO cycles: 10 GB/s is two bytes a cycle (t_snap, t_dist, R94). -/
def xferTime (s : State) : XferOp → Nat
  | .freeze => (retLen s + 1) / 2
  | .snapshot t => 2000 + 120 * mapCount (inMap s t) + (mapBytes (inMap s t) + forceBytes s + 1) / 2
  | .commit t => (mapImgLen (outMap s t) + 64 * fld s (Reg.TRET t) F.TRET_LEN64 + 1) / 2
  | .stopCommit t _ => (mapImgLen (outMap s t) + 1) / 2
  | .distribution t => 120 * mapCount (outMap s t) + (mapBytes (outMap s t) + 1) / 2

/-- The operation in progress has run its time. -/
def xferRan (s : State) (o : XferOp) : Bool :=
  s.cyc.current == some o && decide (s.cyc.currentSince + xferTime s o ≤ s.now) && !held s

/-- A snapshot waits while a copy set of its task is in its freeze (R358). -/
def frozen (s : State) (o : XferOp) : Bool :=
  match o with
  | .snapshot t => s.mirror.freezing.any (fun x => x.task == t)
  | _ => false

/-- TRANSFER_OP_START (R92, R116, R131, R358): the engine is free and takes the best waiting operation. -/
def execTransferOpStart (s : State) : Result :=
  match s.cyc.current, xferBest s (s.cyc.waiting.filter (fun o => !(frozen s o))) with
  | none, some o =>
    let s1 := { s with cyc := { s.cyc with current := some o, currentSince := s.now, waiting := s.cyc.waiting.erase o } }
    let s2 := if o = .freeze then
        setRet s1 (fun r => { r with lastStart := some (monoNs s), startPtpSec := ptpNs s / 10 ^ 9, deferred := false })
      else s1
    whenDue (!held s) s s2
  | _, _ => .next s

/-- What a step of a transfer operation leaves: true once a fault has stopped it (R482). -/
abbrev Xfer := Bool × State

/-- The values of signals from `g` on, as the engine reads them one after another (R93). -/
def sigsRead (s : State) (g : Nat) : Nat → List Byte × State
  | 0 => ([], s)
  | n + 1 =>
    let r := sigReadCores s g
    let q := sigsRead r.2 (g + 1) n
    (leBytes 2 r.1 ++ q.1, q.2)

/-- One entry of a snapshot (R90, R93, R466): the latched sessions not yet used come with the state. -/
def snapEntry (img : Nat) (st : Xfer × List Latch) (e : List Byte) : Xfer × List Latch :=
  if st.1.1 then st
  else
    let s := st.1.2
    let dst := img + mapImgOff e
    let n := mapLen e
    if mapKind e == 1 then
      let l := st.2.headD {}
      let q := mapQual e
      let d := if q then dst + 8 else dst
      let gen := match l.buffer with | some b => b.2 | none => 0
      let s1 := if q then store s 13 dst (leBytes 4 l.quality ++ leBytes 4 gen) else s
      match l.buffer with
      | none => ((false, store s1 13 d (List.replicate n 0)), st.2.tail)
      | some b =>
        let r := vreadPart s1 3 (rxeCtx s1) 0 (b.1 + mapOff e) n
        ((r.1.1.isSome, store r.2 13 d r.1.2), st.2.tail)
    else if mapKind e == 2 then
      let r := sigsRead s (mapSrc e) (n / 2)
      ((false, store r.2 13 dst r.1), st.2)
    else
      let c := copyChecked s 13 (mapOff e) dst n
      ((c.1.isSome, c.2), st.2)

/-- Apply one force to a word of an input image (R111). -/
def forceWord (img : Nat) (s : State) (f : Nat × Nat × Nat) : State :=
  let w := rdLE s (img + f.1) 4
  store s 13 (img + f.1) (leBytes 4 ((w &&& (f.2.1 ^^^ 0xFFFFFFFF)) ||| (f.2.2 &&& f.2.1)))

/-- The forces of a snapshot, at its end; bit 3 of the image's FLAGS shows them (R91, R111, R482). (DEDUCED, log entry 48.) -/
def snapForces (s : State) (t img : Nat) : Xfer :=
  let r := forceScan s
  if r.1.isSome then (true, r.2)
  else
    let fs := forcesOf r.2 t 0
    let s := fs.foldl (forceWord img) r.2
    (false, if fs.isEmpty then s else store s 13 (img + 0x18) [rdByte s (img + 0x18) ||| 8])

/-- The whole snapshot of a task, its forces last. -/
def snapshot (s : State) (t : Nat) : Xfer :=
  let m := inMap s t
  let r := ((mapEntries m).foldl (snapEntry (mapImg m)) ((false, s), (task s t).latched)).1
  if r.1 then r else snapForces r.2 t (mapImg m)

/-- The outputs of a task that enters OFF through STOP, or FAULT: its stop image is committed if STOP_OUT = 1 (R101). -/
def stopOutputs (s : State) (t : Nat) : State :=
  if taskStopOut s t then
    enqueue s (.stopCommit t (rdBytes s (mapImg (outMap s t)) (mapImgLen (outMap s t))))
  else s

/-- A task enters FAULT through a fatal trap or a failed copy (R98, R482): its context is discarded, its channels are
cut (R480), nothing commits. -/
def faultTask (s : State) (t : Nat) : State :=
  let s := setTask s t (fun k => { k with
    ready := false, ended := false, saved := false, holdPending := false, faultPending := false, latched := [] })
  let s := setTaskState s t tFault
  let s := dmaTaskCut s t endTaskFault
  checkStopped (leaveCore (stopOutputs s t) t)

/-- The snapshot's effect on the task: its code may run (R85), and the buffers are no longer pinned; a fault of the
copy is fatal to the task (R482). -/
def snapshotDone (s : State) (t : Nat) : State :=
  let r := snapshot s t
  let s := xferDone r.2
  if r.1 then faultTask s t
  else
    let s := setTask s t (fun k => { k with ready := true, latched := [] })
    schedule s (taskCore s t)

/-- SNAPSHOT_COMPLETE (R85, R86, R90-R93, R110, R111, R482). -/
def execSnapshotComplete (s : State) : Result :=
  match s.cyc.current with
  | some (.snapshot t) =>
    if xferRan s (.snapshot t) then
      check (errIf (forceErr s t 0 (mapImgLen (inMap s t))) 110)
        (settle s (snapshotDone s t))
    else .next s
  | _ => .next s

/-- What a write of CYC_END by core `c` does for its task: from the task's own context the cycle ends and the commit copy waits
(R94); from elsewhere nothing follows. -/
def endCycle (s0 : State) (c t : Nat) : State :=
  let s := flushFor s0 c
  if held s || !(inContext s c t) then s
  else
    let s := raise s (taskPage t) (t % 4)
    let s := setTask s t (fun k => { k with ended := true })
    let s := dmaTaskCut s t endCut
    let s := leaveCore s t
    enqueue s (.commit t)

/-- CYC_END (R94, R471): the task running on the core ends its cycle. A write of its number from another context of the core, such
as a handler's, is not accepted. (DEDUCED, log entry 46.) -/
def execCycEnd (core : Fin 4) (value : Word) (s : State) : Result :=
  let t := fieldGet F.CYC_END_TASK value
  settleWrite (Fin.ofNat 16 core.val) 0x40 0x54
    ((errIf (decide (16 ≤ value.toNat)) 37).orElse (fun _ => errIf (runningOn s core.val != some t) 94)) s
    (fun s => endCycle s core.val t)

/-- The commit copy (R94): the working image to the unpublished buffer, then the retentive region to the stage
buffer; none of it is published here. The second component tells whether the retentive copy had begun (R482). (DEDUCED, log entry 48.) -/
def commitCopy (s : State) (t : Nat) : (Bool × Bool) × State :=
  let m := outMap s t
  let c := copyChecked s 13 (mapImg m) (mapBuf m (!(flag s (Reg.TSTAT t) F.TSTAT_OUTBUF))) (mapImgLen m)
  match c.1 with
  | some _ => ((true, false), c.2)
  | none =>
    let b := rdn c.2 Reg.CYC_RET_BASE
    let o := 64 * fld c.2 (Reg.TRET t) F.TRET_OFF64
    let d := copyChecked c.2 13 (b + o) (b + retLen c.2 + o) (64 * fld c.2 (Reg.TRET t) F.TRET_LEN64)
    ((d.1.isSome, true), d.2)

/-- The published buffer is switched (R94). -/
def switchBuffer (s : State) (t : Nat) : State :=
  setFlag s (Reg.TSTAT t) F.TSTAT_OUTBUF (!(flag s (Reg.TSTAT t) F.TSTAT_OUTBUF))

/-- The task's state after its cycle has committed (R98). -/
def afterCycle (s : State) (t : Nat) : State :=
  let k := task s t
  let s := setTask s t (fun k => { k with
    ready := false, ended := false, saved := false, firstCycle := false, holdPending := false, faultPending := false })
  if k.faultPending then stopOutputs (setTaskState s t tFault) t
  else
    let s := setFld s (Reg.TSTAT t) F.TSTAT_OVR_RUN 0
    if machine s == machStopping then stopOutputs (setTaskState s t tOff) t
    else if k.holdPending then setTaskState s t tHeld
    else setTaskState s t tWait

/-- TEXEC and TEXEC_MAX at the commit instant (R97). -/
def noteExec (s : State) (t : Nat) : State :=
  let ns := (s.now - (task s t).releasedAt) / vcoNs
  let s := wrn s (Reg.TEXEC t) ns
  if rdn s (Reg.TEXEC_MAX t) < ns then wrn s (Reg.TEXEC_MAX t) ns else s

/-- A commit ends a block of R482, and a request kept meanwhile is served. -/
def retUnblock (s : State) (t : Nat) : State :=
  if s.cyc.ret.blockedBy = some t then
    let s := setRet s (fun r => { r with blockedBy := none })
    if flag s Reg.CYC_RET_STAT F.CYC_RET_STAT_PEND then
      retRequest (setFlag s Reg.CYC_RET_STAT F.CYC_RET_STAT_PEND false)
    else s
  else s

/-- The commit instant of a cycle (R94, R97-R99, R116, R356). -/
def commitGood (s : State) (t : Nat) : State :=
  let s := noteExec (addReg (switchBuffer s t) (Reg.TCYCLES t) 1) t
  let s := enqueue (xferDone s) (.distribution t)
  let s := afterCycle s t
  let s := retUnblock s t
  let s := if fld s (Reg.TRET t) F.TRET_LEN64 != 0 then retCycleRequest s else s
  checkStopped (mirrorCommit s t)

/-- The commit of a cycle; a fault of the copy is fatal to the task, and a failed retentive copy blocks retentive
commits until the task commits again (R482). -/
def commitCycle (s : State) (t : Nat) : State :=
  let c := commitCopy s t
  if c.1.1 then
    let s := if c.1.2 then setRet c.2 (fun r => { r with blockedBy := some t }) else c.2
    faultTask (xferDone s) t
  else commitGood c.2 t

/-- The commit copy of a stop image (R101); a read that meets an uncorrectable error leaves the published buffer (R482). -/
def stopCommitDone (s : State) (t : Nat) (img : List Byte) : State :=
  let m := outMap s t
  let buf := mapBuf m (!(flag s (Reg.TSTAT t) F.TSTAT_OUTBUF))
  let r := readScan s 13 (mapImg m) (mapImgLen m)
  match r.1 with
  | some w => checkStopped (xferDone (store r.2 13 buf (img.take (readBefore (mapImg m) w))))
  | none => enqueue (xferDone (switchBuffer (store r.2 13 buf img) t)) (.distribution t)

/-- The commit instant, where the copy has ended (R94, R95, R97-R99, R101, R102, R116, R481). -/
def commitInstant (s : State) : State :=
  match s.cyc.current with
  | some (.commit t) => if xferRan s (.commit t) && dmaTaskQuiet s t then commitCycle s t else s
  | some (.stopCommit t img) =>
    if xferRan s (.stopCommit t img) then stopCommitDone s t img else s
  | _ => s

/-- The bytes of one output entry, with the forces of the task's output image (R111). -/
def distBytes (s : State) (t : Nat) (e : List Byte) : List Byte :=
  let buf := mapBuf (outMap s t) (flag s (Reg.TSTAT t) F.TSTAT_OUTBUF)
  let fs := forcesOf s t 1
  let o := mapImgOff e
  (List.range (mapLen e)).map (fun k => forcedByte fs (o + k) (rdByte s (buf + o + k)))

/-- One entry of a distribution; `last`: the next entry does not go on with the same session (R95, R96, R172). The running image
must not write a staged one (R121). -/
def distEntry (s0 : State) (t : Nat) (e : List Byte) (last : Bool) : Xfer :=
  let buf := mapBuf (outMap s0 t) (flag s0 (Reg.TSTAT t) F.TSTAT_OUTBUF)
  let r := readScan s0 13 (buf + mapImgOff e) (mapLen e)
  if r.1.isSome then (true, r.2)
  else
    let s := r.2
    let bs := distBytes s t e
    if mapKind e == 1 then
      let x := mapSrc e
      if rxeDisabled s x then (false, s)
      else
        let w := rxeOutStore s x (mapOff e) bs
        if w.1.isSome then (true, w.2)
        else (false, if last then rxeOutNew w.2 t x else w.2)
    else if mapKind e == 2 then
      (false, (List.range (bs.length / 2)).foldl
        (fun s k => sigWriteCores s (mapSrc e + k) (leNat ((bs.drop (2 * k)).take 2))) s)
    else (false, store (badIf s (errIf (inStaged s (mapOff e) bs.length) 121)) 13 (mapOff e) bs)

/-- The entries of a distribution in order, up to a fault. -/
def distEntries (s : State) (t : Nat) : List (List Byte) → Xfer
  | [] => (false, s)
  | e :: es =>
    let last := match es with
      | f :: _ => !(mapKind f == 1 && mapSrc f == mapSrc e)
      | [] => true
    let r := distEntry s t e last
    if r.1 then r else distEntries r.2 t es

/-- A distribution ends; a fault of it is fatal to a task that is not OFF or FAULT (R482). -/
def distDone (s : State) (t : Nat) : State :=
  let f := forceScan s
  let r := if f.1.isSome then (true, f.2) else distEntries f.2 t (mapEntries (outMap s t))
  let s := xferDone r.2
  let st := taskState s t
  checkStopped (if r.1 && st != tOff && st != tFault then faultTask s t else s)

/-- An entry names bytes beyond the output image of its session (R144, R88): the offset is one in that image. -/
def beyondOut (s : State) (t : Nat) : Bool :=
  (mapEntries (outMap s t)).any (fun e => mapKind e == 1 && !(rxeDisabled s (mapSrc e)) &&
    decide (xOutLen s (mapSrc e) < mapOff e + mapLen e))

/-- DISTRIBUTION_COMPLETE (R95, R96, R110, R111, R102, R172, R482). -/
def execDistributionComplete (s : State) : Result :=
  match s.cyc.current with
  | some (.distribution t) =>
    if xferRan s (.distribution t) then
      check ((errIf (forceErr s t 1 (mapImgLen (outMap s t))) 110).orElse (fun _ => errIf (beyondOut s t) 88)) (settle s (distDone s t))
    else .next s
  | _ => .next s

/-! ### Retentive commits (R116, R117) -/

/-- A commit that has not begun, in the sense of R71, is dropped: its freeze copy waits or runs (R117). (DESIGN CHOICE, log entry 35.) -/
def retDrop (s : State) : State :=
  if s.cyc.ret.phase == .freeze then
    let s := { s with cyc := { s.cyc with
      waiting := s.cyc.waiting.filter (fun o => o != .freeze), current := if s.cyc.current = some .freeze then none else s.cyc.current } }
    syncBusy (setFlag (setRet s (fun r => { r with phase := .idle })) Reg.CYC_RET_STAT F.CYC_RET_STAT_BUSY false)
  else s

/-- RET_PERIOD_EXPIRY (R116): a deferred request arises. -/
def execRetPeriodExpiry (s : State) : Result :=
  whenDue (s.cyc.ret.deferred && decide (retPeriodEnd s ≤ monoNs s) && !held s) s
    (retRequest (setRet s (fun r => { r with deferred := false })))

/-- A commit ends without its header (R482): its request is dropped, one kept as PEND is served. (DEDUCED, log entry 48.) -/
def retAbandon (s : State) : State :=
  let s := setFlag (setRet s (fun r => { r with phase := .idle })) Reg.CYC_RET_STAT F.CYC_RET_STAT_BUSY false
  if flag s Reg.CYC_RET_STAT F.CYC_RET_STAT_PEND then
    retRequest (setFlag s Reg.CYC_RET_STAT F.CYC_RET_STAT_PEND false)
  else s

/-- The freeze copy ends (R117 step 1): the data go to the set that is not the newest valid one. -/
def freezeDone (s : State) : State :=
  let b := rdn s Reg.CYC_RET_BASE
  let l := retLen s
  let c := copyChecked s 13 (b + l) (b + 2 * l) l
  let s := xferDone c.2
  checkStopped (if c.1.isSome then retAbandon s
    else setRet s (fun r => { r with
      phase := .data, since := s.now, target := (if retNewest s == some 0 then 1 else 0) }))

/-- FREEZE_COPY_COMPLETE (R117, R482). -/
def execFreezeCopyComplete (s : State) : Result := settleDue (xferRan s .freeze) s (freezeDone s)

/-- VCO cycles of an MRAM write of `n` bytes at 250 MB/s: 4 ns a byte. -/
def mramTime (n : Nat) : Nat := 20 * n

/-- The data of a commit are written; an uncorrectable error of the freeze buffer abandons it at that read (R117 step 2, R482). -/
def retDataDone (s : State) : State :=
  let a := rdn s Reg.CYC_RET_BASE + 2 * retLen s
  let r := readScan s 13 a (retLen s)
  match r.1 with
  | some w => retAbandon (storeMram r.2 13 (retSet s.cyc.ret.target + 0x40) (rdBytes r.2 a (readBefore a w)))
  | none => setRet (storeMram r.2 13 (retSet s.cyc.ret.target + 0x40) (rdBytes r.2 a (retLen s)))
    (fun x => { x with phase := .header, since := s.now })

/-- RET_DATA_WRITTEN (R117, R482). It completes after a power failure too (R71 step 3). -/
def execRetDataWritten (s : State) : Result :=
  settleDue (s.cyc.ret.phase == .data && decide (s.cyc.ret.since + mramTime (retLen s) ≤ s.now)) s (retDataDone s)

/-- The header of a set (R114) and its CRC. -/
def retHeader (s : State) : List Byte :=
  let gen := (match retNewest s with | some k => retGenOf s k | none => 0) + 1
  let h := leBytes 4 0x4C525431 ++ leBytes 2 1 ++ leBytes 2 0 ++ leBytes 8 gen ++
    leBytes 8 (rd64 s Reg.CYC_RET_SIG_LO Reg.CYC_RET_SIG_HI) ++ leBytes 4 (retLen s) ++ leBytes 4 0 ++
    leBytes 8 (s.cyc.ret.startPtpSec % 2 ^ 48) ++ leBytes 20 0
  h ++ leBytes 4 (crc32c (h ++ rdBytes s (retSet s.cyc.ret.target + 0x40) (retLen s)))

/-- The commit is complete (R117 step 4); a request kept as PEND is served (R116). -/
def retComplete (s : State) : State :=
  let s := retRefresh (storeMram s 13 (retSet s.cyc.ret.target) (retHeader s))
  let s := addReg (raise s 0x40 4) Reg.CYC_RET_CNT 1
  let s := setFlag (setRet s (fun r => { r with phase := .idle })) Reg.CYC_RET_STAT F.CYC_RET_STAT_BUSY false
  if flag s Reg.CYC_RET_STAT F.CYC_RET_STAT_PEND && fld s Reg.CYC_XSTAT F.CYC_XSTAT_STATE != 2 then
    retRequest (setFlag s Reg.CYC_RET_STAT F.CYC_RET_STAT_PEND false)
  else s

/-- RET_COMMIT_COMPLETE (R117 steps 3 and 4, R116). -/
def execRetCommitComplete (s : State) : Result :=
  settleDue (s.cyc.ret.phase == .header && decide (s.cyc.ret.since + mramTime 64 ≤ s.now)) s (writeEnds (retComplete s))

/-! ### Commands (R79, R80, R98, R102, R118) -/

/-- CYC_MODESET_WRITE (R79, R112, R113): the first non-zero SET is fixed until reset. -/
def execCycModesetWrite (ini : Fin 16) (value : Word) (s : State) : Result :=
  softWrite ini 0x40 0x40 (errIf (decide (4 ≤ value.toNat)) 37) s (fun s =>
    if modeSet s != 0 then s
    else
      let s := wr s Reg.CYC_MODESET value
      let s := if value.toNat != 0 then setMachine s machStopped else s
      syncForce s)

/-- FORCE_ENABLE_WRITE (R112, R113): CYC_FORCE_CNT when `isCount`, else CYC_FORCE_EN. -/
def execForceEnableWrite (ini : Fin 16) (isCount : Bool) (value : Word) (s : State) : Result :=
  if isCount then
    softWrite ini 0x45 0x74 ((lockErr s 0x45).orElse (fun _ =>
      (errIf (decide (2048 ≤ value.toNat)) 37).orElse (fun _ => errIf (decide (1024 < value.toNat)) 38))) s
      (fun s => syncForce (wr s Reg.CYC_FORCE_CNT value))
  else
    softWrite ini 0x45 0x78 (errIf (decide (2 ≤ value.toNat)) 37) s (fun s =>
      if modeSet s == 2 || modeSet s == 3 then syncForce (wr s Reg.CYC_FORCE_EN value) else s)

/-- A write of CYC_CMD whose effect reaches memory. -/
def cycCommandMem (ini : Fin 16) (extra : Option Nat) (s : State) (f : State → State) : Result :=
  settleWrite ini 0x40 0x44 ((errIf (modeSet s == 0) 79).orElse (fun _ => extra)) s f

/-- A write of CYC_CMD: the page's checks, and R79: no command while SET is 0. -/
def cycCommand (ini : Fin 16) (extra : Option Nat) (s : State) (f : State → State) : Result :=
  softWrite ini 0x40 0x44 ((errIf (modeSet s == 0) 79).orElse (fun _ => extra)) s f

/-- The time from which a task's first grid point counts, `d` ns from now in its time base (R84). -/
def gridFromNow (s : State) (t d : Nat) : Nat := baseNs s (taskPtp s t) + d

/-- Read both maps of a task into its state; true where one could not be read (R88, R482). -/
def loadMaps (s : State) (t : Nat) : Xfer :=
  let a := readMap s (rdn s (Reg.TIMAP t))
  let b := readMap a.2 (rdn s (Reg.TOMAP t))
  (a.1.isNone || b.1.isNone, setTask b.2 t (fun k => { k with imap := a.1.getD [], omap := b.1.getD [] }))

/-- A configured task that is OFF waits for its first grid point at least 1 ms ahead, or enters FAULT where a map could
not be read (R84, R98, R482). -/
def startTask (s : State) (t : Nat) : State :=
  if taskEn s t && taskState s t == tOff then
    let s := setTask s t (fun _ => { firstCycle := true, gridFrom := gridFromNow s t 1000000 })
    let r := loadMaps s t
    setTaskState r.2 t (if r.1 then tFault else tWait)
  else s

def startTasks (s : State) : State := allTasks.foldl startTask s

/-- The working buffer is copied to the stage buffer; an uncorrectable error leaves the stage buffer as it was,
and the start goes on. (DESIGN CHOICE, log entry 101.) -/
def stageAll (s : State) : State :=
  let b := rdn s Reg.CYC_RET_BASE
  (copyChecked s 13 b (b + retLen s) (retLen s)).2

/-- The machine starts (R69, R118): LAST_START, and whether a warm start fell back, which a cold start clears.
(DESIGN CHOICE, log entry 101.) -/
def startMachine (s : State) (kind : Nat) (fallback : Bool) : State :=
  let s := setFld s Reg.CYC_STAT F.CYC_STAT_LAST_START kind
  let s := setFlag s Reg.CYC_STAT F.CYC_STAT_WARM_FALLBACK fallback
  let s := if fallback then raise s 0x40 5 else s
  startTasks (setMachine s machRunning)

/-- The configuration of the tasks with EN = 1 breaks R38, R81, R88, R89 or R329. (DEDUCED, log entry 48.) -/
def programErr (s : State) : Option Nat :=
  let ts := allTasks.filter (fun t => taskEn s t)
  (errIf (ts.any (fun t => gridErr (fld s (Reg.TPERIOD t) F.TPERIOD_PERIOD) (fld s (Reg.TPHASE t) F.TPHASE_PHASE))) 38).orElse (fun _ =>
    (mapsErr s (ts.map (fun t => (rdn s (Reg.TIMAP t), rdn s (Reg.TOMAP t))))).orElse (fun _ =>
      regionsErr (retLen s) (ts.map (fun t => regionOf (rdn s (Reg.TRET t))))))

/-- START is a host error in RUNNING or STOPPING, while the machine is not enabled (R102), and with a program that breaks
its rules. (DEDUCED, log entry 48.) -/
def startErr (s : State) : Option Nat :=
  (errIf (machine s == machRunning || machine s == machStopping) 102).orElse (fun _ =>
    (errIf (!(pageEn s 0x40)) 102).orElse (fun _ => programErr s))

/-- A cold start: no set is taken (R118). -/
def coldStart (s : State) : State := startMachine (retRefresh (stageAll s)) 1 false

/-- START_COLD (R69, R84, R98, R118). -/
def execStartCold (ini : Fin 16) (s : State) : Result :=
  cycCommandMem ini (startErr s) s coldStart

/-- The newest valid set can be taken by a warm start (R70, R118). -/
def warmSet (s : State) : Option Nat :=
  match retNewest s with
  | some k =>
    if rdLE s (retSet k + 0x10) 8 = rd64 s Reg.CYC_RET_SIG_LO Reg.CYC_RET_SIG_HI ∧ retLenOf s k = retLen s then some k
    else none
  | none => none

/-- A warm start: the newest valid set is copied to the working buffer where it fits, else the start is cold (R118). -/
def warmStart (s : State) : State :=
  match warmSet s with
  | some k =>
    let s := (copyChecked s 13 (retSet k + 0x40) (rdn s Reg.CYC_RET_BASE) (retLen s)).2
    startMachine (retRefresh (stageAll s)) 2 false
  | none => startMachine (retRefresh (stageAll s)) 1 true

/-- START_WARM (R69, R70, R84, R118): the newest valid set, or a cold start. -/
def execStartWarm (ini : Fin 16) (s : State) : Result :=
  cycCommandMem ini (startErr s) s warmStart

/-- STOP acts on one task (R98). -/
def stopTask (s : State) (t : Nat) : State :=
  let st := taskState s t
  if st == tWait then stopOutputs (setTaskState s t tOff) t
  else if st == tHeld then
    stopOutputs (setTaskState (setTask s t (fun k => { k with saved := false, ready := false, holdPending := false })) t tOff) t
  else if st == tFault then setTaskState s t tOff
  else s

/-- STOP takes effect (R101, R102). (DEDUCED, log entry 46.) -/
def stopMachine (s : State) : State :=
  checkStopped (allTasks.foldl stopTask (setMachine s machStopping))

/-- HOLD (R80, R98). -/
def execTaskHold (ini : Fin 16) (t : Fin 16) (s : State) : Result :=
  cycCommand ini (errIf (modeSet s == 2) 80) s (fun s =>
    if taskState s t.val == tWait then setTaskState s t.val tHeld
    else if taskState s t.val == tActive then setTask s t.val (fun k => { k with holdPending := true })
    else s)

/-- RESUME (R80, R98): mid-cycle the context is restored, between cycles the task waits for its next grid point. -/
def execTaskResume (ini : Fin 16) (t : Fin 16) (s : State) : Result :=
  cycCommandMem ini (errIf (modeSet s == 2) 80) s (fun s =>
    if taskState s t.val == tHeld then
      if (task s t.val).saved then schedule (setTaskState s t.val tActive) (taskCore s t.val)
      else setTaskState (setTask s t.val (fun k => { k with gridFrom := max k.gridFrom (gridFromNow s t.val 0) })) t.val tWait
    else s)

/-- FAULT_CLEAR (R98): next release at the next grid point. -/
def execFaultClear (ini : Fin 16) (t : Fin 16) (s : State) : Result :=
  cycCommand ini none s (fun s =>
    if taskState s t.val == tFault && machine s == machRunning then
      setTaskState (setTask s t.val (fun k => { k with gridFrom := max k.gridFrom (gridFromNow s t.val 0) })) t.val tWait
    else s)

/-- RET_COMMIT (R116, R134). -/
def execRetCommit (ini : Fin 16) (s : State) : Result := cycCommand ini none s retRequest

/-- A breakpoint holds a task mid-cycle (R98, R100). -/
def breakTask (s : State) (t : Nat) : State :=
  let s := saveContext s t
  leaveCore (setTaskState s t tHeld) t

end Sys2Proof.Machine
end

