-- ==== Sys2Proof/Machine/Cores.lean ====
section
/-!
DEFINITION. The cores as the block sees them (R104-R107, R464, R468-R477): fences, function-block calls, traps and
interrupts. Instruction streams are not modelled; each of these is one command.
-/

namespace Sys2Proof.Machine

/-! ### INTD sources (R30-R32) -/

/-- Source numbers of a page's INT_PEND bits: page, first bit, number of bits, first source, step of the source per
bit (0: all bits drive one source), as the home chapters assign them. -/
def intdTable : List (Nat × Nat × Nat × Nat × Nat) :=
  [(0x002, 0, 1, 2, 1)] ++
  (List.range 7).map (fun i => (0x010 + i, 0, 2, 32 + 2 * i, 1)) ++
  [(0x017, 0, 1, 46, 1)] ++
  (List.range 3).map (fun i => (0x020 + i, 0, 5, 64 + 8 * i, 1)) ++
  [(0x023, 0, 2, 88, 1), (0x024, 0, 2, 90, 1), (0x030, 0, 2, 96, 1), (0x035, 0, 1, 98, 1), (0x040, 0, 7, 128, 1)] ++
  (List.range 4).map (fun j => (0x041 + j, 0, 8, 136 + j, 0)) ++
  [(0x050, 0, 7, 160, 1), (0x060, 0, 5, 192, 1), (0x070, 0, 6, 224, 1), (0x080, 0, 10, 256, 1), (0x090, 0, 7, 288, 1),
   (0x0A0, 0, 9, 320, 1), (0x0B0, 0, 7, 352, 1), (0x0C0, 0, 5, 384, 1)] ++
  (List.range 4).map (fun k => (0x0C1 + k, 0, 3, 392 + 4 * k, 1)) ++
  [(0x0C5, 0, 6, 408, 1)] ++
  (List.range 4).map (fun k => (0x0D0 + 3 * k, 0, 6, 416 + 8 * k, 1)) ++
  (List.range 8).flatMap (fun c => [(0x0E1 + c, 0, 3, 448 + 4 * c, 0), (0x0E1 + c, 3, 2, 449 + 4 * c, 0),
    (0x0E1 + c, 5, 3, 450 + 4 * c, 0), (0x0E1 + c, 8, 2, 451 + 4 * c, 0)]) ++
  [(0x0F0, 0, 4, 480, 1), (0x100, 0, 4, 484, 1), (0x110, 0, 3, 488, 1)]

/-- INT_PEND of a page (R24). -/
def intPend (s : State) (pg : Nat) : Word := rd s (Reg.INT_RAW pg) &&& rd s (Reg.INT_EN pg)

/-- The asserted sources (R30). -/
def asserted (s : State) : List Nat :=
  intdTable.flatMap (fun r => (List.range r.2.2.1).filterMap (fun k =>
    if bitAt (intPend s r.1) (r.2.1 + k) then some (r.2.2.2.1 + k * r.2.2.2.2) else none))

/-- The source delivered first to a target (R31, R32): the lowest PRIO value, then the lowest number. -/
def deliver (s : State) (target : Nat) : Option Nat :=
  let mine := (asserted s).filter (fun n => flag s (Reg.INTD_ROUTE n) F.INTD_ROUTE_EN &&
    fld s (Reg.INTD_ROUTE n) F.INTD_ROUTE_TARGET == target)
  mine.foldl (fun b n => match b with
    | none => some n
    | some m =>
      let kn := fld s (Reg.INTD_ROUTE n) F.INTD_ROUTE_PRIO * 512 + n
      let km := fld s (Reg.INTD_ROUTE m) F.INTD_ROUTE_PRIO * 512 + m
      if kn < km then some n else some m) none

def srcPrio (s : State) (n : Nat) : Nat := fld s (Reg.INTD_ROUTE n) F.INTD_ROUTE_PRIO
def iprio (s : State) (c : Nat) : Nat := fld s (Reg.CORE_STAT c) F.CORE_STAT_IPRIO

/-- The core is in task mode. -/
def inTask (s : State) (c : Nat) : Option Nat :=
  if flag s (Reg.CORE_STAT c) F.CORE_STAT_TMODE then runningOn s c else none

/-! ### Fences (R468, R469) -/

/-- FENCE (R443, R444, R469): the merge-buffer entries that hold the core's stores are flushed. -/
def execFence (core : Fin 7) (l1 : List L1Event) (s : State) : Result :=
  settle s (flushFor (l1Events s core.val l1) core.val)

/-- IFENCE (R468): the instruction cache of the core is invalid. (DESIGN CHOICE, log entry 31.) -/
def execIfence (core : Fin 7) (s : State) : Result :=
  .next (l1Empty (setCore s core.val (fun k => { k with icacheFrom := s.now })) core.val)

/-! ### Traps (R472-R474) -/

/-- Record a trap (R473, R474, R484). (DEDUCED, log entry 29.) -/
def recordTrap (s : State) (c code pc va : Nat) : State :=
  let t := flag s (Reg.CORE_STAT c) F.CORE_STAT_TMODE
  let s := wrn s (Reg.CORE_TRAP c) (code % 256 + (if t then 256 + 2 ^ 16 * fld s (Reg.CORE_STAT c) F.CORE_STAT_TASK else 0) +
    2 ^ 24 * fld s (Reg.CORE_STAT c) F.CORE_STAT_CTX + 2 ^ 31)
  let s := wr64 s (Reg.CORE_TRAP_PC_LO c) (Reg.CORE_TRAP_PC_HI c) (pc % 2 ^ 40)
  let s := if 4 ≤ code ∧ code ≤ 7 then wr64 s (Reg.CORE_TRAP_VA_LO c) (Reg.CORE_TRAP_VA_HI c) (va % 2 ^ 40) else s
  raise s (0x10 + c) 0

/-- The core halts (R473, R474, R484): the bound channels of its task stop (R481). -/
def haltCore (s : State) (c : Nat) : State :=
  let s := raise (setFlag s (Reg.CORE_STAT c) F.CORE_STAT_HALTED true) (0x10 + c) 1
  match runningOn s c with
  | some t => dmaTaskStop s t
  | none => s

/-- A trap in supervisor mode (R473): recorded and entered, or the core halts. (DEDUCED, log entry 29.) -/
def supervisorTrap (s : State) (c code pc va : Nat) : State :=
  if flag s (Reg.CORE_TRAP c) F.CORE_TRAP_VALID then haltCore s c
  else
    let s := recordTrap s c code pc va
    setCore s c (fun k => { k with pc := rdn s (Reg.CORE_TVEC c), trapped := true })

/-- The physical word of a core's faulting address. -/
def coreWord (s : State) (c va : Nat) : Option Nat × State :=
  let ctx := fld s (Reg.CORE_STAT c) F.CORE_STAT_CTX
  let translated := flag s (Reg.CORE_STAT c) F.CORE_STAT_TMODE ||
    (decide (c ≤ 5) && flag s (Reg.CORE_CFG c) F.CORE_CFG_XLATE && !(coreOf s c).trapped)
  if translated then
    let l := lookup s c c ctx va
    match l.1 with
    | .inl _ => (none, l.2)
    | .inr e => (some (cwAt (e.leaf % 2 ^ 32 / 4096 * 4096 + va % 4096)), l.2)
  else (some (cwAt (va % 2 ^ 32)), s)

/-- The uncorrectable error behind UE_FETCH and UE_LOAD is recorded (R455). One in a dirty L1 line lies in no MEM region; one in
a clean line has invalidated it, and the access has met the other at the next level (R438). -/
def trapUe (s : State) (c code pc va : Nat) : State :=
  if code = 3 ∨ code = 6 then
    let w := coreWord s c (if code = 3 then pc else va)
    match w.1 with
    | some a =>
      let x := l1Access w.2 c (code == 3) a
      if x.1 = .ue then x.2 else recordUe x.2 a c (if code = 3 then ueFetch else ueRead)
    | none => w.2
  else s

/-- A trap other than BREAK: fatal to the task in task mode (R98, R473). -/
def takeTrap (s : State) (c code pc va : Nat) : State :=
  let s := trapUe s c code pc va
  match inTask s c with
  | some t => faultTask (recordTrap s c code pc va) t
  | none => supervisorTrap s c code pc va

/-- TRAP (R438, R455, R460, R461, R467, R472, R473, R480). -/
def execTrap (core : Fin 7) (code : BitVec 8) (pc va : BitVec 40) (l1 : List L1Event) (s : State) : Result :=
  check (errIf (code.toNat == 0 || decide (10 < code.toNat)) 37)
    (settleDue (coreRuns s core.val) s (takeTrap (l1Events s core.val l1) core.val code.toNat pc.toNat va.toNat))

/-- BREAK (R98, R100, R474, R481). (DEDUCED, log entry 28.) -/
def execBreak (core : Fin 7) (pc : BitVec 40) (s : State) : Result :=
  let c := core.val
  let s1 := recordTrap s c 0x0B pc.toNat 0
  settleDue (coreRuns s c) s (match inTask s c with
    | some t => if modeSet s == 1 || modeSet s == 3 then breakTask s1 t else haltCore s1 c
    | none => haltCore (if flag s (Reg.CORE_TRAP c) F.CORE_TRAP_VALID then s else s1) c)

/-- A halted core runs on, and its task's channels with it (R474, R481). -/
def resumeCore (s : State) (c : Nat) : State :=
  let s1 := coreSync (setFlag s (Reg.CORE_STAT c) F.CORE_STAT_HALTED false) c
  let s1 := match runningOn s1 c with | some t => dmaTaskGo s1 t | none => s1
  if c < 4 then schedule s1 c else s1

/-- DEBUG_RESUME (R474): a halted core runs on. SV0 in the failed state of the boot does not (R64). (DESIGN CHOICE, log entries 44, 90.) -/
def execDebugResume (core : Fin 7) (s : State) : Result :=
  let c := core.val
  settleDue (flag s (Reg.CORE_STAT c) F.CORE_STAT_HALTED && !(c == 4 && s.boot.step == .failed)) s (resumeCore s c)

/-! ### Function blocks (R106, R107) -/

/-- The address of a frame of the function-block stack of a task (R87, R107). (DESIGN CHOICE, log entry 27.) -/
def fbFrame (s : State) (t k : Nat) : Nat := 0x50000000 + 0x40000 * taskCore s t + 0x18000 + 0x800 * t + 0x400 + 16 * k

/-- An address lies in the area of a control core's TCM that is reserved for CYC (R87). -/
def reservedTcm (a : Nat) : Bool := (List.range 4).any (fun n =>
  decide (0x50018000 + 0x40000 * n ≤ a) && decide (a ≤ 0x5001FFFF + 0x40000 * n))

/-- A core load of a word through the core's L1 data array: the word, or the trap code (R438, R461, R467, R472). -/
def coreLoad (s : State) (c va : Nat) : (Nat ⊕ Nat) × State :=
  let l := lookup s c c (fld s (Reg.CORE_STAT c) F.CORE_STAT_CTX) va
  match l.1 with
  | .inl 3 => (.inl 6, l.2)
  | .inl _ => (.inl 4, l.2)
  | .inr e =>
    if !(leafBit e.leaf 1 && leafBit e.leaf 4) then (.inl 5, l.2)
    else
      let pa := e.leaf % 2 ^ 32 / 4096 * 4096 + va % 4096
      let x := l1Access (badIf l.2 (errIf (reservedTcm pa) 87)) c false pa
      match x.1 with
      | .ue => (.inl 6, x.2)
      | .hit => (.inr (rdLE x.2 pa 4), x.2)
      | .wrong => let f := fresh x.2; (.inr (Config.freeWord f.1).toNat, f.2)
      | .miss =>
        let r := readScan x.2 c pa 4
        if r.1.isSome then (.inl 6, r.2) else (.inr (rdLE r.2 pa 4), r.2)

/-- A function-block call that passed its check pushes its frame: the return address in its low half, then IB, at the
next place upward; R106 gives no order. (DESIGN CHOICE, log entry 27.) -/
def fbPush (s : State) (c t inst target ret : Nat) : State :=
  let k := task s t
  let s := store s c (fbFrame s t k.fbsp) (leBytes 8 ret ++ leBytes 8 k.ib)
  let s := setTask s t (fun k => { k with fbsp := k.fbsp + 1, ib := inst })
  setCore s c (fun k => { k with pc := target })

/-- FBCALL by task `t` (R106, R107): FB_DEPTH is checked first. The trapping PC lies before `ret` by an instruction length the
spec does not give. (DESIGN CHOICE, log entry 27.) -/
def fbCall (s : State) (c t inst itype target ret : Nat) : State :=
  if 64 ≤ (task s t).fbsp then
    let f := fresh s
    takeTrap f.2 c 0x0A (Config.freeNat f.1) 0
  else
    let r := coreLoad s c inst
    match r.1 with
    | .inl code =>
      let g := fresh r.2
      match inTask g.2 c with
      | some t => faultTask (recordTrap g.2 c code (Config.freeNat g.1) inst) t
      | none => g.2
    | .inr w =>
      if w == itype then fbPush r.2 c t inst target ret
      else
        let g := fresh r.2
        takeTrap g.2 c 0x09 (Config.freeNat g.1) 0

/-- FBCALL (R106, R107): the depth is checked first, so FB_DEPTH is taken where FB_TYPE applies too. (DESIGN CHOICE, log entry 27.) -/
def execFbcall (core : Fin 4) (inst itype target ret : BitVec 40) (l1 : List L1Event) (s0 : State) : Result :=
  let c := core.val
  let s := l1Events s0 c l1
  match inTask s c with
  | none => .next s
  | some t =>
    if !(coreRuns s c) then .next s
    else check (errIf (inst.toNat % 32 != 0) 107) (settle s (fbCall s c t inst.toNat itype.toNat target.toNat ret.toNat))

/-- FBRET by task `t` (R106, R107). (DESIGN CHOICE, log entries 27, 32.) -/
def fbReturn (s : State) (c t : Nat) : State :=
  let k := task s t
  if k.fbsp = 0 then
    let g := fresh s
    takeTrap g.2 c 0x0A (Config.freeNat g.1) 0
  else
    let a := fbFrame s t (k.fbsp - 1)
    let r := readScan s c a 16
    if r.1.isSome then
      let f := fresh r.2
      let g := fresh f.2
      faultTask (recordTrap g.2 c 0x06 (Config.freeNat f.1) (Config.freeNat g.1)) t
    else
      let s1 := setTask r.2 t (fun k => { k with fbsp := k.fbsp - 1, ib := rdLE r.2 (a + 8) 8 })
      setCore s1 c (fun x => { x with pc := rdLE r.2 a 8 })

/-- FBRET (R106, R107). (DESIGN CHOICE, log entries 27, 32.) -/
def execFbret (core : Fin 4) (s : State) : Result :=
  let c := core.val
  match inTask s c with
  | none => .next s
  | some t => settleDue (coreRuns s c) s (fbReturn s c t)

/-! ### Interrupts (R475-R477) -/

/-- INTERRUPT_ENTRY (R30, R32, R475): PC and status go to the link registers. The PC at the boundary is a free value. (DESIGN CHOICE, log entry 27; DEDUCED, log entry 30.) -/
def execInterruptEntry (core : Fin 7) (s : State) : Result :=
  let c := core.val
  match deliver s c with
  | none => .next s
  | some n =>
    let f := fresh s
    let s1 := setCore f.2 c (fun k => { k with
      linkPc := Config.freeNat f.1, linkStat := rd s (Reg.CORE_STAT c), handler := true, acked := false, pc := rdn s (Reg.CORE_IVEC c) })
    let s2 := setFlag s1 (Reg.CORE_STAT c) F.CORE_STAT_TMODE false
    let s3 := setFld s2 (Reg.CORE_STAT c) F.CORE_STAT_CTX
      (if flag s (Reg.CORE_CFG c) F.CORE_CFG_XLATE then fld s (Reg.CORE_CFG c) F.CORE_CFG_SCTX else 0)
    whenDue (coreRuns s c && decide (srcPrio s n < iprio s c) && (!(coreOf s c).handler || (coreOf s c).acked)) s s3

/-- The last handler has returned: the core goes on with its task, and a due pre-emption takes place (R477). (DEDUCED, log entry 30.) -/
def handlerReturn (s : State) (c : Nat) : State :=
  let s := coreSync (setCore s c (fun k => { k with handler := false, acked := false })) c
  if c < 4 then schedule s c else s

/-- CORE_IACK_READ (R32, R476): acknowledges for the core's own read. (DEDUCED, log entry 30.) -/
def execCoreIackRead (core : Fin 7) (reader : Fin 16) (s : State) : Result :=
  let c := core.val
  check ((pageErr s (0x10 + c) 0x64).orElse (fun _ => errIf (reader.val != c) 476))
    (let s := granted s reader
     match deliver s c with
     | none => settle s (answer (if (coreOf s c).handler && iprio s c == 16 then handlerReturn s c else s) [0])
     | some n =>
       let s1 := setCore s c (fun k => { k with stack := iprio s c :: k.stack, acked := true, handler := true })
       .next (answer (setFld s1 (Reg.CORE_STAT c) F.CORE_STAT_IPRIO (srcPrio s n)) [BitVec.ofNat 32 (n + 65536)]))

/-- IPRIO is popped; a pop with nothing pushed leaves it (R476, R477). (DEDUCED, log entry 30.) -/
def popPrio (s : State) (c : Nat) : State :=
  match (coreOf s c).stack with
  | [] => s
  | p :: ps =>
    let s1 := setFld (setCore s c (fun k => { k with stack := ps })) (Reg.CORE_STAT c) F.CORE_STAT_IPRIO p
    if ps.isEmpty then handlerReturn s1 c else s1

/-- CORE_EOI_WRITE (R476, R477). (DEDUCED, log entry 30.) -/
def execCoreEoiWrite (ini : Fin 16) (core : Fin 7) (s : State) : Result :=
  settleWrite ini (0x10 + core.val) 0x68 none s (fun s => popPrio s core.val)

end Sys2Proof.Machine
end

