-- ==== Sys2Proof/Machine/Reset.lean ====
section
/-!
DEFINITION. A reset of the device (R49-R51): everything starts again but the items of R49 marked "kept".
-/

namespace Sys2Proof.Machine

/-- The shut state of R71. (DESIGN CHOICE, log entry 45.) -/
def shut (s : State) : Bool := flag s Reg.PWR_STAT F.PWR_STAT_SHUT

/-- Registers of the backup domain (R391): the RTC's count and alarms. -/
def backupReg (a : Nat) : Bool :=
  (decide (0xC5040 ≤ a) && decide (a ≤ 0xC505C)) || (decide (0xC5084 ≤ a) && decide (a ≤ 0xC5090))

/-- The reset's bits in SYS_RSTCAUSE reach record 1 of Afterglow (R51, R519). -/
def resetEvents (bits : Nat) : List AglOp :=
  ((List.range 7).filter (fun k => bits.testBit k)).map (fun k => .add 1 (4 * k) 4 1)

/-- A reset cuts a retentive commit (R117): the data written so far stand in the set, and the word being written cannot be
corrected, so the set is invalid until it is written again. (DEDUCED, log entry 97.) -/
def cutCommit (s : State) : State :=
  let set := 0x40000000 + 0x40000 * s.cyc.ret.target
  let n := rdn s Reg.CYC_RET_LEN
  let k := min ((s.now - s.cyc.ret.since) / 20) n
  let poison := fun (t : State) (a : Nat) =>
    { t with ecc := mput {} (t.ecc.filter (fun e => decide (e.1 < set + 0x40) || decide (a ≤ e.1))) (a / 16 * 16) { poisoned := true } }
  match s.cyc.ret.phase with
  | .data => poison (putBytes s (set + 0x40) (rdBytes s (rdn s Reg.CYC_RET_BASE + 2 * n) k)) (set + 0x40 + k)
  | .header => poison s set
  | _ => s

/-- What every reset keeps (R49): the latched PUF content, MRAM, the backup domain and eFuse, whose life cycle
BOOT_STAT shows; volatile memory holds what it held until its fill. (DEDUCED, log entry 97.) -/
def resetBase (s0 : State) (bits : Nat) : State :=
  let s := cutCommit s0
  let b : State := {
    pending := s.pending, now := s.now, free := s.free, mem := s.mem, cleRam := s.cleRam, canRam := s.canRam, ecc := s.ecc,
    efuse := s.efuse, regs := s.regs.filter (fun e => backupReg e.1), rtc := { base := s.rtc.base, alarms := s.rtc.alarms } }
  let b := setFld b Reg.BOOT_STAT F.BOOT_STAT_LC s.efuse.lifeCycle.toNat
  let b := setFlag b Reg.PWR_STAT F.PWR_STAT_PFAIL_LVL s.power.low
  { b with power := { low := s.power.low }, agl := { queue := resetEvents bits },
           free := s.free + 1, keys := { puf := s.keys.puf, perm := Config.freeNat s.free } }

/-- MONO at which the watchdog expires (R53). (DEDUCED, log entry 36.) -/
def wdgEnd (s : State) : Nat := s.start.wdgFrom + 1000000 * fld s Reg.SYS_WDG_CFG F.SYS_WDG_CFG_PERIOD

/-- The watchdog has expired (R53). -/
def wdgDue (s : State) : Bool := flag s Reg.SYS_WDG_CFG F.SYS_WDG_CFG_EN && decide (wdgEnd s ≤ monoNs s)

/-- The safety pair's request is due: 1 ms after a fatal fault, where the loaded set asks for it (R306). -/
def safeResetDue (s : State) : Bool :=
  match s.safe.fatalAt with
  | some t => decide (t + vcoMs ≤ s.now) && (parN s 7 1).testBit 0
  | none => false

/-- The causes a reset by source `bit` sets: its own, those of the watchdog and of the safety pair where they act in the same
cycle (R51), and AFTER_SHUT where it ends the shut state (R74). (DEDUCED, log entry 95.) -/
def resetCauses (s : State) (bit : Nat) : Nat :=
  2 ^ bit ||| (if shut s then 64 else (if wdgDue s then 8 else 0) ||| (if safeResetDue s then 16 else 0))

/-- A reset from a source other than POR (R49, R50, R51): the sequence starts at step 5 of R43 and MONO restarts from 0
(R371). (DEDUCED, log entry 33; DESIGN CHOICE, log entry 45.) -/
def warmReset (s : State) (bit : Nat) : State :=
  let bits := resetCauses s bit
  let t := resetBase s bits
  let t := wrn t Reg.SYS_RSTCAUSE (rdn s Reg.SYS_RSTCAUSE ||| bits)
  let t := wr t Reg.STRAP_LATCH (rd s Reg.STRAP_LATCH)
  let t := setFld t Reg.CLK_STAT F.CLK_STAT_PLL_LOCK (fld s Reg.CLK_STAT F.CLK_STAT_PLL_LOCK)
  let t := setFld t Reg.PWR_STAT F.PWR_STAT_DOM_ON (fld s Reg.PWR_STAT F.PWR_STAT_DOM_ON)
  { t with
    clock := { running := s.clock.running },
    start := { step := .filling, porAt := s.start.porAt, lockAt := s.start.lockAt, domains := s.start.domains, fillAt := s.now } }

/-- A reset from a source other than POR acts once POR has been released (R43, R49, R50). (DEDUCED, log entry 33.) -/
def resettable (s : State) : Bool := s.start.step != .porActive

/-- A request that leaves the shut state alone (R74). (DEDUCED, log entry 33.) -/
def innerReset (s : State) (bit : Nat) : State := if resettable s && !(shut s) then warmReset s bit else s

/-- SAFE_RESET_REQUEST (R306, R49): 1 ms after a fatal fault, where the loaded set asks for it. -/
def execSafeResetRequest (s : State) : Result := whenDue (safeResetDue s) s (innerReset s 4)

end Sys2Proof.Machine
end

