-- ==== Sys2Proof/Machine/Startup.lean ====
section
/-!
DEFINITION. From POR release to the release of the cores (R40-R54): the start sequence, the resets that pin,
software and watchdog ask for, and core release.
-/

namespace Sys2Proof.Machine

def setStart0 (s : State) (f : Startup → Startup) : State := { s with start := f s.start }

/-- POR_RELEASE (R41, R49-R51, R54): everything but MRAM, the backup domain and eFuse starts again; straps, PUF content
and the eFuse life cycle are latched; Afterglow counts a power cycle first (R519). (DESIGN CHOICE, log entry 4.) -/
def execPorRelease (boot : BitVec 3) (sealLevel : BitVec 8) (puf : Bool) (s : State) : Result :=
  let s := { s with efuse := { s.efuse with lifeCycle := s.efuse.nextCycle } }
  let t := resetBase s 1
  let t := wrn t Reg.SYS_RSTCAUSE 1
  let t := wrn t Reg.STRAP_LATCH (boot.toNat + 256 * sealLevel.toNat)
  let t := setFlag t Reg.CLK_STAT F.CLK_STAT_PLL_LOCK false
  let t := setFld t Reg.PWR_STAT F.PWR_STAT_DOM_ON 0
  .next { t with
    keys := { t.keys with puf := puf }, agl := { queue := .add 0 0 4 1 :: resetEvents 1 },
    start := { step := .pllWait, porAt := s.now } }

/-- PLL_LOCK (R43 step 2): MONO starts from 0 (R371). Where a reset has started the sequence at step 5 before the lock (R50),
the fill keeps that start. (DEDUCED, log entry 33.) -/
def execPllLock (s : State) : Result :=
  whenDue (s.start.step == .pllWait || (s.start.step == .filling && !(s.clock.running))) s
    (setFlag { s with
      clock := { s.clock with running := true, mono := 0 },
      start := { s.start with
        step := .filling, lockAt := s.now, fillAt := if s.start.step = .pllWait then s.now + 160 * vcoUs else s.start.fillAt } }
      Reg.CLK_STAT F.CLK_STAT_PLL_LOCK true)

/-- POWER_DOMAIN_ENABLE (R43 step 3, R44): PD_k at t_L + 20 µs × k, in ascending order. -/
def execPowerDomainEnable (k : Fin 8) (s : State) : Result :=
  whenDue (s.start.step == .filling && s.clock.running && s.start.domains == k.val && decide (s.start.lockAt + 20 * vcoUs * k.val ≤ s.now)) s
    (orReg (setStart0 s (fun x => { x with domains := k.val + 1 })) Reg.PWR_STAT (1#32 <<< k.val))

/-- Start of the fill of a bank, one every 14,336 CLK_FAB cycles, and its length of 32,768 of them (R43). -/
def bankFillAt (s : State) (i : Nat) : Nat := s.start.fillAt + 14336 * 8 * i
def bankFillTime : Nat := 32768 * 8

/-- First byte of a bank: SysRAM banks 0-95, then PrismRAM banks 0-63. -/
def bankBase (i : Nat) : Nat := if i < 96 then 0x20000000 + 0x40000 * i else 0x30000000 + 0x40000 * (i - 96)

/-- An address lies in a bank. -/
def inBank (i a : Nat) : Bool := decide (bankBase i ≤ a) && decide (a < bankBase i + 0x40000)

/-- BANK_FILL_START (R43 step 5). `reads` holds the addresses in the bank that DEBUG reads before its fill has ended: those
accesses stall (R47). (DESIGN CHOICE, log entry 44.) -/
def execBankFillStart (i : Fin 160) (reads : List Nat) (s : State) : Result :=
  whenDue (s.start.step == .filling && s.start.domains == 8 && s.start.banksStarted == i.val && decide (bankFillAt s i.val ≤ s.now)) s
    (setStart0 s (fun x => { x with
      banksStarted := i.val + 1, debugStalled := x.debugStalled ++ reads.filter (inBank i.val) }))

/-- Bytes `a` to `a + n - 1` of memory hold zero with valid check bits (R46). (DEDUCED, log entry 39.) -/
def zeroFill (s : State) (a n : Nat) : State :=
  { s with
    mem := s.mem.filter (fun e => decide (e.1 < a) || decide (a + n ≤ e.1)),
    ecc := s.ecc.filter (fun e => decide (e.1 < a) || decide (a + n ≤ e.1)) }

/-- The DEBUG accesses that waited for a bank complete normally (R47): what they read is recorded. (DESIGN CHOICE, log entry 44.) -/
def debugComplete (s : State) (i : Nat) : State :=
  match s.start.debugStalled.filter (inBank i) with
  | [] => s
  | as =>
    let t := as.foldl (fun t a => fabric t 15 (a / 4 * 4) 4) s
    answer (setStart0 t (fun x => { x with debugStalled := x.debugStalled.filter (fun a => !(inBank i a)) }))
      (as.map (fun a => BitVec.ofNat 32 (rdLE t (a / 4 * 4) 4)))

/-- BANK_FILL_DONE (R43, R46): DEBUG accesses that waited for the bank complete (R47). (DEDUCED, log entry 39.) -/
def execBankFillDone (i : Fin 160) (s : State) : Result :=
  whenDue (s.start.step == .filling && s.start.banksDone == i.val && decide (i.val < s.start.banksStarted) &&
      decide (bankFillAt s i.val + bankFillTime ≤ s.now)) s
    (debugComplete (setStart0 (zeroFill s (bankBase i.val) 0x40000) (fun x => { x with banksDone := i.val + 1 })) i.val)

/-- FILL_COMPLETE (R43 step 6): the core-local memories, CLE RAM and CAN RAM are filled as well (step 4); Glint's lanes
start their pass (R446). (DEDUCED, log entry 39.) -/
def execFillComplete (s : State) : Result :=
  whenDue (s.start.step == .filling && s.start.banksDone == 160) s
    (let t := zeroFill s 0x50000000 0x1000000
     let t := { t with
       cleRam := [], canRam := [],
       ecc := t.ecc.filter (fun e => decide (e.1 < cleEcc) || decide (canEcc + 0x1000000 ≤ e.1)) }
     let t := (List.range 3).foldl (fun t i => setLane t i { lane t i with next := 0, passStart := monoNs t }) t
     setStart0 t (fun x => { x with step := .filled }))

/-- Where the Boot ROM's flow begins (R55-R58, R63). -/
def bootBegin (s : State) : BootStep :=
  let b := fld s Reg.STRAP_LATCH F.STRAP_LATCH_BOOT
  if s.efuse.lifeCycle = 3 then .failing 0x01
  else if 3 ≤ b then .failing 0x02
  else if s.efuse.lifeCycle = 1 then .puf
  else .headers (if b = 0 then [0, 1] else [0])

/-- PHASE of BOOT_STAT. -/
def setPhase (s : State) (v : Nat) : State := setFld s Reg.BOOT_STAT F.BOOT_STAT_PHASE v

/-- SV0_RELEASE (R43 step 7, R75): SV0 leaves reset at the Boot ROM once PWR_FAIL_N is high. -/
def execSv0Release (s : State) : Result :=
  whenDue (s.start.step == .filled && !(s.power.low) && !(shut s)) s
    (let b := bootBegin s
     let t := setStart0 s (fun x => { x with step := .running })
     let t := { t with boot := { step := b, startMono := monoNs s } }
     match b with
     | .puf => setPhase t 1
     | .headers _ => setPhase t 2
     | _ => t)

/-- PIN_RESET (R49, R74): RST_N has been low for 1 µs and returns high. (DESIGN CHOICE, log entry 45.) -/
def execPinReset (s : State) : Result := .next (if resettable s then warmReset s 1 else s)

/-- SW_RESET (R49): the key resets the device 16 CLK_FAB cycles after the write; other values have no effect. (DESIGN CHOICE, log entry 9.) -/
def execSwReset (ini : Fin 16) (key : Word) (s : State) : Result :=
  softWrite ini 0 0x48 none s (fun s => if key = 0x8A21#32 then innerReset (passCycles 128 s) 2 else s)

/-! ### The system watchdog (R53) -/

/-- A write of SYS_WDG_CFG: EN once set stays set, and setting it starts the count. (DEDUCED, log entry 36.) -/
def wdgWrite (s : State) (v : Word) : State :=
  let on := flag s Reg.SYS_WDG_CFG F.SYS_WDG_CFG_EN
  let t := wr s Reg.SYS_WDG_CFG (putBit v 31 (on || bitAt v 31))
  if !on && bitAt v 31 then setStart0 t (fun x => { x with wdgFrom := monoNs s }) else t

/-- WATCHDOG_ENABLE (R53). (DEDUCED, log entry 36.) -/
def execWatchdogEnable (ini : Fin 16) (value : Word) (s : State) : Result :=
  softWrite ini 0 0x6C
    ((errIf (value &&& 0x7FFF0000#32 != 0) 37).orElse (fun _ => (lockErr s 0).orElse (fun _ =>
      errIf (fieldGet F.SYS_WDG_CFG_PERIOD value == 0) (if bitAt value 31 then 53 else 38)))) s
    (fun s => wdgWrite s value)

/-- WATCHDOG_KICK (R53): the key restarts a count that has not reached PERIOD. -/
def execWatchdogKick (ini : Fin 16) (key : Word) (s : State) : Result :=
  softWrite ini 0 0x70 none s (fun s =>
    if key = 0x4B1D#32 ∧ flag s Reg.SYS_WDG_CFG F.SYS_WDG_CFG_EN = true ∧ monoNs s < wdgEnd s then
      setStart0 s (fun x => { x with wdgFrom := monoNs s })
    else s)

/-- WATCHDOG_EXPIRY (R53). -/
def execWatchdogExpiry (s : State) : Result :=
  whenDue (wdgDue s) s (innerReset s 3)

/-! ### Core release (R52) -/

/-- Core `n` leaves reset at SYS_CORE_ENTRY[n] with translation off; a control core takes up what CYC has for it. (DEDUCED, log entry 37.) -/
def releaseCore (s : State) (n : Nat) : State :=
  let s := setFlag s (Reg.CORE_CFG n) F.CORE_CFG_XLATE false
  let s := coreSync (setCore s n (fun k => { k with pc := rdn s (Reg.SYS_CORE_ENTRY n) })) n
  if n < 4 then schedule s n else s

/-- CORE_RELEASE (R52): a write of SYS_CORE_REL. SV0's bit is read-only; until the boot is done the other cores stay in
reset (R55, R64). (DEDUCED, log entry 37.) -/
def execCoreRelease (ini : Fin 16) (value : Word) (s : State) : Result :=
  settleWrite ini 0 0x4C (errIf (value &&& 0xFFFFFF80#32 != 0) 37) s (fun s =>
    if s.boot.step = .done then
      let new := [0, 1, 2, 3, 5, 6].filter (fun n => bitAt value n && !(bitAt (rd s Reg.SYS_CORE_REL) n))
      new.foldl releaseCore (orReg s Reg.SYS_CORE_REL (value &&& 0x6F#32))
    else s)

end Sys2Proof.Machine
end

