-- ==== Sys2Proof/Machine/Boot.lean ====
section
/-!
DEFINITION. The Boot ROM (R55-R66): root key, headers, sections, and the two ways it ends.
-/

namespace Sys2Proof.Machine

def setBoot (s : State) (f : Boot → Boot) : State := { s with boot := f s.boot }

/-- The boot source of the straps (R55): 0 OSPI, 1 UART recovery, 2 Mirror-peer. -/
def bootSource (s : State) : Nat := fld s Reg.STRAP_LATCH F.STRAP_LATCH_BOOT

/-- `n` bytes of a slot image: from the flash (R61), or of the image received (R62, R63). -/
def slotBytes (s : State) (slot off n : Nat) : List Byte :=
  if bootSource s = 0 then rdBytes s (0x10000000 + 0x800000 * slot + off) n else (s.boot.image.drop off).take n

/-- SV0 reads a slot in the flash: the OSPI window's arbiter grants it (R34). -/
def slotFetch (s : State) (slot off n : Nat) : State :=
  if bootSource s = 0 then fabric s 4 (0x10000000 + 0x800000 * slot + off) n else s

/-- A slot's first bytes are there to be read. -/
def slotHas (s : State) (n : Nat) : Bool := bootSource s == 0 || decide (n ≤ s.boot.image.length)

/-! ### The header (R59, R60) -/

/-- A little-endian field of a header. -/
def hdrF (h : List Byte) (off n : Nat) : Nat := leNat ((h.drop off).take n)
def hdrZero (h : List Byte) (off n : Nat) : Bool := ((h.drop off).take n).all (fun b => b == 0)
def hdrCount (h : List Byte) : Nat := hdrF h 6 2
def hdrGeneration (h : List Byte) : Nat := hdrF h 8 8
def hdrEntry (h : List Byte) : Nat := hdrF h 0x10 4
def hdrPub (h : List Byte) : List Byte := (h.drop 0x40).take 64
def sectSrc (h : List Byte) (i : Nat) : Nat := hdrF h (0x80 + 48 * i) 4
def sectLen (h : List Byte) (i : Nat) : Nat := hdrF h (0x84 + 48 * i) 4
def sectDest (h : List Byte) (i : Nat) : Nat := hdrF h (0x88 + 48 * i) 4
def sectIv (h : List Byte) (i : Nat) : List Byte := (h.drop (0x90 + 48 * i)).take 12
def sectTag (h : List Byte) (i : Nat) : List Byte := (h.drop (0xA0 + 48 * i)).take 16

/-- A destination lies in SysRAM or the core-local window. (DEDUCED, log entry 38.) -/
def destOk (a n : Nat) : Bool :=
  (decide (0x20000000 ≤ a) && decide (a + n ≤ 0x21800000)) || (decide (0x50000000 ≤ a) && decide (a + n ≤ 0x51000000))

/-- A used section descriptor keeps every rule of R60; `i` is its index. -/
def sectOk (h : List Byte) (i : Nat) : Bool :=
  let n := sectLen h i
  let d := sectDest h i
  sectSrc h i % 16 == 0 && decide (0x400 ≤ sectSrc h i) && n != 0 && n % 16 == 0 && d % 16 == 0 && destOk d n &&
    hdrZero h (0x8C + 48 * i) 4 && hdrZero h (0x9C + 48 * i) 4 && decide (sectSrc h i + n ≤ 0x800000) &&
    (List.range i).all (fun j => decide (d + n ≤ sectDest h j) || decide (sectDest h j + sectLen h j ≤ d))

/-- The descriptors and ENTRY (check 5 of R60). -/
def sectionsOk (h : List Byte) : Bool :=
  (List.range (hdrCount h)).all (sectOk h) &&
    hdrZero h (0x80 + 48 * hdrCount h) (48 * (16 - hdrCount h)) &&
    (List.range (hdrCount h)).any (fun i => decide (sectDest h i ≤ hdrEntry h) && decide (hdrEntry h < sectDest h i + sectLen h i))

/-- The code of the first check of R60 that fails; 0: the header is valid. -/
def headerCode (secured : Bool) (keyHash : Nat) (h : List Byte) : Nat :=
  if !(hdrF h 0 4 == 0x4C4D5248 && hdrF h 4 2 == 1 && decide (1 ≤ hdrCount h) && decide (hdrCount h ≤ 16) &&
      hdrZero h 0x28 24 && hdrZero h 0x3C0 64) then 0x20
  else if secured && beNat (sha256 (hdrPub h)) != keyHash then 0x21
  else if !(ecdsaOk (hdrPub h) ((h.drop 0x380).take 64) (h.take 0x380)) then 0x22
  else if hdrF h 0x14 4 != 1 then 0x23
  else if !(sectionsOk h) then 0x24
  else 0

/-- The header of a slot. -/
def slotHeader (s : State) (slot : Nat) : List Byte := slotBytes s slot 0 1024

/-- CODE_A or CODE_B takes the result of a slot (R65). (DEDUCED, log entry 38.) -/
def setCode (s : State) (slot code : Nat) : State :=
  setFld s Reg.BOOT_STAT (if slot = 0 then F.BOOT_STAT_CODE_A else F.BOOT_STAT_CODE_B) code

/-- Valid slots in the order in which they are loaded (R61). -/
def slotOrder (s : State) (valid : List Nat) : List Nat :=
  if valid = [0, 1] ∧ hdrGeneration (slotHeader s 0) < hdrGeneration (slotHeader s 1) then [1, 0] else valid

/-- After the last header: the first slot's sections follow, or the boot fails with the last code. -/
def headersDone (s : State) (code : Nat) : State :=
  match slotOrder s s.boot.valid with
  | [] => setBoot s (fun b => { b with step := .failing code })
  | a :: rest => setPhase (setBoot s (fun b => { b with step := .sections a 0 rest })) 3

/-- SV0 runs the Boot ROM. -/
def bootRuns (s : State) : Bool := coreRuns s 4

/-- BOOT_HEADER_CHECK (R57, R58, R60). -/
def execBootHeaderCheck (slot : Fin 2) (s : State) : Result :=
  match s.boot.step with
  | .headers (k :: left) =>
    whenDue (bootRuns s && k == slot.val && slotHas s 1024) s
      (let code := headerCode (s.efuse.lifeCycle == 1) s.efuse.keyHash.toNat (slotHeader s k)
       let t := setCode (slotFetch s k 0 1024) k code
       let t := setBoot t (fun b => { b with step := .headers left, valid := if code = 0 then b.valid ++ [k] else b.valid })
       if left.isEmpty then headersDone t code else t)
  | _ => .next s

/-! ### Root key -/

/-- ROOT_KEY_REGENERATION (R57, R485): in SECURED, before any header. -/
def execRootKeyRegeneration (s : State) : Result :=
  whenDue (bootRuns s && s.boot.step == .puf) s
    (let t := setFlag s Reg.KEYS_STAT F.KEYS_STAT_ENROLLED (enrolRead s).1.isSome
     let t := regenerateLoad t
     if t.keys.root.isSome then
       setPhase (setBoot t (fun b => { b with step := .headers (if bootSource t = 0 then [0, 1] else [0]) })) 2
     else setBoot t (fun b => { b with step := .failing 0x10 }))

/-! ### Sections (R57, R58, R61) -/

/-- The key of the sections: the image key, or zero in PROVISIONING. -/
def sectionKey (s : State) (h : List Byte) : List Byte × State :=
  match s.efuse.lifeCycle == 1, s.keys.root with
  | true, some root =>
    let k := kdf root labelImg ((h.drop 0x18).take 16) 256
    (k, { s with keys := { s.keys with image := some k } })
  | _, _ => (List.replicate 32 0, s)

/-- The engine decrypts the sections block by block (R500): IV, tag, data in and data out pass through its registers. (DEDUCED, log entry 38.) -/
def gcmSection (s : State) (key iv tag ct : List Byte) : State :=
  let s := gcmStart (wrRegBytes s Reg.KEYS_GCM_IV iv) key
  let s := (blocks16 ct).foldl (fun s b => gcmBlock (wrRegBytes s Reg.KEYS_GCM_DIN b) b) s
  gcmFinal (wrRegBytes s Reg.KEYS_GCM_TAG tag)

/-- A section fails: every destination of the slot becomes zero, and the other slot follows if its header is valid (R61). (DEDUCED, log entry 38.) -/
def slotFails (s : State) (slot : Nat) (others : List Nat) (h : List Byte) : State :=
  let s := (List.range (hdrCount h)).foldl (fun s i => store s 4 (sectDest h i) (List.replicate (sectLen h i) 0)) s
  let s := setCode s slot 0x30
  match others with
  | [] => setBoot s (fun b => { b with step := .failing 0x30 })
  | a :: rest => setBoot s (fun b => { b with step := .sections a 0 rest })

/-- One section of a slot: decrypted, checked and written, or the slot fails. -/
def loadSection (s : State) (slot i : Nat) (others : List Nat) (h : List Byte) : State :=
  let k := sectionKey (slotFetch s slot (sectSrc h i) (sectLen h i)) h
  let ct := slotBytes s slot (sectSrc h i) (sectLen h i)
  let t := gcmSection k.2 k.1 (sectIv h i) (sectTag h i) ct
  if gcmTag k.1 (sectIv h i) [] ct == sectTag h i then
    setBoot (store t 4 (sectDest h i) (gcmCrypt k.1 (sectIv h i) 2 ct)) (fun b => { b with step := .sections slot (i + 1) others })
  else slotFails t slot others h

/-- BOOT_SECTION_LOAD (R57, R58, R61). -/
def execBootSectionLoad (s : State) : Result :=
  match s.boot.step with
  | .sections slot i others =>
    let h := slotHeader s slot
    settleDue (bootRuns s && decide (i < hdrCount h) && slotHas s (sectSrc h i + sectLen h i)) s (loadSection s slot i others h)
  | _ => .next s

/-- BOOT_DONE (R63, R65): PHASE 0x4; SV0 goes to ENTRY. -/
def execBootDone (s : State) : Result :=
  match s.boot.step with
  | .sections slot i _ =>
    let h := slotHeader s slot
    whenDue (bootRuns s && i == hdrCount h) s
      (let t := setFld (setPhase s 4) Reg.BOOT_STAT F.BOOT_STAT_SLOT slot
       let t := wr64 t Reg.BOOT_GEN_LO Reg.BOOT_GEN_HI (hdrGeneration h)
       setCore (setBoot t (fun b => { b with step := .done })) 4 (fun k => { k with pc := hdrEntry h }))
  | _ => .next s

/-- BOOT_FAIL (R55, R56, R64): SV0 halts and PHASE reads 0xF; codes that belong to no slot stand in CODE_A. -/
def execBootFail (s : State) : Result :=
  match s.boot.step with
  | .failing code =>
    whenDue (bootRuns s) s
      (let t := if code < 0x20 then setCode s 0 code else s
       setFlag (setPhase (setBoot t (fun b => { b with step := .failed })) 0xF) (Reg.CORE_STAT 4) F.CORE_STAT_HALTED true)
  | _ => .next s

/-! ### UART recovery and the peer's image (R62, R63) -/

/-- The Boot ROM still reads headers or sections. -/
def bootLoads (s : State) : Bool :=
  match s.boot.step with
  | .headers _ => true
  | .sections _ _ _ => true
  | _ => false

/-- UART_RECOVERY_PROMPT (R62): 0x3F at once and every 100 ms until the first byte. (DEDUCED, log entry 38.) -/
def execUartRecoveryPrompt (s : State) : Result :=
  whenDue (bootRuns s && bootSource s == 1 && bootLoads s && s.boot.image.isEmpty &&
      (match s.boot.promptMono with | some t => decide (t + 100000000 ≤ monoNs s) | none => true)) s
    (setBoot s (fun b => { b with prompts := b.prompts + 1, promptMono := some (monoNs s) }))

/-- The image ends with its last section (R62). -/
def imageEnd (h : List Byte) : Nat := (List.range (min (hdrCount h) 16)).foldl (fun m i => max m (sectSrc h i + sectLen h i)) 1024

/-- UART_IMAGE_BYTE (R62): a byte of the image; bytes past its end are not taken. (DEDUCED, log entry 38.) -/
def execUartImageByte (value : Byte) (s : State) : Result :=
  whenDue (bootRuns s && bootSource s == 1 && bootLoads s &&
      (decide (s.boot.image.length < 1024) || decide (s.boot.image.length < imageEnd (slotHeader s 0)))) s
    (setBoot s (fun b => { b with image := b.image ++ [value] }))

/-- MIRROR_BOOT_TIMEOUT (R63): no byte of a header within 10 s of SV0 release. -/
def execMirrorBootTimeout (s : State) : Result :=
  whenDue (bootRuns s && bootSource s == 2 && bootLoads s && s.boot.image.isEmpty && decide (s.boot.startMono + 10000000000 ≤ monoNs s)) s
    (setCode (setBoot s (fun b => { b with step := .failing 0x41 })) 0 0x41)

end Sys2Proof.Machine
end

