-- ==== Sys2Proof/Machine/Fp.lean ====
section
/-!
DEFINITION. IEEE 754 binary64 arithmetic as Prism's lanes do it (*Prism: the network solver engine*): one rounding,
to nearest with ties to even, after each operation.
-/

namespace Sys2Proof.Machine

/-- A binary64 word. -/
abbrev Fp := BitVec 64

def fpNan : Fp := 0x7FF8000000000000#64
def fpInf : Fp := 0x7FF0000000000000#64
def fpOne : Fp := 0x3FF0000000000000#64

def fpSign (a : Fp) : Bool := a.getLsbD 63
def fpExp (a : Fp) : Nat := a.toNat / 2 ^ 52 % 2048
def fpFrac (a : Fp) : Nat := a.toNat % 2 ^ 52
def fpIsNan (a : Fp) : Bool := fpExp a == 2047 && fpFrac a != 0
def fpIsInf (a : Fp) : Bool := fpExp a == 2047 && fpFrac a == 0
def fpFinite (a : Fp) : Bool := fpExp a != 2047
def fpIsZero (a : Fp) : Bool := fpExp a == 0 && fpFrac a == 0
def fpNeg (a : Fp) : Fp := a ^^^ 0x8000000000000000#64
def fpAbs (a : Fp) : Fp := a &&& 0x7FFFFFFFFFFFFFFF#64

/-- Magnitude of a finite number as mantissa and exponent: m × 2 ^ e. -/
def fpMant (a : Fp) : Nat := if fpExp a = 0 then fpFrac a else fpFrac a + 2 ^ 52
def fpPow (a : Fp) : Int := (max (fpExp a) 1 : Nat) - 1075

/-- Its signed mantissa. -/
def fpSigned (a : Fp) : Int := if fpSign a then - (fpMant a : Int) else fpMant a

def fpSignBit (neg : Bool) : Nat := if neg then 2 ^ 63 else 0

/-- m × 2 ^ e, with a little more where `sticky`, rounded to nearest even. -/
def fpRound (neg : Bool) (m : Nat) (e : Int) (sticky : Bool) : Fp :=
  if m = 0 then BitVec.ofNat 64 (fpSignBit neg)
  else
    let top : Int := e + Nat.log2 m
    let q : Int := max (top - 52) (-1074)
    let mant :=
      if q ≤ e then m * 2 ^ (e - q).toNat
      else
        let sh := (q - e).toNat
        let k := m / 2 ^ sh
        let r := m % 2 ^ sh
        let half := 2 ^ (sh - 1)
        if half < r ∨ (r = half ∧ (sticky = true ∨ k % 2 = 1)) then k + 1 else k
    let bits := (q + 1074).toNat * 2 ^ 52 + mant
    BitVec.ofNat 64 (fpSignBit neg + min bits (2047 * 2 ^ 52))

/-- An exact number v × 2 ^ e, rounded; `neg0`: the sign of an exact zero. -/
def fpOfInt (v : Int) (e : Int) (neg0 : Bool) : Fp :=
  if v = 0 then BitVec.ofNat 64 (fpSignBit neg0) else fpRound (decide (v < 0)) v.natAbs e false

/-- a × b + c with one rounding. -/
def fpFma (a b c : Fp) : Fp :=
  let sp := fpSign a != fpSign b
  if fpIsNan a || fpIsNan b || fpIsNan c then fpNan
  else if fpIsInf a || fpIsInf b then
    if fpIsZero a || fpIsZero b then fpNan
    else if fpIsInf c && fpSign c != sp then fpNan
    else BitVec.ofNat 64 (fpSignBit sp + 2047 * 2 ^ 52)
  else if fpIsInf c then c
  else
    let pe := fpPow a + fpPow b
    let e := min pe (fpPow c)
    let v := fpSigned a * fpSigned b * 2 ^ (pe - e).toNat + fpSigned c * 2 ^ (fpPow c - e).toNat
    fpOfInt v e (sp && fpSign c)

def fpMul (a b : Fp) : Fp :=
  fpFma a b (BitVec.ofNat 64 (fpSignBit (fpSign a != fpSign b)))
def fpAdd (a b : Fp) : Fp := fpFma a fpOne b
def fpSub (a b : Fp) : Fp := fpAdd a (fpNeg b)

/-- a / b with one rounding. -/
def fpDiv (a b : Fp) : Fp :=
  let s := fpSign a != fpSign b
  if fpIsNan a || fpIsNan b then fpNan
  else if fpIsInf a then (if fpIsInf b then fpNan else BitVec.ofNat 64 (fpSignBit s + 2047 * 2 ^ 52))
  else if fpIsInf b then BitVec.ofNat 64 (fpSignBit s)
  else if fpIsZero b then (if fpIsZero a then fpNan else BitVec.ofNat 64 (fpSignBit s + 2047 * 2 ^ 52))
  else
    let n := fpMant a * 2 ^ 128
    fpRound s (n / fpMant b) (fpPow a - fpPow b - 128) (n % fpMant b != 0)

/-- The integer square root, by `fuel` binary digits. -/
def isqrt : Nat → Nat → Nat → Nat
  | 0, _, r => r
  | k + 1, n, r => isqrt k n (if (r + 2 ^ k) * (r + 2 ^ k) ≤ n then r + 2 ^ k else r)

/-- The square root with one rounding. -/
def fpSqrt (a : Fp) : Fp :=
  if fpIsNan a then fpNan
  else if fpIsZero a then a
  else if fpSign a then fpNan
  else if fpIsInf a then a
  else
    let odd := (fpPow a % 2).natAbs
    let n := fpMant a * 2 ^ (128 + odd)
    let r := isqrt 128 n 0
    fpRound false r ((fpPow a - odd - 128) / 2) (r * r != n)

/-- An ordering key of a number that is not NaN. -/
def fpKey (a : Fp) : Int := if fpSign a then - ((a.toNat % 2 ^ 63 : Nat) : Int) else (a.toNat % 2 ^ 63 : Nat)

/-- Comparisons; false where an operand is NaN. -/
def fpLt (a b : Fp) : Bool := !(fpIsNan a) && !(fpIsNan b) && decide (fpKey a < fpKey b)
def fpLe (a b : Fp) : Bool := !(fpIsNan a) && !(fpIsNan b) && decide (fpKey a ≤ fpKey b)
def fpMax (a b : Fp) : Fp := if fpIsNan a || fpIsNan b then fpNan else if fpLt a b then b else a
def fpMin (a b : Fp) : Fp := if fpIsNan a || fpIsNan b then fpNan else if fpLt b a then b else a

/-- The number nearest to n / d. -/
def fpRat (n : Int) (d : Nat) : Fp :=
  if n = 0 ∨ d = 0 then 0
  else
    let m := n.natAbs * 2 ^ 1200
    fpRound (decide (n < 0)) (m / d) (-1200) (m % d != 0)

/-- An integer as a number. -/
def fpNat (n : Nat) : Fp := fpOfInt n 0 false

/-! ### Logarithm and power, in fixed point with 192 fraction bits (R210) -/

def fixOne : Int := 2 ^ 192
def fixMul (a b : Int) : Int := a * b / fixOne

/-- ln 2 and 1 / ln 10. -/
def fixLn2 : Int := 4350955369971217654477563090224794165364344896676135745070
def fixInvLn10 : Int := 2726110646023761471482840155069570276004125267457443418369

/-- z + z³/3 + z⁵/5 + …, `fuel` terms. -/
def fixAtanh : Nat → Nat → Int → Int → Int
  | 0, _, _, _ => 0
  | fuel + 1, k, zz, p => p / (2 * k + 1 : Nat) + fixAtanh fuel (k + 1) zz (fixMul p zz)

/-- ln of a finite number above 0. -/
def fixLn (a : Fp) : Int :=
  let l := Nat.log2 (fpMant a)
  let m : Int := (fpMant a : Int) * 2 ^ (192 - l)
  let z := (m - fixOne) * fixOne / (m + fixOne)
  (fpPow a + l) * fixLn2 + 2 * fixAtanh 64 0 (fixMul z z) z

/-- 1 + x + x²/2 + …: `fuel` terms, the k-th one `t`. -/
def fixExp : Nat → Nat → Int → Int → Int
  | 0, _, _, _ => 0
  | fuel + 1, k, x, t => t + fixExp fuel (k + 1) x (fixMul t x / (k + 1 : Nat))

/-- A result whose last bit is open: the nearest number or one of its neighbours. (DESIGN CHOICE, log entry 52.) -/
def fpOpenBit (r a b : Fp) : Fp :=
  if !(fpFinite r) || fpIsZero r then r
  else match Config.fpLastBit a b % 3 with
    | 1 => r + 1
    | 2 => r - 1
    | _ => r

/-- The base-10 logarithm. (DESIGN CHOICE, log entry 52.) -/
def fpLog10 (a : Fp) : Fp :=
  if fpIsNan a then fpNan
  else if fpIsZero a then fpNeg fpInf
  else if fpSign a then fpNan
  else if fpIsInf a then fpInf
  else fpOpenBit (fpOfInt (fixMul (fixLn a) fixInvLn10) (-192) false) a 0

/-- a to the power y, for a number that is not negative. (DESIGN CHOICE, log entry 52.) -/
def fpPower (a y : Fp) : Fp :=
  if fpIsNan a || !(fpFinite y) then fpNan
  else if fpIsZero y then fpOne
  else if fpIsZero a || fpIsInf a then (if fpIsZero a == fpSign y then fpInf else 0)
  else if fpSign a then fpNan
  else
    let v := fpSigned y * fixLn a
    let w := if 0 ≤ fpPow y then v * 2 ^ (fpPow y).toNat else v / 2 ^ (- fpPow y).toNat
    let k := w / fixLn2
    if 1100 < k then fpInf
    else if k < -1200 then 0
    else fpOpenBit (fpOfInt (fixExp 64 0 (w % fixLn2) fixOne) (k - 192) false) a y

end Sys2Proof.Machine
end

