-- ==== Sys2Proof/Machine/MtrNum.lean ====
section
/-!
DEFINITION. The arithmetic of metering (R244, R245, R249, R258, R259): binary32 values, exact rationals, the
Callendar-Van Dusen equation, and water properties by IAPWS-IF97 (the standard's tables; log entry 7).
-/

namespace Sys2Proof.Machine

/-! ### binary32 -/

/-- The value of a finite binary32 word. -/
def f32Val (w : Word) : Rat :=
  let e : Nat := w.toNat / 2 ^ 23 % 256
  let m : Nat := w.toNat % 2 ^ 23
  let v : Rat := if e = 0 then (m : Rat) * (2 : Rat) ^ (-149 : Int) else ((m + 2 ^ 23 : Nat) : Rat) * (2 : Rat) ^ ((e : Int) - 150)
  if w.getLsbD 31 then -v else v

/-- The binary32 word of m × 2 ^ e, with a little more where `sticky`, rounded to nearest even. (DESIGN CHOICE, log entry 56.) -/
def f32Round (neg : Bool) (m : Nat) (e : Int) (sticky : Bool) : Word :=
  let s := if neg then 2 ^ 31 else 0
  if m = 0 then BitVec.ofNat 32 s
  else
    let q : Int := max (e + Nat.log2 m - 23) (-149)
    let mant :=
      if q ≤ e then m * 2 ^ (e - q).toNat
      else
        let sh := (q - e).toNat
        let k := m / 2 ^ sh
        let r := m % 2 ^ sh
        let half := 2 ^ (sh - 1)
        if half < r ∨ (r = half ∧ (sticky = true ∨ k % 2 = 1)) then k + 1 else k
    BitVec.ofNat 32 (s + min ((q + 149).toNat * 2 ^ 23 + mant) (255 * 2 ^ 23))

/-- The binary32 word nearest to a rational. -/
def f32Of (x : Rat) : Word :=
  let n := x.num.natAbs * 2 ^ 400
  f32Round (decide (x.num < 0)) (n / x.den) (-400) (n % x.den != 0)

/-- The binary32 word nearest to the square root of a rational that is not negative. -/
def f32Sqrt (x : Rat) : Word :=
  let n := x.num.natAbs * 2 ^ 800 / x.den
  let r := isqrt 700 n 0
  f32Round false r (-400) (decide (r * r ≠ n) || (x.num.natAbs * 2 ^ 800) % x.den != 0)

/-- A decimal number n × 10 ^ -k. -/
def dec (n : Int) (k : Nat) : Rat := (n : Rat) / ((10 ^ k : Nat) : Rat)

def ratAbs (x : Rat) : Rat := if x < 0 then -x else x

/-- The nearest integer; a tie goes up. -/
def ratNearest (x : Rat) : Int := (x + 1 / 2).floor

/-! ### Temperature (R258) -/

/-- R(T) by IEC 60751 at T m°C. -/
def cvd (r0 a b c : Rat) (milli : Int) : Rat :=
  let t : Rat := (milli : Rat) / 1000
  r0 * (1 + a * t + b * t * t + (if milli < 0 then c * (t - 100) * t * t * t else 0))

/-- The largest grid temperature (m°C) in [lo, lo + 2 ^ fuel) with R(T) ≤ R. -/
def cvdSearch (r0 a b c r : Rat) : Nat → Int → Int
  | 0, lo => lo
  | k + 1, lo => cvdSearch r0 a b c r k (if cvd r0 a b c (lo + 2 ^ k) ≤ r then lo + 2 ^ k else lo)

/-- The temperature of a resistance in m°C, down to the grid below it. -/
def cvdSolve (r0 a b c r : Rat) : Int := cvdSearch r0 a b c r 20 (-200000)

/-! ### IAPWS-IF97 (R258, R259) -/

/-- Region 1: exponents I and J, and n as digits and decimal places. (PRESUMED, log entry 7.) -/
def if97R1 : List (Nat × Int × Int × Nat) :=
  [(0, -2, 14632971213167, 14), (0, -1, -84548187169114, 14), (0, 0, -3756360367204, 12), (0, 1, 33855169168385, 13),
   (0, 2, -95791963387872, 14), (0, 3, 15772038513228, 14), (0, 4, -16616417199501, 15), (0, 5, 81214629983568, 17),
   (1, -9, 28319080123804, 17), (1, -7, -60706301565874, 17), (1, -1, -18990068218419, 15), (1, 0, -32529748770505, 15),
   (1, 1, -21841717175414, 15), (1, 3, -5283835796993, 17), (2, -3, -47184321073267, 17), (2, 0, -30001780793026, 17),
   (2, 1, 47661393906987, 18), (2, 3, -44141845330846, 19), (2, 17, -72694996297594, 29), (3, -4, -31679644845054, 18)] ++
  [(3, 0, -28270797985312, 19), (3, 6, -85205128120103, 23), (4, -5, -22425281908, 16), (4, -2, -65171222895601, 20),
   (4, 10, -14341729937924, 26), (5, -8, -40516996860117, 20), (8, -11, -12734301741641, 22), (8, -6, -17424871230634, 23),
   (21, -29, -68762131295531, 32), (23, -31, 14478307828521, 33), (29, -38, 26335781662795, 36), (30, -39, -11947622640071, 36),
   (31, -40, 18228094581404, 37), (32, -41, -93537087292458, 39)]

/-- Density in kg/m³ and specific enthalpy in J/kg at PRESS Pa and T °C. (PRESUMED, log entry 7.) -/
def waterProps (press t : Rat) : Rat × Rat :=
  let tk := t + dec 27315 2
  let p := press / 16530000
  let tau := 1386 / tk
  let x := dec 71 1 - p
  let y := tau - dec 1222 3
  let gp := if97R1.foldl (fun acc r => acc - (if r.1 = 0 then 0 else dec r.2.2.1 r.2.2.2 * r.1 * x ^ (r.1 - 1) * y ^ r.2.1)) (0 : Rat)
  let gt := if97R1.foldl (fun acc r => acc + dec r.2.2.1 r.2.2.2 * x ^ r.1 * (r.2.1 : Rat) * y ^ (r.2.1 - 1)) (0 : Rat)
  let rgas := dec 461526 3
  (press / (rgas * tk * p * gp), rgas * tk * tau * gt)

/-- PRESS Pa lies below the saturation pressure at T °C (region 4): (2C / (−B + √(B² − 4AC)))⁴ MPa. (PRESUMED, log entry 7.) -/
def belowSaturation (press t : Rat) : Bool :=
  let tk := t + dec 27315 2
  let th := tk + dec (-23855557567849) 14 / (tk - dec 65017534844798 11)
  let a := th * th + dec 11670521452767 10 * th + dec (-72421316703206) 8
  let b := dec (-17073846940092) 12 * th * th + dec 12020824702470 9 * th + dec (-32325550322333) 7
  let c := dec 14915108613530 12 * th * th + dec (-48232657361591) 10 * th + dec 40511340542057 8
  let d := b * b - 4 * a * c
  let root : Rat := (isqrt 400 (d.num.natAbs * 2 ^ 400 / d.den) 0 : Nat) / ((2 ^ 200 : Nat) : Rat)
  let q := 2 * c / (root - b)
  decide (press / 1000000 < q * q * q * q)

end Sys2Proof.Machine
end

