-- ==== Sys2Proof/Machine/Motion.lean ====
section
/-!
DEFINITION. Axis profiles (R278): trapezoid and jerk-limited velocity changes, stopping paths and moves to a target,
in exact rationals of microsteps and seconds.
-/

namespace Sys2Proof.Machine

/-- A square root to 2⁻⁴⁸. (DESIGN CHOICE, log entry 58.) -/
def ratSqrt (x : Rat) : Rat :=
  if x ≤ 0 then 0
  else ((isqrt 120 (x * ((2 ^ 96 : Nat) : Rat)).floor.toNat 0 : Nat) : Rat) / ((2 ^ 48 : Nat) : Rat)

def ratSign (x : Rat) : Rat := if x < 0 then -1 else if x = 0 then 0 else 1

/-- Position, velocity and acceleration `t` seconds into a piece. -/
def segStep (p v : Rat) (g : AxisSeg) (t : Rat) : Rat × Rat × Rat :=
  (p + v * t + g.a * t * t / 2 + g.j * t * t * t / 6, v + g.a * t + g.j * t * t / 2, g.a + g.j * t)

/-- Position, velocity, acceleration and the rest of a profile after `t` seconds. Past its end it goes on steadily. -/
def profileAt : Rat → Rat → List AxisSeg → Rat → Rat × Rat × Rat × List AxisSeg
  | p, v, [], t => (p + v * t, v, 0, [])
  | p, v, g :: gs, t =>
    if g.dur ≤ t then
      let e := segStep p v g g.dur
      profileAt e.1 e.2.1 gs (t - g.dur)
    else
      let e := segStep p v g t
      (e.1, e.2.1, e.2.2, { dur := g.dur - t, a := e.2.2, j := g.j } :: gs)

def segsTime (gs : List AxisSeg) : Rat := gs.foldl (fun t g => t + g.dur) 0
def segsDist (v : Rat) (gs : List AxisSeg) : Rat := (profileAt 0 v gs (segsTime gs)).1

/-- The change from velocity v, acceleration a, to velocity w and no acceleration; `jerk` none for a trapezoid. -/
def velSegs (cap : Rat) (jerk : Option Rat) (v a w : Rat) : List AxisSeg :=
  match jerk with
  | none =>
    if v = w ∨ cap = 0 then []
    else
      let sg := ratSign (w - v)
      [{ dur := sg * (w - v) / cap, a := sg * cap }]
  | some j =>
    if j = 0 ∨ cap = 0 then []
    else
      let sg := if v + a * ratAbs a / (2 * j) ≤ w then 1 else -1
      let a0 := sg * a
      let d := sg * (w - v)
      let top := ratSqrt (j * d + a0 * a0 / 2)
      let ap := if top ≤ cap then top else cap
      let t1 := ratAbs (ap - a0) / j
      let j1 := if a0 ≤ ap then j else -j
      let d1 := t1 * (a0 + ap) / 2
      let d3 := ap * ap / (2 * j)
      let th := if top ≤ cap then 0 else (d - d1 - d3) / cap
      [{ dur := t1, a := sg * a0, j := sg * j1 }, { dur := if th < 0 then 0 else th, a := sg * ap, j := 0 },
       { dur := ap / j, a := sg * ap, j := -(sg * j) }]

/-- The stopping path with deceleration `d`. -/
def stopSegs (d : Rat) (jerk : Option Rat) (v a : Rat) : List AxisSeg := velSegs d jerk v a 0

/-- The limits of a move: velocity, acceleration, deceleration, jerk. -/
structure MoveLimits where
  vmax : Rat
  acc : Rat
  dec : Rat
  jerk : Option Rat

/-- Go to peak velocity w, then to a stop. -/
def peakSegs (m : MoveLimits) (v a w : Rat) : List AxisSeg × List AxisSeg :=
  (velSegs (if w < v then m.dec else m.acc) m.jerk v a w, stopSegs m.dec m.jerk w 0)

def peakDist (m : MoveLimits) (v a w : Rat) : Rat :=
  let g := peakSegs m v a w
  segsDist v g.1 + segsDist w g.2

/-- The largest peak velocity that still ends within `d`, by halving. (DESIGN CHOICE, log entry 58.) -/
def peakFor (m : MoveLimits) (v a d : Rat) : Nat → Rat → Rat → Rat
  | 0, lo, _ => lo
  | k + 1, lo, hi =>
    let mid := (lo + hi) / 2
    if peakDist m v a mid ≤ d then peakFor m v a d k mid hi else peakFor m v a d k lo mid

/-- A move forward over `d`, from a state whose stopping path ends within it. -/
def forwardSegs (m : MoveLimits) (v a d : Rat) : List AxisSeg :=
  let w := if peakDist m v a m.vmax ≤ d then m.vmax else peakFor m v a d 64 0 m.vmax
  let g := peakSegs m v a w
  let rest := d - segsDist v g.1 - segsDist w g.2
  g.1 ++ (if w = 0 ∨ rest ≤ 0 then [] else [{ dur := rest / w, a := 0, j := 0 }]) ++ g.2

def mirrorSegs (sg : Rat) (gs : List AxisSeg) : List AxisSeg := gs.map (fun g => { g with a := sg * g.a, j := sg * g.j })

/-- A move over the signed distance `d`: directly, or by a stop with ADEC and a reversal (R280). (DESIGN CHOICE, log entry 58.) -/
def planMove (m : MoveLimits) (v a d : Rat) : List AxisSeg :=
  let sg : Rat := if d < 0 ∨ (d = 0 ∧ v < 0) then -1 else 1
  let vv := sg * v
  let stop := stopSegs m.dec m.jerk vv (sg * a)
  let sd := segsDist vv stop
  if 0 ≤ vv ∧ sd ≤ sg * d then mirrorSegs sg (forwardSegs m vv (sg * a) (sg * d))
  else
    let rest := sg * d - sd
    let sg2 : Rat := if rest < 0 then -1 else 1
    mirrorSegs sg (stop ++ (if rest = 0 then [] else mirrorSegs sg2 (forwardSegs m 0 0 (sg2 * rest))))

end Sys2Proof.Machine
end

