-- ==== Sys2Proof/Machine/Mxe.lean ====
section
/-!
DEFINITION. The axis engine (R269-R300): commands and their refusals, starts, profiles, the four sources, homing,
step and pulse generation, the axis driver link, driver power, signals.
-/

namespace Sys2Proof.Machine

/-! ### Axes and their registers -/

def axis (s : State) (a : Nat) : Axis := mget {} s.mxe.axes a
def setMxe (s : State) (f : Mxe → Mxe) : State := { s with mxe := f s.mxe }
def setAxis (s : State) (a : Nat) (f : Axis → Axis) : State :=
  setMxe s (fun m => { m with axes := mput {} m.axes a (f (axis s a)) })

/-- The axis engine runs: EN of page 0x080, and its clock (R15, R270). -/
def mxeRuns (s : State) : Bool := pageEn s 0x80 && domainUp s 7

/-- A filtered input's last change lies at least `us` µs back. (DEDUCED, log entry 59.) -/
def settled (s : State) (at0 : Option Nat) (us : Nat) : Bool :=
  match at0 with
  | some t => decide (t + us * vcoUs ≤ s.now)
  | none => true

/-- ASTAT.STATE (R297): 0 OFF, 1 DOWN, 2 IDLE, 3 MOVING, 4 STOPPING, 5 HOMING, 6 FOLLOW, 7 FAULT. -/
def axState (s : State) (a : Nat) : Nat := fld s (Reg.ASTAT a) F.ASTAT_STATE
def setAxState (s : State) (a st : Nat) : State := setFld s (Reg.ASTAT a) F.ASTAT_STATE st
def axFlag (s : State) (a : Nat) (f : Field) : Bool := flag s (Reg.ASTAT a) f
def setAxFlag (s : State) (a : Nat) (f : Field) (b : Bool) : State := setFlag s (Reg.ASTAT a) f b
def axSrc (s : State) (a : Nat) : Nat := fld s (Reg.ACFG a) F.ACFG_SRC
def axMaster (s : State) (a : Nat) : Nat := fld s (Reg.ACFG a) F.ACFG_MASTER
def axClass (s : State) (a : Nat) : Nat := fld s (Reg.ACFG a) F.ACFG_CLASS
def axAdl (s : State) (a : Nat) : Bool := axClass s a == 1 && flag s (Reg.ACFG a) F.ACFG_ADL
def axOn (s : State) (a : Nat) : Bool := flag s (Reg.ACFG a) F.ACFG_EN
/-- 2^SS microsteps of a step. -/
def axStep (s : State) (a : Nat) : Nat := 2 ^ fld s (Reg.ASTEP a) F.ASTEP_SS
def axJerk (s : State) (a : Nat) : Option Rat :=
  if flag s (Reg.ACFG a) F.ACFG_SCURVE then some (rdn s (Reg.AJERK a) : Rat) else none
def softLo (s : State) (a : Nat) : Int := signed 48 (rdn s (Reg.ASOFTLO_L a) + 2 ^ 32 * fld s (Reg.ASOFTLO_H a) F.ASOFTLO_H_V)
def softHi (s : State) (a : Nat) : Int := signed 48 (rdn s (Reg.ASOFTHI_L a) + 2 ^ 32 * fld s (Reg.ASOFTHI_H a) F.ASOFTHI_H_V)
def axTarget (s : State) (a : Nat) : Int := signed 48 (rdn s (Reg.ATGT_LO a) + 2 ^ 32 * fld s (Reg.ATGT_HI a) F.ATGT_HI_V)
def axLimits (s : State) (a vreg : Nat) : MoveLimits :=
  { vmax := (rdn s vreg : Rat), acc := (rdn s (Reg.AACC a) : Rat), dec := (rdn s (Reg.ADEC a) : Rat), jerk := axJerk s a }

/-- Set an AEVT bit of an axis and what it drives (R272). -/
def axEvent (s : State) (a k : Nat) : State :=
  let s := orReg s (Reg.AEVT a) (1#32 <<< k)
  raise (orReg s Reg.MXE_EVT_AXES (1#32 <<< a)) 0x80 k

/-- MXE_EVT_AXES after a write to an AEVT (R270). -/
def axEventsRefresh (s : State) (a : Nat) : State :=
  wr s Reg.MXE_EVT_AXES (putBit (rd s Reg.MXE_EVT_AXES) a (rd s (Reg.AEVT a) != 0))

/-- A start waits, or no longer (R279). -/
def setStart (s : State) (a : Nat) (x : Option AxisStart) : State :=
  let s := setAxis s a (fun ax => { ax with start := x })
  let s := setAxFlag s a F.ASTAT_START_PEND x.isSome
  wr s Reg.MXE_START_PEND (putBit (rd s Reg.MXE_START_PEND) a x.isSome)

/-- The axis follows a gear or legacy source. -/
def axFollows (s : State) (a : Nat) : Bool :=
  axState s a == 6 && (axSrc s a == 2 || axSrc s a == 3) && (axis s a).guard.isNone && (axis s a).start.isNone

/-- Seconds since a VCO cycle. -/
def secSince (s : State) (t : Nat) : Rat := ((s.now - t : Nat) : Rat) / 5000000000

/-- An axis brought to the present instant along its profile. -/
def axNow (s : State) (a : Nat) : Axis :=
  let ax := axis s a
  if axFollows s a then ax
  else
    let e := profileAt ax.p ax.v ax.segs (secSince s ax.at0)
    let done := ax.endPos.isSome && e.2.2.2.isEmpty && !ax.segs.isEmpty
    { ax with
      p := if done then ax.endPos.getD e.1 else e.1
      v := if done then 0 else e.2.1
      a := if done then 0 else e.2.2.1
      segs := e.2.2.2
      at0 := s.now }

/-- Position as 48.16 (R274). -/
def fix16 (p : Rat) : Int := (p * 65536).floor

/-- APOS and AVEL follow an axis; the fraction of the velocity goes either way (the manual states no rounding). (DESIGN CHOICE, log entry 58.) -/
def axShow (s : State) (a : Nat) : State :=
  let ax := axis s a
  let s := wrn s (Reg.APOS_LO a) (unsignedOf 32 (fix16 ax.p))
  let fr := fresh s
  wrn fr.2 (Reg.AVEL a) (unsignedOf 32 (ax.v.floor + (if ax.v.den != 1 && Config.freeBool fr.1 then 1 else 0)))

/-- PHASE of an axis (R292). -/
def axPhase (ax : Axis) : Nat := unsignedOf 10 (ax.p.floor + ax.offset)

/-- The position counts from `p` on: steps issued and PHASE stay as they are (R290, R296). -/
def rebase (s : State) (a : Nat) (p : Rat) : State :=
  axShow (setAxis s a (fun ax =>
    let d := p.floor - ax.p.floor
    { ax with
      p := p
      stepPos := ax.stepPos + d
      offset := ax.offset - d })) a

/-! ### Refusals and stops -/

/-- TGT_REJ with a cause (R281): 1 PATH, 2 NOT_HOMED, 3 LIMIT, 4 SAFE, 5 STATE. -/
def refuse (s : State) (a cause : Nat) : State := axEvent (setFld s (Reg.ASTAT a) F.ASTAT_REJ_CAUSE cause) a 1

def posLost (s : State) (a : Nat) : State := axEvent (setAxFlag s a F.ASTAT_POS_LOST true) a 5

/-- Homing ends in failure (R291). -/
def homeFail (s : State) (a cause : Nat) : State :=
  let s := setFld (setAxFlag s a F.ASTAT_HOMED false) (Reg.ASTAT a) F.ASTAT_HFAIL_CAUSE cause
  axEvent s a 3

/-- A stop with deceleration `d` (R282, R283): a waiting start and a queued ratio go; a softer one changes nothing. -/
def axisStop (s : State) (a d : Nat) (faulted : Bool) : State :=
  let st := axState s a
  if st == 3 || st == 5 || st == 6 then
    let s := setStart s a none
    let s := setAxis s a (fun ax => { ax with
      stop := some d, braking := none, faulted := faulted, newTarget := none, queued := none, blend := none, guard := none, holding := false })
    let s := setAxFlag (setAxFlag s a F.ASTAT_RATIO_PEND false) a F.ASTAT_BLENDING false
    setAxState (setAxFlag s a F.ASTAT_SOFT_HIT false) a 4
  else if st == 4 then
    setAxis s a (fun ax => { ax with
      stop := if max (ax.stop.getD 0) (ax.braking.getD 0) < d then some d else ax.stop, faulted := ax.faulted || faulted })
  else s

/-- A stop that ends homing as stopped, if the axis is homing. -/
def stopAll (s : State) (a d : Nat) (faulted : Bool) : State :=
  axisStop (if axState s a == 5 then homeFail s a 5 else s) a d faulted

/-- A fault of an axis (R282). -/
def axFault (s : State) (a : Nat) : State := stopAll s a (rdn s (Reg.ADEC a)) true

/-- Whether a target may be taken (R280, R281): the refusal's cause, if one applies beyond STATE. -/
def targetRefusal (s : State) (a : Nat) (t : Int) : Option Nat :=
  let ax := axNow s a
  let stopEnd := ax.p + segsDist ax.v (stopSegs (rdn s (Reg.ADEC a) : Rat) (axJerk s a) ax.v ax.a)
  let out := fun (x : Rat) => decide (x < (softLo s a : Rat)) || decide ((softHi s a : Rat) < x)
  if axFlag s a F.ASTAT_SAFE_STOP then some 4
  else if !(axFlag s a F.ASTAT_HOMED) then some 2
  else if (axFlag s a F.ASTAT_LIM_P && decide (ax.p < (t : Rat))) || (axFlag s a F.ASTAT_LIM_N && decide ((t : Rat) < ax.p)) then some 3
  else if out (t : Rat) || out stopEnd then some 1
  else none

/-- A move to `t` that R281 lets pass: a start from IDLE, a new target else. -/
def moveTo (s : State) (a : Nat) (t : Int) : State :=
  match targetRefusal s a t with
  | some c => refuse s a c
  | none =>
    let ax := axNow s a
    let s := setAxis s a (fun ax => { ax with target := t })
    if axState s a == 2 then setAxState (setStart s a (some .move)) a 3
    else if ax.start.isSome then s
    else if axState s a == 6 && ax.v == 0 && ax.segs.isEmpty && ax.newTarget.isNone then setStart s a (some .target)
    else setAxis s a (fun ax => { ax with newTarget := some t })

/-! ### Commands (ACMD) -/

/-- HOME, GEAR, FOLLOW: accepted in IDLE (R279, R281). (DESIGN CHOICE, log entry 58.) -/
def startCmd (s : State) (a : Nat) (srcOk homed : Bool) (x : AxisStart) (st : Nat) : State :=
  if axState s a != 2 || !srcOk then refuse s a 5
  else if axFlag s a F.ASTAT_SAFE_STOP then refuse s a 4
  else if homed && !(axFlag s a F.ASTAT_HOMED) then refuse s a 2
  else setAxState (setStart s a (some x)) a st

/-- The master count of an axis, before it wraps. -/
def masterOf (s : State) (a : Nat) : Int := mget 0 s.mxe.counts (axMaster s a)

/-- Queue the ratio in AGEAR (R289). -/
def queueRatio (s : State) (a : Nat) : State :=
  let r : AxisRatio := {
    num := signed 32 (rdn s (Reg.AGEAR_NUM a)), den := rdn s (Reg.AGEAR_DEN a),
    at0 := (rdn s (Reg.AGEAR_AT a) : Int), blend := rdn s (Reg.AGEAR_BLEND a) }
  let m := masterOf s a
  let here := (axis s a).start.isNone && unsignedOf 32 m == rdn s (Reg.AGEAR_AT a)
  let r := if here then { r with reached := true, at0 := m, late := (axis s a).blend.isSome } else r
  setAxFlag (setAxis s a (fun ax => { ax with queued := some r })) a F.ASTAT_RATIO_PEND true

/-- The driver is energised and must report ready (R295). -/
def powerUp (s : State) (a : Nat) : State :=
  let s := setAxis s a (fun ax => { ax with energised := true, powerAt := some s.now, adlBad := 0, echoBad := 0, sent := none })
  let s := setAxFlag s a F.ASTAT_ADL_ERR false
  if !(axAdl s a) && !(flag s (Reg.ACFG a) F.ACFG_DRDY_USE && !(axis s a).ready) then
    setAxState (setAxis s a (fun ax => { ax with powerAt := none })) a 2
  else s

/-- The driver is de-energised (R295). -/
def powerDown (s : State) (a : Nat) : State :=
  let s := setAxis s a (fun ax => { ax with energised := false, powerAt := none, v := 0, a := 0, segs := [], inc := 0, timer := none })
  let s := if flag s (Reg.ACFG a) F.ACFG_RETAIN then s else setAxFlag (posLost s a) a F.ASTAT_HOMED false
  setAxState s a 1

/-- The driver of an axis is ready. -/
def driverReady (s : State) (a : Nat) : Bool :=
  (axis s a).energised && ((axis s a).ready || (!(axAdl s a) && !(flag s (Reg.ACFG a) F.ACFG_DRDY_USE)))

/-- The codes of ACMD.CMD (R279-R297). An axis in OFF takes none. (DEDUCED, log entry 59.) -/
def axCommand (s : State) (a cmd : Nat) : State :=
  let st := axState s a
  if st == 0 then s
  else match cmd with
  | 1 =>
    if st == 1 || st == 4 || st == 5 || st == 7 || !(axSrc s a == 0 || axSrc s a == 1) then refuse s a 5
    else moveTo s a (axTarget s a)
  | 2 => if st == 3 || st == 5 || st == 6 then stopAll s a (rdn s (Reg.ADEC a)) false else axisStop s a (rdn s (Reg.ADEC a)) false
  | 3 => startCmd s a true false .home 5
  | 4 =>
    let s' := startCmd s a (axSrc s a == 2) true .gear 6
    if (axis s' a).start.isSome && st == 2 then queueRatio s' a else s'
  | 5 => if st == 6 then queueRatio s a else s
  | 6 => startCmd s a (axSrc s a == 1 || axSrc s a == 3) true .follow 6
  | 7 => if st == 2 || st == 7 then powerDown s a else s
  | 8 => if st == 1 || st == 7 then powerUp s a else s
  | 9 =>
    if st == 1 || st == 2 then
      let s := rebase s a (axTarget s a : Rat)
      setAxFlag (setAxFlag s a F.ASTAT_HOMED true) a F.ASTAT_POS_LOST false
    else s
  | 10 => if st == 7 && driverReady s a then setAxState (setAxFlag s a F.ASTAT_ADL_ERR false) a 2 else s
  | _ => s

/-- A write of a command code to ACMD. (DEDUCED, log entry 87.) -/
def acmdWrite (ini : Fin 16) (a cmd : Nat) (s : State) : Result :=
  softWrite ini (0x81 + a / 2) (0x98 + 0x100 * (a % 2)) (errIf (cmd == 0 || decide (10 < cmd)) 37) s (fun s => axCommand s a cmd)

/-- MOVE (R279-R281). -/
def execMove (ini : Fin 16) (a : Fin 16) (s : State) : Result := acmdWrite ini a.val 1 s
/-- AXIS_STOP (R282). -/
def execAxisStop (ini : Fin 16) (a : Fin 16) (s : State) : Result := acmdWrite ini a.val 2 s
/-- HOME (R279, R281, R290). (DEDUCED, log entry 59.) -/
def execHome (ini : Fin 16) (a : Fin 16) (s : State) : Result := acmdWrite ini a.val 3 s
/-- GEAR (R279, R281, R289). -/
def execGear (ini : Fin 16) (a : Fin 16) (s : State) : Result := acmdWrite ini a.val 4 s
/-- RATIO (R289). -/
def execRatio (ini : Fin 16) (a : Fin 16) (s : State) : Result := acmdWrite ini a.val 5 s
/-- FOLLOW (R279, R281, R286, R287). -/
def execFollow (ini : Fin 16) (a : Fin 16) (s : State) : Result := acmdWrite ini a.val 6 s
/-- POWER_DOWN (R295). -/
def execPowerDown (ini : Fin 16) (a : Fin 16) (s : State) : Result := acmdWrite ini a.val 7 s
/-- POWER_UP (R295). -/
def execPowerUp (ini : Fin 16) (a : Fin 16) (s : State) : Result := acmdWrite ini a.val 8 s
/-- SET_POS (R296). -/
def execSetPos (ini : Fin 16) (a : Fin 16) (s : State) : Result := acmdWrite ini a.val 9 s
/-- CLEAR (R295). -/
def execClear (ini : Fin 16) (a : Fin 16) (s : State) : Result := acmdWrite ini a.val 10 s

/-! ### Configuration (R270, R273) -/

/-- The error of a RWL write that leaves register `off` of an axis at `v`. (DEDUCED, log entry 59; DESIGN CHOICE, log entry 83.) -/
def axCfgErr (s : State) (a off : Nat) (v : Word) : Option Nat :=
  let t := wr s (Reg.ACFG a + off) v
  let cap := if axClass t a == 1 then 500000 * axStep t a else 10000000 * axStep t a
  let idle := decide (axState s a ≤ 2)
  let keep := fun (w : Word) => w &&& 0x7FFFFFFF#32
  (errIf (!idle) 273).orElse (fun _ =>
    (errIf (off == 0 && axOn s a && keep v != keep (rd s (Reg.ACFG a))) 273).orElse (fun _ =>
      (errIf (decide (off ≤ 8) && (axClass t a == 1 || axClass t a == 2) && decide (cap < rdn t (Reg.AVMAX a))) 273).orElse (fun _ =>
        errIf (decide (0x20 ≤ off) && decide (off ≤ 0x2C) && decide (softHi t a < softLo t a)) 273)))

/-- What a change of ACFG.EN does (R273, R297). -/
def axCfgWritten (s : State) (a : Nat) (was : Bool) : State :=
  if !was && axOn s a then (if axState s a == 0 then setAxState s a 1 else s)
  else if was && !(axOn s a) then
    let s := powerDown s a
    setAxState (setAxFlag s a F.ASTAT_HOMED false) a 0
  else s

/-- PCTL.EN of page 0x080 may not be cleared now (R270). -/
def mxeBusy (s : State) : Bool := (List.range 16).any (fun a => decide (3 ≤ axState s a))

/-! ### SAFE, the external source, power fail -/

/-- A SAFE stop request comes into force or goes (R299). -/
def axisSafe (s : State) (a : Nat) (on : Bool) : State :=
  if on == axFlag s a F.ASTAT_SAFE_STOP then s
  else
    let s := setAxFlag s a F.ASTAT_SAFE_STOP on
    let st := axState s a
    if on && decide (3 ≤ st) && decide (st ≤ 6) then axEvent (stopAll s a (rdn s (Reg.ALIMDEC a)) false) a 9 else s

/-- A value a CLE loop writes to an axis (R286, R300). -/
def axisSetpoint (s : State) (a v q : Nat) : State :=
  if held s || axState s a != 6 || axSrc s a != 1 || (axis s a).start == some .follow then s
  else if q == 2 && flag s (Reg.ACFG a) F.ACFG_EXT_HOLD then
    setStart (setAxis s a (fun ax => { ax with
      holding := true, newTarget := none, stop := if ax.holding then ax.stop else some (rdn s (Reg.ADEC a)) })) a none
  else if q == 2 && (axis s a).holding then s
  else
    let held := (axis s a).holding
    let s := setAxis s a (fun ax => { ax with holding := false, stop := none })
    let t := signed 32 (rdn s (Reg.AEXT_ZERO a)) + (signed 16 v * signed 32 (rdn s (Reg.AEXT_SPAN a))).tdiv 32768
    let t := min (max t (softLo s a)) (softHi s a)
    if t == (axis s a).target && !held then s else moveTo s a t

/-- Step 2 of R71 (R300). -/
def mxePowerFail (s : State) : State :=
  (List.range 16).foldl (fun s a => setAxis s a (fun ax => { ax with energised := false, inc := 0, spread := 0, timer := none })) s

/-- A reset of the axis engine. -/
def mxeReset (s : State) : State := { s with mxe := {} }

/-! ### Start grid (R279) -/

/-- A waiting start is executed: its motion begins at the next profile tick (R275). -/
def startNow (s : State) (a : Nat) : State :=
  let x := (axis s a).start
  let s := setStart (setAxis s a (fun _ => axNow s a)) a none
  let s := if role s = 4 then mirrorSend s 9 0 a none [] else s
  match x with
  | some .move => setAxis s a (fun ax => { ax with newTarget := some ax.target })
  | some .target => setAxis s a (fun ax => { ax with newTarget := some ax.target })
  | some .home => setAxis s a (fun ax => { ax with hstep := 0 })
  | some .gear =>
    let m := masterOf s a
    let s := setAxis s a (fun ax => { ax with ratio := 0, m0 := m, p0 := ax.p, src0 := ax.p })
    (match (axis s a).queued with
    | some r => setAxis s a (fun ax => { ax with
        queued := some (if unsignedOf 32 m == unsignedOf 32 r.at0 then { r with reached := true, at0 := m } else r) })
    | none => s)
  | some .follow => setAxis s a (fun ax => { ax with
      target := ax.p.floor, follow := ax.p, src0 := ax.p, edges := [], hurry := false, holding := false })
  | none => s

/-- START_GRID_POINT (R279). -/
def execStartGridPoint (s : State) : Result :=
  whenDue (mxeRuns s && !(held s) && decide (s.mxe.grids < monoNs s / 50000)) s
    (let t := setMxe s (fun m => { m with grids := monoNs s / 50000 })
     match (List.range 16).find? (fun a => (axis t a).start.isSome) with
     | some a => startNow t a
     | none => t)

/-! ### Following (R285, R287-R289) -/

/-- The slave position at a master count. -/
def gearPos (ax : Axis) (m : Int) : Rat :=
  match ax.blend with
  | none => ax.p0 + ((m - ax.m0 : Int) : Rat) * ax.ratio
  | some b =>
    let u : Rat := ((b.dir * (m - b.p) : Int) : Rat)
    let sg : Rat := (b.dir : Rat)
    let n : Rat := (b.dist : Rat)
    if u < 0 then b.pos + sg * u * b.r1
    else if u ≤ n then b.pos + sg * (b.r1 * u + (b.r2 - b.r1) * u * u / (2 * n))
    else b.pos + sg * (n * (b.r1 + b.r2) / 2 + b.r2 * (u - n))

/-- The position the source asks for at this tick. -/
def sourcePos (s : State) (a : Nat) : Rat := if axSrc s a == 2 then gearPos (axis s a) (masterOf s a) else (axis s a).follow

/-- Move the following law so that it gives `p` where it gave `q`. -/
def reanchor (ax : Axis) (d : Rat) : Axis :=
  { ax with
    p0 := ax.p0 + d
    follow := ax.follow + d
    blend := ax.blend.map (fun b => { b with pos := b.pos + d }) }

/-- The position a following axis takes at this tick, `dt` seconds after the last. -/
def followPos (s : State) (a : Nat) (dt : Rat) : Rat :=
  let ax := axis s a
  if axSrc s a == 2 then sourcePos s a
  else
    let top : Rat := (rdn s (Reg.AVMAX a) : Rat)
    let rate : Rat :=
      if ax.hurry then top
      else match ax.edges with
        | t1 :: t0 :: _ =>
          let r := ((2 ^ fld s (Reg.ASTEP a) F.ASTEP_LD : Nat) : Rat) * 5000000000 / ((t1 - t0 : Nat) : Rat)
          if top < r then top else r
        | _ => 0
    let d := ax.follow - ax.p
    if ratAbs d ≤ rate * dt then ax.follow else ax.p + ratSign d * rate * dt

/-- The soft limit the axis would pass if it stopped with ALIMDEC from here. -/
def guardHit (s : State) (a : Nat) (p v : Rat) : Option Int :=
  let e := p + segsDist v (stopSegs (rdn s (Reg.ALIMDEC a) : Rat) (axJerk s a) v 0)
  if 0 < v ∧ (softHi s a : Rat) ≤ e then some (softHi s a)
  else if v < 0 ∧ e ≤ (softLo s a : Rat) then some (softLo s a)
  else none

/-- Stop so as to end at a limit: steadily on, then ALIMDEC. -/
def guardSegs (s : State) (a : Nat) (ax : Axis) (lim : Int) : List AxisSeg :=
  let st := stopSegs (rdn s (Reg.ALIMDEC a) : Rat) (axJerk s a) ax.v 0
  let rest := (lim : Rat) - ax.p - segsDist ax.v st
  if ax.v = 0 ∨ rest / ax.v ≤ 0 then st else { dur := rest / ax.v } :: st

/-- The steps due at this tick, spread over the next (R276). (DESIGN CHOICE, log entry 58.) -/
def setSpread (s : State) (a : Nat) : State :=
  setAxis s a (fun ax => { ax with spread := (ax.p.floor - ax.stepPos).natAbs / axStep s a, spreadDone := 0 })

/-- A following axis at a profile tick. -/
def tickFollow (s : State) (a : Nat) : State :=
  let ax := axis s a
  let dt := secSince s ax.at0
  let p := followPos s a dt
  let v := if dt = 0 then ax.v else (p - ax.p) / dt
  match guardHit s a p v with
  | some lim =>
    let s := setAxis s a (fun ax => { ax with
      guard := some lim, segs := guardSegs s a ax lim, endPos := some (lim : Rat), src0 := sourcePos s a })
    setAxFlag s a F.ASTAT_SOFT_HIT true
  | none =>
    let src := sourcePos s a
    let s := setAxis s a (fun ax => { ax with p := p, v := v, a := 0, segs := [], at0 := s.now, src0 := src })
    let top : Rat := (rdn s (Reg.AVMAX a) : Rat)
    if axSrc s a == 2 && (decide (top < ratAbs v) || decide ((rdn s (Reg.AACC a) : Rat) * dt < ratAbs (v - ax.v))) then axFault s a
    else s

/-- A following axis held at a soft limit (R285). -/
def tickGuard (s : State) (a : Nat) (lim : Int) : State :=
  let s := setAxis s a (fun _ => axNow s a)
  let src := sourcePos s a
  let d := src - (axis s a).src0
  let away := if lim == softHi s a then decide (d < 0) else decide (0 < d)
  let s := setAxis s a (fun ax => { ax with src0 := src })
  if away then
    let s := setAxis s a (fun ax => { reanchor ax (ax.p + d - src) with guard := none, segs := [], endPos := none })
    setAxFlag s a F.ASTAT_SOFT_HIT false
  else s

/-! ### Homing (R290, R291) -/

/-- Against HDIR: +1 or −1. -/
def homeBack (s : State) (a : Nat) : Int := if flag s (Reg.AHOME a) F.AHOME_HDIR then 1 else -1

/-- Step 2: the search begins. -/
def homeSearch (s : State) (a : Nat) : State :=
  setAxis s a (fun ax =>
    let g := velSegs (rdn s (Reg.AACC a) : Rat) (axJerk s a) ax.v ax.a (-(homeBack s a : Rat) * (rdn s (Reg.AHVEL a) : Rat))
    { ax with
      hstep := 2, travel0 := ax.p, segs := g, endPos := none, braking := none, hist := some (ax.p, ax.v, ax.a, ax.at0, g) })

/-- A homing move over a distance. -/
def homeMove (s : State) (a step : Nat) (d : Rat) : State :=
  setAxis s a (fun ax => { ax with
    hstep := step, segs := planMove (axLimits s a (Reg.AHVEL a)) ax.v ax.a d, endPos := some (ax.p + d), braking := none })

/-- Homing ends well (step 6). -/
def homeDone (s : State) (a : Nat) : State :=
  let ax := axis s a
  let s := rebase s a (ax.p - (ax.latch : Rat) / 65536 + (signed 32 (rdn s (Reg.AHOFS a)) : Rat))
  let s := setAxFlag (setAxFlag s a F.ASTAT_HOMED true) a F.ASTAT_POS_LOST false
  axEvent (setAxState (setAxis s a (fun ax => { ax with hstep := 0, hist := none })) a 2) a 2

/-- A homing axis at a profile tick. -/
def tickHome (s : State) (a : Nat) : State :=
  let ax := axis s a
  let still := ax.segs.isEmpty && ax.v == 0
  let max := rdn s (Reg.AHMAX a)
  if decide (2 ≤ ax.hstep) && ax.hstep != 11 && max != 0 && decide ((max : Rat) < ratAbs (ax.p - ax.travel0)) then
    axisStop (homeFail s a 3) a (rdn s (Reg.ADEC a)) false
  else match ax.hstep with
  | 0 =>
    if ax.ref then setAxis s a (fun ax => { ax with
      hstep := 1, endPos := none,
      segs := velSegs (rdn s (Reg.AACC a) : Rat) (axJerk s a) ax.v ax.a ((homeBack s a : Rat) * (rdn s (Reg.AHVEL a) : Rat)) })
    else homeSearch s a
  | 1 => if ax.ref then s else homeMove s a 11 ((homeBack s a : Rat) * (rdn s (Reg.ABACKOFF a) : Rat))
  | 11 => if still then homeSearch s a else s
  | 2 => s
  | 3 =>
    if ax.braking.isNone then setAxis s a (fun ax => { ax with
      braking := some (rdn s (Reg.ADEC a)), endPos := none, segs := stopSegs (rdn s (Reg.ADEC a) : Rat) (axJerk s a) ax.v ax.a })
    else if still then
      homeMove s a 4 ((ax.latch : Rat) / 65536 + (homeBack s a : Rat) * (rdn s (Reg.ABACKOFF a) : Rat) - ax.p)
    else s
  | 4 => if still then setAxis s a (fun ax => { ax with hstep := 5, standAt := s.now }) else s
  | _ =>
    if !ax.ref && decide (ax.standAt + fld s (Reg.AHOME a) F.AHOME_HFILT * vcoUs ≤ s.now) then homeDone s a else s

/-- HOME_EDGE (R290, R291): a level of the home input that has held for HFILT µs. -/
def homeEdge (s : State) (a : Nat) (level : Bool) : State :=
  let byLimit := flag s (Reg.AHOME a) F.AHOME_HSRC
  let on := xor level (flag s (Reg.ACFG a) (if byLimit then F.ACFG_LIM_POL else F.ACFG_HOME_POL))
  let s := if byLimit then s else setAxFlag s a F.ASTAT_HOME_IN on
  let ax := axis s a
  let s := setAxis s a (fun ax => { ax with ref := on })
  if on && axState s a == 5 && ax.hstep == 2 then
    let t0 := s.now - fld s (Reg.AHOME a) F.AHOME_HFILT * vcoUs
    let p := match ax.hist with
      | some (p, v, _, at0, g) => (profileAt p v g (((t0 - at0 : Nat) : Rat) / 5000000000)).1
      | none => ax.p
    let l := fix16 p
    let s := setAxis s a (fun ax => { ax with hstep := 3, latch := l, braking := none })
    wrn s (Reg.AHLATCH_LO a) (unsignedOf 32 l)
  else s

def execHomeEdge (a : Fin 16) (level : Bool) (s : State) : Result :=
  whenDue (mxeRuns s && axOn s a.val && settled s (axis s a.val).refAt (fld s (Reg.AHOME a.val) F.AHOME_HFILT)) s
    (homeEdge (setAxis s a.val (fun ax => { ax with refAt := some s.now })) a.val level)

/-- HOMING_UNSTABLE (R291): step 5 has lasted 100 ms. -/
def execHomingUnstable (a : Fin 16) (s : State) : Result :=
  let ax := axis s a.val
  whenDue (mxeRuns s && axState s a.val == 5 && ax.hstep == 5 && decide (ax.standAt + 100 * vcoMs ≤ s.now)) s
    (axisStop (homeFail s a.val 4) a.val (rdn s (Reg.ADEC a.val)) false)

/-! ### Hard limits (R284, R291) -/

/-- An active limit stops motion towards it, unless it is the reference of the homing in progress. -/
def limitStop (s : State) (a : Nat) (positive : Bool) : State :=
  let ax := axNow s a
  let st := axState s a
  let towards := if positive then decide (0 < ax.v) else decide (ax.v < 0)
  let isDir := (homeBack s a == -1) == positive
  let byLimit := flag s (Reg.AHOME a) F.AHOME_HSRC
  let d := rdn s (Reg.ALIMDEC a)
  let hit := fun (s : State) => if towards then axEvent s a 4 else s
  if st == 5 && (axis s a).start.isNone then
    if isDir && byLimit then s
    else if isDir then axisStop (hit (homeFail s a 2)) a d false
    else axisStop (hit (homeFail s a 1)) a d false
  else if towards && (st == 3 || st == 6 || (st == 4 && decide (max (ax.stop.getD 0) (ax.braking.getD 0) < d))) then
    axisStop (hit s) a d false
  else s

/-- HARD_LIMIT (R279, R284, R291): a limit input has changed for 4 µs. (DEDUCED, log entry 59.) -/
def execHardLimit (a : Fin 16) (positive level : Bool) (s : State) : Result :=
  whenDue (mxeRuns s && axOn s a.val && settled s (if positive then (axis s a.val).limPAt else (axis s a.val).limNAt) 4) s
    (let on := xor level (flag s (Reg.ACFG a.val) F.ACFG_LIM_POL)
     let s := setAxis s a.val (fun ax => if positive then { ax with limPAt := some s.now } else { ax with limNAt := some s.now })
     let t := setAxFlag s a.val (if positive then F.ASTAT_LIM_P else F.ASTAT_LIM_N) on
     if !on then t
     else
      let waits := (axis t a.val).start.isSome
      let t := limitStop t a.val positive
      if waits && (axis t a.val).start.isSome && axState t a.val != 4 then axisStop t a.val (rdn t (Reg.ALIMDEC a.val)) false else t)

/-! ### The profile tick (R275) -/

/-- Standstill of a stop (R282). -/
def stopEnd (s : State) (a : Nat) : State :=
  let f := (axis s a).faulted
  let s := setAxis s a (fun ax => { ax with braking := none, stop := none, faulted := false, endPos := none, hstep := 0, hist := none })
  if f then axEvent (setAxState s a 7) a 6 else axEvent (setAxState s a 2) a 0

/-- Take up a stop, if it is harder than the one in progress. -/
def takeStop (s : State) (a : Nat) : State :=
  match (axis s a).stop with
  | none => s
  | some d =>
    if d ≤ (axis s a).braking.getD 0 then setAxis s a (fun ax => { ax with stop := none })
    else setAxis s a (fun ax => { ax with
      stop := none, braking := some d, endPos := none, segs := stopSegs (d : Rat) (axJerk s a) ax.v ax.a })

/-- An axis under its own profile: a new target is planned from position, velocity and acceleration (R280). -/
def tickProfile (s : State) (a : Nat) : State :=
  match (axis s a).newTarget with
  | some t => setAxis s a (fun ax => { ax with
      newTarget := none, target := t, braking := none, endPos := some (t : Rat),
      segs := planMove (axLimits s a (Reg.AVMAX a)) ax.v ax.a ((t : Rat) - ax.p) })
  | none => s

/-- One axis at a profile tick. -/
def tickAxis (s : State) (a : Nat) : State :=
  let st := axState s a
  if st < 3 ∨ 6 < st ∨ (axis s a).start.isSome = true then s
  else if axFollows s a then axShow (setSpread (tickFollow s a) a) a
  else
    let s := match (axis s a).guard with
      | some lim => if st == 6 then tickGuard s a lim else s
      | none => setAxis s a (fun _ => axNow s a)
    let ax := axis s a
    let still := ax.segs.isEmpty && ax.v == 0
    let s :=
      if st == 4 then
        let s := takeStop s a
        let ax := axis s a
        if ax.segs.isEmpty && ax.v == 0 then stopEnd s a
        else if ax.segs.isEmpty && ax.braking.isSome then stopEnd (setAxis s a (fun ax => { ax with v := 0, a := 0 })) a
        else s
      else if st == 5 then tickHome s a
      else if st == 3 then
        let s := tickProfile s a
        if still && ax.newTarget.isNone then axEvent (setAxState (setAxis s a (fun ax => { ax with endPos := none })) a 2) a 0 else s
      else if ax.guard.isSome then s
      else
        let s := tickProfile (takeStop s a) a
        let ax := axis s a
        if ax.braking.isSome && ax.segs.isEmpty then setAxis s a (fun ax => { ax with v := 0, a := 0, braking := none }) else s
    let s := if axFlag s a F.ASTAT_LIM_P then limitStop s a true else s
    let s := if axFlag s a F.ASTAT_LIM_N then limitStop s a false else s
    let s := if st == 6 then setSpread s a else s
    axShow s a

/-- Seconds until a profile has moved at least `d` away from `c`: by halving within the piece in which it gets there. (DESIGN CHOICE,
log entry 58.) -/
def pieceTime (p v c d : Rat) (g : AxisSeg) : Nat → Rat → Rat → Rat
  | 0, _, hi => hi
  | k + 1, lo, hi =>
    let mid := (lo + hi) / 2
    if d ≤ ratAbs ((segStep p v g mid).1 - c) then pieceTime p v c d g k lo mid else pieceTime p v c d g k mid hi

def reachTime (c d : Rat) : Rat → Rat → List AxisSeg → Option Rat
  | p, v, [] =>
    if d ≤ ratAbs (p - c) then some 0
    else if v = 0 then none
    else some (((c + ratSign v * d) - p) / v)
  | p, v, g :: gs =>
    let e := segStep p v g g.dur
    if d ≤ ratAbs (p - c) then some 0
    else if d ≤ ratAbs (e.1 - c) then some (pieceTime p v c d g 60 0 g.dur)
    else (reachTime c d e.1 e.2.1 gs).map (fun t => g.dur + t)

/-- The step timer of a pin axis takes the time its profile needs to the next step, from the last one, in CLK_MOT cycles; what
rounding leaves is carried (R276). (DESIGN CHOICE, log entry 58.) -/
def loadTimer (s : State) (a : Nat) : State :=
  let ax := axNow s a
  match reachTime (ax.stepPos : Rat) ((axStep s a : Nat) : Rat) ax.p ax.v ax.segs with
  | none => setAxis s a (fun x => { x with timer := none, residue := 0 })
  | some t =>
    let due : Rat := ((s.now : Nat) : Rat) / 25 + t * 200000000
    setAxis s a (fun x => { x with timer := some (ratNearest due).toNat, residue := due - (ratNearest due : Rat) })

/-- An axis whose steps its own step timer times: class S with pins, and no following source (R276). -/
def axTimed (s : State) (a : Nat) : Bool := axOn s a && axClass s a == 1 && !(axAdl s a) && decide (2 ≤ axState s a) && decide (axState s a ≤ 5)

/-- A tick's profile replaces the running interval (R276). -/
def tickTimer (s : State) (a : Nat) : State := if axTimed s a then loadTimer s a else s

/-- The rate multiplier takes the velocity of the tick (R277). -/
def tickPulse (s : State) (a : Nat) : State :=
  if axClass s a != 2 then s
  else setAxis s a (fun ax =>
    let c := s.now / 25
    { ax with
      phase := ax.phase + ax.inc * (c - ax.phaseAt), phaseAt := c,
      inc := (ratNearest (ratAbs ax.v * ((2 ^ 48 : Nat) : Rat) / ((axStep s a * 200000000 : Nat) : Rat))).toNat })

/-- PROFILE_TICK (R275). -/
def execProfileTick (s : State) : Result :=
  whenDue (mxeRuns s && !(held s) && decide (s.mxe.ticks < monoNs s / 20000)) s
    ((List.range 16).foldl (fun s a => if axOn s a then tickTimer (tickPulse (tickAxis s a) a) a else s)
      (setMxe s (fun m => { m with ticks := monoNs s / 20000 })))

/-! ### Steps and pulses (R276, R277) -/

/-- The level of MXE_DIRn for a direction (R273). -/
def dirLevel (s : State) (a : Nat) (neg : Bool) : Bool := if flag s (Reg.ACFG a) F.ACFG_DIR_POL then neg else !neg

/-- A step or pulse in a direction: the direction first, then the step once the pin has settled. -/
def issue (s : State) (a gap : Nat) (neg : Bool) : State :=
  let ax := axis s a
  if ax.dirNeg != neg then setAxis s a (fun ax => { ax with dirNeg := neg, dirAt := some s.now })
  else if (match ax.dirAt with | some t => decide (t + gap ≤ s.now) | none => true) then
    setAxis s a (fun ax => { ax with
      stepAt := some s.now, spreadDone := ax.spreadDone + 1, stepPos := ax.stepPos + (if neg then -(axStep s a : Int) else (axStep s a : Int)) })
  else s

/-- A spread step is due: the k-th of n steps at k / n of the tick. -/
def spreadDue (s : State) (a : Nat) : Bool :=
  let ax := axis s a
  decide (ax.spreadDone < ax.spread) && decide (ax.at0 + ax.spreadDone * 20 * vcoUs / ax.spread ≤ s.now)

/-- The level of MXE_STEPn: high for 1 µs from a step of class S, for 50 ns from a pulse of class P (R276, R277). -/
def stepLevel (s : State) (a : Nat) : Bool :=
  match (axis s a).stepAt with
  | some t => decide (s.now < t + (if axClass s a = 2 then vcoUs / 20 else vcoUs))
  | none => false

/-- STEP_ISSUE (R276): the step timer of a pin axis expires, or a spread step is due. -/
def execStepIssue (a : Fin 16) (s : State) : Result :=
  let a := a.val
  let ax := axNow s a
  let due := if axState s a == 6 then spreadDue s a else (match ax.timer with | some c => decide (c ≤ s.now / 25) | none => false)
  whenDue (mxeRuns s && !(held s) && axOn s a && axClass s a == 1 && !(axAdl s a) && ax.energised && due &&
      (match ax.stepAt with | some t => decide (t + 2 * vcoUs ≤ s.now) | none => true)) s
    (let t := issue s a vcoUs (decide (ax.p < (ax.stepPos : Rat)))
     if (axis t a).stepPos = ax.stepPos then t else tickTimer t a)

/-- CLASS_P_PULSE (R277). -/
def execClassPPulse (a : Fin 16) (s : State) : Result :=
  let a := a.val
  let ax := axis s a
  let total := (ax.phase + ax.inc * (s.now / 25 - ax.phaseAt)) / 2 ^ 48
  whenDue (mxeRuns s && !(held s) && axOn s a && axClass s a == 2 && ax.energised && decide (ax.pulses < total)) s
    (let neg := if ax.v = 0 then ax.dirNeg else decide (ax.v < 0)
     let t := issue s a (vcoUs / 5) neg
     if (axis t a).stepAt == some s.now && ax.dirNeg == neg then setAxis t a (fun ax => { ax with pulses := ax.pulses + 1 }) else t)

/-! ### Encoders (R271, R287-R289) -/

def encMode (s : State) (e : Nat) : Nat := (rdn s Reg.MXE_ENC_CFG >>> (8 * e)) % 4
def encInv (s : State) (e : Nat) : Bool := (rdn s Reg.MXE_ENC_CFG).testBit (8 * e + 2)

/-- Where a level pair stands in the quadrature sequence: A leads B when the count rises. -/
def quadPos : Bool → Bool → Nat
  | false, false => 0
  | true, false => 1
  | true, true => 2
  | false, true => 3

/-- The count an accepted change of A and B makes. (DEDUCED, log entry 59.) -/
def encDelta (s : State) (e : Nat) (a b : Bool) : Int :=
  let old := mget (false, false) s.mxe.levels e
  let d : Int :=
    if encMode s e = 1 then
      (match (quadPos a b + 4 - quadPos old.1 old.2) % 4 with | 1 => 1 | 3 => -1 | _ => 0)
    else if encMode s e = 2 then (if a && !old.1 then (if b then -1 else 1) else 0)
    else 0
  if encInv s e then -d else d

/-- An axis sees its master count by `d`. -/
def masterCounted (e : Nat) (d m : Int) (s : State) (a : Nat) : State :=
  if !(axOn s a) || axMaster s a != e || axState s a != 6 || (axis s a).start.isSome then s
  else if axSrc s a == 3 then setAxis s a (fun ax => { ax with
    follow := ax.follow + (((d * (2 ^ fld s (Reg.ASTEP a) F.ASTEP_LD : Nat) : Int)) : Rat), edges := s.now :: ax.edges.take 1, hurry := false })
  else if axSrc s a == 2 then setAxis s a (fun ax => { ax with
    queued := ax.queued.map (fun r => if !r.reached && unsignedOf 32 m == unsignedOf 32 r.at0 then
      { r with reached := true, at0 := m, late := ax.blend.isSome } else r) })
  else s

/-- MXE_ENC_CFG.FILT of an encoder. (DEDUCED, log entry 59.) -/
def encFilt (s : State) (e : Nat) : Nat := (rdn s Reg.MXE_ENC_CFG >>> (8 * e + 4)) % 16

/-- The filters let a change of A and B through: an input that changes has held its level before for FILT × 50 ns (R271). -/
def encFiltered (s : State) (e : Nat) (a b : Bool) : Bool :=
  let old := mget (false, false) s.mxe.levels e
  let ok := fun (k : Nat) => decide (mget 0 s.mxe.edgeAt (2 * e + k) + encFilt s e * (vcoUs / 20) ≤ s.now)
  (old.1 == a || ok 0) && (old.2 == b || ok 1)

/-- The inputs take new accepted levels. -/
def encLevels (s : State) (e : Nat) (a b : Bool) : State :=
  let old := mget (false, false) s.mxe.levels e
  setMxe s (fun m =>
    let t := if old.1 = a then m.edgeAt else mput 0 m.edgeAt (2 * e) s.now
    { m with levels := mput (false, false) m.levels e (a, b), edgeAt := if old.2 = b then t else mput 0 t (2 * e + 1) s.now })

/-- ENCODER_EDGE (R271, R285, R287, R288). -/
def execEncoderEdge (e : Fin 4) (a b : Bool) (s : State) : Result :=
  let d := encDelta s e.val a b
  let t := encLevels s e.val a b
  if !(mxeRuns s) || !(encFiltered s e.val a b) then .next s
  else if d == 0 then .next t
  else
    let m := mget 0 t.mxe.counts e.val + d
    let t := setMxe t (fun x => { x with counts := mput 0 x.counts e.val m, dirs := mput 0 x.dirs e.val d })
    let t := wrn t (Reg.MXE_ENC_POS e.val) (unsignedOf 32 m)
    .next ((List.range 16).foldl (masterCounted e.val d m) t)

/-- RATIO_APPLY (R288, R289): the master has reached AT, and no blend runs. (DESIGN CHOICE, log entry 58.) -/
def execRatioApply (a : Fin 16) (s : State) : Result :=
  let a := a.val
  let ax := axis s a
  match ax.queued with
  | none => .next s
  | some r => whenDue (mxeRuns s && axState s a == 6 && r.reached && ax.blend.isNone && ax.start.isNone) s
      (let m := if r.late then ax.m0 else r.at0
       let pos := gearPos ax m
       let new : Rat := (r.num : Rat) / ((r.den : Nat) : Rat)
       let t := setAxFlag s a F.ASTAT_RATIO_PEND false
       let t := if r.late then axEvent t a 8 else t
       if r.blend = 0 then
         axEvent (setAxis t a (fun ax => { ax with queued := none, m0 := m, p0 := pos, ratio := new })) a 7
       else
         let t := setAxis t a (fun ax => { ax with
           queued := none, m0 := m, p0 := pos,
           blend := some { p := m, dir := if mget 0 s.mxe.dirs (axMaster s a) < 0 then -1 else 1, dist := r.blend, pos := pos, r1 := ax.ratio, r2 := new } })
         setAxFlag t a F.ASTAT_BLENDING true)

/-- BLEND_END (R289): u reaches B. -/
def execBlendEnd (a : Fin 16) (s : State) : Result :=
  let a := a.val
  let ax := axis s a
  match ax.blend with
  | none => .next s
  | some b =>
    let e := b.p + b.dir * (b.dist : Int)
    whenDue (mxeRuns s && axState s a == 6 && decide ((b.dist : Int) ≤ b.dir * (masterOf s a - b.p))) s
      (axEvent (setAxFlag (setAxis s a (fun ax => { ax with blend := none, m0 := e, p0 := gearPos ax e, ratio := b.r2 })) a F.ASTAT_BLENDING false) a 7)

/-- LEGACY_TIMEOUT (R287): more than 100 ms without an edge. -/
def execLegacyTimeout (a : Fin 16) (s : State) : Result :=
  let a := a.val
  whenDue (mxeRuns s && axFollows s a && axSrc s a == 3 && (match (axis s a).edges with | t :: _ => decide (t + 100 * vcoMs < s.now) | [] => false)) s
    (setAxis s a (fun ax => { ax with hurry := true }))

/-! ### Driver link and power (R292-R295) -/

/-- The CRC-4 of bits [19:0] (R292). (PRESUMED, log entry 6.) -/
def crc4 (w : Nat) : Nat := crcM 4 0x3 0xF (natBits 20 w)

/-- Loss of driver supply (R294). -/
def supplyLost (s : State) (a : Nat) : State :=
  let st := axState s a
  let s := setAxis s a (fun _ => { axNow s a with ready := false })
  if st < 2 then s
  else if axFlag s a F.ASTAT_SAFE_STOP && (axis s a).v == 0 && (axis s a).segs.isEmpty then powerDown (setStart s a none) a
  else
    let s := setStart s a none
    let s := setAxis s a (fun ax => { ax with
      v := 0, a := 0, segs := [], endPos := none, inc := 0, spread := 0, timer := none, stop := none, braking := none, newTarget := none,
      queued := none, blend := none, guard := none, hstep := 0, faulted := false, hist := none })
    let s := if st == 5 then homeFail s a 5 else s
    let s := setAxFlag (setAxFlag s a F.ASTAT_RATIO_PEND false) a F.ASTAT_BLENDING false
    let s := setAxFlag (posLost (setAxFlag s a F.ASTAT_SOFT_HIT false) a) a F.ASTAT_HOMED false
    let s := if st == 7 then s else axEvent (setAxState s a 7) a 6
    axShow s a

/-- A status word of an axis's driver (R292-R295). (DEDUCED, log entry 59.) -/
def adlStatus (s : State) (a w : Nat) : State :=
  if w / 2 ^ 20 % 16 != crc4 w then
    let s := setAxis s a (fun ax => { ax with adlBad := ax.adlBad + 1 })
    if 3 ≤ (axis s a).adlBad ∧ 2 ≤ axState s a then axFault (setAxFlag s a F.ASTAT_ADL_ERR true) a else s
  else
    let supply := w.testBit 0
    let bad := w.testBit 1
    let miss := match (axis s a).sent with | some p => p != w / 2 ^ 10 % 1024 | none => false
    let s := setFld s (Reg.ADRV a) F.ADRV_STATUS (w % 2 ^ 24)
    let s := setAxis s a (fun ax => { ax with adlBad := 0, ready := supply && !bad, echoBad := if miss then ax.echoBad + 1 else 0 })
    let s := setAxFlag s a F.ASTAT_DRV_FAULT bad
    let s := if (axis s a).powerAt.isSome && supply && !bad then setAxState (setAxis s a (fun ax => { ax with powerAt := none })) a 2 else s
    let s := if bad then axFault s a else s
    let s := if 3 ≤ (axis s a).echoBad ∧ 2 ≤ axState s a then axFault (posLost (setAxFlag s a F.ASTAT_ADL_ERR true) a) a else s
    if !supply && (axis s a).powerAt.isNone && decide (2 ≤ axState s a) then supplyLost s a else s

/-- The word sent to an axis's driver (R292, R300). -/
def adlWord (s : State) (a : Nat) : Nat :=
  let ax := axNow s a
  let st := axState s a
  let run := st == 3 || st == 4 || st == 5 || (st == 6 && ax.v != 0)
  let en := ax.energised && !(held s)
  let cur := if !en then 0 else fld s (Reg.ACUR a) (if run then F.ACUR_RUN else F.ACUR_HOLD)
  let w := axPhase ax + 2 ^ 10 * cur + (if en then 2 ^ 19 else 0)
  w + 2 ^ 20 * crc4 w

def adlAxis (s : State) (slot : Nat) : Option Nat :=
  (List.range 16).find? (fun a => axOn s a && axAdl s a && fld s (Reg.ASTEP a) F.ASTEP_SLOT == slot)

/-- ADL_FRAME (R292-R295): the status words of the drivers, slot 0 first, come in while this frame's words go out. -/
def execAdlFrame (words : List Word) (s : State) : Result :=
  let slots := fld s Reg.MXE_ADL_CFG F.MXE_ADL_CFG_SLOTS
  whenDue (mxeRuns s && slots != 0 && decide (s.mxe.frames < monoNs s / 20000)) s
    (let t := setMxe s (fun m => { m with frames := monoNs s / 20000 })
     let out := (List.range slots).map (fun k => match adlAxis t k with | some a => adlWord t a | none => 2 ^ 20 * crc4 0)
     let t := (List.range slots).foldl (fun t k =>
       let w := (words.getD k 0).toNat
       let t := if w / 2 ^ 20 % 16 != crc4 w then wrn t Reg.MXE_ADL_ERR (min (rdn t Reg.MXE_ADL_ERR + 1) 0xFFFFFFFF) else t
       match adlAxis t k with
       | some a =>
         let t := adlStatus t a w
         setAxis t a (fun ax => { ax with sent := some ((out.getD k 0) % 1024) })
       | none => t) t
     setMxe t (fun m => { m with adlOut := out }))

/-- DRIVER_SUPPLY_LOSS (R294): MXE_DRDYn has been low for 4 µs. -/
def execDriverSupplyLoss (a : Fin 16) (s : State) : Result :=
  whenDue (mxeRuns s && axOn s a.val && !(axAdl s a.val) && settled s (axis s a.val).drdyAt 4) s
    (let t := setFld (setAxis s a.val (fun ax => { ax with drdyAt := some s.now })) (Reg.ADRV a.val) F.ADRV_STATUS 0
     if flag s (Reg.ACFG a.val) F.ACFG_DRDY_USE then supplyLost t a.val else setAxis t a.val (fun ax => { ax with ready := false }))

/-- DRIVER_READY (R295): MXE_DRDYn is high. -/
def execDriverReady (a : Fin 16) (s : State) : Result :=
  whenDue (mxeRuns s && axOn s a.val && !(axAdl s a.val)) s
    (let t := setFld (setAxis s a.val (fun ax => { ax with ready := true, drdyAt := some s.now })) (Reg.ADRV a.val) F.ADRV_STATUS 1
     if (axis t a.val).powerAt.isSome then setAxState (setAxis t a.val (fun ax => { ax with powerAt := none })) a.val 2 else t)

/-- POWER_UP_TIMEOUT (R295): the driver has not reported ready within 100 ms. -/
def execPowerUpTimeout (a : Fin 16) (s : State) : Result :=
  match (axis s a.val).powerAt with
  | none => .next s
  | some t => whenDue (mxeRuns s && decide (t + 100 * vcoMs ≤ s.now)) s
      (axEvent (setAxState (setAxis s a.val (fun ax => { ax with powerAt := none })) a.val 7) a.val 6)

/-! ### Signals and reads (R274, R298) -/

/-- The position signal of an axis. -/
def axSignal (s : State) (a : Nat) : State :=
  if !(flag s (Reg.ASIG a) F.ASIG_SIG_EN) then s
  else
    let q := if axFlag s a F.ASTAT_HOMED && !(axFlag s a F.ASTAT_POS_LOST) then 0 else 2
    let span := signed 32 (rdn s (Reg.AEXT_SPAN a))
    let fr := fresh s
    let v : Int := if span = 0 then (Config.freeNat fr.1 : Int)
      else ratNearest (((axNow s a).p - (signed 32 (rdn s (Reg.AEXT_ZERO a)) : Rat)) * 32768 / (span : Rat))
    sigWrite fr.2 3 (fld s (Reg.ASIG a) F.ASIG_SIGNAL) (some (unsignedOf 16 (min (max v (-32768)) 32767))) q

/-- AXIS_SIGNAL_WRITE (R298). -/
def execAxisSignalWrite (s : State) : Result :=
  whenDue (mxeRuns s && decide (s.mxe.signals < (monoNs s + 50000) / 100000)) s
    ((List.range 16).foldl axSignal (setMxe s (fun m => { m with signals := (monoNs s + 50000) / 100000 })))

/-- APOS_LO_READ (R274): a read of APOS_LO or AHLATCH_LO copies the upper word. -/
def execAposLoRead (a : Fin 16) (latch : Bool) (s : State) : Result :=
  let a := a.val
  check (pageErr s (0x81 + a / 2) ((if latch then Reg.AHLATCH_LO a else Reg.APOS_LO a) % 0x1000))
    (.next (if latch then answer (wrn s (Reg.AHLATCH_HI a) (unsignedOf 64 (axis s a).latch / 2 ^ 32)) [rd s (Reg.AHLATCH_LO a)]
      else answer (wrn s (Reg.APOS_HI a) (unsignedOf 64 (fix16 (axis s a).p) / 2 ^ 32)) [rd s (Reg.APOS_LO a)]))

end Sys2Proof.Machine
end

