-- ==== Sys2Proof/Machine/Cle.lean ====
section
/-!
DEFINITION. The control-law engine (R166-R196): the tick, the loop law, gain scheduling and pins, gain-set changes.
-/

namespace Sys2Proof.Machine

/-! ### Layout of CLE RAM (R166, R177, R179, R180) -/

def dscA (l : Nat) : Nat := 0x10000 + 64 * l
def lstA (l : Nat) : Nat := 0x14000 + 32 * l
def pndA (l : Nat) : Nat := 0x16000 + 32 * l
def gainA (l r : Nat) : Nat := 0x20000 + 256 * l + 32 * r

def dPeriod (s : State) (l : Nat) : Nat := cleRd s (dscA l) 2
def dPhase (s : State) (l : Nat) : Nat := cleRd s (dscA l + 2) 2
def dPv (s : State) (l : Nat) : Nat := cleRd s (dscA l + 4) 2
def dSp (s : State) (l : Nat) : Nat := cleRd s (dscA l + 6) 2
def dFf (s : State) (l : Nat) : Nat := cleRd s (dscA l + 8) 2
def dSched (s : State) (l : Nat) : Nat := cleRd s (dscA l + 10) 2
def dOut (s : State) (l : Nat) : Nat := cleRd s (dscA l + 12) 2
def dDeadline (s : State) (l : Nat) : Nat := cleRd s (dscA l + 14) 2
def dOpts (s : State) (l : Nat) : Nat := cleRd s (dscA l + 16) 4
def dUmin (s : State) (l : Nat) : Int := signed 16 (cleRd s (dscA l + 0x14) 2)
def dUmax (s : State) (l : Nat) : Int := signed 16 (cleRd s (dscA l + 0x16) 2)
def dRamp (s : State) (l : Nat) : Int := (cleRd s (dscA l + 0x18) 2 : Nat)
def dRate (s : State) (l : Nat) : Int := (cleRd s (dscA l + 0x1A) 2 : Nat)
def dHyst (s : State) (l : Nat) : Int := (cleRd s (dscA l + 0x1C) 2 : Nat)
def dPfVal (s : State) (l : Nat) : Nat := cleRd s (dscA l + 0x1E) 2
def dBound (s : State) (l i : Nat) : Int := signed 16 (cleRd s (dscA l + 0x20 + 2 * (i - 1)) 2)
def dSpKind (s : State) (l : Nat) : Bool := (dOpts s l).testBit 0
def dOutKind (s : State) (l : Nat) : Bool := (dOpts s l).testBit 1
def dAw (s : State) (l : Nat) : Nat := dOpts s l / 4 % 4
def dBadq (s : State) (l : Nat) : Nat := dOpts s l / 16 % 4
def dPf (s : State) (l : Nat) : Bool := (dOpts s l).testBit 6
def dOuterAw (s : State) (l : Nat) : Bool := (dOpts s l).testBit 7
def dRegions (s : State) (l : Nat) : Nat := dOpts s l / 256 % 8 + 1

def lI (s : State) (l : Nat) : Int := signed 64 (cleRd s (lstA l) 8)
def lD (s : State) (l : Nat) : Int := signed 64 (cleRd s (lstA l + 8) 8)
def lPvPrev (s : State) (l : Nat) : Int := signed 16 (cleRd s (lstA l + 0x10) 2)
def lSpR (s : State) (l : Nat) : Int := signed 16 (cleRd s (lstA l + 0x12) 2)
def lUPrev (s : State) (l : Nat) : Int := signed 16 (cleRd s (lstA l + 0x14) 2)
def lQualOut (s : State) (l : Nat) : Nat := cleRd s (lstA l + 0x16) 1 % 4
def lSamples (s : State) (l : Nat) : Nat := cleRd s (lstA l + 0x18) 4
def lPinLeft (s : State) (l : Nat) : Nat := cleRd s (lstA l + 0x1C) 2

/-- A coefficient of a gain set, Q8.23, and its BIAS, Q15. -/
def gainWord (s : State) (l r k : Nat) : Int := signed 32 (cleRd s (gainA l r + 4 * k) 4)
def gainBias (s : State) (l r : Nat) : Int := signed 16 (cleRd s (gainA l r + 0x18) 2)

/-! ### Arithmetic (R185) -/

/-- Division rounded to nearest, ties away from zero. -/
def rdivAway (a : Int) (n : Nat) : Int :=
  if 0 ≤ a then (a + (n / 2 : Nat)) / (n : Int) else -((-a + (n / 2 : Nat)) / (n : Int))

/-- The 40-bit saturation of a sum, in units of 2⁻³¹. -/
def sat40 (x : Int) : Int := max (-(2 ^ 39)) (min (2 ^ 39 - 1) x)

/-- A Q8.31 operand times a Q8.23 coefficient. -/
def mulQ (x c : Int) : Int := rdivAway (x * c) (2 ^ 23)

/-- A Q15 value as Q8.31. -/
def q31 (x : Int) : Int := x * 65536

/-- sat15: Q8.31 to Q15. -/
def sat15 (x : Int) : Int := max (-32768) (min 32767 (rdivAway x 65536))

/-- Clamp to an interval. -/
def clampI (x lo hi : Int) : Int := max lo (min hi x)

/-- Sum of terms, saturating after each. -/
def sumQ : List Int → Int
  | [] => 0
  | x :: xs => xs.foldl (fun a b => sat40 (a + b)) (sat40 x)

/-! ### Scheduling (R187, R190) -/

/-- REG_HW after a sample with scheduling value `v` (R190). -/
def schedule1 (s : State) (l : Nat) (r : Nat) (v : Int) : Nat :=
  let n := dRegions s l
  let h := dHyst s l
  let ge (i : Nat) : Bool := i == 0 || decide (dBound s l i + h ≤ v)
  let lt (i : Nat) : Bool := i + 1 == n || decide (v < dBound s l (i + 1) - h)
  if n ≤ 1 then 0
  else if r + 1 < n && ge (r + 1) then ((List.range n).filter ge).foldl max 0
  else if r != 0 && decide (v < dBound s l r - h) then ((List.range n).find? lt).getD (n - 1)
  else r

/-- The region that contains `v`, without hysteresis (R187). -/
def region0 (s : State) (l : Nat) (v : Int) : Nat :=
  if dRegions s l ≤ 1 then 0
  else ((List.range (dRegions s l)).filter (fun i => i == 0 || decide (dBound s l i ≤ v))).foldl max 0

/-! ### One sample -/

/-- The terms of the law with one gain set: P, D, FF term, BIAS, Ki·e (R186). -/
structure Terms where
  p : Int
  d : Int
  ff : Int
  bias : Int
  ki : Int
  deriving DecidableEq, Repr

/-- The terms of set `r` for an error `e`, process value `pv` and feed-forward `ff`. -/
def terms (s : State) (l r : Nat) (e pv ff : Int) : Terms :=
  { p := mulQ (q31 e) (gainWord s l r 0),
    d := sat40 (mulQ (lD s l) (gainWord s l r 2) - mulQ (q31 (pv - lPvPrev s l)) (gainWord s l r 3)),
    ff := mulQ (q31 ff) (gainWord s l r 4), bias := q31 (gainBias s l r), ki := mulQ (q31 e) (gainWord s l r 1) }

/-- u_raw from the terms and Ic. -/
def uRaw (t : Terms) (ic : Int) : Int := sumQ [t.p, ic, t.d, t.ff, t.bias]

/-- The integrator that makes u_raw equal `u` under other terms (R187, R192). -/
def icFor (u : Int) (t : Terms) : Int := sat40 (u - sumQ [t.p, t.d, t.ff, t.bias])

/-- The value SAFE overrides the loop's output with, if it does (R189). -/
def loopOverride (s : State) (l : Nat) : Option Int := (mget none s.cle.overrides l).map (fun v => signed 16 v)

/-- Write a loop output (R186, R189): a signal (by the sequencer, no writer class, R173) or an axis set-point. -/
def writeOutAt (s : State) (l : Nat) (u : Int) (qual time : Nat) : State :=
  if dOutKind s l then axisSetpoint s (dOut s l) (unsignedOf 16 u) qual
  else sigStoreAt s (dOut s l) (unsignedOf 16 u) qual time

/-- The same at the present MONO. -/
def writeOut (s : State) (l : Nat) (u : Int) (qual : Nat) : State := writeOutAt s l u qual (monoNs s)

/-- An override of the loop's output begins or changes: the destination carries it, and the loop sees it as its last output
(R189). -/
def overrideOut (s : State) (l : Nat) (v : Int) : State := writeOut (cleSet s (lstA l + 0x14) 2 (unsignedOf 16 v)) l v 0

/-- The scheduling value read (R178: with one region SCHED is not read). -/
def schedValue (s : State) (l : Nat) : Int := signed 16 (sigLoopValue s (dSched s l))

/-- Store the state of R180. -/
def storeLoop (s : State) (l : Nat) (i d pv spR u : Int) (qual samples pinLeft : Nat) : State :=
  let a := lstA l
  let s := cleSet (cleSet s a 8 (unsignedOf 64 i)) (a + 8) 8 (unsignedOf 64 d)
  let s := cleSet s (a + 0x10) 8 (unsignedOf 16 pv + 2 ^ 16 * unsignedOf 16 spR + 2 ^ 32 * unsignedOf 16 u + 2 ^ 48 * (qual % 4))
  cleSet s (a + 0x18) 8 (samples % 2 ^ 32 + 2 ^ 32 * (pinLeft % 2 ^ 16))

/-- A pin in force has run out of samples (R191). (DEDUCED, log entry 51.) -/
def pinExpired (s : State) (l : Nat) : Bool := s.cle.expiring.contains l

/-- The pin expires: PIN_EN clears, unless software writes LCTL in the same cycle (R24, R194), INT_RAW bit 4 is set, and no pin
is in force (R176, R191). -/
def pinExpire (s : State) (l : Nat) : State :=
  let s := { s with cle := { s.cle with expiring := s.cle.expiring.filter (fun k => k != l) } }
  let s := hwClearRw s (Reg.LCTL l) 0x10#32
  raise (setFlag (setFlag s (Reg.LSTAT l) F.LSTAT_PIN_ACT false) (Reg.LSTAT l) F.LSTAT_SCHED_DISAGREE false) 0x70 4

/-- The pending command of a loop (R193): region and bumpless, if one is pending. -/
def pendingGain (s : State) (l : Nat) : Option (Nat × Bool) :=
  let w := cleRd s (pndA l + 0x1C) 4
  if w.testBit 31 then some (w % 8, w.testBit 4) else none

/-- Write the pending set into its gain set and clear PENDING (R193 step 4). -/
def applyPending (s : State) (l r : Nat) : State :=
  let s := (List.range 7).foldl (fun s k => cleSet s (gainA l r + 4 * k) 4 (cleRd s (pndA l + 4 * k) 4)) s
  cleSet (cleSet s (gainA l r + 0x1C) 4 0) (pndA l + 0x1C) 4 (cleRd s (pndA l + 0x1C) 4 % 2 ^ 31)

/-- What one sample decides before it computes: region, mode and whether the integrator is recomputed (R181). -/
structure Plan where
  /-- the first sample after a change from OFF, or MODE MAN -/
  man : Bool
  first : Bool
  regHw : Nat
  pinIn : Bool
  pinLeft : Nat
  /-- this sample is the pin's last one -/
  expires : Bool
  active : Nat
  was : Nat
  bumpless : Option (Nat × Bool)
  deriving DecidableEq, Repr

/-- The plan of a due sample. -/
def planSample (s : State) (l : Nat) : Plan :=
  let first := fld s (Reg.LSTAT l) F.LSTAT_MODE_IN == 0
  let man := first || fld s (Reg.LCTL l) F.LCTL_MODE == 1
  let v := schedValue s l
  let hw0 := fld s (Reg.LSTAT l) F.LSTAT_REG_HW
  let hw := if dRegions s l ≤ 1 then 0 else if first then region0 s l v else schedule1 s l hw0 v
  let pin := flag s (Reg.LCTL l) F.LCTL_PIN_EN
  let left := if flag s (Reg.LSTAT l) F.LSTAT_PIN_ACT then lPinLeft s l else fld s (Reg.LPIN l) F.LPIN_PIN_TMO
  { man := man, first := first, regHw := hw, pinIn := pin, pinLeft := if pin then left - 1 else lPinLeft s l,
    expires := pin && left == 1, active := if pin then fld s (Reg.LCTL l) F.LCTL_PIN_REG else hw,
    was := if first then (if pin then fld s (Reg.LCTL l) F.LCTL_PIN_REG else hw) else fld s (Reg.LSTAT l) F.LSTAT_REGION,
    bumpless := pendingGain s l }

/-- The sample recomputes the integrator (R181, R187, R192, R193). -/
def Plan.recomputes (p : Plan) : Bool :=
  p.man || p.active != p.was || p.bumpless == some (p.active, true)

/-- CLK_CLE cycles of a sample (R181). -/
def Plan.cycles (p : Plan) : Nat := if p.recomputes then 76 else 60

/-- The gain sets a sample reads: the active region's, and the old one of a rebase (R192, R193); a set that the pending slot
replaces is not read. -/
def gainReads (l : Nat) (p : Plan) : List Nat :=
  let set (r : Nat) : List Nat := (List.range 4).map (fun k => gainA l r + 8 * k)
  let new (r : Nat) : Bool := match p.bumpless with | some (x, _) => x == r | none => false
  (if new p.active then [] else set p.active) ++
    (if p.man then []
     else if p.bumpless == some (p.active, true) then set p.was
     else if p.active != p.was && !(new p.was) then set p.was else [])

/-- The words the sequencer reads for a sample (R169). -/
def sampleReads (s : State) (l : Nat) (p : Plan) : List Nat :=
  (List.range 8).map (fun k => dscA l + 8 * k) ++ (List.range 4).map (fun k => lstA l + 8 * k) ++
    (List.range 4).map (fun k => pndA l + 8 * k) ++
    [16 * dPv s l] ++ (if dSpKind s l then [lstA (dSp s l) + 0x10] else [16 * dSp s l]) ++
    (if dFf s l == 0xFFFF then [] else [16 * dFf s l]) ++ (if dRegions s l ≤ 1 then [] else [16 * dSched s l]) ++ gainReads l p

/-- A missed sample (R184). -/
def missSample (s : State) (l : Nat) : State :=
  let s := setFlag s (Reg.LSTAT l) F.LSTAT_MISS true
  let s := raise s 0x70 0
  satFld (satFld s (Reg.LMISS l) F.LMISS_COUNT 1) Reg.CLE_MISS F.CLE_MISS_COUNT 1

/-- The effect of R169 on a loop: a miss, and the mode in force becomes OFF. -/
def ueSample (s : State) (l : Nat) : State :=
  let s := missSample s l
  let s := setFld s (Reg.LSTAT l) F.LSTAT_MODE_IN 0
  let s := raise (setFlag s (Reg.LSTAT l) F.LSTAT_UE true) 0x70 5
  { s with cle := { s.cle with ueHold := (s.cle.ueHold.filter (fun k => k != l)) ++ [l] } }

/-- The status bits of a completed sample (R176, R191). -/
def sampleStatus (s : State) (l : Nat) (p : Plan) (u : Int) (sat hold ovr : Bool) (held : Bool) : State :=
  let dis := p.pinIn && p.regHw != p.active
  let was := flag s (Reg.LSTAT l) F.LSTAT_SCHED_DISAGREE
  let a := Reg.LSTAT l
  let s := setFld s a F.LSTAT_MODE_IN (fld s (Reg.LCTL l) F.LCTL_MODE)
  let s := setFlag (setFlag s a F.LSTAT_MISS false) a F.LSTAT_BADQ_HOLD hold
  let s := setFld (setFld s a F.LSTAT_REGION p.active) a F.LSTAT_REG_HW p.regHw
  let s := setFlag (setFlag s a F.LSTAT_SCHED_DISAGREE dis) a F.LSTAT_PIN_ACT p.pinIn
  let s := setFlag (setFlag s a F.LSTAT_UE false) a F.LSTAT_OVERRIDE ovr
  let s := if held then s else setFlag s a F.LSTAT_SAT sat
  let s := if p.expires then { s with cle := { s.cle with expiring := s.cle.expiring ++ [l] } } else s
  let s := setFld s a F.LSTAT_OUT (unsignedOf 16 u)
  if dis && !was then raise s 0x70 3 else s

/-- The sign of an integer. -/
def sgn (x : Int) : Int := if x < 0 then -1 else if x = 0 then 0 else 1

/-- An inner loop of `l` was limited in its last sample (R186, R195). -/
def innerLimited (s : State) (l : Nat) : Bool :=
  (List.range 256).any (fun k => dSpKind s k && dSp s k == l && flag s (Reg.LSTAT k) F.LSTAT_SAT)

/-- A completed sample of loop `l` (R186-R193). (DEDUCED, log entry 51.) -/
def runSample (s0 : State) (l : Nat) (p : Plan) (time : Nat) : State :=
  let pv := signed 16 (sigLoopValue s0 (dPv s0 l))
  let target := if dSpKind s0 l then lUPrev s0 (dSp s0 l) else signed 16 (sigLoopValue s0 (dSp s0 l))
  let ff := if dFf s0 l == 0xFFFF then 0 else signed 16 (sigLoopValue s0 (dFf s0 l))
  let qPv := sigLoopQual s0 (dPv s0 l)
  let qSp := if dSpKind s0 l then lQualOut s0 (dSp s0 l) else sigLoopQual s0 (dSp s0 l)
  let qFf := if dFf s0 l == 0xFFFF then 0 else sigLoopQual s0 (dFf s0 l)
  let qual := if p.man then 0 else worstQual qPv (worstQual qSp qFf)
  let ovr := loopOverride s0 l
  -- the old terms of the active region, before a pending set is written (R192, R193)
  let spR := if p.man then pv
    else if dRamp s0 l = 0 then target
    else lSpR s0 l + clampI (target - lSpR s0 l) (-(dRamp s0 l)) (dRamp s0 l)
  let e := clampI (spR - pv) (-32768) 32767
  -- a set pending for an inactive region applies before the region test
  let sNew := match p.bumpless with
    | some (r, _) => applyPending s0 l r
    | none => s0
  let setA := if p.bumpless == some (p.active, true) then terms s0 l p.was e pv ff else terms sNew l p.was e pv ff
  let tB := terms sNew l p.active e pv ff
  let rebase := p.active != p.was || p.bumpless == some (p.active, true)
  let i0 := lI s0 l
  let icA := sat40 (i0 + setA.ki)
  let ic := if rebase then icFor (uRaw setA icA) tB else sat40 (i0 + tB.ki)
  let raw := if rebase then uRaw setA icA else uRaw tB ic
  let left := p.pinLeft
  let samples := lSamples s0 l + 1
  let held := !p.man && ((dBadq s0 l == 1 && qPv == 2) || (dBadq s0 l == 2 && (qPv == 1 || qPv == 2)))
  if p.man then
    let man := signed 16 (fld s0 (Reg.LCTL l) F.LCTL_MAN)
    let lim := clampI man (dUmin s0 l) (dUmax s0 l)
    let u := ovr.getD lim
    -- after a change from OFF: D := 0 and PV_PREV := PV, so the derivative starts from rest
    let t := if p.first then { tB with d := 0 } else tB
    let s := storeLoop sNew l (icFor (q31 u) t) t.d pv pv u qual samples left
    sampleStatus (writeOutAt s l u qual time) l p u (lim != man) false ovr.isSome false
  else if held then
    -- the output stays, or carries the override value while one is in force (R188, R189)
    let u := ovr.getD (lUPrev s0 l)
    let s := storeLoop sNew l i0 (lD s0 l) pv (lSpR s0 l) u qual samples left
    sampleStatus (writeOutAt s l u qual time) l p u false true ovr.isSome true
  else
    let u1 := clampI (sat15 raw) (dUmin s0 l) (dUmax s0 l)
    let u := if dRate s0 l = 0 then u1 else clampI u1 (lUPrev s0 l - dRate s0 l) (lUPrev s0 l + dRate s0 l)
    let uOut := ovr.getD u
    let diff := sgn (raw - q31 uOut)
    let i1 := match dAw s0 l with
      | 1 => if diff = sgn tB.ki ∧ diff ≠ 0 then i0 else ic
      | 2 => sat40 (ic + mulQ (q31 (sat15 (q31 uOut - raw))) (gainWord sNew l p.active 5))
      | _ => ic
    let i2 := if dOuterAw s0 l && innerLimited s0 l then i0 else i1
    let s := storeLoop sNew l i2 tB.d pv spR uOut qual samples left
    sampleStatus (writeOutAt s l uOut qual time) l p uOut (u != sat15 raw) false ovr.isSome false

/-! ### The tick (R181-R184) -/

/-- A loop is in use. -/
def loopUsed (s : State) (l : Nat) : Bool :=
  fld s (Reg.LSTAT l) F.LSTAT_MODE_IN != 0 || (fld s (Reg.LCTL l) F.LCTL_MODE != 0 && !(s.cle.ueHold.contains l))

/-- Loop `l` is due in tick `n`. -/
def loopDue (s : State) (n l : Nat) : Bool :=
  dPeriod s l != 0 && decide (dPhase s l ≤ n) && (n - dPhase s l) % dPeriod s l == 0 &&
    loopUsed s l

/-- MONO at `c` CLK_CLE cycles after the start of tick `n` (R181): the first CLK_CLE edge at or after the CLK_PTP cycle in
which MONO reached the tick. -/
def outputMono (s : State) (n c : Nat) : Nat :=
  let v := (s.now / 20 - (monoNs s - n * 100000) / 4) * 20
  n * 100000 + 4 * (((v + 11) / 12 * 12 + 12 * c) / 20 - v / 20)

/-- A condition of R195 on the cascade of an inner loop fails. (DEDUCED, log entry 51.) -/
def cascadeErr (s : State) (l : Nat) : Bool :=
  let o := dSp s l
  let k := dPeriod s o / dPeriod s l
  dSpKind s l && (decide (l ≤ o) || dPeriod s o % dPeriod s l != 0 || k == 0 || decide (64 < k) ||
    dPhase s o % dPeriod s l != dPhase s l % dPeriod s l || dSpKind s o)

/-- A signal or axis that R173 and R178 do not allow as an output. (DEDUCED, log entry 51.) -/
def outErr (s : State) (l : Nat) : Option Nat :=
  if dOutKind s l then errIf (axSrc s (dOut s l) != 1) 178
  else errIf (sigMask s (dOut s l) != 0 ||
    (List.range 256).any (fun k => k != l && loopUsed s k && !(dOutKind s k) && dOut s k == dOut s l)) 173

/-- The descriptor of a loop breaks a rule (R173, R177, R178, R195). (DEDUCED, log entry 51.) -/
def loopErr (s : State) (l : Nat) : Option Nat :=
  let n := dRegions s l
  let sigOk (g : Nat) : Bool := decide (g < 4096)
  (errIf (dPeriod s l == 0 || decide (10000 < dPeriod s l) || decide (dPeriod s l ≤ dPhase s l) || !(sigOk (dPv s l)) ||
      decide ((if dSpKind s l then 256 else 4096) ≤ dSp s l) || decide ((if dOutKind s l then 16 else 4096) ≤ dOut s l) ||
      decide (1000 < dDeadline s l) || decide (dUmax s l < dUmin s l) || decide (32767 < dRamp s l) || decide (32767 < dRate s l) ||
      decide (16383 < dHyst s l)) 177).orElse (fun _ =>
    (errIf (dAw s l == 3 || dBadq s l == 3 || decide (2048 ≤ dOpts s l) || (List.range 18).any (fun k => cleRd s (dscA l + 0x2E + k) 1 != 0)) 37).orElse (fun _ =>
      (errIf (!(sigOk (dFf s l) || dFf s l == 0xFFFF) || !(sigOk (dSched s l) || (dSched s l == 0xFFFF && n == 1)) ||
        (List.range (n - 2)).any (fun i => decide (dBound s l (i + 2) - dBound s l (i + 1) ≤ 2 * dHyst s l))) 178).orElse (fun _ =>
        (errIf (cascadeErr s l) 195).orElse (fun _ => outErr s l))))

/-- A loop that the tick evaluates breaks a rule. (DEDUCED, log entry 51.) -/
def tickErr (s : State) (n : Nat) : Option Nat :=
  (List.range 256).findSome? (fun l =>
    if loopUsed s l && fld s (Reg.LCTL l) F.LCTL_MODE != 0 && (dPeriod s l == 0 || loopDue s n l) then loopErr s l else none)

/-- One loop of the tick; the accumulator is the state, the cycles spent and the stalls left. (DEDUCED, log entry 51.) -/
def tickLoop (n : Nat) (st : State × Nat × List Nat) (l : Nat) : State × Nat × List Nat :=
  let s := st.1
  if !(loopDue s n l) then st
  else if fld s (Reg.LCTL l) F.LCTL_MODE == 0 then (setFld s (Reg.LSTAT l) F.LSTAT_MODE_IN 0, st.2)
  else
    let s := if pinExpired s l then pinExpire s l else s
    let p := planSample s l
    let c := st.2.1 + p.cycles + min (st.2.2.headD 0) p.cycles
    let r := cleScan s (sampleReads s l p)
    let s1 := if r.1 then ueSample r.2 l
      else if dDeadline s l != 0 && decide (dDeadline s l * 1000 < c * 24) then missSample r.2 l
      else runSample r.2 l p (outputMono s n c)
    (s1, c, st.2.2.tail)

/-- Tick `n` with the extra cycles its overhead, and then each due sample, waits for the page port (R167, R181, R182); a
whole number of ns stands in CLE_TEXEC. (DESIGN CHOICE, log entry 71.) -/
def cleTick (s : State) (n : Nat) (stalls : List Nat) : State :=
  let s := wr64 s Reg.CLE_TICK_LO Reg.CLE_TICK_HI n
  let r := (List.range 256).foldl (tickLoop n) (s, 56 + min (stalls.headD 0) 56, stalls.tail)
  let t := roundOpen r.1 ((r.2.1 * 12 : Nat) : Int) 5
  let ns := t.1.toNat
  let s := wrn t.2 Reg.CLE_TEXEC ns
  let s := if rdn s Reg.CLE_TEXEC_MAX < ns then wrn s Reg.CLE_TEXEC_MAX ns else s
  { s with cle := { s.cle with nextTick := some ((n + 1) * 100000) } }

/-- CLE_TICK (R167, R169, R174, R180-R195). (DEDUCED, log entry 51.) -/
def execCleTick (stalls : List Nat) (s : State) : Result :=
  match s.cle.nextTick with
  | some t =>
    if decide (t ≤ monoNs s) && !held s && domainUp s 4 then check (tickErr s (t / 100000)) (.next (cleTick s (t / 100000) stalls))
    else .next s
  | none => .next s

/-- PIN_EXPIRE (R191): PIN_LEFT has reached 0. (DEDUCED, log entry 51.) -/
def execPinExpire (l : Fin 256) (s : State) : Result :=
  whenDue (pinExpired s l.val && domainUp s 4) s (pinExpire s l.val)

/-! ### Registers -/

/-- LCTL_WRITE (R169, R176, R187, R191, R194): a pin that the last sample ended has expired before the write. -/
def execLctlWrite (ini : Fin 16) (l : Fin 256) (value : Word) (s : State) : Result :=
  softWrite ini (0x72 + l.val / 64) (0x40 + 16 * (l.val % 64))
    ((errIf (value &&& 0x0000F8EC#32 != 0 || fieldGet F.LCTL_MODE value == 3) 37).orElse (fun _ =>
      errIf (decide (dRegions s l.val ≤ fieldGet F.LCTL_PIN_REG value)) 38)) s
    (fun s =>
      let s := if pinExpired s l.val then pinExpire s l.val else s
      let s := noteWrite (wr s (Reg.LCTL l.val) value) (Reg.LCTL l.val) value
      if fieldGet F.LCTL_MODE value == 0 then s
      else { s with cle := { s.cle with ueHold := s.cle.ueHold.filter (fun k => k != l.val) } })

/-- A write through CLE_RAM_DATA is permitted (R168). -/
def cleRamWritable (s : State) (a : Nat) : Bool :=
  !(pageEn s 0x70) ||
    (decide (0x10000 ≤ a) && decide (a < 0x14000) && fld s (Reg.LSTAT ((a - 0x10000) / 64)) F.LSTAT_MODE_IN == 0)

/-- A word that firmware may not put at an address of CLE RAM: reserved bits and places (R37, R166, R170, R177, R179), the
reserved quality (R12), a filter pole outside 0 to 1 (R179), the loop states and pending sets, which only the CLE writes
(R166, R180). -/
def cleWordErr (a : Nat) (v : Word) : Option Nat :=
  let n := v.toNat
  if a < 0x10000 then
    if a % 16 = 0 then (errIf (n / 65536 % 4 == 3) 12).orElse (fun _ => errIf (v &&& 0xFF0C0000#32 != 0) 37)
    else errIf (a % 16 == 4 && n != 0) 37
  else if a < 0x14000 then
    let o := a % 64
    errIf ((o == 0x10 && (decide (2048 ≤ n) || n / 4 % 4 == 3 || n / 16 % 4 == 3)) || (o == 0x2C && decide (65536 ≤ n)) ||
      (decide (0x30 ≤ o) && n != 0)) 37
  else if a < 0x16000 then some 180
  else if a < 0x18000 then some 166
  else if 0x20000 ≤ a ∧ a < 0x30000 then
    let o := a % 32
    (errIf (o == 8 && decide (8388608 < n)) 38).orElse (fun _ =>
      errIf ((o == 0x18 && decide (65536 ≤ n)) || (o == 0x1C && n != 0)) 37)
  else errIf (n != 0) 37

/-- CLE_RAM_DATA_ACCESS (R167-R169, R542): a read when `write` is none. -/
def execCleRamDataAccess (ini : Fin 16) (write : Option Word) (s : State) : Result :=
  let a := fld s Reg.CLE_RAM_ADDR F.CLE_RAM_ADDR_ADDR
  let e := match write with
    | some v => (errIf (!(cleRamWritable s a)) 168).orElse (fun _ => cleWordErr a v)
    | none => none
  softWrite ini 0x70 0x60 e s (fun s =>
    let s1 := match write with
      | some w => cleSet s a 4 w.toNat
      | none => let r := cleReadPage s a; answer r.2 [r.1]
    if flag s Reg.CLE_RAM_ADDR F.CLE_RAM_ADDR_INC then setFld s1 Reg.CLE_RAM_ADDR F.CLE_RAM_ADDR_ADDR (a + 4) else s1)

/-- CLE_GCMD (R193): the copy into the loop's pending slot starts. -/
def execCleGcmd (ini : Fin 16) (value : Word) (s : State) : Result :=
  softWrite ini 0x70 0x64
    ((errIf (value &&& 0xFFFFE800#32 != 0) 37).orElse (fun _ => errIf (flag s Reg.CLE_GSTAT F.CLE_GSTAT_BUSY) 193)) s
    (fun s => setFlag { s with cle := { s.cle with copying := some value } } Reg.CLE_GSTAT F.CLE_GSTAT_BUSY true)

/-- The pending slot takes the staged words and the command (R193 step 3). -/
def gainCopy (s : State) (cmd : Word) : State :=
  let l := fieldGet F.CLE_GCMD_LOOP cmd
  let s := (List.range 7).foldl (fun s k => cleSet s (pndA l + 4 * k) 4 (rdn s (Reg.CLE_GSTAGE k))) s
  let s := cleSet s (pndA l + 0x1C) 4
    (fieldGet F.CLE_GCMD_REGION cmd + 16 * fieldGet F.CLE_GCMD_BUMPLESS cmd + 2 ^ 31)
  setFlag { s with cle := { s.cle with copying := none } } Reg.CLE_GSTAT F.CLE_GSTAT_BUSY false

/-- GAIN_COPY_DONE (R193). -/
def execGainCopyDone (s : State) : Result :=
  match s.cle.copying with
  | some cmd => whenDue (domainUp s 4) s (gainCopy s cmd)
  | none => .next s

/-- PCTL.EN of page 0x070 changes (R174): the first tick is at the first 100 µs multiple at least 1 µs ahead. -/
def cleEnable (s : State) (en : Bool) : State :=
  { s with cle := { s.cle with nextTick := if en then some ((monoNs s + 1000 + 99999) / 100000 * 100000) else none } }

/-- The power-fail outputs of CLE (R196), through the override gates (R189). (DEDUCED, log entry 51.) -/
def clePowerFail (s : State) : State :=
  if pageEn s 0x70 then
    (List.range 256).foldl (fun s l =>
      if dPf s l && !(dOutKind s l) then
        sigStore s (dOut s l) (match loopOverride s l with | some v => unsignedOf 16 v | none => dPfVal s l) 2
      else s) s
  else s

end Sys2Proof.Machine
end

