-- ==== Sys2Proof/Machine/Lantern.lean ====
section
/-!
DEFINITION. The Lantern cabinet panel (R504-R516): rails, class T drive, rectangles, the class B chain and its journal.
-/

namespace Sys2Proof.Machine

/-! ### State changes (R506, R515) -/

def setLanState (s : State) (v : Nat) : State :=
  setLantern (setFld s Reg.LANTERN_STAT F.LANTERN_STAT_STATE v) (fun l => { l with since := s.now })
def setBacklight (s : State) (b : Bool) : State := setFlag s Reg.LANTERN_STAT F.LANTERN_STAT_BL_ON b

/-- STATE reaches ON: the backlight lights and waiting rectangles start. -/
def enterOn (s : State) : State := lanternGo (raise (setBacklight (setLanState s lsOn) true) 0x100 1)

/-- STATE reaches OFF. -/
def enterOff (s : State) : State := raise (setLanState s lsOff) 0x100 2

/-- FALLING begins (R515): class T shows a blank frame pair, class B loads all hold; a panel whose drive never started
only drops the rails it has raised. (DEDUCED, log entry 81.) -/
def enterFalling (s : State) : State :=
  let s := setLantern (setBacklight (setLanState s lsFalling) false) (fun l => { l with offDue := false })
  if !(classB s) then
    if s.lantern.driveFrom.isSome then setLantern s (fun l => { l with blankDue := 2 })
    else enterOff (setLantern s (fun l => { l with vlcd := false }))
  else if s.lantern.vhvn then loadBegin (setLantern s (fun l => { l with blankDue := 2 }))
  else enterOff (setLantern s (fun l => { l with vhvp := false }))

/-- A rectangle is in progress: started and not completed. -/
def inProgress (s : State) : Bool := (List.range 5).any (fun n => decide (2 ≤ (rect s n).phase))

/-- An accepted OFF takes FALLING once the rectangles in progress have completed. -/
def settleOff (s : State) : State := if s.lantern.offDue && !(inProgress s) then enterFalling s else s

/-- Replays not completed. -/
def replaysLeft (s : State) : Bool := (List.range 5).any (fun n => (rect s n).replay && (rect s n).phase != 0)

/-- A slot completes (R506, R512); the last replay ends REPLAY (R515). (DEDUCED, log entry 82.) -/
def completeRect (s : State) (n : Nat) : State :=
  let r := rect s n
  let s := raise (setBusy (setRect s n (fun _ => {})) n false) 0x100 0
  let s := if r.replay then satFld s Reg.LANTERN_REPLAYED ⟨0, 32⟩ 1 else s
  let last := r.replay && !(replaysLeft s)
  let s := if last then raise s 0x100 3 else s
  let s := if last && lanState s == lsReplay && !s.lantern.offDue then enterOn s else s
  let s := if n = 4 ∧ s.lantern.iconDue then submitIcon s else s
  settleOff (lanternGo s)

/-! ### ON and OFF (R505, R515) -/

/-- The configuration ON needs: FRAME_HZ for class T, RAIL_MS, no reserved INV. (DESIGN CHOICE, log entry 83.) -/
def lanCfgErr (s : State) : Option Nat :=
  let hz := fld s Reg.LANTERN_CFG F.LANTERN_CFG_FRAME_HZ
  errIf (fld s Reg.LANTERN_CFG F.LANTERN_CFG_RAIL_MS == 0 || (!(classB s) && (decide (hz < 30) || decide (120 < hz)))) 38

/-- ON (R505, R515): accepted in OFF while the page is enabled. (DEDUCED, log entry 81.) -/
def execLanternOn (ini : Fin 16) (s : State) : Result :=
  let goes := lanState s == lsOff && pageEn s 0x100 && !(heldAll s)
  softWrite ini 0x100 0x44 (if goes then lanCfgErr s else none) s (fun s =>
    if goes then
      setLantern (setLanState (wr s Reg.LANTERN_REPLAYED 0) lsRising) (fun l => if classB s then { l with vhvp := true } else { l with vlcd := true })
    else s)

/-- OFF (R505, R515). (DEDUCED, log entry 81.) -/
def execLanternOff (ini : Fin 16) (s : State) : Result :=
  softWrite ini 0x100 0x44 none s (fun s =>
    if [lsRising, lsClearing, lsReplay, lsOn].contains (lanState s) && !(heldAll s) then
      settleOff (setLantern s (fun l => { l with offDue := true }))
    else s)

/-- RAIL_MS in VCO cycles. -/
def railTime (s : State) : Nat := fld s Reg.LANTERN_CFG F.LANTERN_CFG_RAIL_MS * vcoMs

/-- A rail step of ON or OFF is due, or the second rail falls 1 µs after a power fail (R515, R516). -/
def railDue (s : State) : Bool :=
  let l := s.lantern
  if heldAll s then l.vhvp && decide (l.since + vcoUs ≤ s.now)
  else if lanState s == lsRising then decide (l.since + railTime s ≤ s.now)
  else lanState s == lsFalling && classB s && !l.vhvn && l.vhvp && decide (l.since + railTime s ≤ s.now)

/-- RAIL_STEP (R515, R516). -/
def execRailStep (s : State) : Result :=
  whenDue (railDue s) s
    (if heldAll s then setLantern s (fun l => { l with vhvp := false })
     else if lanState s == lsFalling then enterOff (setLantern s (fun l => { l with vhvp := false }))
     else if !(classB s) then
       let s := (List.range 12).foldl (fun s i => wr s (Reg.LANTERN_IMG i) 0) (setLanState s lsClearing)
       setLantern s (fun l => { l with driveFrom := some s.now, pairs := 0, shown := 0 })
     else if !s.lantern.vhvn then setLantern s (fun l => { l with vhvn := true, since := s.now })
     else loadBegin (setLantern (setLanState s lsClearing) (fun l => { l with blankDue := 1 })))

/-! ### Class T (R507, R508, R510, R512) -/

/-- The image as one number: segment k is bit k. -/
def regMask (s : State) (r : Nat → Nat) : Nat := (List.range 12).foldl (fun m i => m + rdn s (r i) * 2 ^ (32 * i)) 0

/-- Write bits of the image inside a rectangle. -/
def applyRect (s : State) (n : Nat) : State :=
  let r := rect s n
  let m := rectMask r.bound
  (List.range 12).foldl (fun s i =>
    let w := BitVec.ofNat 32 (m / 2 ^ (32 * i))
    wr s (Reg.LANTERN_IMG i) ((rd s (Reg.LANTERN_IMG i) &&& ~~~w) ||| (r.data.getD i 0 &&& w))) s

/-- PERIOD_k in ns of MONO. -/
def blinkPeriod (s : State) (k : Nat) : Nat := fld s Reg.LANTERN_BLINK ⟨8 * k, 8⟩ * 10000000

/-- A blink rate shows off: the second half of its period. -/
def blinkHalf (s : State) (k : Nat) : Bool :=
  let p := blinkPeriod s k
  p != 0 && decide (p ≤ 2 * (monoNs s % p))

/-- The segments a frame pair shows (R508, R512). -/
def shownImage (s : State) : Nat :=
  let off := (List.range 4).filter (fun k => blinkHalf s k)
  let en := regMask s Reg.LANTERN_BLEN
  let s0 := regMask s Reg.LANTERN_BSEL0
  let s1 := regMask s Reg.LANTERN_BSEL1
  let rate := fun (k : Nat) => (if s1.testBit k then 2 else 0) + (if s0.testBit k then 1 else 0)
  let img := regMask s Reg.LANTERN_IMG
  let f := Reg.LANTERN_FORCE
  let icon := 48 * fld s f F.LANTERN_FORCE_COM + fld s f F.LANTERN_FORCE_SEG
  let on := fun (k : Nat) =>
    if flag s f F.LANTERN_FORCE_EN && k == icon then
      forceInd s && !(flag s f F.LANTERN_FORCE_BLINK && off.contains (fld s f F.LANTERN_FORCE_RATE))
    else img.testBit k && !(en.testBit k && off.contains (rate k))
  (List.range 384).foldl (fun m k => if on k then m + 2 ^ k else m) 0

/-- The next frame pair of the class T drive begins: 2 / FRAME_HZ after the one before. -/
def pairDue (s : State) : Bool :=
  match s.lantern.driveFrom with
  | none => false
  | some t => !(heldAll s) && decide ((s.lantern.pairs + 1) * 10000000000 ≤ (s.now - t) * fld s Reg.LANTERN_CFG F.LANTERN_CFG_FRAME_HZ)

/-- FRAME_PAIR_START (R507, R508, R510, R512, R515). (DEDUCED, log entry 81.) -/
def execFramePairStart (s : State) : Result :=
  whenDue (pairDue s) s
    (let s := setLantern s (fun l => { l with pairs := l.pairs + 1 })
     let st := lanState s
     if st == lsFalling then
       if s.lantern.blankDue != 0 then setLantern s (fun l => { l with blankDue := 0, shown := 0 })
       else enterOff (setLantern s (fun l => { l with driveFrom := none, vlcd := false }))
     else
       let s := if st == lsClearing && decide (2 ≤ s.lantern.pairs) then enterOn s else s
       let s := if lanState s == lsOn then
           ((List.range 5).filter (fun n => (rect s n).phase == 9 && decide ((rect s n).since < s.now))).foldl
             (fun s n => completeRect (applyRect s n) n) s
         else s
       if lanState s == lsOn then
         setLantern s (fun l => { l with
           shown := shownImage s, blinkOff := (List.range 4).foldl (fun m k => if blinkHalf s k then m + 2 ^ k else m) 0 })
       else s)

/-! ### SUBMIT (R505, R509) -/

/-- What is wrong with a submission: a slot in use, bounds that do not rise or lie outside the panel, a drive time
outside its range. (DESIGN CHOICE, log entry 83.) -/
def rectErr (s : State) (n : Nat) : Option Nat :=
  let b := Reg.LANTERN_RBOUND n
  let p := fld s (Reg.LANTERN_RDRIVE n) F.LANTERN_RDRIVE_PULSE_MS
  (errIf (lanBusy s n) 505).orElse (fun _ =>
    errIf (decide (fld s b F.LANTERN_RBOUND_C1 < fld s b F.LANTERN_RBOUND_C0) ||
      decide (fld s Reg.LANTERN_CFG F.LANTERN_CFG_SIZE < fld s b F.LANTERN_RBOUND_C1) ||
      decide (fld s b F.LANTERN_RBOUND_S1 < fld s b F.LANTERN_RBOUND_S0) || decide (47 < fld s b F.LANTERN_RBOUND_S1) ||
      (classB s && (p == 0 || decide (1000 < p)))) 38)

/-- SUBMIT (R509). -/
def execRectSubmit (ini : Fin 16) (n : Fin 4) (s : State) : Result :=
  softWrite ini 0x100 0x44 (rectErr s n.val) s (fun s =>
    submitRect s n.val (rd s (Reg.LANTERN_RBOUND n.val)) (fld s (Reg.LANTERN_RDRIVE n.val) F.LANTERN_RDRIVE_PULSE_MS)
      ((List.range 12).map (fun i => rd s (Reg.LANTERN_RDATA n.val i))))

/-! ### The journal (R513, R514) -/

/-- Address of a journal entry. -/
def journalAt (n : Nat) : Nat := 0x40180000 + 128 * n

/-- Bytes 0x00 to 0x4F of an entry. -/
def journalBytes (r : Rect) (drive : Nat) : List Byte :=
  let b := leBytes 4 0x4C4A4E31 ++ leBytes 4 r.seq ++ leBytes 4 r.bound.toNat ++ leBytes 4 drive ++
    (List.range 12).flatMap (fun i => leBytes 4 (r.data.getD i 0).toNat)
  b ++ leBytes 4 (crc32c b) ++ List.replicate 12 0

/-- VCO cycles of a journal write of `n` bytes at 250 MB/s. -/
def journalTime (n : Nat) : Nat := 20 * n

/-- The journal entry of slot `n` is written; `rest` wait (R511, R513). -/
def journalEnd (s : State) (n : Nat) (rest : List Nat) : State :=
  let s := storeMram s 14 (journalAt n) (journalBytes (rect s n) (rect s n).pulse)
  let s := setLantern (rectPhase s n 3) (fun l => { l with
    writing := if heldAll s then [] else rest, writeFrom := s.now })
  writeEnds (loadBegin s)

/-- JOURNAL_WRITE_DONE (R511, R513): also after power-fail qualification, if it had begun (R71). (DEDUCED, log entry 82.) -/
def execJournalWriteDone (s : State) : Result :=
  match s.lantern.writing with
  | [] => .next s
  | n :: rest =>
    settleDue (decide (s.lantern.writeFrom + journalTime 80 ≤ s.now)) s (journalEnd s n rest)

/-- A valid entry's bytes: MAGIC and CRC correct, SEQ not 0, no uncorrectable word (R456, R514). -/
def journalEntry (s : State) (n : Nat) : Option (List Byte) × State :=
  let r := readScan s 14 (journalAt n) 128
  let b := rdBytes r.2 (journalAt n) 128
  (if r.1.isNone && leNat (b.take 4) == 0x4C4A4E31 && leNat ((b.drop 0x40).take 4) == crc32c (b.take 0x40) &&
      leNat ((b.drop 4).take 4) != 0 then some b else none, r.2)

/-- A pending entry is loaded into its slot and submitted as a replay with its own SEQ. (DEDUCED, log entry 82.) -/
def replayEntry (s : State) (n : Nat) (b : List Byte) : State :=
  let w := fun (o : Nat) => BitVec.ofNat 32 (leNat ((b.drop o).take 4))
  let data := (List.range 12).map (fun i => w (0x10 + 4 * i))
  let s := if n < 4 then
      let s := wr (wr s (Reg.LANTERN_RBOUND n) (w 8)) (Reg.LANTERN_RDRIVE n) (w 0xC)
      (List.range 12).foldl (fun s i => wr s (Reg.LANTERN_RDATA n i) (data.getD i 0)) s
    else s
  setBusy (setRect s n (fun _ => {
    phase := 1, seq := (w 4).toNat, replay := true, bound := w 8, pulse := (w 0xC).toNat, data := data, since := s.now })) n true

/-- REPLAY begins (R514). (DEDUCED, log entry 82.) -/
def enterReplay (s0 : State) : State :=
  let es := (List.range 5).foldl (fun (st : List (Nat × List Byte) × State) n =>
    let r := journalEntry st.2 n
    (match r.1 with | some b => st.1 ++ [(n, b)] | none => st.1, r.2)) ([], setLanState s0 lsReplay)
  let seqOf := fun (b : List Byte) => leNat ((b.drop 4).take 4)
  let top := es.1.foldl (fun (m : Nat) e => if m = 0 ∨ seqBefore m (seqOf e.2) then seqOf e.2 else m) 0
  let s := if top = 0 then es.2 else wrn es.2 Reg.LANTERN_JSEQ top
  let s := (es.1.filter (fun e => leNat ((e.2.drop 0x50).take 4) != seqOf e.2)).foldl (fun s e => replayEntry s e.1 e.2) s
  if replaysLeft s then lanternGo s else enterOn s

/-! ### The chain (R511) -/

/-- Length of a chain load: 96 × (SIZE + 1) bits at 5 MHz and a latch pulse of 200 ns. -/
def loadTime (s : State) : Nat := (96 * (fld s Reg.LANTERN_CFG F.LANTERN_CFG_SIZE + 1) + 1) * 1000

/-- The targets of a rectangle, as a mask. -/
def rectTargets (r : Rect) : Nat :=
  rectMask r.bound &&& (List.range 12).foldl (fun m i => m + (r.data.getD i 0).toNat * 2 ^ (32 * i)) 0

/-- Bits of `a` that are not in `b`. -/
def maskMinus (a b : Nat) : Nat := (a ||| b) ^^^ b

/-- A drive is latched: the chain sets or clears its segments and the image takes them (R511 step 2). -/
def driveRect (s : State) (n : Nat) : State :=
  let r := rect s n
  let m := rectMask r.bound
  let t := rectTargets r
  let s := setLantern s (fun l => { l with
    setMask := maskMinus l.setMask m ||| t, clearMask := maskMinus l.clearMask m ||| maskMinus m t })
  rectPhase (applyRect s n) n 5

/-- The segments of a rectangle return to hold; its DONE word is written (R511 steps 3 and 4). -/
def holdRect (s : State) (n : Nat) : State :=
  let m := rectMask (rect s n).bound
  rectPhase (setLantern s (fun l => { l with setMask := maskMinus l.setMask m, clearMask := maskMinus l.clearMask m })) n 8

/-- CHAIN_LOAD_LATCH (R511, R514, R515). -/
def execChainLoadLatch (s : State) : Result :=
  match s.lantern.load with
  | none => .next s
  | some c =>
    whenDue (!(heldAll s) && decide (c.since + loadTime s ≤ s.now)) s
      (let s := setLantern s (fun l => { l with load := none })
       if c.blank = 0 then loadBegin (c.starts.foldl driveRect (c.ends.foldl holdRect s))
       else
         let s := setLantern s (fun l => { l with setMask := 0, clearMask := 0 })
         if c.blank = 2 then setLantern s (fun l => { l with vhvn := false, since := s.now })
         else if lanState s == lsClearing then enterReplay s
         else loadBegin s)

/-- DRIVE_PULSE_END (R511): PULSE_MS after the latch, the return to hold is due. -/
def execDrivePulseEnd (n : Fin 5) (s : State) : Result :=
  let r := rect s n.val
  whenDue (!(heldAll s) && r.phase == 5 && decide (r.since + r.pulse * vcoMs ≤ s.now)) s (loadBegin (rectPhase s n.val 6))

/-- RECTANGLE_COMPLETE (R511, R513): the DONE word is written and the slot completes. -/
def execRectangleComplete (n : Fin 5) (s : State) : Result :=
  let r := rect s n.val
  settleDue (r.phase == 8 && decide (r.since + journalTime 4 ≤ s.now)) s
    (writeEnds (completeRect (storeMram s 14 (journalAt n.val + 0x50) (leBytes 4 r.seq)) n.val))

/-! ### Power fail (R516) -/

/-- Step 2 of R71: backlight and drives off, VHVN down with VHVP 1 µs after it; a load in progress is cut, and of the
journal writes the one begun goes on. (DEDUCED, log entry 81.) -/
def lanternPowerFail (s : State) : State :=
  setLantern (setBacklight s false) (fun l => { l with
    driveFrom := none, shown := 0, vlcd := false, vhvn := false, since := s.now, load := none, blankDue := 0, setMask := 0,
    clearMask := 0, writing := l.writing.take 1 })

/-- A Lantern journal write that had begun has not completed (step 4 of R71). -/
def lanternWriting (s : State) : Bool := !s.lantern.writing.isEmpty || (List.range 5).any (fun n => (rect s n).phase == 8)

end Sys2Proof.Machine
end

