-- ==== Sys2Proof/Machine/Can.lean ====
section
/-!
DEFINITION. The CAN FD channels (R419-R433): CAN RAM, transmission, the error counters and bus-off, reception, sleep.
-/

namespace Sys2Proof.Machine

def canOf (s : State) (c : Nat) : CanChan := mget {} s.can c
def setCan (s : State) (c : Nat) (f : CanChan → CanChan) : State := { s with can := mput {} s.can c (f (canOf s c)) }

/-- Page of a channel. -/
def canPage (c : Nat) : Nat := 0xE1 + c
def canState (s : State) (c : Nat) : Nat := fld s (Reg.CAN_STAT c) F.CAN_STAT_STATE
def canAsleep (s : State) (c : Nat) : Bool := flag s (Reg.CAN_STAT c) F.CAN_STAT_SLEEP
def canListen (s : State) (c : Nat) : Bool := flag s (Reg.CAN_CFG c) F.CAN_CFG_LISTEN
def canPending (s : State) (c : Nat) : Word := rd s (Reg.CAN_TXREQ c)

/-- The channel runs (R420); after power-fail qualification it stores and sends nothing (R432). -/
def canEn (s : State) (c : Nat) : Bool := pageEn s 0xE0 && pageEn s (canPage c)
def canRuns (s : State) (c : Nat) : Bool := canEn s c && domainUp s 10 && !(heldAll s)

/-- On the bus: awake, rejoined, and neither bus-off nor recovering (R425, R426, R430). -/
def canOnBus (s : State) (c : Nat) : Bool :=
  canRuns s c && !(canAsleep s c) && decide (canState s c < 2) && decide ((canOf s c).rejoinAt ≤ s.now)

/-- A nominal bit in VCO cycles (R419). -/
def canBit (s : State) (c : Nat) : Nat :=
  let r := Reg.CAN_NBT c
  (fld s r F.CAN_NBT_BRP + 1) * (1 + (fld s r F.CAN_NBT_TSEG1 + 1) + (fld s r F.CAN_NBT_TSEG2 + 1)) * 125

/-- The data rate of a channel in CAN FD operation is above 1 Mbit/s without delay compensation (R419). -/
def canRateBad (s : State) (c : Nat) : Bool :=
  let r := Reg.CAN_DBT c
  flag s (Reg.CAN_CFG c) F.CAN_CFG_FD_EN && !(flag s (Reg.CAN_CFG c) F.CAN_CFG_TDC_EN) &&
    decide ((fld s r F.CAN_DBT_BRP + 1) * (1 + (fld s r F.CAN_DBT_TSEG1 + 1) + (fld s r F.CAN_DBT_TSEG2 + 1)) < 40)

/-! ### CAN RAM (R421, R422) -/

def canRd (s : State) (a : Nat) : Nat → List Byte
  | 0 => []
  | n + 1 => mget 0 s.canRam a :: canRd s (a + 1) n
def canPut (s : State) (a : Nat) : List Byte → State
  | [] => s
  | b :: bs => canPut { s with canRam := mput 0 s.canRam a b } (a + 1) bs

/-- Store bytes in CAN RAM with the effect on its code words. (DEDUCED, log entry 78.) -/
def canWr (s : State) (a : Nat) (bs : List Byte) : State :=
  let ws := (List.range (bs.length / 4 + 2)).filterMap (fun i =>
    let w := a / 4 * 4 + 4 * i
    if w < a + bs.length then some w else none)
  ws.foldl (fun s w => eccHalf s (canEcc + w)) (canPut s a bs)

/-- Byte address of a place in a channel's area. -/
def canAt (c off : Nat) : Nat := 0x4000 * c + off

/-- The bytes a data length code stands for. -/
def dlcBytes (fd : Bool) (dlc : Nat) : Nat :=
  if dlc ≤ 8 then dlc else if !fd then 8
  else ([12, 16, 20, 24, 32, 48, 64] : List Nat).getD (dlc - 9) 64

/-- CAN_RAM_DATA_ACCESS (R421, R429, R439): a read when `write` is none; an uncorrectable word reads as an open value. -/
def execCanRamDataAccess (ini : Fin 16) (c : Fin 8) (write : Option Word) (s : State) : Result :=
  let r := Reg.CAN_RAM_ADDR c.val
  let a := fld s r F.CAN_RAM_ADDR_ADDR / 4 * 4
  let bad := match write with
    | some _ => decide (0x900 ≤ a) || bitAt (canPending s c.val) (a / 72) || ((a + 3) / 72 < 32 && bitAt (canPending s c.val) ((a + 3) / 72))
    | none => false
  softWrite ini (canPage c.val) 0x80 (errIf bad 421) s (fun s =>
    let s1 := match write with
      | some w => canWr s (canAt c.val a) (leBytes 4 w.toNat)
      | none =>
        let r := readScan s 0 (canEcc + canAt c.val a) 4
        if r.1.isSome then let f := fresh r.2; answer f.2 [Config.freeWord f.1]
        else answer r.2 [BitVec.ofNat 32 (leNat (canRd r.2 (canAt c.val a) 4))]
    if flag s r F.CAN_RAM_ADDR_INC then setFld s1 r F.CAN_RAM_ADDR_ADDR (a + 4) else s1)

/-! ### Error counters (R425) -/

/-- The counters take values: CAN_STAT shows them, error passive is entered or left, bus-off is entered. -/
def setCounters (s : State) (c tx rx : Nat) : State :=
  let st := canState s c
  let s := setCan s c (fun k => { k with txErr := tx, rxErr := rx })
  let s := setFld (setFld s (Reg.CAN_STAT c) F.CAN_STAT_TEC (min tx 255)) (Reg.CAN_STAT c) F.CAN_STAT_REC (min rx 255)
  if 1 < st then s
  else if 255 < tx then
    let s := setFld s (Reg.CAN_STAT c) F.CAN_STAT_STATE 2
    aglEvent (raise s (canPage c) 6) (.add 11 (4 * c) 4 1)
  else
    let p := if 127 < tx ∨ 127 < rx then 1 else 0
    if p = st then s else raise (setFld s (Reg.CAN_STAT c) F.CAN_STAT_STATE p) (canPage c) 5

/-- A frame was received without error: REC falls; above 127 it takes a value from 119 to 127 that ISO 11898-1 leaves
open. (DEDUCED, log entry 78.) -/
def countReceived (s : State) (c : Nat) : State :=
  let k := canOf s c
  if canListen s c || k.rxErr == 0 then s
  else if k.rxErr ≤ 127 then setCounters s c k.txErr (k.rxErr - 1)
  else
    let f := fresh s
    setCounters f.2 c k.txErr (119 + Config.freeNat f.1 % 9)

/-- CAN_RECEIVE_ERROR (R425): REC rises by 1, or by 8 for a dominant bit after the error flag. -/
def execCanReceiveError (c : Fin 8) (dominant : Bool) (s : State) : Result :=
  let k := canOf s c.val
  whenDue (canOnBus s c.val && !(canListen s c.val)) s (setCounters s c.val k.txErr (k.rxErr + (if dominant then 8 else 1)))

/-! ### Sleep and wake (R430) -/

/-- SLEEP takes effect with no buffer pending and no frame on the way. -/
def canSettle (s : State) (c : Nat) : State :=
  let k := canOf s c
  if k.sleepDue && canPending s c == 0 && k.attempt.isNone && canRuns s c then
    setFlag (setCan s c (fun k => { k with sleepDue := false, standby := fld s (Reg.CAN_CFG c) F.CAN_CFG_WAKE == 1 }))
      (Reg.CAN_STAT c) F.CAN_STAT_SLEEP true
  else s

/-- The channel wakes: it rejoins the bus after 11 recessive bits. -/
def canWakeUp (s : State) (c cause : Nat) : State :=
  let s := setCan s c (fun k => { k with standby := false, sleepDue := false, rejoinAt := s.now + 11 * canBit s c })
  let s := setFld (setFlag s (Reg.CAN_STAT c) F.CAN_STAT_SLEEP false) (Reg.CAN_STAT c) F.CAN_STAT_WAKE_CAUSE cause
  raise s (canPage c) 8

/-- SLEEP (R430). (DEDUCED, log entry 78.) -/
def execCanSleep (ini : Fin 16) (c : Fin 8) (s : State) : Result :=
  softWrite ini (canPage c.val) 0x4C (errIf (decide (6 ≤ c.val) || fld s (Reg.CAN_CFG c.val) F.CAN_CFG_WAKE == 0) 430) s
    (fun s => if canAsleep s c.val then s else canSettle (setCan s c.val (fun k => { k with sleepDue := true })) c.val)

/-- WAKE (R430). -/
def execCanWake (ini : Fin 16) (c : Fin 8) (s : State) : Result :=
  softWrite ini (canPage c.val) 0x4C none s (fun s => if canAsleep s c.val then canWakeUp s c.val 3 else s)

/-- WAKE_EDGE (R430). -/
def execWakeEdge (c : Fin 8) (s : State) : Result :=
  whenDue (canRuns s c.val && canAsleep s c.val && fld s (Reg.CAN_CFG c.val) F.CAN_CFG_WAKE == 1) s (canWakeUp s c.val 1)

/-- A frame meets the wake conditions. -/
def wakeMatch (s : State) (c : Nat) (id : Word) (data : List Byte) : Bool :=
  let w := rd s (Reg.CAN_WAKE_ID c)
  let m := rd s (Reg.CAN_WAKE_MASK c) &&& 0x1FFFFFFF#32
  let dm := leBytes 4 (rdn s (Reg.CAN_WAKE_DM (2 * c))) ++ leBytes 4 (rdn s (Reg.CAN_WAKE_DM (2 * c + 1)))
  let dk := leBytes 4 (rdn s (Reg.CAN_WAKE_DK (2 * c))) ++ leBytes 4 (rdn s (Reg.CAN_WAKE_DK (2 * c + 1)))
  bitAt id 29 == bitAt w 29 && id &&& m == w &&& m &&
    (List.range 8).all (fun i =>
      let k := dk.getD i 0
      k == 0 || (decide (i < data.length) && data.getD i 0 &&& k == dm.getD i 0 &&& k))

/-- WAKE_FRAME (R430). -/
def execWakeFrame (c : Fin 8) (id : BitVec 32) (data : List Byte) (s : State) : Result :=
  whenDue (canRuns s c.val && canAsleep s c.val && fld s (Reg.CAN_CFG c.val) F.CAN_CFG_WAKE == 2 && wakeMatch s c.val id data) s
    (canWakeUp s c.val 2)

/-! ### Transmission (R423, R424, R426) -/

/-- CAN_TXREQ_WRITE (R24, R423, R430). -/
def execCanTxreqWrite (ini : Fin 16) (c : Fin 8) (value : Word) (s : State) : Result :=
  softWrite ini (canPage c.val) 0x54 none s (fun s =>
    let a := Reg.CAN_TXREQ c.val
    let s := noteWrite (orReg s a value) a (value ||| (swWritten s a).getD 0)
    if canAsleep s c.val && value != 0 then canWakeUp s c.val 3 else s)

/-- A request ends: its bits fall, but for one that software sets in this cycle (R24). -/
def txEnds (s : State) (c b : Nat) : State :=
  let m := 1#32 <<< b
  hwClearW1s (hwClearW1s s (Reg.CAN_TXREQ c) m) (Reg.CAN_TXCANCEL c) m

/-- A request ends as cancelled. -/
def cancelled (s : State) (c b : Nat) : State :=
  let m := 1#32 <<< b
  let s := txEnds s c b
  raise (orReg s (Reg.CAN_TXCAN c) m) (canPage c) 4

/-- CAN_TXCANCEL_WRITE (R24, R424): a cancel of the frame on the bus waits. -/
def execCanTxcancelWrite (ini : Fin 16) (c : Fin 8) (value : Word) (s : State) : Result :=
  softWrite ini (canPage c.val) 0x58 none s (fun s =>
    let s := (List.range 32).foldl (fun s b =>
      if bitAt value b && bitAt (canPending s c.val) b then
        (if (canOf s c.val).attempt = some b then
           let a := Reg.CAN_TXCANCEL c.val
           noteWrite (orReg s a (1#32 <<< b)) a ((1#32 <<< b) ||| (swWritten s a).getD 0)
         else cancelled s c.val b)
      else s) s
    canSettle s c.val)

/-- The arbitration field of a transmit buffer as the bus compares it, the first bit highest. -/
def arbField (s : State) (c b : Nat) : Nat :=
  let a := canAt c (72 * b)
  let w := BitVec.ofNat 32 (leNat (canRd s a 4))
  let fd := (leNat (canRd s (a + 4) 4)).testBit 4
  let rtr := if bitAt w 30 && !fd then 1 else 0
  let id := w.toNat % 0x20000000
  if bitAt w 29 then (id / 0x40000) * 0x200000 + 0x180000 + (id % 0x40000) * 2 + rtr
  else (id / 0x40000) * 0x200000 + rtr * 0x100000

/-- The frame that would win arbitration against the other pending ones; equal ones by the lower index (R423). -/
def canSelect (s : State) (c : Nat) : Option Nat :=
  ((List.range 32).filter (fun b => bitAt (canPending s c) b)).foldl (fun m b => match m with
    | none => some b
    | some x => if arbField s c b < arbField s c x then some b else m) none

/-- CAN_FRAME_START (R423, R429, R431, R439): the slot is read for transmission. -/
def execCanFrameStart (c : Fin 8) (s : State) : Result :=
  match canSelect s c.val with
  | none => .next s
  | some b =>
    whenDue (canOnBus s c.val && !(canListen s c.val) && (canOf s c.val).attempt.isNone) s
      (let r := readScan s 0 (canEcc + canAt c.val (72 * b)) 72
       if r.1.isSome then canSettle (cancelled r.2 c.val b) c.val
       else setCan r.2 c.val (fun k => { k with attempt := some b }))

/-- A cancel that waited for an unsuccessful attempt removes the buffer. -/
def attemptFailed (s : State) (c b : Nat) : State :=
  let s := setCan s c (fun k => { k with attempt := none })
  if bitAt (rd s (Reg.CAN_TXCANCEL c)) b then canSettle (cancelled s c b) c else s

/-- CAN_ATTEMPT_END (R423-R425): 0 success, 1 arbitration lost, 2 an error that raises TEC by 8, 3 an error for which ISO
11898-1 leaves TEC as it is. (DEDUCED, log entry 78.) -/
def execCanAttemptEnd (c : Fin 8) (outcome : Fin 4) (s : State) : Result :=
  let k := canOf s c.val
  match k.attempt with
  | none => .next s
  | some b =>
    whenDue (canRuns s c.val) s
      (if outcome = 0 then
         let m := 1#32 <<< b
         let s := setCan s c.val (fun k => { k with attempt := none })
         let s := txEnds s c.val b
         let s := raise (orReg s (Reg.CAN_TXDONE c.val) m) (canPage c.val) 3
         canSettle (setCounters s c.val (k.txErr - 1) k.rxErr) c.val
       else if outcome = 2 then setCounters (attemptFailed s c.val b) c.val (k.txErr + 8) k.rxErr
       else attemptFailed s c.val b)

/-- RESTART (R426): in bus-off only. -/
def execCanRestart (ini : Fin 16) (c : Fin 8) (s : State) : Result :=
  softWrite ini (canPage c.val) 0x4C none s (fun s =>
    if canState s c.val = 2 then
      setFld (setCan s c.val (fun k => { k with restartAt := s.now })) (Reg.CAN_STAT c.val) F.CAN_STAT_STATE 3
    else s)

/-- RECOVERY_COMPLETE (R426): not before 128 × 11 bits. -/
def execRecoveryComplete (c : Fin 8) (s : State) : Result :=
  whenDue (canRuns s c.val && canState s c.val == 3 && decide ((canOf s c.val).restartAt + 1408 * canBit s c.val ≤ s.now)) s
    (let s := setCounters (setFld s (Reg.CAN_STAT c.val) F.CAN_STAT_STATE 0) c.val 0 0
     aglEvent (raise s (canPage c.val) 7) (.add 11 (32 + 4 * c.val) 4 1))

/-! ### Reception (R427-R429) -/

/-- Object FULL bits. -/
def fullReg (c n : Nat) : Nat := if n < 32 then Reg.CAN_RXFULL0 c else Reg.CAN_RXFULL1 c
def objFull (s : State) (c n : Nat) : Bool := bitAt (rd s (fullReg c n)) (n % 32)
def setFull (s : State) (c n : Nat) (b : Bool) : State := wr s (fullReg c n) (putBit (rd s (fullReg c n)) (n % 32) b)

/-- Offsets of an object's main and shadow buffers. -/
def objMain (s : State) (c n : Nat) : Nat := (if (canOf s c).swapped.testBit n then 0x1B00 else 0x900) + 72 * n
def objShadow (s : State) (c n : Nat) : Nat := (if (canOf s c).swapped.testBit n then 0x900 else 0x1B00) + 72 * n

/-- The object that takes a frame. -/
def canAccept (s : State) (c : Nat) (id : Word) : Option Nat :=
  (List.range 64).find? (fun n =>
    let f := rd s (Reg.CAN_RXF_ID (64 * c + n))
    let m := rd s (Reg.CAN_RXF_MASK (64 * c + n)) &&& 0x1FFFFFFF#32
    bitAt f 31 && bitAt f 29 == bitAt id 29 && id &&& m == f &&& m)

/-- A frame overwrites one (R428). -/
def canOverwritten (s : State) (c : Nat) : State := raise (satFld s (Reg.CAN_OVW c) ⟨0, 32⟩ 1) (canPage c) 9

/-- Bytes of CAN RAM and their code words as they were before a store. -/
def canUndo (s : State) (a : Nat) (t : CanStored) : State :=
  let u := canPut s a t.old
  let here := fun (w : Nat) => decide (canEcc + a < w + 8) && decide (w < canEcc + a + t.old.length)
  { u with ecc := t.ecc.foldl (fun m e => mput {} m e.1 e.2) (u.ecc.filter (fun e => !(here e.1))) }

/-- A frame is stored in an object's buffer at `off`; what it meets there is kept for a grab or a release of the same cycle
(R428). -/
def canKeep (s : State) (c n off : Nat) (shadow empty : Bool) (bs : List Byte) : State :=
  let a := canAt c off
  setCan s c (fun k => { k with stored := some {
    cycle := s.now / 125, obj := n, shadow := shadow, empty := empty, frame := bs, old := canRd s a bs.length,
    ecc := s.ecc.filter (fun e => decide (canEcc + a < e.1 + 8) && decide (e.1 < canEcc + a + bs.length)),
    ovw := rd s (Reg.CAN_OVW c), raw := rd s (Reg.INT_RAW (canPage c)) } })

/-- The frame stored in object `n` in this CLK_CAN cycle, in its main or its shadow buffer. -/
def canStoredNow (s : State) (c n : Nat) (shadow : Bool) : Option CanStored :=
  match (canOf s c).stored with
  | some t => if t.cycle = s.now / 125 ∧ t.obj = n ∧ t.shadow = shadow then some t else none
  | none => none

/-- A stored slot (R422): `frame` gives its bytes for an object number. -/
def canStore (s : State) (c : Nat) (id : Word) (frame : Nat → List Byte) : State :=
  match canAccept s c id with
  | some n =>
    if (canOf s c).hold = some n then
      let s := canKeep s c n (objShadow s c n) true (!((canOf s c).shadow.testBit n)) (frame n)
      let s := if (canOf s c).shadow.testBit n then canOverwritten s c else s
      let s := canWr s (canAt c (objShadow s c n)) (frame n)
      setCan s c (fun k => { k with shadow := k.shadow ||| 2 ^ n })
    else
      let was := objFull s c n
      let s := canKeep s c n (objMain s c n) false (!was) (frame n)
      let s := canWr s (canAt c (objMain s c n)) (frame n)
      if was then canOverwritten s c else raise (setFull s c n true) (canPage c) 0
  | none =>
    if !(flag s (Reg.CAN_CFG c) F.CAN_CFG_FIFO_ALL) then s
    else
      let h := fld s (Reg.CAN_FIFO_HEAD c) F.CAN_FIFO_HEAD_IDX
      let t := fld s (Reg.CAN_FIFO_TAIL c) F.CAN_FIFO_TAIL_IDX
      if (t + 128 - h) % 128 = 64 then raise (satFld s (Reg.CAN_FIFO_OVF c) ⟨0, 32⟩ 1) (canPage c) 2
      else
        let s := canWr s (canAt c (0x2D00 + 72 * (t % 64))) (frame 63)
        raise (setFld s (Reg.CAN_FIFO_TAIL c) F.CAN_FIFO_TAIL_IDX ((t + 1) % 128)) (canPage c) 1

/-- CAN_FRAME_RECEIVE (R422, R427-R429): the identifier with XTD and RTR in bits 29 and 30, the code of the length, FDF, BRS
and ESI, MONO in ns at the start of frame, and the data. -/
def execCanFrameReceive (c : Fin 8) (id : BitVec 32) (dlc : BitVec 4) (flags : BitVec 3) (start : Nat) (data : List Byte)
    (s : State) : Result :=
  let fd := flags.getLsbD 0
  let n := if bitAt id 30 && !fd then 0 else dlcBytes fd dlc.toNat
  let w1 := fun (o : Nat) => dlc.toNat + 16 * flags.toNat + 256 * o + 65536 * (start / 1024 % 65536)
  let frame := fun (o : Nat) => leBytes 4 (id.toNat % 0x80000000) ++ leBytes 4 (w1 o) ++ data.take n
  whenDue (canOnBus s c.val && (!fd || flag s (Reg.CAN_CFG c.val) F.CAN_CFG_FD_EN) && decide (start ≤ monoNs s) &&
      decide (n ≤ data.length)) s
    (canStore (countReceived s c.val) c.val id frame)

/-- A grab takes effect before the frame stored in the same cycle: an object that was FULL keeps its frame in main, and the
new one goes to shadow (R428). -/
def grabFirst (s : State) (c n : Nat) (t : CanStored) : State :=
  let u := canUndo s (canAt c (objMain s c n)) t
  let u := wr (wr u (Reg.CAN_OVW c) t.ovw) (Reg.INT_RAW (canPage c)) (putBit (rd s (Reg.INT_RAW (canPage c))) 9 (bitAt t.raw 9))
  let u := canWr (setCan u c (fun k => { k with hold := some n, stored := none })) (canAt c (objShadow s c n)) t.frame
  setCan u c (fun k => { k with shadow := k.shadow ||| 2 ^ n })

/-- CAN_RXGRAB_WRITE (R428). (DEDUCED, log entry 78.) -/
def execCanRxgrabWrite (ini : Fin 16) (c : Fin 8) (value : Word) (s : State) : Result :=
  let n := value.toNat % 64
  let other := match (canOf s c.val).hold with | some m => m != n | none => false
  softWrite ini (canPage c.val) 0x6C ((errIf (decide (64 ≤ value.toNat)) 37).orElse (fun _ => errIf other 428)) s (fun s =>
    let tie := if (canOf s c.val).hold = some n then none else canStoredNow s c.val n false
    let full := match tie with | some t => !t.empty | none => objFull s c.val n
    let s := match tie with
      | some t => if t.empty then s else grabFirst s c.val n t
      | none => if full then setCan s c.val (fun k => { k with hold := some n }) else s
    wrn s (Reg.CAN_RXGRAB c.val) (objMain s c.val n + (if full then 0x80000000 else 0)))

/-- A release takes effect before the frame stored in the same cycle, and shadow held none: the object is EMPTY, and the frame
goes into main (R428). -/
def releaseFirst (s : State) (c n : Nat) (t : CanStored) : State :=
  let u := canWr (canUndo s (canAt c (objShadow s c n)) t) (canAt c (objMain s c n)) t.frame
  raise (setCan u c (fun k => { k with hold := none, stored := none, shadow := k.shadow ^^^ 2 ^ n })) (canPage c) 0

/-- CAN_RXREL_WRITE (R428). -/
def execCanRxrelWrite (ini : Fin 16) (c : Fin 8) (value : Word) (s : State) : Result :=
  let n := value.toNat % 64
  softWrite ini (canPage c.val) 0x70 ((errIf (decide (64 ≤ value.toNat)) 37).orElse (fun _ =>
      errIf ((canOf s c.val).hold != some n) 428)) s (fun s =>
    match (canStoredNow s c.val n true).filter (fun t => t.empty) with
    | some t => releaseFirst s c.val n t
    | none =>
      let k := canOf s c.val
      let s := setCan s c.val (fun k => { k with hold := none })
      if k.shadow.testBit n then
        raise (setCan s c.val (fun k => { k with shadow := k.shadow ^^^ 2 ^ n, swapped := k.swapped ^^^ 2 ^ n })) (canPage c.val) 0
      else setFull s c.val n false)

/-- CAN_FIFO_HEAD_WRITE (R429): HEAD advances over frames held. -/
def execCanFifoHeadWrite (ini : Fin 16) (c : Fin 8) (value : Word) (s : State) : Result :=
  let h := fld s (Reg.CAN_FIFO_HEAD c.val) F.CAN_FIFO_HEAD_IDX
  let t := fld s (Reg.CAN_FIFO_TAIL c.val) F.CAN_FIFO_TAIL_IDX
  softWrite ini (canPage c.val) 0x74 ((errIf (decide (128 ≤ value.toNat)) 37).orElse (fun _ =>
      errIf (decide ((t + 128 - h) % 128 < (value.toNat + 128 - h) % 128)) 38)) s (fun s => wr s (Reg.CAN_FIFO_HEAD c.val) value)

/-! ### Leaving the bus (R420, R432) -/

/-- The channel leaves the bus at the next bit: the attempt on the bus ends unsuccessful. (DEDUCED, log entry 78.) -/
def canHalt (s : State) (c : Nat) : State :=
  match (canOf s c).attempt with
  | some b => attemptFailed s c b
  | none => s

/-- Step 2 of R71. -/
def canPowerFail (s : State) : State :=
  (List.range 8).foldl (fun s c => setCan s c (fun k => { k with attempt := none })) s

end Sys2Proof.Machine
end

