-- ==== Sys2Proof/Machine/Exchange.lean ====
section
/-!
DEFINITION. Exchanging the program on line (R119-R136): the exchange group, the wait for the instant, the matching of
instances, the gap, REVERT and the report.
-/

namespace Sys2Proof.Machine

/-- CYC_XSTAT.STATE and RESULT values. -/
def xIdle : Nat := 0
def xWaiting : Nat := 1
def xGap : Nat := 2
def xState (s : State) : Nat := fld s Reg.CYC_XSTAT F.CYC_XSTAT_STATE
def setX (s : State) (st : Nat) : State := setFld s Reg.CYC_XSTAT F.CYC_XSTAT_STATE st
def setXResult (s : State) (r : Nat) : State := setFld s Reg.CYC_XSTAT F.CYC_XSTAT_RESULT r

def setExch (s : State) (f : Exchange → Exchange) : State :=
  { s with cyc := { s.cyc with exch := f s.cyc.exch } }

/-- The exchange group (R119): tasks with EXG = 1, and tasks with EN = 0. -/
def exchGroup (s : State) : List Nat :=
  allTasks.filter (fun t => flag s (Reg.TCFG t) F.TCFG_EXG || !(taskEn s t))

/-- The descriptors of the incoming and outgoing image (R123, R135); a DISCARD while a REVERT waits shows in both. (DESIGN CHOICE, log entry 102.) -/
def xIn (s : State) : Nat := if s.cyc.exch.revert then rdn s Reg.CYC_XPREV else rdn s Reg.CYC_XDESC
def xOut (s : State) : Nat := rdn s Reg.CYC_XACT

/-! ### Image descriptors and directories (R104, R122) -/

/-- The addresses of a directory's entries. -/
def dirEntries (s : State) (d : Nat) : List Nat := (List.range (dDirCnt s d)).map (fun k => dDirBase s d + 32 * k)
def eHash (s : State) (e : Nat) : Nat := rdLE s e 8
def eType (s : State) (e : Nat) : Nat := rdLE s (e + 8) 4
def eVer (s : State) (e : Nat) : Nat := rdLE s (e + 12) 2
def eOff (s : State) (e : Nat) : Nat := rdLE s (e + 16) 4
def eSize (s : State) (e : Nat) : Nat := rdLE s (e + 20) 4
def eRetOff (s : State) (e : Nat) : Nat := rdLE s (e + 24) 4
def eRetSize (s : State) (e : Nat) : Nat := rdLE s (e + 28) 4

/-- The field-map records of a descriptor for a type and a pair of versions (R127). -/
def mapRecords (s : State) (d ty v1 v2 : Nat) : List Nat :=
  ((List.range (dMapCnt s d)).map (fun k => dMapBase s d + 24 * k)).filter
    (fun r => rdLE s r 4 == ty && rdLE s (r + 4) 2 == v1 && rdLE s (r + 6) 2 == v2)

/-- What becomes of one incoming directory entry (R126). -/
inductive Matching where
  /-- copied from this outgoing entry -/
  | copied (out : Nat)
  /-- mapped from this outgoing entry by these records -/
  | mapped (out : Nat) (records : List Nat)
  /-- cold, with its reason code -/
  | cold (reason : Nat)
  deriving DecidableEq, Repr

/-- The matching of one incoming entry (R126, R127). -/
def matchEntry (s : State) (din dout e : Nat) : Matching :=
  match (dirEntries s dout).find? (fun o => eHash s o == eHash s e) with
  | none => .cold 1
  | some o =>
    if eType s o != eType s e then .cold 2
    else if eVer s o == eVer s e then .copied o
    else
      let own := mapRecords s din (eType s e) (eVer s o) (eVer s e)
      let recs := if own.isEmpty then mapRecords s dout (eType s e) (eVer s o) (eVer s e) else own
      if recs.isEmpty then .cold 3 else .mapped o recs

/-- Copied pairs whose sizes differ are a host error (R126). -/
def sizesAgree (s : State) (din dout : Nat) : Bool :=
  (dirEntries s din).all (fun e => match matchEntry s din dout e with
    | .copied o => eSize s o == eSize s e && eRetSize s o == eRetSize s e
    | _ => true)

/-- The bytes one matching copies. -/
def matchBytes (s : State) (e : Nat) : Matching → Nat
  | .copied _ => eSize s e - 16 + eRetSize s e
  | .mapped _ recs => recs.foldl (fun n r => n + rdLE s (r + 16) 4) 0
  | .cold _ => 0

/-- One copy of an exchange, unless an earlier one has stopped at an uncorrectable error (R482). -/
def xCopy (x : Xfer) (src dst n : Nat) : Xfer :=
  if x.1 then x
  else
    let c := copyChecked x.2 13 src dst n
    (c.1.isSome, c.2)

/-- One field-map record (R127). -/
def applyRecord (din dout e o : Nat) (x : Xfer) (r : Nat) : Xfer :=
  let s := x.2
  let src := rdLE s (r + 8) 4
  let dst := rdLE s (r + 12) 4
  let n := rdLE s (r + 16) 4
  if rdLE s (r + 20) 1 == 0 then xCopy x (dSegBase s dout + eOff s o + src) (dSegBase s din + eOff s e + dst) n
  else xCopy x (dRetBase s dout + eRetOff s o + src) (dRetBase s din + eRetOff s e + dst) n

/-- Apply one matching (R126, R127): the instance header is never copied. -/
def applyMatch (din dout : Nat) (x : Xfer) (e : Nat) : Matching → Xfer
  | .copied o =>
    let s := x.2
    xCopy (xCopy x (dSegBase s dout + eOff s o + 16) (dSegBase s din + eOff s e + 16) (eSize s e - 16))
      (dRetBase s dout + eRetOff s o) (dRetBase s din + eRetOff s e) (eRetSize s e)
  | .mapped o recs => recs.foldl (applyRecord din dout e o) x
  | .cold _ => x

/-- The seed entries that are applied: those whose instance is a cold edge detector (R129). -/
def seedsApplied (s : State) (din dout : Nat) : List Nat :=
  if flag s Reg.CYC_XCFG F.CYC_XCFG_EXCH_EDGE_COLD then []
  else ((List.range (dSeedCnt s din)).map (fun k => dSeedBase s din + 16 * k)).filter (fun q =>
    let e := dDirBase s din + 32 * rdLE s q 4
    (match matchEntry s din dout e with | .cold _ => true | _ => false) && (eType s e == 4 || eType s e == 5))

/-- Apply one seed: M := the masked bit, Q := 0 (R108, R129). -/
def applySeed (din : Nat) (x : Xfer) (q : Nat) : Xfer :=
  if x.1 then x
  else
    let inst := dSegBase x.2 din + eOff x.2 (dDirBase x.2 din + 32 * rdLE x.2 q 4)
    let a := rdLE x.2 (q + 4) 4
    let r := readScan x.2 13 a 1
    if r.1.isSome then (true, r.2)
    else
      let m := rdByte r.2 a &&& rdByte r.2 (q + 8)
      (false, store r.2 13 (inst + 0x11) [0, if m = 0 then 0 else 1])

/-! ### What an image must be (R104, R109, R120-R122, R126-R129) -/

/-- The staged image overlaps the running one (R121); tasks outside the group share theirs (R120). -/
def imagesMeet (s : State) (din dout : Nat) : Bool :=
  (imageRanges s din s.cyc.exch.group).any (fun a => (imageRanges s dout s.cyc.exch.group).any (rangesMeet a))

/-- A field of a descriptor breaks R122. -/
def imageHeadErr (s : State) (d : Nat) : Bool :=
  d % 64 != 0 || rdLE s d 4 != 0x4C584431 || rdLE s (d + 4) 2 != 1 || rdLE s (d + 6) 2 != 0 || dSegBase s d % 32 != 0 ||
    decide (8388608 < rdLE s (d + 0x14) 4) || dDirBase s d % 32 != 0 || decide (262144 < dDirCnt s d) || dMapBase s d % 8 != 0 ||
    decide (65536 < dMapCnt s d) || dSeedBase s d % 16 != 0 || decide (65536 < dSeedCnt s d) || dRetBase s d % 64 != 0 ||
    dRetLen s d % 64 != 0 || decide (262080 < dRetLen s d) ||
    allTasks.any (fun t => rdLE s (d + 0x40 + 48 * t + 36) 12 != 0)

/-- Two entries of one directory have the same PATH_HASH (R122). -/
def sameHash : List Nat → Bool
  | [] => false
  | h :: hs => hs.contains h || sameHash hs

/-- An entry with a standard TYPE_ID has not the version or the room of that type (R108). -/
def standardErr (s : State) (e : Nat) : Bool :=
  decide (eType s e ≤ 5) && (eVer s e != 1 || (decide (eType s e ≤ 3) && decide (eSize s e < 48)))

/-- A directory entry breaks R104, R108 or R109. -/
def dirErr (s : State) (d e : Nat) : Bool :=
  let r := eRetSize s e
  standardErr s e ||
  eType s e == 0 || decide (1 < rdLE s (e + 14) 2) || eOff s e % 32 != 0 || eSize s e % 32 != 0 || decide (eSize s e < 32) ||
    decide (rdLE s (d + 0x14) 4 < eOff s e + eSize s e) || (rdLE s (e + 14) 2 == 1) != (r != 0) ||
    (if r = 0 then eRetOff s e != 0xFFFFFFFF else decide (dRetLen s d < eRetOff s e + r) || decide (eType s e ≤ 5))

/-- A field-map record breaks R127 or R128 on its own. -/
def recordErr (s : State) (r : Nat) : Bool :=
  decide (1 < rdLE s (r + 20) 1) || rdLE s (r + 21) 3 != 0 ||
    (rdLE s (r + 20) 1 == 0 && (decide (rdLE s (r + 8) 4 < 16) || decide (rdLE s (r + 12) 4 < 16)))

/-- A record reaches beyond the areas of the pair it maps (R128). -/
def recordBeyond (s : State) (e o r : Nat) : Bool :=
  let size := fun (x : Nat) => if rdLE s (r + 20) 1 = 0 then eSize s x else eRetSize s x
  decide (size o < rdLE s (r + 8) 4 + rdLE s (r + 16) 4) || decide (size e < rdLE s (r + 12) 4 + rdLE s (r + 16) 4)

/-- A field map breaks R127 or R128. -/
def fieldMapErr (s : State) (d : Nat) : Bool :=
  let rs := (List.range (dMapCnt s d)).map (fun k => dMapBase s d + 24 * k)
  rs.any (recordErr s) || splitRun (rs.map (fun r => some (rdLE s r 8)))

/-- The maps and regions of the program after the exchange break R38, R81, R88 or R89. -/
def newProgramErr (s : State) (din : Nat) : Option Nat :=
  let w := fun (t k r : Nat) => if t ∈ s.cyc.exch.group then dTaskWord s din t k else rdn s r
  let ts := allTasks.filter (fun t => (w t 0 (Reg.TCFG t)).testBit 31)
  (errIf (ts.any (fun t => gridErr (w t 1 (Reg.TPERIOD t)) (w t 2 (Reg.TPHASE t)))) 38).orElse (fun _ =>
    (mapsErr s (ts.map (fun t => (w t 6 (Reg.TIMAP t), w t 7 (Reg.TOMAP t))))).orElse (fun _ =>
      regionsErr (dRetLen s din) (ts.map (fun t => regionOf (w t 8 (Reg.TRET t))))))

/-- What an exchange uses breaks a rule of R104, R121, R122 or R126-R129, or of the program's maps. (DEDUCED, log entry 47.) -/
def exchErr (s : State) (din dout : Nat) : Option Nat :=
  (errIf (imageHeadErr s din || imageHeadErr s dout) 122).orElse (fun _ =>
  (errIf (imagesMeet s din dout) 121).orElse (fun _ =>
  (errIf (sameHash ((dirEntries s din).map (eHash s)) || sameHash ((dirEntries s dout).map (eHash s))) 122).orElse (fun _ =>
  (errIf ((dirEntries s din).any (dirErr s din) || (dirEntries s dout).any (dirErr s dout)) 104).orElse (fun _ =>
  (errIf (!(sizesAgree s din dout)) 126).orElse (fun _ =>
  (errIf (fieldMapErr s din || fieldMapErr s dout || (dirEntries s din).any (fun e => match matchEntry s din dout e with
    | .mapped o rs => rs.any (recordBeyond s e o)
    | _ => false)) 128).orElse (fun _ =>
  (errIf ((List.range (dSeedCnt s din)).any (fun k =>
    let q := dSeedBase s din + 16 * k
    decide (dDirCnt s din ≤ rdLE s q 4) || rdLE s (q + 9) 7 != 0)) 129).orElse (fun _ =>
  newProgramErr s din)))))))

/-- The descriptors and tables of both images are read before the first copy; an uncorrectable error there ends the exchange
(R482). (DEDUCED, log entry 47.) -/
def tablesScan (s : State) (din dout : Nat) : Xfer :=
  ([din, dout].flatMap (fun d => [(d, 832), (dDirBase s d, 32 * dDirCnt s d), (dMapBase s d, 24 * dMapCnt s d)]) ++
    [(dSeedBase s din, 16 * dSeedCnt s din)]).foldl (fun x r =>
    if x.1 then x else let c := readScan x.2 13 r.1 r.2; (c.1.isSome, c.2)) (false, s)

/-! ### The report (R136) -/

/-- The header of the report. -/
def reportHeader (result : Nat) (revert : Bool) (tInstant tEnd nCopied nMapped nCold nDropped nSeeded bytes nListed
    nOmitted skipped : Nat) : List Byte :=
  leBytes 2 0x5852 ++ leBytes 2 1 ++ leBytes 1 result ++ leBytes 1 (if revert then 1 else 0) ++ leBytes 2 0 ++
    leBytes 8 tInstant ++ leBytes 8 tEnd ++ leBytes 4 nCopied ++ leBytes 4 nMapped ++ leBytes 4 nCold ++
    leBytes 4 nDropped ++ leBytes 4 nSeeded ++ leBytes 4 bytes ++ leBytes 4 nListed ++ leBytes 4 nOmitted ++
    leBytes 4 skipped ++ leBytes 4 0

/-- An exchange that ends without its instant (R125, R136): refused 2, aborted 3. -/
def endWait (s : State) (result : Nat) : State :=
  let s := setXResult (setX s xIdle) result
  let s := wrn s Reg.CYC_XGAP 0
  store s 13 (rdn s Reg.CYC_XREP) (reportHeader result s.cyc.exch.revert 0 (monoNs s) 0 0 0 0 0 0 0 0 0)

/-! ### Commands (R119, R120, R123) -/

/-- The conditions of R120 the part's state can show: tasks with a retentive region belong to the group, and the
entries of tasks outside the group equal their registers. -/
def groupOk (s : State) (d : Nat) : Bool :=
  allTasks.all (fun t => decide (t ∈ exchGroup s) ||
    (fld s (Reg.TRET t) F.TRET_LEN64 == 0 &&
      [Reg.TCFG t, Reg.TPERIOD t, Reg.TPHASE t, Reg.TCTX t, Reg.TENTRY_LO t, Reg.TENTRY_HI t, Reg.TIMAP t, Reg.TOMAP t,
        Reg.TRET t].zipIdx.all (fun p => dTaskWord s d t p.2 == rdn s p.1)))

/-- A write of CYC_XCMD. -/
def exchCommand (ini : Fin 16) (extra : Option Nat) (s : State) (f : State → State) : Result :=
  softWrite ini 0x40 0x98 extra s f

/-- EXCH or REVERT begins to wait for its instant. (DEDUCED, log entry 47.) -/
def exchBegin (s : State) (revert : Bool) : State :=
  setX (setExch s (fun x => { x with
    revert := revert, group := exchGroup s, acceptedMono := monoNs s, acceptedAt := s.now, engineTime := 0,
    stopPending := false })) xWaiting

/-- EXCH (R119, R120, R123, R124, R368). -/
def execExch (ini : Fin 16) (s : State) : Result :=
  exchCommand ini
    ((errIf (role s == 2) 368).orElse (fun _ => errIf (machine s != machRunning || xState s != xIdle) 123) |>.orElse (fun _ => errIf (!(groupOk s (rdn s Reg.CYC_XDESC))) 120))
    s (fun s => exchBegin s false)

/-- REVERT (R119, R120, R123, R135, R368). -/
def execExchRevert (ini : Fin 16) (s : State) : Result :=
  exchCommand ini
    ((errIf (role s == 2) 368).orElse (fun _ => errIf (machine s != machRunning || xState s != xIdle || !(flag s Reg.CYC_XSTAT F.CYC_XSTAT_REVERT_OK)) 123) |>.orElse
      (fun _ => errIf (!(groupOk s (rdn s Reg.CYC_XPREV))) 120))
    s (fun s => exchBegin s true)

/-- ABORT (R123, R125, R136): it has an effect only in WAITING. -/
def execExchAbort (ini : Fin 16) (s : State) : Result :=
  settleWrite ini 0x40 0x98 none s (fun s => if xState s == xWaiting then endWait s 3 else s)

/-- DISCARD (R123): REVERT_OK and CYC_XPREV are cleared. -/
def execExchDiscard (ini : Fin 16) (s : State) : Result :=
  exchCommand ini none s (fun s => wrn (setFlag s Reg.CYC_XSTAT F.CYC_XSTAT_REVERT_OK false) Reg.CYC_XPREV 0)

/-- STOP (R98, R101, R102, R125, R134): in WAITING it aborts the exchange first, in the gap it takes effect at its end. (DEDUCED, log entry 46.) -/
def execCycStop (ini : Fin 16) (s : State) : Result :=
  cycCommandMem ini none s (fun s =>
    if xState s == xGap then setExch s (fun x => { x with stopPending := true })
    else stopMachine (if xState s == xWaiting then endWait s 3 else s))

/-! ### The instant and the gap (R124-R134) -/

/-- A task is between cycles (R124). -/
def betweenCycles (s : State) (t : Nat) : Bool :=
  let st := taskState s t
  (st == tOff || st == tWait || st == tFault || (st == tHeld && !(task s t).saved)) &&
    (s.cyc.current.toList ++ s.cyc.waiting).all (fun o => xferTask o != some t)

/-- The exchange instant can come, in a CLK_FAB cycle after the one that accepted the command (R124). (DEDUCED, log entry 47.) -/
def instantReady (s : State) : Bool :=
  xState s == xWaiting && decide (s.cyc.exch.acceptedAt / 8 < s.now / 8) && s.cyc.exch.group.all (betweenCycles s) &&
    !(flag s Reg.CYC_RET_STAT F.CYC_RET_STAT_BUSY) && !(flag s Reg.CYC_RET_STAT F.CYC_RET_STAT_PEND)

/-- EXCH_TMO has passed at a time of MONO (R125). -/
def exchExpired (s : State) (mono : Nat) : Bool :=
  decide (s.cyc.exch.acceptedMono + fld s Reg.CYC_XCFG F.CYC_XCFG_EXCH_TMO * 1000000 ≤ mono)

/-- MONO as the CLK_FAB cycle before this one left it. -/
def monoBefore (s : State) : Nat := monoNs s - 4 * (s.now / 20 - (s.now / 8 * 8 - 1) / 20)

/-- EXCHANGE_INSTANT (R124, R125, R130): not after the expiry; in the cycle of the expiry the exchange proceeds. -/
def execExchangeInstant (s : State) : Result :=
  whenDue (instantReady s && !(exchExpired s (monoBefore s)) && !held s) s
    (setX (setExch s (fun x => { x with
      instantMono := monoNs s, instantPtp := ptpNs s, instantAt := s.now, engineTime := 0 })) xGap)

/-- EXCHANGE_TIMEOUT (R125): an instant in the same cycle goes before it. -/
def execExchangeTimeout (s : State) : Result :=
  settleDue (xState s == xWaiting && exchExpired s (monoNs s) && (!(instantReady s) || exchExpired s (monoBefore s))) s
    (endWait s 2)

/-- The bytes an exchange copies (C of R130). -/
def exchBytes (s : State) : Nat :=
  (dirEntries s (xIn s)).foldl (fun n e => n + matchBytes s e (matchEntry s (xIn s) (xOut s) e)) 0

/-- T_x of R130 so far: the engine time of the operations that ended in the gap, and of the one in progress. -/
def gapEngine (s : State) : Nat :=
  s.cyc.exch.engineTime + (if s.cyc.current.isSome then s.now - max s.cyc.currentSince s.cyc.exch.instantAt else 0)

/-- t_gap in VCO cycles (R130): 200 µs + 0.8 ms × C / 1,048,576 + 24 ns × N_seed + T_x. -/
def gapTime (s : State) : Nat :=
  1000000 + 4000000 * exchBytes s / 1048576 + 120 * (seedsApplied s (xIn s) (xOut s)).length + gapEngine s

/-- The grid points of a group task, under its outgoing registers, that fall in the gap, from the instant on (R132, R136). -/
def skippedOf (s : State) (t : Nat) : Nat :=
  let p := fld s (Reg.TPERIOD t) F.TPERIOD_PERIOD * gridUnit
  let b := baseNs s (taskPtp s t)
  let from0 := if taskPtp s t then s.cyc.exch.instantPtp else s.cyc.exch.instantMono
  let first := gridAtOrAfter (fld s (Reg.TPERIOD t) F.TPERIOD_PERIOD) (fld s (Reg.TPHASE t) F.TPHASE_PHASE) (max from0 (task s t).gridFrom)
  if taskEn s t && p != 0 && taskState s t != tOff && decide (first ≤ b) then 1 + (b - first) / p else 0

/-- REL_SKIPPED of R136. (DEDUCED, log entry 47.) -/
def relSkipped (s : State) : Nat := s.cyc.exch.group.foldl (fun n t => n + skippedOf s t) 0

/-- Load one group task's registers from the incoming descriptor (R130 step 4, R131, R132), with its maps; a HELD task whose
new EN is 0 enters OFF. (DEDUCED, log entry 47; DESIGN CHOICE, log entry 102.) -/
def loadTask (din : Nat) (s : State) (t : Nat) : State :=
  let w := fun k => dTaskWord s din t k
  let s1 := wrn (wrn (wrn s (Reg.TCFG t) (w 0)) (Reg.TPERIOD t) (w 1)) (Reg.TPHASE t) (w 2)
  let s2 := wrn (wrn (wrn s1 (Reg.TCTX t) (w 3)) (Reg.TENTRY_LO t) (w 4)) (Reg.TENTRY_HI t) (w 5)
  let s3 := wrn (wrn (wrn s2 (Reg.TIMAP t) (w 6)) (Reg.TOMAP t) (w 7)) (Reg.TRET t) (w 8)
  if !(taskEn s3 t) then setTaskState (setTask s3 t (fun _ => {})) t tOff
  else
    let s4 := (loadMaps s3 t).2
    let s5 := setTask s4 t (fun k => { k with firstCycle := false, gridFrom := gridFromNow s4 t 1 })
    if taskState s5 t == tHeld then s5 else setTaskState s5 t tWait

/-- The incoming maps of the group can be read (R482); the copy of the working buffer comes first (R130 step 4). -/
def stepFour (din : Nat) (group : List Nat) (x : Xfer) : Xfer :=
  let b := dRetBase x.2 din
  let n := dRetLen x.2 din
  (group.filter (fun t => (dTaskWord x.2 din t 0).testBit 31)).foldl (fun x t =>
    if x.1 then x
    else
      let i := readMap x.2 (dTaskWord x.2 din t 6)
      let o := readMap i.2 (dTaskWord x.2 din t 7)
      (i.1.isNone || o.1.isNone, o.2)) (xCopy x b (b + n) n)

/-- An exchange that a copy error ends (R482): aborted, nothing loaded; the group goes on with the outgoing image, and
a STOP or a commit request kept in the gap is served (R133, R134). Its report counts nothing. (DESIGN CHOICE, log entry 102.) -/
def gapAbort (s0 : State) : State :=
  let s := setXResult (setX s0 xIdle) 3
  let s := wrn s Reg.CYC_XGAP ((s.now - s0.cyc.exch.instantAt) / vcoNs)
  let s := store s 13 (rdn s Reg.CYC_XREP)
    (reportHeader 3 s.cyc.exch.revert s.cyc.exch.instantMono (monoNs s) 0 0 0 0 0 0 0 0 (relSkipped s0))
  let s := s.cyc.exch.group.foldl (fun s t =>
    setTask s t (fun k => { k with gridFrom := max k.gridFrom (gridFromNow s t 1) })) s
  let s := if flag s Reg.CYC_RET_STAT F.CYC_RET_STAT_PEND then
      retRequest (setFlag s Reg.CYC_RET_STAT F.CYC_RET_STAT_PEND false)
    else s
  if s0.cyc.exch.stopPending then stopMachine s else s

/-- The exchange's end (R126-R136), in the order of R130. N_DROPPED counts the outgoing instances that the incoming directory
does not hold. (DEDUCED, log entry 47; DESIGN CHOICE, log entry 102.) -/
def gapEnd (s0 : State) : State :=
  let din := xIn s0
  let dout := xOut s0
  let revert := s0.cyc.exch.revert
  let es := dirEntries s0 din
  let ms := es.map (fun e => (e, matchEntry s0 din dout e))
  let colds := (ms.zipIdx).filterMap (fun p => match p.1.2 with
    | .cold r => some (eHash s0 p.1.1, p.2, r)
    | _ => none)
  let nCopied := (ms.filter (fun p => match p.2 with | .copied _ => true | _ => false)).length
  let nMapped := (ms.filter (fun p => match p.2 with | .mapped _ _ => true | _ => false)).length
  let dropped := ((dirEntries s0 dout).filter (fun o => !(es.any (fun e => eHash s0 e == eHash s0 o)))).length
  let seeds := seedsApplied s0 din dout
  let bytes := exchBytes s0
  let skipped := relSkipped s0
  let listed := min colds.length (rdn s0 Reg.CYC_XREP_MAX)
  let tables := tablesScan s0 din dout
  let x := ms.foldl (fun x p => if x.1 then x else applyMatch din dout x p.1 p.2) tables
  let x := seeds.foldl (applySeed din) x
  let x := if x.1 then x else stepFour din s0.cyc.exch.group x
  if x.1 then gapAbort x.2
  else
  let s := s0.cyc.exch.group.foldl (loadTask din) x.2
  let s := [0, 1, 2, 3].foldl (fun s c => l1Empty (setCore s c (fun k => { k with icacheFrom := s.now })) c) s
  let s := wrn (wrn s Reg.CYC_RET_BASE (dRetBase s din)) Reg.CYC_RET_LEN (dRetLen s din)
  let s := wr64 s Reg.CYC_RET_SIG_LO Reg.CYC_RET_SIG_HI (dRetSig s din)
  let s := wrn s Reg.CYC_XACT din
  let s := wrn s Reg.CYC_XPREV (if revert then 0 else dout)
  let s := setFlag s Reg.CYC_XSTAT F.CYC_XSTAT_REVERT_OK (!revert)
  let s := setFld s Reg.CYC_STAT F.CYC_STAT_LAST_START 3
  let s := store s 13 (rdn s Reg.CYC_XREP)
    (reportHeader 1 revert s0.cyc.exch.instantMono (monoNs s0) nCopied nMapped colds.length dropped seeds.length bytes
        listed (colds.length - listed) skipped ++
      (colds.take listed).flatMap (fun c => leBytes 8 c.1 ++ leBytes 4 c.2.1 ++ leBytes 1 c.2.2 ++ leBytes 3 0))
  let s := wrn s Reg.CYC_XGAP ((s.now - s0.cyc.exch.instantAt) / vcoNs)
  let s := setXResult (setX s xIdle) 1
  let s := if role s = 4 then setMirror s (fun m => { m with exchTasks := s0.cyc.exch.group }) else s
  -- a request kept as PEND and the request of R133 are one request
  let s := retRequest (setFlag s Reg.CYC_RET_STAT F.CYC_RET_STAT_PEND false)
  if s0.cyc.exch.stopPending then stopMachine s else s

/-- GAP_END (R126-R136): the exchange moves data only while the engine performs no operation (R131). (DEDUCED, log entry 47.) -/
def execGapEnd (s : State) : Result :=
  if xState s == xGap && !held s && s.cyc.current.isNone && decide (s.cyc.exch.instantAt + gapTime s ≤ s.now) then
    check (if (tablesScan s (xIn s) (xOut s)).1 then none else exchErr s (xIn s) (xOut s)) (settle s (gapEnd s))
  else .next s

end Sys2Proof.Machine
end

