-- ==== Sys2Proof/Machine/Mtr.lean ====
section
/-!
DEFINITION. Energy and heat metering (R238-R268): blocks, band correction, feeders, heat channels, interval records,
pulse outputs and checkpoints. The commands of the sample path bring the levels of MTR_MDAT0-27 in the MTR_MCLK periods
since the last such command, channel c in bit c of each word.
-/

namespace Sys2Proof.Machine

/-! ### State and configuration (R238, R239) -/

def setMtr (s : State) (f : Mtr → Mtr) : State := { s with mtr := f s.mtr }
def mtrEn (s : State) : Bool := pageEn s 0x90
def mtrRuns (s : State) : Bool := flag s Reg.MTR_STAT F.MTR_STAT_RUN

def cfgN (s : State) (off n : Nat) : Nat := leNat ((s.mtr.cfg.drop off).take n)
def cfgF (s : State) (off : Nat) : Rat := f32Val (BitVec.ofNat 32 (cfgN s off 4))

/-- Descriptor offsets: feeder, electrical channel, heat channel, pulse output. -/
def feedAt (f : Nat) : Nat := 64 * f
def chanAt (c : Nat) : Nat := 0x100 + 144 * c
def heatAt (h : Nat) : Nat := 0x10C0 + 64 * h
def pulseAt (k : Nat) : Nat := 0x14C0 + 16 * k

def feedOn (s : State) (f : Nat) : Bool := (fld s Reg.MTR_CHEN F.MTR_CHEN_FEED).testBit f
def heatOn (s : State) (h : Nat) : Bool := (fld s Reg.MTR_CHEN F.MTR_CHEN_HEAT).testBit h
def pulseOn (s : State) (k : Nat) : Bool := (fld s Reg.MTR_CHEN F.MTR_CHEN_PULSE).testBit k

def mband (s : State) (c : Nat) : MtrBand := mget {} s.mtr.bands c
def setBand (s : State) (c : Nat) (f : MtrBand → MtrBand) : State := setMtr s (fun m => { m with bands := mput {} m.bands c (f (mband s c)) })
def mfeed (s : State) (f : Nat) : MtrFeeder := mget {} s.mtr.feeders f
def setFeed (s : State) (f : Nat) (g : MtrFeeder → MtrFeeder) : State := setMtr s (fun m => { m with feeders := mput {} m.feeders f (g (mfeed s f)) })
def mflow (s : State) (h : Nat) : MtrFlow := mget {} s.mtr.flows h
def setFlow (s : State) (h : Nat) (g : MtrFlow → MtrFlow) : State := setMtr s (fun m => { m with flows := mput {} m.flows h (g (mflow s h)) })
def mrtd (s : State) (i : Nat) : MtrRtd := mget {} s.mtr.rtd i
def mchan (s : State) (c : Nat) : MtrChan := mget {} s.mtr.chans c
def setMchan (s : State) (c : Nat) (f : MtrChan → MtrChan) : State := setMtr s (fun m => { m with chans := mput {} m.chans c (f (mchan s c)) })

/-- The metering DSP runs: its clock does, and the unit is not past step 2 of R71 (R15, R268). -/
def mtrLive (s : State) : Bool := domainUp s 9 && !(heldAll s)

def mpulse (s : State) (k : Nat) : MtrPulse := mget {} s.mtr.pulses k
def setPulse (s : State) (k : Nat) (g : MtrPulse → MtrPulse) : State := setMtr s (fun m => { m with pulses := mput {} m.pulses k (g (mpulse s k)) })

/-- Accumulators in units of 2⁻³². -/
def accOf (s : State) (i : Nat) : Nat := mget 0 s.mtr.acc i
def accLoReg (i : Nat) : Nat := if i < 192 then Reg.MTR_ACC_LO i else Reg.MTR_HACC_LO (i - 192)
def accMidReg (i : Nat) : Nat := if i < 192 then Reg.MTR_ACC_MID i else Reg.MTR_HACC_MID (i - 192)
def accHiReg (i : Nat) : Nat := if i < 192 then Reg.MTR_ACC_HI i else Reg.MTR_HACC_HI (i - 192)

/-- An accumulator of 96 bits and its hidden fraction (R250) takes a value; its LO word follows. -/
def setAcc (s : State) (i v : Nat) : State :=
  let v := v % 2 ^ 128
  wrn (setMtr s (fun m => { m with acc := mput 0 m.acc i v })) (accLoReg i) (v / 2 ^ 32)

/-- Add a non-negative amount; the part below 2⁻³² is dropped. -/
def addAcc (s : State) (i : Nat) (x : Rat) : State := setAcc s i (accOf s i + (x * ((2 ^ 32 : Nat) : Rat)).floor.toNat)

/-- ACCUMULATOR_LO_READ (R251, R260). -/
def execAccumulatorLoRead (index : Fin 304) (s : State) : Result :=
  let i := index.val
  let off := (accLoReg i) % 0x1000
  check (pageErr s (if i < 192 then 0x92 else 0x93) off)
    (.next (answer (wrn (wrn s (accMidReg i) (accOf s i / 2 ^ 64)) (accHiReg i) (accOf s i / 2 ^ 96)) [rd s (accLoReg i)]))

/-! ### Checkpoints (R266, R267) -/

def ckptAt (s : State) (k : Nat) : Nat := rdn s Reg.MTR_CKPT_BASE + 0x1000 * k
def ckptGenOf (s : State) (k : Nat) : Nat := rdLE s (ckptAt s k + 8) 8

/-- A set is valid (R267, R456). -/
def ckptValid (s : State) (k : Nat) : Bool :=
  let b := ckptAt s k
  rdLE s b 4 == 0x4D434B31 && rdLE s (b + 4) 2 == 1 && ckptGenOf s k != 0 && (eccIn s b 4096).all (fun w => !(ueAt s w)) &&
    rdLE s (b + 0x1C) 4 == crc32c (rdBytes s b 0x1C ++ rdBytes s (b + 0x20) 0xFE0)

/-- The newest valid set: the higher GENERATION, with equal GENERATION set A. -/
def ckptNewest (s : State) : Option Nat :=
  match ckptValid s 0, ckptValid s 1 with
  | false, false => none
  | true, false => some 0
  | false, true => some 1
  | true, true => if ckptGenOf s 0 < ckptGenOf s 1 then some 1 else some 0

/-- MTR_CKPT_STAT and MTR_CKPT_GEN follow the sets. -/
def ckptRefresh (s : State) : State :=
  let n := ckptNewest s
  let s := setFlag s Reg.MTR_CKPT_STAT F.MTR_CKPT_STAT_VALID_A (ckptValid s 0)
  let s := setFlag s Reg.MTR_CKPT_STAT F.MTR_CKPT_STAT_VALID_B (ckptValid s 1)
  let s := setFlag s Reg.MTR_CKPT_STAT F.MTR_CKPT_STAT_NEWEST (n == some 1)
  wrn s Reg.MTR_CKPT_GEN (match n with | some k => ckptGenOf s k | none => 0)

def pulseDebt (s : State) (k : Nat) : Nat := fld s (Reg.MTR_PDEBT k) F.MTR_PDEBT_D

/-- Bytes 0x020-0xFFF of a set: the committed accumulators and the debts (R266). -/
def ckptBody (s : State) : List Byte :=
  List.replicate 32 0 ++ (List.range 304).flatMap (fun i => leBytes 12 (accOf s i / 2 ^ 32)) ++
    (List.range 8).flatMap (fun k => leBytes 4 (pulseDebt s k)) ++ List.replicate 352 0

/-- A checkpoint starts: the body goes to the set that is not the newest valid one. -/
def ckptStart (s : State) : State :=
  let k := if ckptNewest s == some 0 then 1 else 0
  let gen := (match ckptNewest s with | some k => ckptGenOf s k | none => 0) + 1
  let body := ckptBody s
  let h := leBytes 4 0x4D434B31 ++ leBytes 2 1 ++ leBytes 2 0 ++ leBytes 8 gen ++ leBytes 8 (ptpNs s / 10 ^ 9 % 2 ^ 48) ++
    leBytes 4 (rdn s Reg.MTR_CHEN)
  let s := setMtr s (fun m => { m with
    ckpt := some (ckptAt s k, h ++ leBytes 4 (crc32c (h ++ body))), ckptNow := false, ckptLast := some (monoNs s) })
  setFlag (store s 12 (ckptAt s k + 0x20) body) Reg.MTR_CKPT_STAT F.MTR_CKPT_STAT_BUSY true

/-- A checkpoint ends with its header `h` at `a`. -/
def ckptEnd (s : State) (a : Nat) (h : List Byte) : State :=
  raise (setFlag (ckptRefresh (store (setMtr s (fun m => { m with ckpt := none })) 12 a h)) Reg.MTR_CKPT_STAT F.MTR_CKPT_STAT_BUSY false) 0x90 1

/-- CHECKPOINT_COMPLETE (R243, R266): the header's write completes. -/
def execCheckpointComplete (s : State) : Result :=
  match s.mtr.ckpt with
  | none => .next s
  | some (a, h) => settleDue (mtrLive s) s (ckptEnd s a h)

/-- The accumulators and pulse debts return to the newest valid checkpoint set; without one the accumulators are 0 (R267). -/
def ckptRestore (s : State) : State :=
  let s := ckptRefresh (fabric s 12 (ckptAt s 0) 0x2000)
  match ckptNewest s with
  | some k =>
    let b := ckptAt s k
    let s := (List.range 304).foldl (fun s i => setAcc s i (rdLE s (b + 0x40 + 12 * i) 12 * 2 ^ 32)) s
    let s := (List.range 8).foldl (fun s i => setFld s (Reg.MTR_PDEBT i) F.MTR_PDEBT_D (rdLE s (b + 0xE80 + 4 * i) 2)) s
    setFlag (setFlag s Reg.MTR_STAT F.MTR_STAT_RESTORED true) Reg.MTR_STAT F.MTR_STAT_RESTORE_FAIL false
  | none =>
    let s := (List.range 304).foldl (fun s i => setAcc s i 0) s
    setFlag (setFlag s Reg.MTR_STAT F.MTR_STAT_RESTORED false) Reg.MTR_STAT F.MTR_STAT_RESTORE_FAIL true

/-- RESTORE (R267). -/
def execMtrRestore (ini : Fin 16) (s : State) : Result := settleWrite ini 0x90 0x64 (errIf (mtrEn s) 267) s ckptRestore

/-- CKPT_NOW (R266). -/
def execCkptNow (ini : Fin 16) (s : State) : Result :=
  softWrite ini 0x90 0x64 none s (fun s => setMtr s (fun m => { m with ckptNow := true }))

/-! ### Bands (R244-R247) -/

def nBands (s : State) (c : Nat) : Nat := cfgN s (chanAt c + 4) 1
/-- T_LO of a band in °C. -/
def bandLo (s : State) (c b : Nat) : Rat := (signed 16 (cfgN s (chanAt c + 16 + 8 * b) 2) : Rat) / 10
def bandGain (s : State) (c b : Nat) : Nat := cfgN s (chanAt c + 16 + 8 * b + 4) 4

/-- The descriptor of an electrical channel breaks R244. -/
def bandTableErr (s : State) (c : Nat) : Bool :=
  nBands s c == 0 || decide (16 < nBands s c) || cfgN s (chanAt c + 5) 11 != 0 ||
    (List.range (nBands s c)).any (fun b =>
      let ph := signed 16 (cfgN s (chanAt c + 16 + 8 * b + 2) 2)
      decide (ph < -512) || decide (511 < ph)) ||
    (List.range (nBands s c - 1)).any (fun b => decide (bandLo s c (b + 1) ≤ bandLo s c b + 2))

/-- The temperature of an RTD input for a heat channel, in °C. It is exact to 0.001 °C only, so the last step of the
grid is a free choice (R258). -/
def rtdTemp (s : State) (h : Nat) (ret : Bool) (pick : Bool) : Rat :=
  let d := heatAt h
  let i := cfgN s (d + (if ret then 9 else 8)) 1
  let ty := cfgN s (d + 0x0A) 1
  let r0 : Rat := if ty = 1 then 100 else if ty = 2 then 500 else 1000
  let custom := (cfgN s (d + 1) 1).testBit 2
  let o := d + 0x20 + (if ret then 12 else 0)
  let a := if custom then cfgF s o else dec 39083 7
  let b := if custom then cfgF s (o + 4) else dec (-5775) 10
  let c := if custom then cfgF s (o + 8) else dec (-4183) 15
  let r := ((mrtd s i).code : Rat) * cfgF s (d + 0x0C) / ((2 ^ 24 : Nat) : Rat)
  ((cvdSolve r0 a b c r + (if pick then 1 else 0) : Int) : Rat) / 1000

/-- An input is unavailable (R257). -/
def rtdLost (s : State) (i : Nat) : Bool := !((mrtd s i).read) || (mrtd s i).fault || decide (3 ≤ (mrtd s i).stale)

/-- The band temperature of a feeder: none while not available (R246, R248). `heat` gives the forward temperature of a heat
channel. -/
def feedTemp (s : State) (f : Nat) (heat : Nat → Rat) : Option Rat :=
  let t := cfgN s (feedAt f) 1
  if t = 0 then
    if flag s (Reg.MTR_FTEMP f) F.MTR_FTEMP_VALID then some ((signed 16 (fld s (Reg.MTR_FTEMP f) F.MTR_FTEMP_TEMP) : Rat) / 10) else none
  else
    let h := t - 1
    if !(heatOn s h) || rtdLost s (cfgN s (heatAt h + 8) 1) then none else some (heat h)

/-- The band that contains T, without hysteresis: the largest b with T ≥ T_LO[b]. -/
def bandOf (s : State) (c : Nat) (t : Rat) : Nat :=
  ((List.range (nBands s c)).filter (fun b => b == 0 || decide (bandLo s c b ≤ t))).foldl max 0

/-- The band after a commit, with hysteresis of 1.0 °C (R246). -/
def bandNext (s : State) (c r : Nat) (t : Rat) : Nat :=
  let n := nBands s c
  if r + 1 < n ∧ bandLo s c (r + 1) + 1 ≤ t then
    ((List.range n).filter (fun b => b == 0 || decide (bandLo s c b + 1 ≤ t))).foldl max 0
  else if 0 < r ∧ t < bandLo s c r - 1 then
    ((List.range n).find? (fun b => decide (n ≤ b + 1) || decide (t < bandLo s c (b + 1) - 1))).getD r
  else r

/-- FBAND of a feeder: the bands in force. -/
def fbandSync (s : State) (f : Nat) : State :=
  wrn s (Reg.MTR_FBAND f) ((List.range 7).foldl (fun n k => n + (mband s (7 * f + k)).band * 2 ^ (4 * k)) 0)

/-- Band decisions of a feeder at its commit, by this commit's temperatures; FBAND shows the bands in force (R246, R247,
R252). (DESIGN CHOICE, log entry 57.) -/
def decideBands (s : State) (f : Nat) : State :=
  let s := fbandSync s f
  match feedTemp s f (fun h => f32Val (rd s (Reg.MTR_HTF h))) with
  | none => setFlag s (Reg.MTR_FSTAT f) F.MTR_FSTAT_TEMP_LOST true
  | some t =>
    (List.range 7).foldl (fun s k =>
      let c := 7 * f + k
      let b := bandNext s c (mband s c).band t
      setBand s c (fun x => if b = x.band ∨ x.pending = some b then x else { x with pending := some b, decidedAt := monoNs s, dueFrom := none }))
      (setFlag s (Reg.MTR_FSTAT f) F.MTR_FSTAT_TEMP_LOST false)

/-! ### The sample path (R241, R242, R245, R247) -/

/-- VCO cycles of an MTR_MCLK period, and of a sample. -/
def mclkCycles : Nat := 1000
def sampleCycles : Nat := 625 * mclkCycles

/-- The delay from bitstream to code, 2,062.2 µs, in VCO cycles. -/
def codeDelay : Nat := 10311000

/-- How many samples have their instants before VCO cycle `t`: code n is decimated with period 625 (n + 1), and its instant lies
`codeDelay` earlier (R241, R242). (DESIGN CHOICE, log entry 56.) -/
def samplesBefore (s : State) (t : Nat) : Nat := (t - s.mtr.clkFrom + codeDelay - 1) / sampleCycles

/-- One bit of a stream: the decimator's integrators, and the watch for transitions. -/
def chanBit (x : MtrChan) (b : Bool) : MtrChan :=
  let m := 2 ^ 32
  let a1 := (x.acc1 + (if b then 1 else 0)) % m
  let a2 := (x.acc2 + a1) % m
  let same := x.bit == b && x.held != 0
  let n := if same then x.held + 1 else 1
  { x with acc1 := a1, acc2 := a2, acc3 := (x.acc3 + a2) % m, bit := b, held := n,
           moved := x.moved || (!same && x.held != 0), stuck := x.stuck || decide (64 ≤ n) }

/-- The code of a density of ones, given by the decimator's sum: round(2²³ × (2d − 1)), with what the droop compensation adds,
held within 24 bits. (DESIGN CHOICE, log entry 56.) -/
def codeOf (sums : List Nat) : Int :=
  let d : Rat := ((sums.getD 15 0 : Nat) : Rat) / ((625 ^ 3 : Nat) : Rat)
  max (-8388608) (min 8388607 (ratNearest (8388608 * (2 * d - 1)) + Config.mtrDroop sums))

/-- Every 625 periods: the decimator's combs give a sum, and the sum a code (R241). -/
def chanCode (x : MtrChan) : MtrChan :=
  let m := 2 ^ 32
  let y1 := (x.acc3 + m - x.del1) % m
  let y2 := (y1 + m - x.del2) % m
  let y3 := (y2 + m - x.del3) % m
  let sums := (y3 :: x.sums).take 31
  { x with del1 := x.acc3, del2 := y1, del3 := y2, sums := sums, codes := (codeOf sums :: x.codes).take 32 }

/-- PHASE of a band. -/
def bandPhase (s : State) (c b : Nat) : Int := signed 16 (cfgN s (chanAt c + 16 + 8 * b + 2) 2)

/-- The corrected sample of a channel in its band: its codes delayed by 8 + PHASE / 64 samples, times GAIN (R245), in units of
FS × 2⁻⁶¹. -/
def correctedNow (s : State) (c : Nat) : Int :=
  let b := (mband s c).band
  let d := (512 + bandPhase s c b).toNat
  let codes := (mchan s c).codes
  (if d % 64 = 0 then 256 * codes.getD (d / 64) 0 else Config.mtrInterp d codes) * bandGain s c b

/-- A positive zero crossing (R247). -/
def crosses (a b : Int) : Bool := decide (a < 0) && decide (0 ≤ b)

/-- The channels whose band changes go by the crossings of phase `k` of a feeder (R247). -/
def refChans (f k : Nat) : List Nat := [7 * f + k, 7 * f + 3 + k] ++ (if k = 0 then [7 * f + 6] else [])

/-- A pending band change takes effect. -/
def bandTake (s : State) (c : Nat) : State :=
  setBand s c (fun x => match x.pending with | some b => { x with band := b, pending := none, dueFrom := none } | none => x)

/-- Sample `n` of phase `k`: at a positive zero crossing of its voltage, and where the wait for one has ended, pending band changes
take effect (R247). -/
def phaseBands (n f : Nat) (s : State) (k : Nat) : State :=
  let v := correctedNow s (7 * f + k)
  let hit := crosses (mchan s (7 * f + k)).prev v
  (refChans f k).foldl (fun s c =>
    if hit || (match (mband s c).dueFrom with | some m => decide (m ≤ n) | none => false) then bandTake s c else s) s

/-- A sample of all channels is complete: `n` is its number. (DESIGN CHOICE, log entry 56.) -/
def takeSample (s : State) (n : Nat) : State :=
  let s := ((List.range 4).filter (feedOn s)).foldl (fun s f => (List.range 3).foldl (phaseBands n f) s) s
  let row := (List.range 28).map (correctedNow s)
  let s := ((List.range 28).filter (fun c => decide (c % 7 < 3))).foldl (fun s c => setMchan s c (fun x => { x with prev := row.getD c 0 })) s
  if s.mtr.first ≤ n ∧ (mtrRuns s = true ∨ s.mtr.ended ≠ none) then setMtr s (fun m => { m with rows := m.rows ++ [row] }) else s

/-- 64 periods without a transition set STUCK (R241). -/
def stuckBit (s : State) (c : Nat) : State :=
  let f := c / 7
  if (mchan s c).held = 64 ∧ feedOn s f = true then
    raise (setFld (setFeed s f (fun x => { x with evStuck := true })) (Reg.MTR_FSTAT f) F.MTR_FSTAT_STUCK
      (fld s (Reg.MTR_FSTAT f) F.MTR_FSTAT_STUCK ||| 2 ^ (c % 7))) 0x90 6
  else s

/-- One period of MTR_MCLK (R241). -/
def takePeriod (s : State) (w : BitVec 28) : State :=
  let s := setMtr s (fun m => { m with period := m.period + 1 })
  let s := (List.range 28).foldl (fun s c => stuckBit (setMchan s c (fun x => chanBit x (w.getLsbD c))) c) s
  if s.mtr.period % 625 = 0 then
    let s := (List.range 28).foldl (fun s c => setMchan s c chanCode) s
    -- a corrected sample is complete 8 samples after its code
    let m := s.mtr.period / 625
    if 9 ≤ m then takeSample s (m - 9) else s
  else s

/-- The levels of the modulator inputs in the next periods. (DESIGN CHOICE, log entry 56.) -/
def mtrFeed (s : State) (bits : List (BitVec 28)) : State := bits.foldl takePeriod s

/-- These periods have passed (R241). -/
def periodsDue (s : State) (bits : List (BitVec 28)) : Bool :=
  decide (s.mtr.clkFrom + mclkCycles * (s.mtr.period + bits.length) ≤ s.now)

/-- BAND_CHANGE (R247): with the last of these periods, or with the end of the wait, the channel's pending change takes effect. -/
def execBandChange (channel : Fin 28) (bits : List (BitVec 28)) (s : State) : Result :=
  let t := mtrFeed s bits
  whenDue (mtrLive s && mtrRuns s && periodsDue s bits && (mband s channel.val).pending.isSome && (mband t channel.val).pending.isNone) s t

/-- BITSTREAM_STUCK (R241): the last of these periods is the 64th without a transition. -/
def execBitstreamStuck (channel : Fin 28) (bits : List (BitVec 28)) (s : State) : Result :=
  let t := mtrFeed s bits
  whenDue (mtrLive s && mtrRuns s && periodsDue s bits && decide (bits ≠ []) && (mchan t channel.val).held == 64) s t

/-! ### Blocks (R238, R242, R262) -/

def blockLen : Nat := 100000000
def ivalNs (s : State) : Nat := fld s Reg.MTR_IVAL F.MTR_IVAL_MIN * 60 * 10 ^ 9

/-- The first multiple of `p` after `t`. -/
def nextMultiple (p t : Nat) : Nat := if p = 0 then t + 1 else (t / p + 1) * p

/-- The configuration block is read in one pass (R238). -/
def mtrReadCfg (s : State) : State :=
  let r := readScan s 12 (rdn s Reg.MTR_DESC) 0x1540
  setMtr r.2 (fun m => { m with cfg := rdBytes r.2 (rdn s Reg.MTR_DESC) 0x1540 })

/-- MTR starts: it reads its configuration, and MTR_MCLK runs; the first block begins at the next block boundary (R238, R241).
(DESIGN CHOICE, log entry 56.) -/
def mtrOn (s : State) : State :=
  let s := mtrReadCfg s
  setFlag (setMtr s (fun m => { m with
    blockEnd := nextMultiple blockLen (ptpNs s - 1), stepped := false, stopping := false, rtd := [], clkFrom := s.now, period := 0,
    rows := [], chans := [] })) (Reg.PSTAT 0x90) F.PSTAT_ENABLED true

/-- EN of page 0x090 rises: MTR starts, or once the stop in progress has ended (R22, R238). (DEDUCED, log entry 43.) -/
def mtrStart (s : State) : State := if s.mtr.stopping then s else mtrOn s

/-- A binary32 field is no number, or lies outside the range of these two values, each taken as binary32. -/
def floatErr (s : State) (off : Nat) (lo hi : Rat) : Bool :=
  cfgN s off 4 / 2 ^ 23 % 256 == 255 || decide (cfgF s off < f32Val (f32Of lo)) || decide (f32Val (f32Of hi) < cfgF s off)

/-- SIG_BASE names four signals, or none. -/
def sigBaseErr (s : State) (off : Nat) : Bool := cfgN s off 2 != 0xFFFF && decide (4092 < cfgN s off 2)

/-- A feeder descriptor breaks R248. -/
def feedErr (s : State) (f : Nat) : Bool :=
  let d := feedAt f
  decide (16 < cfgN s d 1) || cfgN s (d + 1) 1 != 0 || sigBaseErr s (d + 2) || floatErr s (d + 0x10) (dec 1 2) (dec 5 1) ||
    floatErr s (d + 0x14) (dec 5 2) (dec 9 1) || cfgN s (d + 0x18) 1 == 0 || decide (100 < cfgN s (d + 0x18) 1) ||
    cfgN s (d + 0x19) 1 == 0 || decide (100 < cfgN s (d + 0x19) 1) || cfgN s (d + 0x1A) 38 != 0

/-- A heat channel descriptor breaks R255. -/
def heatErr (s : State) (h : Nat) : Bool :=
  let d := heatAt h
  !(cfgN s d 1 == 1 || cfgN s d 1 == 2) || decide (7 < cfgN s (d + 1) 1) || sigBaseErr s (d + 2) || decide (cfgF s (d + 4) ≤ 0) ||
    cfgN s (d + 4) 4 / 2 ^ 23 % 256 == 255 || decide (31 < cfgN s (d + 8) 1) || decide (31 < cfgN s (d + 9) 1) ||
    cfgN s (d + 0x0A) 1 == 0 || decide (3 < cfgN s (d + 0x0A) 1) || cfgN s (d + 0x0B) 1 != 0 || floatErr s (d + 0x14) 0 5 ||
    cfgN s (d + 0x3C) 4 != 0

/-- A pulse output descriptor breaks R264. -/
def pulseErr (s : State) (k : Nat) : Bool :=
  let d := pulseAt k
  let src := cfgN s d 2
  !(decide (src < 192) || (decide (256 ≤ src) && decide (src < 368) && decide ((src - 256) % 7 < 6))) ||
    cfgN s (d + 2) 2 == 0 || decide (500 < cfgN s (d + 2) 2) || cfgN s (d + 4) 2 == 0 || decide (1 < cfgN s (d + 6) 1) ||
    cfgN s (d + 7) 1 != 0 || cfgN s (d + 8) 8 == 0

/-- The configuration an enable would read keeps the chapter's rules, for what MTR_CHEN enables. (DESIGN CHOICE, log entry 83.) -/
def mtrCfgErr (s : State) : Option Nat :=
  let s := mtrReadCfg s
  (errIf ((List.range 28).any (fun c => feedOn s (c / 7) && bandTableErr s c)) 244).orElse (fun _ =>
    (errIf ((List.range 4).any (fun f => feedOn s f && feedErr s f)) 248).orElse (fun _ =>
      (errIf ((List.range 16).any (fun h => heatOn s h && heatErr s h)) 255).orElse (fun _ =>
        errIf ((List.range 8).any (fun k => pulseOn s k && pulseErr s k)) 264)))

/-- EN of page 0x090 falls: MTR stops at the end of the block in progress; with none, at once (R238). (DEDUCED, log entry 43.) -/
def mtrStop (s : State) : State :=
  if mtrRuns s || s.mtr.ended.isSome then setMtr s (fun m => { m with stopping := true })
  else setFlag s (Reg.PSTAT 0x90) F.PSTAT_ENABLED false

/-- SRST or a reset of CLK_MTR: everything beside the registers is cleared; SEQ counts since the reset of CLK_MTR (R263). -/
def mtrReset (hard : Bool) (s : State) : State := setMtr s (fun m => { seq := if hard then 0 else m.seq })

/-- PCTL.SRST of a page that shows a part of MTR: what the part keeps. (DESIGN CHOICE, log entry 22.) -/
def mtrPartReset (pg : Nat) (s : State) : State := setMtr s (fun m =>
  if pg = 0x91 then { m with feeders := [] }
  else if pg = 0x92 then { m with acc := m.acc.filter (fun e => decide (192 ≤ e.1)), accBase := m.accBase.filter (fun e => decide (192 ≤ e.1)) }
  else if pg = 0x93 then { m with acc := m.acc.filter (fun e => decide (e.1 < 192)), accBase := m.accBase.filter (fun e => decide (e.1 < 192)) }
  else if pg = 0x94 then { m with pulses := [] }
  else m)

/-- A forward PTP step ends the block in progress at the step (R242). (DESIGN CHOICE, log entry 57.) -/
def mtrForward (s : State) : State := if mtrRuns s then setMtr s (fun m => { m with stepped := true }) else s

/-- Metering starts at a block boundary (R238, R246). -/
def mtrBegin (s : State) : State :=
  let t := s.mtr.blockEnd
  let s := setMtr s (fun m => { m with
    block := m.block + 1, blockEnd := nextMultiple blockLen t, blockMono := monoNs s, ivalEnd := nextMultiple (ivalNs s) t,
    ivalStart := t / 10 ^ 9, partialIval := t % (ivalNs s) != 0, accBase := m.acc, first := samplesBefore s s.now, rows := [],
    flows := m.flows.map (fun e => (e.1, { e.2 with fwd := 0, rev := 0 })) })
  let fr := freshN s 16
  let s := (List.range 4).foldl (fun s f =>
    let t := feedTemp s f (fun h => rtdTemp s h false (Config.freeBool (fr.1 + h)))
    fbandSync ((List.range 7).foldl (fun s k =>
      setBand s (7 * f + k) (fun _ => { band := match t with | some v => bandOf s (7 * f + k) v | none => 0 })) s) f) fr.2
  let s := (List.range 8).foldl (fun s k => setFld s (Reg.MTR_PDEBT k) F.MTR_PDEBT_WIDTH (if pulseOn s k then 10 * cfgN s (pulseAt k + 2) 2 else 0)) s
  setFlag s Reg.MTR_STAT F.MTR_STAT_RUN true

/-- The direction input of a heat channel says reverse (R255, R256). -/
def dirReverse (s : State) (h : Nat) (level : Bool) : Bool := level == (cfgN s (heatAt h + 1) 1).testBit 0

/-- The block in progress ends at PTP time `t`; `dir` holds the levels of MTR_HDIR. An interval that ends at its own boundary is
not cut short by a stop there (R263). -/
def endBlock (s : State) (t : Nat) (step : Bool) (dir : BitVec 16) : State :=
  let last := s.mtr.stopping
  let due := decide (s.mtr.ivalEnd ≤ t)
  let boundary := due || last
  let cut := s.mtr.partialIval || step || (last && !due)
  let n := samplesBefore s s.now
  let s := (List.range 28).foldl (fun s c => setBand s c (fun x =>
    if x.pending.isSome && decide (x.decidedAt + blockLen ≤ monoNs s) then { x with dueFrom := some n } else x)) s
  let s := (List.range 16).foldl (fun s h => setFlow s h (fun x => { x with
    fwd := 0, rev := 0, fwdEnded := x.fwd, revEnded := x.rev, dirRevEnded := dirReverse s h (dir.getLsbD h) })) s
  let s := setMtr s (fun m => { m with
    ended := some { boundary := boundary, cut := cut, endMono := monoNs s, nextStart := t / 10 ^ 9, last := last,
                    first := m.first, samples := n - m.first },
    block := m.block + 1, stepped := false, blockMono := monoNs s, blockEnd := nextMultiple blockLen t, first := n,
    ivalEnd := (if m.ivalEnd ≤ t then nextMultiple (ivalNs s) t else m.ivalEnd),
    partialIval := (if boundary then step && t % (ivalNs s) != 0 else cut) })
  if last then setFlag s Reg.MTR_STAT F.MTR_STAT_RUN false else s

/-- BLOCK_END (R238, R242, R256, R262): a block ends at its PTP boundary or at a forward step; the first boundary after EN
starts metering. `dir` holds the levels of MTR_HDIR0-15. -/
def execBlockEnd (dir : BitVec 16) (s : State) : Result :=
  let t := ptpNs s
  if !(mtrLive s) || s.mtr.ended.isSome then .next s
  else if mtrRuns s then
    whenDue (s.mtr.stepped || decide (s.mtr.blockEnd ≤ t)) s
      (if s.mtr.stepped then endBlock s t true dir else endBlock s s.mtr.blockEnd false dir)
  else whenDue (mtrEn s && flag s (Reg.PSTAT 0x90) F.PSTAT_ENABLED && decide (s.mtr.blockEnd ≤ t)) s (mtrBegin s)

/-! ### Flow and temperature inputs (R256, R257) -/

/-- HEAT_FLOW_EDGE (R256): a rising edge after a low phase and before a high phase of at least 20 µs each, so at least 40 µs
after the last one; `level` is that of the direction input. -/
def execHeatFlowEdge (channel : Fin 16) (level : Bool) (s : State) : Result :=
  let h := channel.val
  let rev := dirReverse s h level
  let spaced := match (mflow s h).edgeAt with | some t => decide (t + 40 * vcoUs ≤ s.now) | none => true
  whenDue (mtrRuns s && heatOn s h && mtrLive s && spaced) s (setFlow s h (fun x => { x with
    fwd := x.fwd + (if rev then 0 else 1), rev := x.rev + (if rev then 1 else 0), edges := (monoNs s :: x.edges).take 2, dirRev := rev,
    timedOut := false, edgeAt := some s.now }))

/-- FLOW_TIMEOUT (R256): QM becomes 0. (DESIGN CHOICE, log entry 57.) -/
def execFlowTimeout (channel : Fin 16) (s : State) : Result :=
  let h := channel.val
  let due := match (mflow s h).edges with | e :: _ => decide (e + 10 * 10 ^ 9 ≤ monoNs s) | [] => false
  whenDue (due && mtrRuns s && mtrLive s) s (setFlow s h (fun x => { x with timedOut := true, edges := [] }))

/-- RTD_READ (R257): one transaction a block for each input an enabled heat channel names: the converter's chip select, the 5 bytes
sent, and the status and code received. -/
def execRtdRead (input : Fin 32) (status : Byte) (code : BitVec 24) (s : State) : Result :=
  let i := input.val
  let x := mrtd s i
  let named := (List.range 16).any (fun h => heatOn s h && (cfgN s (heatAt h + 8) 1 == i || cfgN s (heatAt h + 9) 1 == i))
  let stale := status.getLsbD 6
  let y : MtrRtd := {
    read := true, code := (if stale then x.code else code.toNat), stale := (if stale then min 3 (x.stale + 1) else 0),
    fault := status.getLsbD 7, block := s.mtr.block }
  whenDue (mtrLive s && flag s (Reg.PSTAT 0x90) F.PSTAT_ENABLED && named && !(x.read && x.block == s.mtr.block)) s
    (setMtr s (fun m => { m with
      rtd := mput {} m.rtd i y, rtdSel := some (i / 4), rtdSent := BitVec.ofNat 8 (0x40 + i % 4) :: List.replicate 4 0 }))

/-! ### The electrical quantities (R245, R249-R254) -/

def chanUnit (s : State) (c : Nat) : Rat := cfgF s (chanAt c) / ((2 ^ 61 : Nat) : Rat)

/-- Mean of the products of two sample lists. -/
def meanProd (xs ys : List Int) : Rat :=
  if xs.isEmpty then 0 else (((xs.zip ys).map (fun p => p.1 * p.2)).foldl (· + ·) 0 : Int) / ((xs.length : Nat) : Rat)

def rms (u : Rat) (xs : List Int) : Word := f32Sqrt (meanProd xs xs * u * u)

/-- What the crossings of a block show: the carried state, the verdict of the last classified cycle (true: wrong), and
the samples at which L1 crossed. -/
structure SeqScan where
  last : List Int
  cycle : Option (List Nat)
  verdict : Option Bool := none
  count : Nat := 0
  l1 : List Nat := []

/-- The verdict on one cycle of L1: L2 then L3 is correct, L3 then L2 wrong (R253). -/
def classify (order : List Nat) : Option Bool :=
  let i2 := order.findIdx (fun x => x == 2)
  let i3 := order.findIdx (fun x => x == 3)
  if order.contains 2 && order.contains 3 then some (decide (i3 < i2)) else none

def seqStep (st : SeqScan) (v : Int × Int × Int) : SeqScan :=
  let c1 := crosses (st.last.getD 0 0) v.1
  let c2 := crosses (st.last.getD 1 0) v.2.1
  let c3 := crosses (st.last.getD 2 0) v.2.2
  let verdict := if c1 then (match st.cycle with | some o => (classify o).orElse (fun _ => st.verdict) | none => st.verdict) else st.verdict
  let cycle := if c1 then some [] else st.cycle
  let cycle := cycle.map (fun o => o ++ (if c2 then [2] else []) ++ (if c3 then [3] else []))
  { last := [v.1, v.2.1, v.2.2], cycle := cycle, verdict := verdict, count := st.count + 1,
    l1 := st.l1 ++ (if c1 then [st.count] else []) }

def f32Mul (a b : Word) : Word := f32Of (f32Val a * f32Val b)
def f32Sum (xs : List Word) : Word := f32Of ((xs.map f32Val).foldl (· + ·) 0)

/-- Index of an electrical accumulator (R251): quadrant 1-4. -/
def accIndex (f g u q : Nat) : Nat := 48 * f + 12 * g + 4 * u + q - 1

/-- The quadrant by the signs of P and Q (R249). -/
def quadrant (p q : Rat) : Nat :=
  if 0 ≤ p then (if 0 ≤ q then 1 else 4) else (if 0 ≤ q then 2 else 3)

/-- |x| watts over n samples in µWh: n × 125 µs. -/
def microWh (x : Rat) (n : Nat) : Rat := ratAbs x * ((n : Nat) : Rat) * 5 / 144

/-- The three accumulators of a phase or a total take a block's energies (R250). (DESIGN CHOICE, log entry 56.) -/
def addEnergies (s : State) (f g : Nat) (p q sa : Rat) (n : Nat) : State :=
  let k := quadrant p q
  addAcc (addAcc (addAcc s (accIndex f g 0 k) (microWh p n)) (accIndex f g 1 k) (microWh q n)) (accIndex f g 2 k) (microWh sa n)

/-- The corrected samples of a channel in the block's rows. -/
def column (rows : List (List Int)) (c : Nat) : List Int := rows.map (fun r => r.getD c 0)

/-- The voltage samples of a channel shifted by −90° (R249): the filter's coefficients are open. (DESIGN CHOICE, log entry 56.) -/
def shifted (s : State) (rows : List (List Int)) (c : Nat) : List Int :=
  let before := (mchan s c).tail
  let vs := before ++ column rows c
  (List.range rows.length).map (fun n => Config.mtrHilbert vs (before.length + n))

/-- One phase of a feeder (R249, R252): its quantities and energies. (DESIGN CHOICE, log entry 56.) -/
def phaseCommit (rows : List (List Int)) (f : Nat) (s : State) (k : Nat) : State :=
  let cv := 7 * f + k
  let ci := 7 * f + 3 + k
  let v := column rows cv
  let i := column rows ci
  let vh := shifted s rows cv
  let uv := chanUnit s cv
  let ui := chanUnit s ci
  let vr := rms uv v
  let ir := rms ui i
  let p := f32Of (meanProd v i * uv * ui)
  let q := f32Of (meanProd vh i * uv * ui)
  let sa := f32Mul vr ir
  let s := wr (wr (wr s (Reg.MTR_VRMS f k) vr) (Reg.MTR_IRMS f k) ir) (Reg.MTR_P f k) p
  let s := wr (wr s (Reg.MTR_Q f k) q) (Reg.MTR_S f k) sa
  let s := setMchan s cv (fun x => { x with tail := (x.tail ++ v).drop (x.tail.length + v.length - 64) })
  addEnergies s f k (f32Val p) (f32Val q) (f32Val sa) rows.length

/-- A qualified flag changes (R253, R254). -/
def setEvent (s : State) (f bit : Nat) (fl : Field) (v : Bool) (mark : MtrFeeder → MtrFeeder) : State :=
  if flag s (Reg.MTR_FSTAT f) fl == v then s
  else setFeed (raise (setFlag s (Reg.MTR_FSTAT f) fl v) 0x90 bit) f mark

/-- Phase sequence at a commit (R253). (DESIGN CHOICE, log entry 56.) -/
def seqCommit (s : State) (f : Nat) (sc : SeqScan) (undef : Bool) : State :=
  let s := setFlag s (Reg.MTR_FSTAT f) F.MTR_FSTAT_PSEQ_UNDEF undef
  let s := setFeed s f (fun x => { x with
      last := sc.last, cycle := sc.cycle,
      wrong := (if undef then 0 else if sc.verdict = some true then x.wrong + 1 else 0),
      correct := (if undef then 0 else if sc.verdict = some false then x.correct + 1 else 0) })
  let qn := cfgN s (feedAt f + 0x18) 1
  let x := mfeed s f
  if undef then s
  else if qn ≤ x.wrong then setEvent s f 2 F.MTR_FSTAT_PSEQ_WRONG true (fun x => { x with evPseq := true })
  else if qn ≤ x.correct then setEvent s f 2 F.MTR_FSTAT_PSEQ_WRONG false (fun x => { x with evPseq := true })
  else s

/-- Missing neutral at a commit (R254). -/
def neutralCommit (s : State) (f : Nat) (nd : Word) : State :=
  let above := decide (cfgF s (feedAt f + 0x10) * cfgF s (feedAt f + 4) < f32Val nd)
  let s := setFeed s f (fun x => { x with ndOver := (if above then x.ndOver + 1 else 0), ndUnder := (if above then 0 else x.ndUnder + 1) })
  let qn := cfgN s (feedAt f + 0x19) 1
  let x := mfeed s f
  if qn ≤ x.ndOver then setEvent s f 3 F.MTR_FSTAT_NEUTRAL_MISSING true (fun x => { x with evNeutral := true })
  else if qn ≤ x.ndUnder then setEvent s f 3 F.MTR_FSTAT_NEUTRAL_MISSING false (fun x => { x with evNeutral := true })
  else s

/-- The STUCK bits after a block (R241): a bit clears once the block has had transitions and no 64 periods without one. -/
def stuckCommit (s : State) (f : Nat) : State :=
  let old := fld s (Reg.MTR_FSTAT f) F.MTR_FSTAT_STUCK
  let v := (List.range 7).foldl (fun n k =>
    let x := mchan s (7 * f + k)
    if x.stuck || (old.testBit k && !x.moved) then n + 2 ^ k else n) 0
  (List.range 7).foldl (fun s k => setMchan s (7 * f + k) (fun x => { x with moved := false, stuck := decide (64 ≤ x.held) }))
    (setFld s (Reg.MTR_FSTAT f) F.MTR_FSTAT_STUCK v)

/-- L1's frequency from its positive zero crossings (R252): whole cycles over the time between the first and the last crossing,
counted from the block before where that one had crossings. Where between two samples a crossing lies is open, and so is the
value with a single crossing. (DESIGN CHOICE, log entry 56.) -/
def freqCommit (s : State) (f first : Nat) (l1 : List Nat) : State :=
  let fr := freshN s (l1.length + 1)
  let at64 := l1.zipIdx.map (fun p => (64 * (first + p.1) : Int) - (Config.freeNat (fr.1 + p.2) % 64 : Nat))
  let all := (match (mfeed s f).lastCross with | some x => [x] | none => []) ++ at64
  let s := setFeed fr.2 f (fun x => { x with lastCross := at64.getLast? })
  let span := all.getLastD 0 - all.headD 0
  wr s (Reg.MTR_FREQ f)
    (if l1.isEmpty then 0
     else if span ≤ 0 then Config.freeWord (fr.1 + l1.length)
     else f32Of (((8000 * 64 * (all.length - 1) : Nat) : Rat) / (span : Rat)))

/-- A value over full scale as Q15, rounded to nearest and saturated (R261). -/
def q15Of (x fs : Rat) : Nat :=
  let v := if fs = 0 then 0 else ratNearest (x / fs * 32768)
  unsignedOf 16 (max (-32768) (min 32767 v))

/-- Qualities of a signal (R11). -/
def qGood : Nat := 0
def qLost : Nat := 2

/-- Four signals from SIG_BASE as writes of the MDSP class (R261, R36). -/
def writeFour (s : State) (base : Nat) (vs : List (Nat × Bool)) : State :=
  if base = 0xFFFF then s
  else vs.zipIdx.foldl (fun s v => sigWrite s 1 (base + v.2) (some v.1.1) (if v.1.2 then qLost else qGood)) s

/-- One feeder at a commit (R249-R254, R261): `rows` are the block's corrected samples, the first one number `first`. -/
def feedCommit (rows : List (List Int)) (first : Nat) (s : State) (f : Nat) : State :=
  let s := (List.range 3).foldl (phaseCommit rows f) s
  let tot := fun (r : Nat → Nat → Nat) => f32Sum ((List.range 3).map (fun k => rd s (r f k)))
  let p := f32Val (tot Reg.MTR_P)
  let q := f32Val (tot Reg.MTR_Q)
  let sa := f32Val (tot Reg.MTR_S)
  let s := addEnergies s f 3 p q sa rows.length
  let cn := 7 * f + 6
  let s := wr s (Reg.MTR_IN_RMS f) (rms (chanUnit s cn) (column rows cn))
  let v := fun (row : List Int) (k : Nat) => ((row.getD (7 * f + k) 0 : Int) : Rat) * chanUnit s (7 * f + k)
  let nd2 := (rows.map (fun r => (v r 0 + v r 1 + v r 2) / 3)).foldl (fun a x => a + x * x) (0 : Rat)
  let nd := f32Sqrt (if rows.isEmpty then 0 else nd2 / ((rows.length : Nat) : Rat))
  let s := wr s (Reg.MTR_ND f) nd
  let vi := fun (row : List Int) (k : Nat) => row.getD (7 * f + k) 0
  let sc := rows.foldl (fun st r => seqStep st (vi r 0, vi r 1, vi r 2)) { last := (mfeed s f).last, cycle := (mfeed s f).cycle }
  let s := freqCommit s f first sc.l1
  let undef := (List.range 3).any (fun k => decide (f32Val (rd s (Reg.MTR_VRMS f k)) < cfgF s (feedAt f + 0x14) * cfgF s (feedAt f + 4)))
  let s := neutralCommit (seqCommit s f sc undef) f nd
  let s := stuckCommit s f
  let st := fld s (Reg.MTR_FSTAT f) F.MTR_FSTAT_STUCK
  let pf := cfgF s (feedAt f + 8)
  let lost := st % 64 != 0
  writeFour s (cfgN s (feedAt f + 2) 2)
    [(q15Of p pf, lost), (q15Of q pf, lost), (q15Of sa pf, lost),
     (q15Of (f32Val (rd s (Reg.MTR_IN_RMS f))) (cfgF s (feedAt f + 0x0C)), st.testBit 6)]

/-! ### Heat channels (R256-R260) -/

/-- Litres per edge (R256). -/
def litres (s : State) (h : Nat) : Rat :=
  if cfgN s (heatAt h) 1 = 2 then cfgF s (heatAt h + 4) * 10 / 36 else cfgF s (heatAt h + 4)

/-- The unsigned volume flow in m³/s at the block's end (R256). -/
def volFlow (s : State) (h : Nat) (at0 : Nat) : Rat :=
  let x := mflow s h
  match x.edges with
  | a :: b :: _ =>
    let gap := max (a - b) (at0 - a)
    if x.timedOut || decide (a + 10 * 10 ^ 9 ≤ at0) || gap == 0 then 0 else litres s h * 1000000 / ((gap : Nat) : Rat)
  | _ => 0

/-- Heat accumulator index (R260). -/
def haccIndex (h a : Nat) : Nat := 192 + 7 * h + a

/-- Energies of a block (R259): forward and reverse masses at |h_f − h_r| J/kg. -/
def addHeat (s : State) (h : Nat) (mf mr dh : Rat) : State :=
  let e := fun (m : Rat) => m * ratAbs dh * 10000 / 36
  if 0 < dh then addAcc (addAcc s (haccIndex h 2) (e mf)) (haccIndex h 4) (e mr)
  else if dh < 0 then addAcc (addAcc s (haccIndex h 3) (e mf)) (haccIndex h 5) (e mr)
  else s

/-- A channel's status bits at a commit; entering an error sets SENSOR (R259). -/
def heatStat (s : State) (h : Nat) (rev tf tr range below : Bool) : State :=
  let b := fun (x : Bool) (k : Nat) => if x then 2 ^ k else 0
  let old := rdn s (Reg.MTR_HSTAT h)
  let s := wrn s (Reg.MTR_HSTAT h) (b rev 0 + b tf 1 + b tr 2 + b range 3 + b below 4)
  if (tf && !(old.testBit 1)) || (tr && !(old.testBit 2)) || (range && !(old.testBit 3)) then raise s 0x90 4 else s

/-- One heat channel at a commit. A temperature, density or power the spec gives no value for is free. -/
def heatCommit (n endMono : Nat) (s0 : State) (h : Nat) : State :=
  let f := fresh s0
  let s := { f.2 with free := f.2.free + 8 }
  let d := heatAt h
  let x := mflow s h
  let tfLost := rtdLost s (cfgN s (d + 8) 1)
  let trLost := rtdLost s (cfgN s (d + 9) 1)
  let tf := rtdTemp s h false (Config.freeBool f.1)
  let tr := rtdTemp s h true (Config.freeBool (f.1 + 1))
  let press := cfgF s (d + 0x10)
  let outside := fun (t : Rat) => decide (t < 0) || decide (180 < t)
  -- with one input available, the higher of the two is at least that one
  let bad := fun (t : Rat) => outside t || belowSaturation press t
  let range := (!tfLost && bad tf) || (!trLost && bad tr)
  let err := tfLost || trLost || range
  let atRet := (cfgN s (d + 1) 1).testBit 1
  let meterLost := if atRet then trLost else tfLost
  let meterErr := meterLost || bad (if atRet then tr else tf)
  let wf := waterProps press tf
  let wt := waterProps press tr
  let rho := if atRet then wt.1 else wf.1
  let dh := wf.2 - wt.2
  let below := !err && decide (ratAbs (tf - tr) < cfgF s (d + 0x14))
  let vf := ((x.fwdEnded : Nat) : Rat) * litres s h
  let vr := ((x.revEnded : Nat) : Rat) * litres s h
  let s := addAcc (addAcc s (haccIndex h 0) (vf * 1000)) (haccIndex h 1) (vr * 1000)
  let s := if err then addAcc s (haccIndex h 6) (((n : Nat) : Rat) / 8)
    else if below then s
    else addHeat s h (vf / 1000 * rho) (vr / 1000 * rho) dh
  let fw := fun (k : Nat) => Config.freeWord (f.1 + k)
  let vol := volFlow s h endMono
  let sgn : Rat := if x.dirRevEnded then -1 else 1
  let qm := if meterErr && vol != 0 then fw 2 else f32Of (sgn * vol * rho)
  let pw := ratAbs (vol * rho * dh)
  let pwr := if err then fw 3 else f32Of (if !x.dirRevEnded && decide (0 < dh) then pw else -pw)
  let s := wr (wr (wr s (Reg.MTR_HQM h) qm) (Reg.MTR_HTF h) (if tfLost then fw 4 else f32Of tf)) (Reg.MTR_HTR h) (if trLost then fw 5 else f32Of tr)
  let s := wr (wr s (Reg.MTR_HPWR h) pwr) (Reg.MTR_HRHO h) (if meterErr then fw 6 else f32Of rho)
  let s := heatStat s h x.dirRevEnded tfLost trLost range below
  let s := setFlow s h (fun y => { y with
    anyRev := y.anyRev || x.revEnded != 0, revBlocks := y.revBlocks + (if x.dirRevEnded then 1 else 0), blocks := y.blocks + (if err then 0 else 1),
    tfSum := y.tfSum + (if err then 0 else ratNearest (tf * 1000)), trSum := y.trSum + (if err then 0 else ratNearest (tr * 1000)) })
  let rv := fun (a : Nat) => f32Val (rd s a)
  writeFour s (cfgN s (d + 2) 2)
    [(q15Of (rv (Reg.MTR_HQM h)) (cfgF s (d + 0x18)), meterLost || range), (q15Of (rv (Reg.MTR_HTF h)) (cfgF s (d + 0x38)), tfLost || range),
     (q15Of (rv (Reg.MTR_HTR h)) (cfgF s (d + 0x38)), trLost || range), (q15Of (rv (Reg.MTR_HPWR h)) (cfgF s (d + 0x1C)), err)]

/-! ### Pulse outputs (R265) -/

/-- The accumulator a pulse output follows. -/
def pulseSrc (s : State) (k : Nat) : Nat :=
  let n := cfgN s (pulseAt k) 2
  if n < 256 then n else 192 + (n - 256)

/-- An output takes its source's increment at a commit (R265). -/
def pulseCommit (before : AMap Nat) (s : State) (k : Nat) : State :=
  let w := max 1 (cfgN s (pulseAt k + 8) 8)
  let src := pulseSrc s k
  let inc := accOf s src / 2 ^ 32 - mget 0 before src / 2 ^ 32
  let r := (mpulse s k).remainder + inc
  let d := pulseDebt s k + r / w
  let cap := cfgN s (pulseAt k + 4) 2
  let pw := 10 * cfgN s (pulseAt k + 2) 2
  let width := if inc = 0 then pw else max 5 (min pw (w * 500 / inc))
  let s := setPulse s k (fun x => { x with remainder := r % w })
  let s := setFld (setFld s (Reg.MTR_PDEBT k) F.MTR_PDEBT_D (min d cap)) (Reg.MTR_PDEBT k) F.MTR_PDEBT_WIDTH width
  if cap < d then raise (satFld s (Reg.MTR_PLOST k) ⟨0, 32⟩ (d - cap)) 0x90 5 else s

/-- A tenth of a millisecond in VCO cycles. -/
def tenthMs : Nat := 500000

/-- PULSE_START (R265). -/
def execPulseStart (k : Fin 8) (s : State) : Result :=
  let x := mpulse s k.val
  let w := fld s (Reg.MTR_PDEBT k.val) F.MTR_PDEBT_WIDTH
  let spaced := match x.lastStart with | some t => decide (t + 2 * w * tenthMs ≤ s.now) | none => true
  whenDue (mtrRuns s && pulseOn s k.val && !x.active && decide (1 ≤ pulseDebt s k.val) && spaced && mtrLive s) s
    (setFld (setPulse s k.val (fun x => { x with active := true, lastStart := some s.now, width := w }))
      (Reg.MTR_PDEBT k.val) F.MTR_PDEBT_D (pulseDebt s k.val - 1))

/-- PULSE_END (R265). -/
def execPulseEnd (k : Fin 8) (s : State) : Result :=
  let x := mpulse s k.val
  let ran := match x.lastStart with | some t => decide (t + x.width * tenthMs ≤ s.now) | none => false
  whenDue (x.active && ran && domainUp s 9) s (setPulse s k.val (fun x => { x with active := false }))

/-- The level of a pulse output pin: its active level while a pulse lasts (R264); low until a configuration has been read. -/
def pulseLevel (s : State) (k : Nat) : Bool := !(s.mtr.cfg.isEmpty) && (mpulse s k).active == (cfgN s (pulseAt k + 6) 1).testBit 0

/-! ### Interval records (R262, R263) -/

/-- Increment of an accumulator since the interval's start. -/
def accInc (s : State) (i : Nat) : Nat := accOf s i / 2 ^ 32 - mget 0 s.mtr.accBase i / 2 ^ 32

/-- A record without SEQ and CRC: its kind, channel, flags and its bytes from 0x20 on. -/
def recordOf (s : State) (kind ch flags : Nat) (body : List Byte) : List Byte :=
  leBytes 2 0x4952 ++ leBytes 1 kind ++ leBytes 1 ch ++ leBytes 2 flags ++ leBytes 2 0 ++ leBytes 4 0 ++
    leBytes 2 (fld s Reg.MTR_IVAL F.MTR_IVAL_MIN) ++ leBytes 2 0 ++ leBytes 8 (s.mtr.ivalStart % 2 ^ 48) ++ leBytes 4 0 ++ leBytes 4 0 ++ body

def feedRecord (s : State) (f : Nat) (cut : Bool) : List Byte :=
  let x := mfeed s f
  let b := fun (c : Bool) (k : Nat) => if c then 2 ^ k else 0
  recordOf s 1 f (b cut 1 + b x.evPseq 3 + b x.evNeutral 4 + b x.evStuck 5)
    ((List.range 12).flatMap (fun k => leBytes 8 (accInc s (accIndex f 3 (k / 4) (k % 4 + 1)))))

def heatRecord (s : State) (h : Nat) (cut : Bool) (free : Nat) : List Byte :=
  let x := mflow s h
  let b := fun (c : Bool) (k : Nat) => if c then 2 ^ k else 0
  let i := fun (a : Nat) => accInc s (haccIndex h a)
  let mean := fun (t : Int) (k : Nat) => if x.blocks = 0 then (Config.freeWord (free + k)).toNat
    else unsignedOf 32 (ratNearest ((t : Rat) / ((x.blocks : Nat) : Rat)))
  recordOf s 2 h (b x.anyRev 0 + b cut 1 + b (i 6 != 0) 2)
    ((List.range 6).flatMap (fun a => leBytes 8 (i a)) ++ leBytes 8 (unsignedOf 64 ((i 0 : Int) - i 1)) ++
      leBytes 8 (unsignedOf 64 (((i 2 : Int) - i 3) - ((i 4 : Int) - i 5))) ++ leBytes 4 (mean x.tfSum 0) ++ leBytes 4 (mean x.trSum 1) ++
      leBytes 4 (i 6) ++ leBytes 4 (100 * x.revBlocks) ++ leBytes 16 0)

/-- The records of a boundary, and the interval that begins (R262). -/
def endInterval (s : State) (b : MtrBlock) : State :=
  let fr := fresh s
  let s := { fr.2 with free := fr.2.free + 64 }
  let rs := ((List.range 4).filter (feedOn s)).map (fun f => feedRecord s f b.cut) ++
    ((List.range 16).filter (heatOn s)).map (fun h => heatRecord s h b.cut (fr.1 + 4 * h))
  let s := setMtr s (fun m => { m with
    records := m.records ++ rs, accBase := m.acc, ivalStart := b.nextStart,
    flows := m.flows.map (fun e => (e.1, { e.2 with anyRev := false, revBlocks := 0, tfSum := 0, trSum := 0, blocks := 0 })),
    feeders := m.feeders.map (fun e => (e.1, { e.2 with evPseq := false, evNeutral := false, evStuck := false })) })
  s

/-- One record is written as a burst, with its SEQ and CRC (R262, R263). -/
def writeRecord (s : State) (r : List Byte) : State :=
  let h := r.take 8 ++ leBytes 4 s.mtr.seq ++ (r.drop 12).take 16
  let rec0 := h ++ leBytes 4 (crc32c (h ++ r.drop 32)) ++ r.drop 32
  let w := fld s Reg.MTR_IREC_WIDX F.MTR_IREC_WIDX_IDX
  let s := store s 12 (rdn s Reg.MTR_IREC_BASE + 128 * w) (rec0 ++ List.replicate (128 - rec0.length) 0)
  let s := setMtr s (fun m => { m with seq := (m.seq + 1) % 2 ^ 32 })
  setFld s Reg.MTR_IREC_WIDX F.MTR_IREC_WIDX_IDX (if fld s Reg.MTR_IREC_CNT F.MTR_IREC_CNT_CNT ≤ w + 1 then 0 else w + 1)

/-- The records that wait stand in memory. -/
def recordsOut (s : State) : State := raise (setMtr (s.mtr.records.foldl writeRecord s) (fun m => { m with records := [] })) 0x90 0

/-- INTERVAL_RECORDS_WRITTEN (R243, R262, R263). -/
def execIntervalRecordsWritten (s : State) : Result :=
  settleDue (!s.mtr.records.isEmpty && mtrLive s) s (recordsOut s)

/-! ### The commit (R243) -/

/-- A checkpoint is due at this commit (R266). (DESIGN CHOICE, log entry 57.) -/
def ckptDue (s : State) : Bool :=
  s.mtr.ckpt.isNone && (s.mtr.ckptNow || (match s.mtr.ckptLast with
    | some t => decide (t + fld s Reg.MTR_IVAL F.MTR_IVAL_CKPT_S * 10 ^ 9 ≤ monoNs s)
    | none => true))

/-- The commit of the ended block (R243): feeders, heat channels, the bands by the new temperatures, pulses, records, checkpoint.
(DESIGN CHOICE, log entry 56.) -/
def commitBlock (s : State) (b : MtrBlock) : State :=
  let before := s.mtr.acc
  let rows := s.mtr.rows.take b.samples
  let s := setMtr s (fun m => { m with rows := m.rows.drop b.samples })
  let s := ((List.range 4).filter (feedOn s)).foldl (feedCommit rows b.first) s
  let s := ((List.range 16).filter (heatOn s)).foldl (heatCommit b.samples b.endMono) s
  let s := ((List.range 4).filter (feedOn s)).foldl decideBands s
  let s := ((List.range 8).filter (pulseOn s)).foldl (pulseCommit before) s
  let s := setMtr s (fun m => { m with ended := none })
  let s := if b.boundary then endInterval s b else s
  let s := if ckptDue s then ckptStart s else s
  if b.last then
    let s := setMtr (setFlag s (Reg.PSTAT 0x90) F.PSTAT_ENABLED false) (fun m => { m with stopping := false })
    if mtrEn s then mtrOn s else s
  else s

/-- BLOCK_COMMIT (R241, R243, R245-R247, R249, R250, R252-R254, R256, R258-R261, R265, R266): the periods that complete the ended
block's last sample, and the commit. (DESIGN CHOICE, log entry 56.) -/
def execBlockCommit (bits : List (BitVec 28)) (s : State) : Result :=
  match s.mtr.ended with
  | none => .next s
  | some b =>
    let t := mtrFeed s bits
    settleDue (mtrLive s && periodsDue s bits && decide (b.samples ≤ t.mtr.rows.length)) s (commitBlock t b)

/-- PWR_FAIL_N qualified (R268): accumulation ends, every pulse output goes inactive. -/
def mtrPowerFail (s : State) : State :=
  setMtr s (fun m => { m with pulses := m.pulses.map (fun e => (e.1, { e.2 with active := false })) })

end Sys2Proof.Machine
end

