-- ==== Sys2Proof/Machine/Safe.lean ====
section
/-!
DEFINITION. The safety block (R301-R345): parameter sets, the safety cycle, inputs and outputs with their tests,
overrides and axis stops, the Ikido safe channel, Penumbra, and the safe state.
-/

namespace Sys2Proof.Machine

/-! ### The parameter set (R309) -/

def cycleUs (s : State) : Nat := parN s 0x10 4
def penMax (s : State) : Nat := parN s 0x14 4 * 10 ^ 9
def inAt (i : Nat) : Nat := 0x40 + 16 * i
def inMode (s : State) (i : Nat) : Nat := parN s (inAt i) 1
def inTp (s : State) (i : Nat) : Nat := parN s (inAt i + 1) 1
def paired (s : State) (i : Nat) : Bool := inMode s i == 2 || inMode s i == 3
/-- The descriptor whose FILT and DISC apply to input `i` (R316). -/
def inLead (s : State) (i : Nat) : Nat := if paired s i then i / 2 * 2 else i
def inFilt (s : State) (i : Nat) : Nat := parN s (inAt (inLead s i) + 2) 2 * 100000
def pairDisc (s : State) (j : Nat) : Nat := parN s (inAt (2 * j) + 4) 2 * 10 ^ 6
def outAt (k : Nat) : Nat := 0x140 + 16 * k
def outMode (s : State) (k : Nat) : Nat := parN s (outAt k) 1
def outTestS (s : State) (k : Nat) : Nat := parN s (outAt k + 2) 2 * 10 ^ 9
def outTestUs (s : State) (k : Nat) : Nat := parN s (outAt k + 4) 2
def outRbUs (s : State) (k : Nat) : Nat := parN s (outAt k + 6) 2
def ovrLoop (s : State) (i : Nat) : Nat := parN s (0x1C0 + 8 * i) 2
def ovrValue (s : State) (i : Nat) : Nat := parN s (0x1C0 + 8 * i + 2) 2
def ovrSs (s : State) (i : Nat) : Bool := (parN s (0x1C0 + 8 * i + 4) 1).testBit 0
def axMap (s : State) : Nat := parN s 0x3C0 2

/-- Bytes of the set that must be zero. -/
def zeros (bs : List Byte) (off n : Nat) : Bool := ((bs.drop off).take n).all (fun b => b == 0)

/-- An input descriptor breaks R316. -/
def inBad (s : State) (i : Nat) : Bool :=
  let m := inMode s i
  let a := inAt i
  decide (3 < m) || (m != 0 && (decide (3 < inTp s i && inTp s i ≠ 0xFF) || decide (parN s (a + 2) 2 < 5) ||
      decide (500 < parN s (a + 2) 2) || decide (parN s (a + 4) 2 < 10) || decide (1000 < parN s (a + 4) 2))) ||
    !(zeros s.safe.params (a + 6) 10) || ((paired s i || paired s (i / 2 * 2)) && inMode s (i / 2 * 2) != inMode s (i / 2 * 2 + 1))

/-- An output descriptor breaks R321. -/
def outBad (s : State) (k : Nat) : Bool :=
  let a := outAt k
  let m := outMode s k
  decide (1 < m) || !(zeros s.safe.params (a + 1) 1) || !(zeros s.safe.params (a + 8) 8) ||
    (m == 1 && (parN s (a + 2) 2 == 0 || decide (3600 < parN s (a + 2) 2) || decide (outTestUs s k < 100) ||
      decide (1000 < outTestUs s k) || decide (outRbUs s k < 50) || decide (outTestUs s k < outRbUs s k + 50)))

/-- An output-map entry names bytes of a sent block (R329). -/
def mapsBlock (s : State) (x off n : Nat) : Bool :=
  (List.range 16).any (fun t => (mapEntries (outMap s t)).any (fun e =>
    mapKind e == 1 && mapSrc e == x && decide (mapOff e < off + n) && decide (off < mapOff e + mapLen e)))

/-- A connection descriptor breaks R329. -/
def connBad (s : State) (c : Nat) : Bool :=
  let r := connRole s c
  let x := connSession s c
  let n := 10 + connTxLen s c
  let p := connPartner s c
  decide (2 < r) || (r != 0 && (connId s c == 0 || !([1, 2].contains (parN s (connAt c + 5) 1)) || decide (1023 < x) ||
    decide (connTexp s c < 4) || decide (64 < connTxLen s c) || decide (64 < connRxLen s c) ||
    !(zeros s.safe.params (connAt c + 16) 16) ||
    (connLsx s c && ((List.range c).any (fun d => connRole s d != 0 && connLsx s d && connSession s d == x) ||
      decide (1024 < connOff s c + n) || (!(sess s x).desc.isEmpty && decide (xOutLen s x < connOff s c + n)) ||
      mapsBlock s x (connOff s c) n)) ||
    (p != 0xFFFF && (decide (255 < p) || connRole s p == 0 || connPartner s p != c))))

/-- A field of the loaded set breaks its rule (R309, R310). -/
def setBad (s : State) : Bool :=
  decide (1 < parN s 7 1) || parN s 8 8 == 0 || decide (cycleUs s < 500) || decide (10000 < cycleUs s) || cycleUs s % 100 != 0 ||
    decide (parN s 0x14 4 < 60) || decide (86400 < parN s 0x14 4) || decide (parN s 0x18 4 < 4) || decide (65536 < parN s 0x18 4) ||
    parN s 0x18 4 % 4 != 0 || !(zeros s.safe.params 0x20 28) || (List.range 16).any (inBad s) || (List.range 8).any (outBad s) ||
    (List.range 64).any (fun i => (decide (255 < ovrLoop s i) && ovrLoop s i != 0xFFFF) || decide (1 < parN s (0x1C4 + 8 * i) 1) ||
      !(zeros s.safe.params (0x1C5 + 8 * i) 3)) ||
    !(zeros s.safe.params 0x3C2 62) || (List.range 256).any (connBad s)

/-! ### What SAFE drives: outputs, overrides, axis stops -/

def sin (s : State) (i : Nat) : SafeIn := mget {} s.safe.ins i
def setIn (s : State) (i : Nat) (x : SafeIn) : State := setSafe s (fun z => { z with ins := mput {} z.ins i x })
def sout (s : State) (k : Nat) : SafeOut := mget {} s.safe.outs k
def setSout (s : State) (k : Nat) (f : SafeOut → SafeOut) : State :=
  setSafe s (fun z => { z with outs := mput {} z.outs k (f (sout s k)) })

def outOn (s : State) (k : Nat) : Bool := bitAt (rd s Reg.SAFE_OUT_ON) k
def outFailed (s : State) (k : Nat) (b : Bool) : Bool := bitAt (rd s Reg.SAFE_OUT_FAIL) (k + if b then 8 else 0)
def setRb (s : State) (k : Nat) (b v : Bool) : State :=
  wr s Reg.SAFE_OUT_RB (putBit (rd s Reg.SAFE_OUT_RB) (k + if b then 8 else 0) v)

/-- Output k is to be energised (R320). -/
def outWanted (s : State) (k : Nat) : Bool :=
  safeActs s && safeState s == 1 && s.safe.outSet.testBit k && outMode s k == 1 && !(sout s k).safe

/-- A dark test has passed once RB_US has gone by after its pulse with no timeout (R322, R338, R340). (DEDUCED, log entry 63.) -/
def creditTest (s : State) (k : Nat) : State :=
  let o := sout s k
  match o.onAgain with
  | none => s
  | some b =>
    if (match (if b then o.chkB else o.chkA) with | some t => decide (t + outRbUs s k * vcoUs ≤ s.now) | none => true) then
      setSout s k (fun o => { o with
        onAgain := none, passedA := o.passedA || !b, passedB := o.passedB || b, runs := if outFailed s k b then o.runs + 1 else o.runs })
    else s

/-- Both channels of an output switch together (R320): each readback is then due. -/
def outSync (s : State) (k : Nat) : State :=
  let on := outWanted s k
  if on == outOn s k then s
  else
    let s := wr (creditTest s k) Reg.SAFE_OUT_ON (putBit (rd s Reg.SAFE_OUT_ON) k on)
    let s := setRb (setRb s k false on) k true on
    setSout s k (fun o => { o with chkA := some s.now, chkB := some s.now, dark := none, onAgain := none, testFrom := monoNs s })

/-- Entry i is active (R311, R325). -/
def ovrActive (s : State) (i : Nat) : Bool :=
  pageEn s 0xA0 && ovrLoop s i != 0xFFFF &&
    (if safeState s == 1 then s.safe.ovrAct.testBit i else if safeState s == 2 then ovrSs s i else false)

/-- The override gates of R189 follow the active entries; of two on one loop the lower index wins (R325). -/
def ovrSync (s : State) : State :=
  let act := if s.safe.params.isEmpty then [] else (List.range 64).filter (ovrActive s)
  let loops := (s.cle.overrides.map (fun e => e.1) ++ act.map (ovrLoop s)).eraseDups
  loops.foldl (fun s l =>
    let new := (act.find? (fun i => ovrLoop s i == l)).map (ovrValue s)
    if mget none s.cle.overrides l == new then s
    else
      let s := setFlag { s with cle := { s.cle with overrides := mput none s.cle.overrides l new } } (Reg.LSTAT l) F.LSTAT_OVERRIDE new.isSome
      match new with
      | some v => overrideOut s l (signed 16 v)
      | none => s) s

/-- Axes with a SAFE stop request (R301, R311, R326). -/
def axStops (s : State) : Nat :=
  if !(pageEn s 0xA0) then 0
  else if safeState s == 0 then 0xFFFF
  else if safeState s == 1 then s.safe.axStop
  else if s.safe.params.isEmpty then 0xFFFF else axMap s

def axSync (s : State) : State := (List.range 16).foldl (fun s a => axisSafe s a ((axStops s).testBit a)) s

/-- Everything SAFE drives follows its state. -/
def safeSync (s : State) : State := axSync (ovrSync ((List.range 8).foldl outSync s))

/-- The device enters the safe state with a cause (R301); the first cause stands. SEAL is read from the next multiple of
10 ms on (R312). -/
def safeEnter (s : State) (cause : Nat) : State :=
  if safeState s = 2 then s
  else
    let s := if safeState s = 0 then setSafe s (fun z => { z with seals := monoNs s / 10000000 }) else s
    let s := setFld (setFld s Reg.SAFE_STAT F.SAFE_STAT_STATE 2) Reg.SAFE_STAT F.SAFE_STAT_CAUSE cause
    let s := aglEvent (aglEvent (aglEvent s (.add 12 (4 * (cause - 1)) 4 1)) (.put 12 44 8 (aglTime s))) (.put 12 52 1 cause)
    safeSync (raise s 0xA0 0)

/-- A write to a SAFE page: ignored where R308 says so. -/
def safeWrite (ini : Fin 16) (pg off : Nat) (extra : Option Nat) (s : State) (f : State → State) : Result :=
  if foreignPage s ini pg && (pageErr s pg off).isNone then .next (safeForeign (granted s ini))
  else softWrite ini pg off extra s f

/-- PCTL.EN of page 0x0A0 may not be cleared (R311). -/
def safeBusy (s : State) : Bool := safeState s != 0

/-! ### Penumbra (R337-R340) -/

/-- PEN_ANY and SAFE_PEN_NEXT; a fraction of a second goes either way (the manual states no rounding). (DEDUCED, log entry 64.) -/
def penShow (s : State) : State :=
  let s := setFlag s Reg.SAFE_STAT F.SAFE_STAT_PEN_ANY (!s.safe.penAt.isEmpty)
  match (s.safe.penAt.map (fun e => e.2 - 1 + penMax s)).min? with
  | none => wrn s Reg.SAFE_PEN_NEXT 0xFFFFFFFF
  | some t =>
    let fr := fresh s
    let d := t - monoNs s
    wrn fr.2 Reg.SAFE_PEN_NEXT (d / 10 ^ 9 + (if d % 10 ^ 9 != 0 && Config.freeBool fr.1 then 1 else 0))

/-- The bits that show an element: pair, output, or the two connections of a pair. -/
def penBits (s : State) (e : Nat) (expired on : Bool) : State :=
  if e < 8 then wr s Reg.SAFE_PEN_IN (putBit (rd s Reg.SAFE_PEN_IN) (e + if expired then 8 else 0) on)
  else if e < 16 then wr s Reg.SAFE_PEN_OUT (putBit (rd s Reg.SAFE_PEN_OUT) (e - 8 + if expired then 8 else 0) on)
  else
    let f := if expired then F.SAFE_ISC_ST_EXPIRED else F.SAFE_ISC_ST_PENUMBRA
    let c := e - 16
    setFlag (setFlag s (Reg.SAFE_ISC_ST c) f on) (Reg.SAFE_ISC_ST (connPartner s c % 256)) f on

/-- An element enters Penumbra (R337), and leaves it. -/
def penEnter (s : State) (e : Nat) : State :=
  let s := penBits (setSafe s (fun z => { z with penAt := mput 0 z.penAt e (monoNs s + 1) })) e false true
  penShow (aglEvent (raise s 0xA0 1) (.add 13 0 4 1))
def penLeave (s : State) (e : Nat) : State :=
  penShow (penBits (setSafe s (fun z => { z with penAt := mput 0 z.penAt e 0 })) e false false)

/-- PENUMBRA_EXPIRE (R339): elements 0-7 pairs, 8-15 outputs, from 16 connections. -/
def execPenumbraExpire (e : Fin 272) (s : State) : Result :=
  let e := e.val
  let at0 := mget 0 s.safe.penAt e
  whenDue (at0 != 0 && decide (at0 - 1 + penMax s ≤ monoNs s)) s
    (let t := penBits (penLeave s e) e true true
     let t := aglEvent (raise t 0xA0 2) (.add 13 4 4 1)
     if e < 8 then setSafe t (fun z => { z with safePairs := z.safePairs ||| 2 ^ e })
     else if e < 16 then outSync (setSout t (e - 8) (fun o => { o with safe := true })) (e - 8)
     else t)

/-! ### LOAD, SEAL, commands (R310-R312) -/

/-- SAFE_CMD and its reserved bits. -/
def cmdBad (v : Word) (cmd : Nat) : Bool := v &&& 0xFFFF00F0#32 != 0 || fieldGet F.SAFE_CMD_CMD v != cmd

/-- A connection enters STARTING (R330). -/
def connStart (s : State) (c : Nat) : State :=
  let init := connRole s c == 1
  let s := setConn s c (fun k => { k with
    has := init, seq := 0, data := k.tx, last := none, ready := false, rxOk := false, since := monoNs s })
  let s := setFld s (Reg.SAFE_ISC_ST c) F.SAFE_ISC_ST_STATE 1
  if init && !(connLsx s c) then
    raise (wr s (Reg.SAFE_MB_TXNEW (c / 32)) (putBit (rd s (Reg.SAFE_MB_TXNEW (c / 32))) (c % 32) true)) 0xA0 8
  else s

/-- The checks of R310 in order: the cause of the first that fails. (DEDUCED, log entry 62.) -/
def loadCause (s : State) (set : List Byte) (ue : Bool) : Option Nat :=
  let g := fun (off n : Nat) => leNat ((set.drop off).take n)
  let seal8 := fld s Reg.STRAP_LATCH F.STRAP_LATCH_SEAL
  if seal8 / 16 != 9 then some 7
  else if ue || g 0 4 != 0x53505331 || g 4 2 != 1 || g 6 1 != seal8 % 16 || g 0x3C 4 != crc32c (set.take 0x3C ++ set.drop 0x40) then some 8
  else
    let n := min (g 0x18 4) 65536
    let bad := fun (a : Nat) => (eccIn s a n).any (ueAt s) || g 0x1C 4 != crc32c (rdBytes s a n)
    if bad 0x50200000 || bad 0x50210000 then some 9 else none

/-- The state RUN begins (R310, R330). -/
def runStart (s : State) : State :=
  let us := cycleUs s * 1000
  let first := (monoNs s + 10000 + us - 1) / us
  let s := setSafe s (fun z => { z with
    cycle := first - 1, firstCycle := first, ended := true, startedAt := s.now, samples := monoNs s / 100000, seals := monoNs s / 10000000 })
  let s := setFld (setFld s Reg.SAFE_STAT F.SAFE_STAT_STATE 1) Reg.SAFE_STAT F.SAFE_STAT_SET (fld s Reg.STRAP_LATCH F.STRAP_LATCH_SEAL % 16)
  safeSync (((List.range 256).filter (fun c => connRole s c != 0)).foldl connStart s)

/-- SAFE_LOAD (R301, R308-R310, R326, R330). (DEDUCED, log entry 62.) -/
def execSafeLoad (ini : Fin 16) (s : State) : Result :=
  let k := fld s Reg.STRAP_LATCH F.STRAP_LATCH_SEAL % 16
  let read := fun (s : State) => readScan s 6 (0x40194000 + 0x3000 * k) 0x3000
  let set := rdBytes s (0x40194000 + 0x3000 * k) 0x3000
  let take := fun (s : State) => setSafe s (fun z => { z with params := set })
  let cause := loadCause s set (read s).1.isSome
  safeWrite ini 0xA0 0x40
    ((errIf (safeState s != 0) 310).orElse (fun _ => errIf (cause.isNone && setBad (take s)) 310)) s
    (fun s =>
      match cause with
      | some c => safeEnter (if c = 7 then s else (read s).2) c
      | none => runStart (take (read s).2))

/-- SAFESTATE (R301). -/
def execSafestate (ini : Fin 16) (s : State) : Result := safeWrite ini 0xA0 0x40 none s (fun s => safeEnter s 0x0A)

/-- SEAL_READ (R312). -/
def execSealRead (level : BitVec 8) (s : State) : Result :=
  whenDue (safeState s != 0 && !(heldAll s) && decide (s.safe.seals < monoNs s / 10000000)) s
    (let t := wrn (setSafe s (fun z => { z with seals := monoNs s / 10000000 })) Reg.SAFE_SEAL_LIVE level.toNat
     if level.toNat = fld s Reg.STRAP_LATCH F.STRAP_LATCH_SEAL then t else safeEnter t 6)

/-- A failed channel's element leaves Penumbra once three tests have passed in a row (R340). -/
def penAck (s : State) (arg : Nat) : State :=
  if arg < 8 then
    let bad := [2 * arg, 2 * arg + 1].filter (fun i => bitAt (rd s Reg.SAFE_IN_FAIL) i)
    if mget 0 s.safe.penAt arg != 0 && bad.all (fun i => decide (3 ≤ (sin s i).runs)) then
      penLeave (bad.foldl (fun s i => wr s Reg.SAFE_IN_FAIL (putBit (rd s Reg.SAFE_IN_FAIL) i false)) s) arg
    else s
  else if 16 ≤ arg ∧ arg < 24 then
    let k := arg - 16
    let s := creditTest s k
    if mget 0 s.safe.penAt (8 + k) != 0 && decide (3 ≤ (sout s k).runs) then
      let s := wr s Reg.SAFE_OUT_FAIL (putBit (putBit (rd s Reg.SAFE_OUT_FAIL) k false) (k + 8) false)
      penLeave s (8 + k)
    else s
  else s

/-- PEN_ACK (R318, R340); an argument that names no pair and no output is outside the field's range (R38). -/
def execPenAck (ini : Fin 16) (value : Word) (s : State) : Result :=
  let a := fieldGet F.SAFE_CMD_ARG value
  safeWrite ini 0xA0 0x40 ((errIf (cmdBad value 3) 37).orElse (fun _ => errIf (!(decide (a < 8) || (decide (16 ≤ a) && decide (a < 24)))) 38)) s (fun s => penAck s (fieldGet F.SAFE_CMD_ARG value))

/-- ISC_RESTART (R330). -/
def execIscRestart (ini : Fin 16) (value : Word) (s : State) : Result :=
  let c := fieldGet F.SAFE_CMD_ARG value
  safeWrite ini 0xA0 0x40 (errIf (cmdBad value 4) 37) s (fun s => if connState s c = 3 then connStart s c else s)

/-! ### The safety cycle (R313, R314) -/

/-- A connection pair stands at its safe value (R338, R339). -/
def connSafe (s : State) (c : Nat) : Bool := flag s (Reg.SAFE_ISC_ST c) F.SAFE_ISC_ST_EXPIRED

/-- Words of a list of bytes, byte 0 highest (R336). -/
def packBe (n : Nat) (bs : List Byte) : List Nat := (List.range n).map (fun k => beNat ((padTo (4 * n) bs |>.drop (4 * k)).take 4))

/-- The program's window shows the selected connection (R334). -/
def iscWindow (s : State) : State :=
  let c := fld s Reg.SAFE_ISC_SEL F.SAFE_ISC_SEL_CONN
  let k := conn s c
  let s := wrn s Reg.SAFE_ISC_RXST ((if k.seenOk then 1 else 0) + (if k.seenPassive then 2 else 0))
  let s := (packBe 16 k.seen).zipIdx.foldl (fun s w => wrn s (Reg.SAFE_ISC_RXD w.2) w.1) s
  (packBe 16 k.tx).zipIdx.foldl (fun s w => wrn s (Reg.SAFE_ISC_TXD w.2) w.1) s

/-- The program has written a transmit word of the selected connection (R313). -/
def iscTxWritten (s : State) : State :=
  setConn s (fld s Reg.SAFE_ISC_SEL F.SAFE_ISC_SEL_CONN) (fun k => { k with
    tx := (List.range 16).flatMap (fun i => beBytes 4 (rdn s (Reg.SAFE_ISC_TXD i))) })

/-- The data of a connection reach the program (R332, R334). -/
def connDeliver (s : State) (c : Nat) : State :=
  let ok := connState s c == 2 && (conn s c).rxOk && !(connSafe s c)
  let s := setConn s c (fun k => { k with
    seen := if ok then k.rx else [], seenOk := ok, seenPassive := flag s (Reg.SAFE_ISC_ST c) F.SAFE_ISC_ST_PEER_PASSIVE })
  setFlag s (Reg.SAFE_ISC_ST c) F.SAFE_ISC_ST_VALID ok

def pairBit (s : State) (i : Nat) : Bool := s.safe.safePairs.testBit (i / 2)
def inFailed (s : State) (i : Nat) : Bool := bitAt (rd s Reg.SAFE_IN_FAIL) i
/-- A channel of a pair indicates no demand (R319). -/
def noDemand (s : State) (i : Nat) : Bool := if inMode s i == 3 && i % 2 == 1 then !(sin s i).lvl else (sin s i).lvl

/-- The value of an input (R319). -/
def inValue (s : State) (i : Nat) : Bool :=
  if inMode s i == 1 then (sin s i).lvl && !(inFailed s i)
  else if !(paired s i) then false
  else
    let a := i / 2 * 2
    if pairBit s i || bitAt (rd s Reg.SAFE_IN_DISC) (i / 2) || (inFailed s a && inFailed s (a + 1)) then false
    else if inFailed s a then noDemand s (a + 1)
    else if inFailed s (a + 1) then noDemand s a
    else noDemand s a && noDemand s (a + 1)

def bitsOf (n : Nat) (f : Nat → Bool) : Nat := (List.range n).foldl (fun v k => v + if f k then 2 ^ k else 0) 0

def cycleIndex (s : State) : Nat := monoNs s / (cycleUs s * 1000)

/-- SAFETY_CYCLE_START (R313, R314, R334). -/
def execSafetyCycleStart (s : State) : Result :=
  whenDue (safeState s != 0 && !s.safe.params.isEmpty && !(heldAll s) && decide (s.safe.cycle < cycleIndex s) &&
      decide (s.safe.firstCycle ≤ cycleIndex s)) s
    (let s := if s.safe.ended then s else safeEnter s 4
     let s := setSafe s (fun z => { z with cycle := cycleIndex s, ended := false, startedAt := s.now })
     let s := wrn s Reg.SAFE_IN_VAL (bitsOf 16 (inValue s))
     let s := ((List.range 256).filter (fun c => connRole s c != 0)).foldl connDeliver s
     raise (addReg (penShow (iscWindow s)) Reg.SAFE_CYCLE_CNT 1) 0xA0 7)

/-- SAFE_CYCLE_END (R308, R313): what the program has written is staged; a second write in one cycle changes nothing. (DEDUCED, log entry 62.) -/
def execSafeCycleEnd (ini : Fin 16) (_value : Word) (s : State) : Result :=
  safeWrite ini 0xA0 0x48 none s (fun s =>
    if s.safe.ended then s
    else setSafe s (fun z => { z with
      ended := true,
      staged := some { outs := rdn s Reg.SAFE_OUT_SET, act := rd64 s Reg.SAFE_OVR_ACT0 Reg.SAFE_OVR_ACT1, axes := fld s Reg.SAFE_AXSTOP F.SAFE_AXSTOP_AXES, tx := z.conns.map (fun e => (e.1, e.2.tx)), at0 := s.now } }))

/-- The SEQ after `n` (R331). -/
def seqNext (n : Nat) : Nat := if n = 65535 then 1 else n + 1

/-- A connection starts its next PDU at an application instant (R331). -/
def connApply (tx : List Byte) (s : State) (c : Nat) : State :=
  let k := conn s c
  if !k.ready || !(connState s c == 1 || connState s c == 2) then s
  else
    let n := if connRole s c = 1 then seqNext k.seq else k.last.getD 0
    let s := setConn s c (fun k => { k with has := true, ready := false, seq := n, data := tx })
    if connLsx s c then s
    else raise (wr s (Reg.SAFE_MB_TXNEW (c / 32)) (putBit (rd s (Reg.SAFE_MB_TXNEW (c / 32))) (c % 32) true)) 0xA0 8

/-- APPLICATION_INSTANT (R313, R320, R325, R326, R331). -/
def execApplicationInstant (s : State) : Result :=
  match s.safe.staged with
  | none => .next s
  | some g => whenDue (!(heldAll s)) s
      (let s := setSafe s (fun z => { z with staged := none, outSet := g.outs, ovrAct := g.act, axStop := g.axes })
       let s := ((List.range 256).filter (fun c => connRole s c != 0)).foldl (fun s c => connApply (mget [] g.tx c) s c) s
       safeSync s)

/-! ### Inputs (R315-R319) -/

/-- TEST_PULSE_START and TEST_PULSE_END (R304, R315). (DEDUCED, log entry 63.) -/
def pulseIndex (s : State) (k : Nat) : Nat := (monoNs s + 10000000 - k * 2500000) / 10000000
def pulsePhase (t k : Nat) : Nat := (t + 10000000 - k * 2500000) % 10000000
def execTestPulseStart (k : Fin 4) (s : State) : Result :=
  whenDue (!(heldAll s) && decide (mget 0 s.safe.pulses k.val < pulseIndex s k.val) && decide (pulsePhase (monoNs s) k.val < 200000)) s
    (setSafe s (fun z => { z with pulsing := z.pulsing ||| 2 ^ k.val, pulses := mput 0 z.pulses k.val (pulseIndex s k.val) }))
def execTestPulseEnd (k : Fin 4) (s : State) : Result :=
  whenDue (s.safe.pulsing.testBit k.val && decide (200000 ≤ pulsePhase (monoNs s) k.val)) s
    (setSafe s (fun z => { z with pulsing := z.pulsing ^^^ 2 ^ k.val }))

/-- A channel fails its test (R318, R319, R337, R338). (DEDUCED, log entry 64.) -/
def inFail (s : State) (i : Nat) : State :=
  if inFailed s i then setIn s i { sin s i with runs := 0 }
  else
    let s := raise (wr s Reg.SAFE_IN_FAIL (putBit (rd s Reg.SAFE_IN_FAIL) i true)) 0xA0 3
    let s := setIn s i { sin s i with runs := 0 }
    let j := i / 2
    let o := if i % 2 = 0 then i + 1 else i - 1
    if !(paired s i) then s
    else if inFailed s o then
      let s := setSafe s (fun z => { z with safePairs := z.safePairs ||| 2 ^ j })
      if mget 0 s.safe.penAt j != 0 then penLeave s j else s
    else if (sin s i).passed && (sin s o).passed then penEnter s j
    else setSafe s (fun z => { z with safePairs := z.safePairs ||| 2 ^ j })

/-- One input at a sample of MONO instant `t` (R317, R318). -/
def inSample (levels : Nat) (t : Nat) (s : State) (i : Nat) : State :=
  if inMode s i = 0 then s
  else
    let tp := inTp s i
    let x := levels.testBit i
    let c := sin s i
    let hold := decide (tp < 4) && decide (pulsePhase t tp < 300000)
    let eff := if hold then c.eff else x
    let cand := if eff = c.lvl then none else some (c.cand.getD t)
    let accept := match cand with | some u => decide (u + inFilt s i ≤ t) | none => false
    let pre := (List.range 4).foldl (fun m j => if pulsePhase t j = 9900000 then (if x then m ||| 2 ^ j else m &&& (15 ^^^ 2 ^ j)) else m) c.pre
    let low := (List.range 4).foldl (fun m j => if pulsePhase t j = 100000 then (if x then m &&& (15 ^^^ 2 ^ j) else m ||| 2 ^ j) else m) c.low
    let s := setIn s i { c with
      eff := eff, cand := if accept then none else cand, lvl := if accept then eff else c.lvl, pre := pre, low := low }
    if 4 ≤ tp ∨ c.lvl = false then s
    else if pulsePhase t tp = 100000 then
      (if x then inFail s i else setIn s i { sin s i with passed := true, runs := (sin s i).runs + 1 })
    else if (List.range 4).any (fun j => j != tp && pulsePhase t j == 200000 && pre.testBit j && low.testBit j && x) then inFail s i
    else s

/-- The agreement of a pair (R319). -/
def pairSample (t : Nat) (s : State) (j : Nat) : State :=
  if !(paired s (2 * j)) then s
  else
    let a := noDemand s (2 * j)
    let b := noDemand s (2 * j + 1)
    let failed := inFailed s (2 * j) || inFailed s (2 * j + 1)
    let from0 := if a == b || failed then none else some ((mget none s.safe.discFrom j).getD t)
    let s := setSafe s (fun z => { z with discFrom := mput none z.discFrom j from0 })
    if !a && !b then wr s Reg.SAFE_IN_DISC (putBit (rd s Reg.SAFE_IN_DISC) j false) else s

/-- SAFETY_INPUT_SAMPLE (R315-R319, R337, R338). (DEDUCED, log entry 62.) -/
def execSafetyInputSample (levels : BitVec 16) (s : State) : Result :=
  let t := monoNs s / 100000
  whenDue (safeState s != 0 && !s.safe.params.isEmpty && !(heldAll s) && decide (s.safe.samples < t)) s
    (let s := setSafe s (fun z => { z with samples := t })
     let s := (List.range 16).foldl (inSample levels.toNat (t * 100000)) s
     let s := (List.range 8).foldl (pairSample (t * 100000)) s
     wrn s Reg.SAFE_IN_LVL (bitsOf 16 (fun i => (sin s i).lvl)))

/-- DISCREPANCY_EXPIRY (R319). -/
def execDiscrepancyExpiry (j : Fin 8) (s : State) : Result :=
  match mget none s.safe.discFrom j.val with
  | none => .next s
  | some t => whenDue (decide (t + pairDisc s j.val < monoNs s) && !(bitAt (rd s Reg.SAFE_IN_DISC) j.val)) s
      (raise (wr s Reg.SAFE_IN_DISC (putBit (rd s Reg.SAFE_IN_DISC) j.val true)) 0xA0 3)

/-! ### Outputs (R320-R323) -/

/-- A channel of an output fails (R323, R338). (DEDUCED, log entry 63.) -/
def outFail (s : State) (k : Nat) (b : Bool) : State :=
  let s := setSout s k (fun o => if o.onAgain = some b then { o with onAgain := none } else o)
  let s := creditTest s k
  if outFailed s k b then setSout s k (fun o => { o with runs := 0 })
  else
    let s := raise (wr s Reg.SAFE_OUT_FAIL (putBit (rd s Reg.SAFE_OUT_FAIL) (k + if b then 8 else 0) true)) 0xA0 4
    let s := setSout s k (fun o => { o with runs := 0 })
    if outFailed s k (!b) then
      safeEnter (if mget 0 s.safe.penAt (8 + k) != 0 then penLeave s (8 + k) else s) 0x0B
    else if (sout s k).passedA && (sout s k).passedB then penEnter s (8 + k)
    else outSync (setSout s k (fun o => { o with safe := true })) k

/-- A readback is to be checked from now on. (DEDUCED, log entry 63.) -/
def rbCheck (s : State) (k : Nat) (b : Bool) : State :=
  setSout s k (fun o => if b then { o with chkB := some s.now } else { o with chkA := some s.now })

/-- DARK_TEST_START (R45, R322). (DEDUCED, log entry 63.) -/
def execDarkTestStart (k : Fin 8) (s : State) : Result :=
  let s := creditTest s k.val
  let o := sout s k.val
  whenDue (outOn s k.val && (List.range 8).all (fun j => (sout s j).dark.isNone) && decide (o.testFrom + outTestS s k.val ≤ monoNs s)) s
    (let t := setSout s k.val (fun o => { o with dark := some (monoNs s, o.nextB), nextB := !o.nextB, testFrom := monoNs s })
     rbCheck (setRb t k.val o.nextB false) k.val o.nextB)

/-- DARK_TEST_END (R318, R322, R323, R340): `lowSeen`, the readback has shown off within RB_US of the switch-off. The test
has passed when the readback shows on again too: no READBACK_TIMEOUT within RB_US from now. -/
def execDarkTestEnd (k : Fin 8) (lowSeen : Bool) (s : State) : Result :=
  match (sout s k.val).dark with
  | none => .next s
  | some (t0, b) => whenDue (decide (t0 + outTestUs s k.val * 1000 ≤ monoNs s)) s
      (let t := setSout s k.val (fun o => { o with dark := none })
       let t := rbCheck (setRb t k.val b true) k.val b
       if lowSeen then setSout t k.val (fun o => { o with onAgain := some b }) else outFail t k.val b)

/-- READBACK_TIMEOUT (R320, R322, R323): RB_US after a change, the readback does not show the commanded level. (DEDUCED, log entry 63.) -/
def execReadbackTimeout (k : Fin 8) (b : Bool) (s : State) : Result :=
  let o := sout s k.val
  match (if b then o.chkB else o.chkA) with
  | none => .next s
  | some t0 => whenDue (decide (t0 + outRbUs s k.val * vcoUs ≤ s.now)) s
      (let t := setSout s k.val (fun o => if b then { o with chkB := none } else { o with chkA := none })
       let cmd := outOn s k.val && (match o.dark with | some (_, c) => c != b | none => true)
       outFail (setRb t k.val b (!cmd)) k.val b)

/-! ### The Ikido safe channel (R327-R336) -/

/-- The Penumbra element of a connection and its partner. -/
def connElement (s : State) (c : Nat) : Option Nat :=
  let p := connPartner s c
  if p = 0xFFFF then none else some (16 + min c p)

/-- A connection enters FAULT (R330, R337, R338): 1 watchdog, 2 sequence. -/
def connFault (s : State) (c cause : Nat) : State :=
  let s := setFld (setFld s (Reg.SAFE_ISC_ST c) F.SAFE_ISC_ST_STATE 3) (Reg.SAFE_ISC_ST c) F.SAFE_ISC_ST_CAUSE cause
  let s := setFlag s (Reg.SAFE_ISC_ST c) F.SAFE_ISC_ST_VALID false
  let s := raise (setConn s c (fun k => { k with rxOk := false, rx := [], ready := false })) 0xA0 5
  match connElement s c with
  | none => s
  | some e =>
    let p := connPartner s c
    if mget 0 s.safe.penAt e != 0 then penLeave s e
    else if connState s p != 2 then s
    else if (conn s c).passed && (conn s p).passed then penEnter s e
    else penBits s e true true

/-- A connection reaches RUN; a pair with both in RUN leaves Penumbra or its safe value (R339, R340). (DEDUCED, log entry 64.) -/
def connRun (s : State) (c : Nat) : State :=
  let s := setConn (setFld s (Reg.SAFE_ISC_ST c) F.SAFE_ISC_ST_STATE 2) c (fun k => { k with passed := true })
  match connElement s c with
  | none => s
  | some e =>
    if connState s (connPartner s c) != 2 then s
    else penBits (if mget 0 s.safe.penAt e != 0 then penLeave s e else s) e true false

/-- What check 5 of R332 says of a SEQ: accept, discard without count, or a sequence error. -/
inductive SeqCheck where
  | accept
  | drop
  | error
  deriving DecidableEq, Repr

def seqCheck (s : State) (c n : Nat) : SeqCheck :=
  let k := conn s c
  let starting := connState s c == 1
  let other := if starting then .drop else .error
  if connRole s c = 1 then
    if n = k.seq then (if k.ready then .drop else .accept)
    else if k.last == some n then .drop
    else other
  else
    if (starting && n == 0) || (match k.last with | some l => n == seqNext l | none => false) then .accept
    else if k.last == some n then .drop
    else other

/-- Checks 1 to 4 of R332 pass. -/
def pduGood (s : State) (c : Nat) (bs : List Byte) : Bool :=
  let n := beNat (bs.take 1)
  let g := fun (off k : Nat) => beNat ((bs.drop off).take k)
  n == connRxLen s c && decide (10 + n ≤ bs.length) && g (6 + n) 4 == iscCrc (connId s c) (bs.take (6 + n)) &&
    (g 1 1).testBit 0 == (connRole s c == 1) && g 4 2 == connTexp s c

/-- An acceptance (R330, R332). -/
def pduAccept (s : State) (c : Nat) (bs : List Byte) : State :=
  let n := beNat ((bs.drop 2).take 2)
  let passive := (beNat ((bs.drop 1).take 1)).testBit 1
  let s := setConn s c (fun k => { k with
    last := some n, ready := true, since := monoNs s, rxOk := !passive, rx := if passive then [] else (bs.drop 6).take (connRxLen s c) })
  let s := setFlag s (Reg.SAFE_ISC_ST c) F.SAFE_ISC_ST_PEER_PASSIVE passive
  let s := if passive then setFlag s (Reg.SAFE_ISC_ST c) F.SAFE_ISC_ST_VALID false else s
  if connState s c = 1 ∧ n = 1 then connRun s c else s

/-- ISC_PDU_ACCEPT (R328, R330-R332, R337, R338, R340): the oldest PDU handed over. -/
def execIscPduAccept (s : State) : Result :=
  match s.safe.inbox with
  | [] => .next s
  | (c, bs) :: rest =>
    let t := setSafe s (fun z => { z with inbox := rest })
    .next (if !(connState t c == 1 || connState t c == 2) then t
      else if !(pduGood t c bs) then satFld t (Reg.SAFE_ISC_ST c) F.SAFE_ISC_ST_DISCARDS 1
      else match seqCheck t c (beNat ((bs.drop 2).take 2)) with
        | .accept => pduAccept t c bs
        | .drop => t
        | .error => connFault t c 2)

/-- ISC_WATCHDOG (R330, R333, R337, R338). -/
def execIscWatchdog (c : Fin 256) (s : State) : Result :=
  whenDue ((connState s c.val == 1 || connState s c.val == 2) && decide ((conn s c.val).since + connTexp s c.val * 500000 ≤ monoNs s)) s
    (connFault s c.val 1)

/-- RX_PUT (R336): the bytes in SAFE_MB_DATA are handed over. -/
def mbPut (s : State) : State :=
  let c := fld s Reg.SAFE_MB_SEL F.SAFE_MB_SEL_CONN
  let bs := (List.range 20).flatMap (fun i => beBytes 4 (rdn s (Reg.SAFE_MB_DATA i)))
  if connRole s c != 0 && !(connLsx s c) then setSafe s (fun z => { z with inbox := z.inbox ++ [(c, bs)] }) else s
def execRxPut (ini : Fin 16) (s : State) : Result := softWrite ini 0xA3 0x44 none s mbPut

/-- TX_GET (R328, R331, R336): the newest PDU goes to SAFE_MB_DATA. -/
def mbGet (s : State) : State :=
  let c := fld s Reg.SAFE_MB_SEL F.SAFE_MB_SEL_CONN
  if !(safeActs s) || connRole s c == 0 || connLsx s c then s
  else match iscPdu s c with
    | none => s
    | some bs =>
      let s := ((packBe 20 bs).zipIdx.filter (fun w => decide (4 * w.2 < bs.length))).foldl (fun s w => wrn s (Reg.SAFE_MB_DATA w.2) w.1) s
      wr s (Reg.SAFE_MB_TXNEW (c / 32)) (putBit (rd s (Reg.SAFE_MB_TXNEW (c / 32))) (c % 32) false)
def execTxGet (ini : Fin 16) (s : State) : Result := softWrite ini 0xA3 0x44 none s mbGet

/-- A write of SAFE_MB_CMD: its two bits are flags, taken in bit order. (DEDUCED, log entry 19.) -/
def mbCommand (ini : Fin 16) (v : Word) (s : State) : Result :=
  softWrite ini 0xA3 0x44 (errIf (v &&& 0xFFFFFFFC#32 != 0) 37) s (fun s =>
    let s := if bitAt v 0 then mbPut s else s
    if bitAt v 1 then mbGet s else s)

/-! ### Fatal faults (R301, R305-R307) -/

/-- A fatal fault (R306). -/
def fatal (s : State) (cause : Nat) : State :=
  let s := setFlag (haltCore (safeEnter s cause) 6) Reg.SAFE_STAT F.SAFE_STAT_HALTED true
  giveUp (setSafe s (fun z => { z with fatalAt := some (z.fatalAt.getD s.now) })) 1

/-- VCO cycles that `n` cycles of the safety reference oscillator take at least, at its fastest, 20 MHz + 5 % (R307). -/
def refTime (n : Nat) : Nat := n * 5000 / 21

/-- Two safety cycle lengths, in reference cycles, have passed without a cycle start (R307). (DEDUCED, log entry 62.) -/
def cycleOverdue (s : State) : Bool :=
  safeState s != 0 && !s.safe.params.isEmpty && !(heldAll s) && decide (s.safe.startedAt + refTime (40 * cycleUs s) ≤ s.now)

/-- FATAL_FAULT (R305-R307): 0 lockstep, 1 logic copies, 2 no cycle start, 3 TCM error. -/
def execFatalFault (cause : Fin 4) (s : State) : Result :=
  whenDue (cause.val != 2 || cycleOverdue s) s (fatal s (match cause.val with | 0 => 1 | 1 => 2 | 2 => 3 | _ => 5))

/-- CLOCK_MONITOR_WINDOW (R307): the CLK_SAFE edges of a window of 2,000 reference cycles. (DEDUCED, log entry 62.) -/
def execClockMonitorWindow (count : Nat) (s : State) : Result :=
  whenDue (decide (s.safe.windowAt + refTime 2000 ≤ s.now)) s
    (let t := setSafe s (fun z => { z with windowAt := s.now })
     if count < 50000 ∨ 75000 < count then fatal t 3 else t)

/-- PWR_FAIL_N qualified, or a give-up (R304). (DEDUCED, log entry 62.) -/
def safePowerFail (s : State) : State := safeSync (setSafe s (fun z => { z with staged := none, pulsing := 0 }))

end Sys2Proof.Machine
end

