-- ==== Sys2Proof/Machine/Switch.lean ====
section
/-!
DEFINITION. The roles of a mirrored pair (R347-R352), releasing control, and the switch-over (R363-R366).
-/

namespace Sys2Proof.Machine

/-- MIRROR works: its page is enabled and its domain runs. (DEDUCED, log entry 88.) -/
def mirrorRuns (s : State) : Bool := pageEn s 0xB0 && domainUp s 5

def grant (s : State) : Bool := mirrorFlag s F.MIRROR_STAT_GRANT
def takeoverTime : Nat := 40 * vcoUs

/-! ### Releasing control (R351, R364) -/

/-- The cyclic machine of a unit that has released control stands as R355 wants it: STOPPED, every task OFF. (DEDUCED, log entry 68.) -/
def releaseCyc (s : State) : State :=
  let s := retDrop s
  let s := { s with cyc := { s.cyc with current := none, waiting := [], running := [] } }
  let s := allTasks.foldl (fun s t => setTaskState (setTask s t (fun _ => {})) t tOff) s
  let s := setFlag s Reg.CYC_STAT F.CYC_STAT_XFER_BUSY false
  let s := [0, 1, 2, 3].foldl (fun s c => coreSync s c) s
  if machine s == machRunning || machine s == machStopping then raise (setMachine s machStopped) 0x40 3 else s

/-- The release actions become effective: CLE, MXE and RXE at their power-fail states, and after a give-up every block;
a unit bound for STANDBY holds its blocks as R355 states. (DESIGN CHOICE, log entry 5; DEDUCED, log entry 88.) -/
def settleRelease (s : State) : State :=
  if !s.mirror.releaseDue then s
  else
    let s := mxePowerFail (clePowerFail s)
    let s := setRxe (dropFrames s (fun _ => true)) (fun r => { r with drafts := [] })
    let s := setMirror s (fun m => { m with releaseDue := false, released := true })
    if s.mirror.gaveUp then safePowerFail (mtrPowerFail (canPowerFail (ethPowerFail (lanternPowerFail s))))
    else
      let s := (List.range 16).foldl (fun s a => if 2 ≤ axState s a then powerDown s a else s) (releaseCyc s)
      cleEnable (setFlag (setFlag s (Reg.PCTL 0x70) F.PCTL_EN false) (Reg.PSTAT 0x70) F.PSTAT_ENABLED false) false

/-- Control is released without a GIVEUP frame (R349, R367). (DEDUCED, log entry 88.) -/
def release (s : State) : State := settleRelease (setMirror s (fun m => { m with releaseDue := true }))

/-! ### Role changes (R349, R350, R363, R366) -/

/-- Withheld output buffers go, once the pair is synced no longer (R360). -/
def pairCheck (s : State) : State :=
  if pairSynced s then s
  else
    let s' := s.mirror.held.foldl (fun s h => rxeRelease s h.2.1) s
    setMirror s' (fun m => { m with held := [] })

/-- ROLE becomes ACTIVE: set numbers start again (R362). -/
def enterActive (s : State) : State :=
  let s := setMirror (setRole s 4) (fun m => { m with
    releaseDue := false, released := false, numbers := [], lagged := [], freezing := [], ready := [], sending := none,
    unacked := [], swept := [], globalSent := false, pubSeen := [], exchTasks := [], receiving := none, journal := [],
    lowFrom := none })
  s

/-- ROLE becomes STANDBY. (DEDUCED, log entry 68.) -/
def enterStandby (s : State) (sync : Nat) : State :=
  setMirror (setSync (setRole s 2) sync) (fun m => { m with
    receiving := none, journal := [], freezing := [], ready := [], sending := none, unacked := [], swapping := false,
    takeAt := none, gapFrom := none, applied := none, got := [], firstSeen := [], sweepDone := [], further := [], commits := [] })

/-- GRANT is high while the peer is active (R350). (DESIGN CHOICE, log entry 67.) -/
def dualGrant (s : State) : State :=
  if mirrorFlag s F.MIRROR_STAT_DUAL_GRANT then s else raise (setMirrorFlag s F.MIRROR_STAT_DUAL_GRANT true) 0xB0 4

/-- A grant finds SYNC not SYNCED (R366). (DESIGN CHOICE, log entry 67.) -/
def grantUnsync (s : State) : State :=
  if mirrorFlag s F.MIRROR_STAT_GRANT_UNSYNC then s else raise (setMirrorFlag s F.MIRROR_STAT_GRANT_UNSYNC true) 0xB0 4

/-- Step 1 of R363. -/
def takeover (s : State) : State :=
  let s := setRole s 3
  let s := aglEvent s (.add 10 0 4 1)
  setMirror s (fun m => { m with
    receiving := none, takeAt := some s.now, gapFrom := some (monoNs s), applied := if m.journal.isEmpty then some s.now else none })

/-- The role table of R349 as far as GRANT, the link, the peer and SYNC decide it. -/
def roleCheck (s : State) : State :=
  let s := if grant s then s else setMirrorFlag s F.MIRROR_STAT_DUAL_GRANT false
  match role s with
  | 1 =>
    if grant s then
      let s := setMirror s (fun m => { m with lowFrom := none })
      if peerActive s then dualGrant s else enterActive s
    else setMirror s (fun m => { m with lowFrom := some (m.lowFrom.getD (monoNs s)) })
  | 2 =>
    if !(grant s) then s
    else
      let s := if syncOf s = 2 then s else grantUnsync s
      if peerActive s then dualGrant s else if syncOf s = 2 then takeover s else s
  | 3 => if grant s then s else enterStandby (release s) 0
  | 4 =>
    if grant s then s
    else
      let s := enterStandby (pairCheck (release s)) 0
      if mirrorFlag s F.MIRROR_STAT_SWAP_BUSY then
        raise (setFld (setMirrorFlag s F.MIRROR_STAT_SWAP_BUSY false) Reg.MIRROR_STAT F.MIRROR_STAT_SWAP_RES 2) 0xB0 5
      else s
  | _ => s

/-- A change of PCTL.EN of page 0x0B0 (R349). GIVEUP is left only through a reset: with EN = 0 ROLE reads OFF, and the
blocks stay as they are. -/
def mirrorEnable (s : State) (en : Bool) : State :=
  if en then (if role s = 0 then (if s.mirror.gaveUp then setRole s 5 else roleCheck (setRole s 1)) else s)
  else
    let s := pairCheck (setMirrorFlag (setRole s 0) F.MIRROR_STAT_HB_RUN false)
    setMirror s (fun m => { m with
      releaseDue := m.releaseDue && m.gaveUp, released := m.released && m.gaveUp, hb := false, lowFrom := none })

/-- ARB_GRANT_QUALIFIED (R348-R350, R363, R366). -/
def execArbGrantQualified (level : Bool) (s : State) : Result :=
  whenDue (domainUp s 5) s (roleCheck (setMirrorFlag s F.MIRROR_STAT_GRANT level))

/-- INIT_GRANT_LOW (R349): 1 ms in INIT with GRANT low. -/
def execInitGrantLow (s : State) : Result :=
  match s.mirror.lowFrom with
  | some t => whenDue (role s == 1 && !(grant s) && decide (t + 1000000 ≤ monoNs s)) s
      (roleCheck (setMirror (enterStandby s 0) (fun m => { m with lowFrom := none })))
  | none => .next s

/-! ### Heartbeat and commands (R347, R351, R352, R366) -/

/-- MIRROR_HB_KICK (R347). -/
def execMirrorHbKick (ini : Fin 16) (value : Word) (s : State) : Result :=
  softWrite ini 0xB0 0x70 none s (fun s =>
    if value = 0x6B3D#32 then setMirror s (fun m => { m with kick := monoNs s + 1 }) else s)

/-- ARB_HB may toggle. -/
def hbOk (s : State) : Bool :=
  mirrorRuns s && decide (1 ≤ role s) && decide (role s ≤ 4) && decide (s.mirror.kick ≠ 0) &&
    decide (monoNs s < s.mirror.kick + fld s Reg.MIRROR_CFG F.MIRROR_CFG_HB_TMO * 1000000)

/-- HEARTBEAT_TOGGLE (R347): a MONO multiple of 1 ms; HB_RUN shows whether ARB_HB toggles. -/
def execHeartbeatToggle (s : State) : Result :=
  whenDue (decide (s.mirror.hbTick < monoNs s / 1000000)) s
    (setMirrorFlag (setMirror s (fun m => { m with
      hb := if hbOk s then !m.hb else m.hb, hbTick := monoNs s / 1000000 })) F.MIRROR_STAT_HB_RUN (hbOk s))

/-- A write of MIRROR_CMD. -/
def mirrorCommand (ini : Fin 16) (extra : Option Nat) (s : State) (f : State → State) : Result := softWrite ini 0xB0 0x6C extra s f

/-- GIVEUP (R351). -/
def execMirrorGiveup (ini : Fin 16) (s : State) : Result := mirrorCommand ini none s (fun s => settleRelease (giveUp s 4))

/-- FORCE_ACTIVE (R349, R366). -/
def execForceActive (ini : Fin 16) (s : State) : Result :=
  mirrorCommand ini none s (fun s => if role s = 2 && grant s then enterActive s else s)

/-- PEER_RESET (R352). -/
def execPeerReset (ini : Fin 16) (s : State) : Result :=
  mirrorCommand ini none s (fun s => if role s = 4 then mirrorSend s 8 0 0 none [] else s)

/-- PLL_LOCK_LOSS (R351). -/
def execPllLockLoss (s : State) : Result :=
  whenDue (flag s Reg.CLK_STAT F.CLK_STAT_PLL_LOCK && resettable s) s
    (settleRelease (giveUp (setFlag s Reg.CLK_STAT F.CLK_STAT_PLL_LOCK false) 3))

/-! ### Address announcements (R365) -/

/-- The virtual MAC. -/
def vmac (s : State) : List Byte := beBytes 2 (fld s Reg.MIRROR_VMAC_HI F.MIRROR_VMAC_HI_V) ++ beBytes 4 (rdn s Reg.MIRROR_VMAC_LO)

/-- The one's complement checksum of the Internet protocols (log entry 60). -/
def inetSum (bs : List Byte) : Nat :=
  let n := (List.range ((bs.length + 1) / 2)).foldl (fun n k =>
    n + (bs.getD (2 * k) 0).toNat * 256 + (bs.getD (2 * k + 1) 0).toNat) 0
  let f (n : Nat) : Nat := n % 65536 + n / 65536
  65535 - f (f (f n))

/-- A gratuitous ARP request for an IPv4 address. (PRESUMED, log entry 60.) -/
def arpFrame (mac : List Byte) (ip : Nat) : List Byte :=
  List.replicate 6 0xFF ++ mac ++ beBytes 2 0x0806 ++ beBytes 2 1 ++ beBytes 2 0x0800 ++ beBytes 1 6 ++ beBytes 1 4 ++
    beBytes 2 1 ++ mac ++ beBytes 4 ip ++ List.replicate 6 0 ++ beBytes 4 ip

/-- An unsolicited Neighbor Advertisement with the Override flag, to all nodes. (PRESUMED, log entry 60.) -/
def naFrame (mac : List Byte) (ip : Nat) : List Byte :=
  let dst := beBytes 16 0xFF020000000000000000000000000001
  let body (sum : Nat) : List Byte := beBytes 2 0x8800 ++ beBytes 2 sum ++ beBytes 4 0x20000000 ++ beBytes 16 ip ++ beBytes 2 0x0201 ++ mac
  let sum := inetSum (beBytes 16 ip ++ dst ++ beBytes 4 32 ++ beBytes 4 58 ++ body 0)
  [0x33, 0x33, 0, 0, 0, 1] ++ mac ++ beBytes 2 0x86DD ++ beBytes 4 0x60000000 ++ beBytes 2 32 ++ beBytes 1 58 ++ beBytes 1 255 ++
    beBytes 16 ip ++ dst ++ body sum

/-- The address of RXE for IPv6, as four registers hold it. -/
def rxeAddr6 (s : State) : Nat := (List.range 4).foldl (fun n i => n * 2 ^ 32 + rdn s (Reg.RXE_ADDR6 i)) 0

/-- Hand a frame over to queue 0 of a port. -/
def handFrame (s : State) (port : Nat) (bs : List Byte) : State :=
  ethEnter s port 0 false { bytes := bs }

/-- Step 4 of R363. (PRESUMED, log entry 60.) -/
def announce (s : State) : State :=
  ((List.range 4).filter (fun p => (fld s Reg.MIRROR_CFG F.MIRROR_CFG_PORTS).testBit p)).foldl (fun s p =>
    let s := if flag s Reg.RXE_CFG F.RXE_CFG_V4 then handFrame s p (arpFrame (vmac s) (rdn s Reg.RXE_ADDR4)) else s
    if flag s Reg.RXE_CFG F.RXE_CFG_V6 then handFrame s p (naFrame (vmac s) (rxeAddr6 s)) else s) s

/-! ### Takeover (R363, R364) -/

/-- CYC at takeover: a hot start of every task with EN = 1. -/
def hotStart (s : State) : State :=
  let s := setFlag (setFld s Reg.CYC_STAT F.CYC_STAT_LAST_START 3) Reg.CYC_STAT F.CYC_STAT_WARM_FALLBACK false
  let s := (allTasks.filter (taskEn s)).foldl (fun s t =>
    let s := setTask s t (fun k => { k with firstCycle := false, gridFrom := gridFromNow s t 1 })
    let r := loadMaps s t
    setTaskState r.2 t (if r.1 then tFault else tWait)) (setMachine s machRunning)
  retRequest s

/-- A number in a copied axis record. -/
def axRec (b : List Byte) (off n : Nat) : Nat := leNat ((b.drop off).take n)

/-- An axis at takeover: DOWN with the copied position and phase; HOMED and POS_LOST as R364 says. (DEDUCED, log entry 68.) -/
def takeAxis (s : State) (e : Nat × List Byte) : State :=
  let a := e.1
  let b := e.2
  if !(axOn s a) then s
  else
    let p : Rat := ((signed 64 (axRec b 0 8) : Int) : Rat) / 65536
    let s := setAxis s a (fun x => {
      p := p, at0 := s.now, offset := signed 32 (axRec b 8 4), stepPos := p.floor, target := signed 64 (axRec b 16 8),
      dirNeg := x.dirNeg, dirAt := x.dirAt, stepAt := x.stepAt, limPAt := x.limPAt, limNAt := x.limNAt, refAt := x.refAt,
      drdyAt := x.drdyAt, ref := x.ref, energised := x.energised, ready := x.ready })
    let st := axRec b 12 1
    let keep := (st == 1 || st == 2 || st == 7) && flag s (Reg.ACFG a) F.ACFG_RETAIN && !(s.mirror.axisStarts.contains a)
    let s := setAxState s a 1
    let s := if keep then setAxFlag (setAxFlag s a F.ASTAT_HOMED (axRec b 13 1 != 0)) a F.ASTAT_POS_LOST (axRec b 14 1 != 0)
      else setAxFlag (posLost s a) a F.ASTAT_HOMED false
    axShow s a

/-- The sessions at takeover (R364), in ascending order. -/
def takeSession (s : State) (x : Nat) : State :=
  if rxeDisabled s x then s
  else
    let s := setSess s x (fun k => { k with ebSync := true })
    if sState s x == ssGood || sState s x == ssStale then prepareResync s x
    else if sState s x == ssLost then setFlag s (Reg.SSTAT x) F.SSTAT_OUT_HELD true
    else s

/-- The machine, the loops and the axes taken over and the role entered, before the sessions resume (step 3 of R363). -/
def takenOver (s : State) : State :=
  let s := setMirror s (fun m => { m with released := false, releaseDue := false })
  let s := hotStart s
  let s := cleEnable (setFlag (setFlag s (Reg.PCTL 0x70) F.PCTL_EN true) (Reg.PSTAT 0x70) F.PSTAT_ENABLED true) true
  let s := s.mirror.axes.foldl takeAxis s
  let g := s.mirror.gapFrom
  setMirror (enterActive s) (fun m => { m with gapFrom := g, takeAt := none, applied := none, axisStarts := [], axes := [] })

/-- Steps 3 and 4 of R363, the sessions and the announcement last. -/
def takeoverDone (s : State) : State := announce ((List.range 1024).foldl takeSession (takenOver s))

/-- TAKEOVER_COMPLETE (R363-R365): 40 µs after the last set has been applied. -/
def execTakeoverComplete (s : State) : Result :=
  match s.mirror.applied with
  | some t => settleDue (role s == 3 && s.mirror.journal.isEmpty && decide (t + takeoverTime ≤ s.now)) s (takeoverDone s)
  | none => .next s

end Sys2Proof.Machine
end

