-- ==== Sys2Proof/Machine/EthTx.lean ====
section
/-!
DEFINITION. Ethernet transmission (R398-R408, R412-R415, R417, R418): rings, shapers and gates, eligibility, the frames
themselves, MACsec protection and redundancy tags.
-/

namespace Sys2Proof.Machine

/-! ### Rates (R398) -/

/-- Port rate, Mbit/s. -/
def portRate (s : State) (k : Nat) : Nat :=
  let v := fld s (Reg.ETH_CFG k) F.ETH_CFG_SPEED
  if k < 2 then (if v = 1 then 2500 else 1000) else if v = 2 then 100 else if v = 3 then 10 else 1000

/-- VCO cycles of one byte. -/
def byteTime (s : State) (k : Nat) : Nat := 40000 / portRate s k

/-! ### Gates (R406, R407) -/

def gateEn (s : State) (k : Nat) : Bool := flag s (Reg.ETH_GATE_CFG k) F.ETH_GATE_CFG_EN
def gatePend (s : State) (k : Nat) : Bool := flag s (Reg.ETH_GATE_STAT k) F.ETH_GATE_STAT_PEND
def gateOper (s : State) (k : Nat) : Nat := fld s (Reg.ETH_GATE_STAT k) F.ETH_GATE_STAT_OPER

/-- An entry of a gate list: open gates and interval in ns. -/
def gateEntry (s : State) (k list i : Nat) : Nat × Nat :=
  let w := rdn s (if list = 0 then Reg.ETH_GATE_LIST0 (256 * k + i) else Reg.ETH_GATE_LIST1 (256 * k + i))
  (w % 256, 8 * (w / 256))

/-- The admin list's length, cycle and base (R406). (PRESUMED, log entry 74.) -/
def gateAdmin (s : State) (k : Nat) : Nat × Nat × Nat :=
  (fld s (Reg.ETH_GATE_CFG k) F.ETH_GATE_CFG_LEN + 1, fld s (Reg.ETH_GATE_CYCLE k) F.ETH_GATE_CYCLE_NS,
    (rdn s (Reg.ETH_GATE_BASE_SEC_LO k) + 2 ^ 32 * fld s (Reg.ETH_GATE_BASE_SEC_HI k) F.ETH_GATE_BASE_SEC_HI_V) * 10 ^ 9 +
      fld s (Reg.ETH_GATE_BASE_NS k) F.ETH_GATE_BASE_NS_NS)

/-- The open gates at a position of a cycle, and where this stretch ends; `at0` is where the entries still to look at
begin. Positions are in units of `Clock.ptp`. (PRESUMED, log entry 74.) -/
def gateWalk (cycle pos : Nat) : Nat → List (Nat × Nat) → Nat × Nat
  | _, [] => (255, cycle)
  | _, [e] => (e.1, cycle)
  | at0, e :: es =>
    let stop := at0 + e.2 * ptpUnit
    if pos < stop then (e.1, min stop cycle) else gateWalk cycle pos stop es

/-- The open gates of a list at PTP time `t`, and until when they hold (R406). -/
def gateList (s : State) (k list : Nat) (p : Nat × Nat × Nat) (t : Nat) : Nat × Nat :=
  let cycle := max 1 p.2.1 * ptpUnit
  let base := p.2.2 * ptpUnit
  let pos := (((t : Int) - (base : Int)) % (cycle : Int)).toNat
  let es := ((List.range p.1).map (gateEntry s k list)).filter (fun e => e.2 != 0)
  let w := gateWalk cycle pos 0 es
  (w.1, t + (w.2 - pos))

/-- The open gates of a port at PTP time `t`, and until when they hold; a pending change cuts the old list short (R407). -/
def gatesAt (s : State) (k t : Nat) : Nat × Nat :=
  if !(gateEn s k) then (255, t + 2 ^ 120)
  else
    let c := (port s k).changeAt * ptpUnit
    if gatePend s k && decide (c ≤ t) then gateList s k (1 - gateOper s k) (gateAdmin s k) t
    else
      let w := match (port s k).oper with
        | some p => gateList s k (gateOper s k) p t
        | none => (255, t + 2 ^ 120)
      (w.1, if gatePend s k then min w.2 c else w.2)

/-- Gate `q` stays open from `t` up to `stop`. -/
def gateHolds (s : State) (k q stop : Nat) : Nat → Nat → Bool
  | 0, t => decide (stop ≤ t)
  | fuel + 1, t =>
    if stop ≤ t then true
    else
      let w := gatesAt s k t
      if w.1.testBit q && decide (t < w.2) then gateHolds s k q stop fuel w.2 else false

/-- The change instant: the first base + n × cycle at least 1 µs after now (R407). -/
def gateChange (s : State) (k : Nat) : Nat :=
  let p := gateAdmin s k
  let t := ptpNs s + (if s.clock.ptp % ptpUnit = 0 then 0 else 1) + 1000
  if t ≤ p.2.2 then p.2.2 else p.2.2 + (t - p.2.2 + max 1 p.2.1 - 1) / max 1 p.2.1 * p.2.1

/-- PEND is set (R407). -/
def gateArm (s : State) (k : Nat) : State :=
  setFlag (setPort s k (fun p => { p with changeAt := gateChange s k })) (Reg.ETH_GATE_STAT k) F.ETH_GATE_STAT_PEND true

/-- The admin cycle holds no value of its range yet (R406). -/
def gateUnset (s : State) (k : Nat) : Bool := decide (fld s (Reg.ETH_GATE_CYCLE k) F.ETH_GATE_CYCLE_NS < 1000)

/-- SWITCH (R407). (PRESUMED, log entry 74.) -/
def execGateSwitch (ini : Fin 16) (k : Fin 4) (s : State) : Result :=
  softWrite ini (portPage k.val + 2) 0x54
    ((errIf (!(gateEn s k.val)) 407).orElse (fun _ => errIf (gateUnset s k.val) 38)) s (fun s => gateArm s k.val)

/-! ### Credit (R405) -/

def tqCbs (s : State) (k q : Nat) : Bool := flag s (Reg.ETH_TQ_CFG (8 * k + q)) F.ETH_TQ_CFG_CBS
def credit (s : State) (k q : Nat) : Int := mget 0 (port s k).credits q

/-- The first bit can reach the reference plane at the launch time (R386). -/
def launchNow (s : State) (k : Nat) (f : TxFrame) : Bool :=
  match f.launch with
  | none => true
  | some l =>
    let asym : Int := signed 32 (rdn s (Reg.PTP_ASYM_EG k)) * ((ptpUnit / 65536 : Nat) : Int)
    decide (((l * ptpUnit : Nat) : Int) ≤ (s.clock.ptp : Int) + asym)

/-- A queue's credit after the time since the last update. (PRESUMED, log entry 74.) -/
def creditNext (s : State) (k q : Nat) : Int :=
  let p := port s k
  let c := credit s k q
  let slope : Int := (fld s (Reg.ETH_TQ_SLOPE (8 * k + q)) F.ETH_TQ_SLOPE_SLOPE : Nat)
  let rate : Int := ((portRate s k * 1000 : Nat) : Int)
  let busy := match p.sending with | some x => min s.now x.until0 - p.creditAt | none => 0
  let idle := s.now - p.creditAt - busy
  let own := match p.sending with | some x => x.queue == q | none => false
  let waits := match queueOf s k q with | f :: _ => p.gates.testBit q && launchNow s k f | [] => false
  let c := if own then c + (slope - rate) * (busy : Nat) else if waits then c + slope * (busy : Nat) else c
  let rests := (queueOf s k q).isEmpty
  let c := if (waits || rests) && decide (c < 0) then min 0 (c + slope * (idle : Nat)) else c
  if rests && decide (0 < c) then 0 else c

/-- Every shaped queue's credit is brought up to now. -/
def creditSync (s : State) (k : Nat) : State :=
  let cs := (List.range 8).filter (fun q => tqCbs s k q)
  let s1 := cs.foldl (fun t q =>
    let c := creditNext s k q
    let t := setPort t k (fun p => { p with credits := mput 0 p.credits q c })
    let r := roundOpen t c 5000000
    wrn r.2 (Reg.ETH_TQ_CREDIT (8 * k + q)) (unsignedOf 32 r.1)) s
  setPort s1 k (fun p => { p with creditAt := s.now })

/-- GATE_ENTRY_CHANGE (R406): the gates that are open now. -/
def execGateEntryChange (k : Fin 4) (s : State) : Result :=
  let g := (gatesAt s k.val s.clock.ptp).1
  whenDue (domainUp s 5 && g != (port s k.val).gates) s (setPort (creditSync s k.val) k.val (fun p => { p with gates := g }))

/-- GATE_CHANGE_INSTANT (R407). -/
def execGateChangeInstant (k : Fin 4) (s : State) : Result :=
  let k := k.val
  whenDue (domainUp s 5 && gatePend s k && decide ((port s k).changeAt ≤ ptpNs s)) s
    (let a := gateAdmin s k
     let s := creditSync s k
     let s := setFld s (Reg.ETH_GATE_STAT k) F.ETH_GATE_STAT_OPER (1 - gateOper s k)
     let s := setFlag (setPort s k (fun p => { p with oper := some a })) (Reg.ETH_GATE_STAT k) F.ETH_GATE_STAT_PEND false
     setPort s k (fun p => { p with gates := (gatesAt s k s.clock.ptp).1 }))

/-! ### Rings (R402, R403) -/

def tqEn (s : State) (k q : Nat) : Bool := flag s (Reg.ETH_TQ_CFG (8 * k + q)) F.ETH_TQ_CFG_EN
def tqNext (s : State) (k q i : Nat) : Nat := (i + 1) % (2 * tqSize s k q)
def tqFetched (s : State) (k q : Nat) : Nat := mget 0 (port s k).fetched q
def setFetched (s : State) (k q i : Nat) : State := setPort s k (fun p => { p with fetched := mput 0 p.fetched q i })

/-- An uncorrectable error on a descriptor stops the port (R417), and ENABLED falls (R22). (DEDUCED, log entry 92.) -/
def portStop (s : State) (k : Nat) : State :=
  setFlag (setPort s k (fun p => { p with stopped := true })) (Reg.PSTAT (portPage k)) F.PSTAT_ENABLED false

/-- The frame a descriptor describes, and whether it is NORED. -/
def ringFrame (s : State) (k q i : Nat) : TxFrame × Bool :=
  let d := tqDesc s k q i
  let fl := rdLE s (d + 6) 2
  ({
    ring := some (k, i), buf := rdLE s d 4, len := rdLE s (d + 4) 2, nosec := fl.testBit 2,
    launch := if fl.testBit 1 then some (rdLE s (d + 12) 8) else none,
    echo := if fl.testBit 0 then some (rdLE s (d + 8) 2) else none }, fl.testBit 3)

/-- The port fetches its ring's new descriptors, in order. (DEDUCED, log entry 73.) -/
def fetchRing (k q : Nat) : Nat → State → State
  | 0, s => s
  | fuel + 1, s =>
    let i := tqFetched s k q
    if i = tqTail s k q || !(portUp s k) || !(tqEn s k q) || heldAll s then s
    else
      let r := readScan s 11 (tqDesc s k q i) 32
      match r.1 with
      | some _ => portStop r.2 k
      | none =>
        let f := ringFrame r.2 k q i
        fetchRing k q fuel (ethEnter (setFetched r.2 k q (tqNext s k q i)) k q f.2 f.1)

/-- A new descriptor breaks a rule of R402: its length, a reserved bit or byte that is not zero (R37); or one of R415 for the
rings of a redundant pair. (DEDUCED, log entry 73.) -/
def descErr (s : State) (k q i : Nat) : Option Nat :=
  let d := tqDesc s k q i
  let n := rdLE s (d + 4) 2
  (errIf (decide (n < 14) || decide (1518 < n)) 402).orElse (fun _ =>
    (errIf (rdLE s (d + 6) 2 / 16 % 2048 != 0 || rdLE s (d + 11) 1 != 0 || rdLE s (d + 20) 12 != 0) 37).orElse (fun _ =>
    errIf (k == 1 && redMode s != 0 && !((rdLE s (d + 6) 2).testBit 3)) 415))

/-- What is wrong with a new producer index, or with a descriptor it hands over. (DEDUCED, log entry 73.) -/
def tailErr (s : State) (k q : Nat) (v : Word) : Option Nat :=
  let n := tqSize s k q
  let h := tqHead s k q
  let t := tqTail s k q
  (errIf (decide (2 * n ≤ v.toNat) || decide (n < (v.toNat + 2 * n - h) % (2 * n))) 38).orElse (fun _ =>
    ((List.range ((v.toNat + 2 * n - t) % (2 * n))).findSome? (fun j => descErr s k q (t + j))))

/-- ETH_TQ_TAIL_WRITE (R402, R403, R417). (DEDUCED, log entry 73.) -/
def execEthTqTailWrite (ini : Fin 16) (k : Fin 4) (q : Fin 8) (value : Word) (s : State) : Result :=
  settleWrite ini (portPage k.val + 1) (0x48 + 0x20 * q.val) (tailErr s k.val q.val value) s (fun s =>
    fetchRing k.val q.val 2048 (creditSync (wr s (Reg.ETH_TQ_TAIL (8 * k.val + q.val)) value) k.val))

/-- HEAD advances past descriptors that are done. -/
def advanceHead (k q : Nat) : Nat → State → State
  | 0, s => s
  | fuel + 1, s =>
    let h := tqHead s k q
    let ds := mget [] (port s k).done q
    if ds.contains h then
      let s := setPort s k (fun p => { p with done := mput [] p.done q (ds.erase h) })
      advanceHead k q fuel (setFld s (Reg.ETH_TQ_HEAD (8 * k + q)) F.ETH_TQ_HEAD_IDX (tqNext s k q h))
    else s

/-- Write-back of a descriptor (R402). -/
def writeBack (s : State) (q : Nat) (f : TxFrame) (status : Nat) : State :=
  match f.ring with
  | none => s
  | some (k, i) =>
    if heldAll s then s
    else
      let d := tqDesc s k q i
      let s := store s 11 (d + 6) (leBytes 2 (rdLE s (d + 6) 2 ||| 0x8000))
      let s := store s 11 (d + 10) (leBytes 1 status)
      let s := setPort s k (fun p => { p with done := mput [] p.done q (mget [] p.done q ++ [i]) })
      raise (advanceHead k q 2048 s) (portPage k) 1

/-- RXE's transmit slot is free again: a frame that waited for one may be prepared (R152). -/
def slotFreed (s : State) (f : TxFrame) : State := if f.slot.isSome then rxeServe (freeSlot s f) else s

/-- A frame, or the last of two copies, has left or has been discarded. Status 255: the copy never came to a port. Where
two copies end unlike, STATUS is open. -/
def frameDone (s : State) (q : Nat) (f : TxFrame) (status : Nat) : State :=
  match f.pair with
  | none => writeBack (slotFreed s f) q f status
  | some (n, _) =>
    match s.eth.half.find? (fun h => h.1 == n) with
    | none => setEth s (fun e => { e with half := e.half ++ [(n, status)] })
    | some h =>
      let s := setEth s (fun e => { e with half := e.half.filter (fun x => x.1 != n) })
      let g := fresh s
      if status = 255 then writeBack (slotFreed s f) q f h.2
      else if h.2 = 255 ∨ h.2 = status then writeBack (slotFreed s f) q f status
      else writeBack (slotFreed g.2 f) q f (if Config.freeBool g.1 then status else h.2)

/-- The head of a queue leaves it. -/
def popHead (s : State) (k q : Nat) : State := headCheck (setQueue s k q (queueOf s k q).tail) k q

/-! ### Launch times (R386) -/

/-- A late frame is discarded. (DESIGN CHOICE, log entry 76.) -/
def lateDiscard (s : State) (k q : Nat) (f : TxFrame) : State :=
  let s := popHead s k q
  let s := raise (satFld s (Reg.PTP_LATE_CNT k) ⟨0, 32⟩ 1) (0xC1 + k) 2
  let s := match f.echo with | some t => echoAppend s k t (stepGen s) true 0 | none => s
  frameDone s q f 1

/-- LAUNCH_TIME_REACHED (R386, R387). -/
def execLaunchTimeReached (k : Fin 4) (q : Fin 8) (s : State) : Result :=
  match queueOf s k.val q.val with
  | [] => .next s
  | f :: fs =>
    settleDue (portUp s k.val && !(heldAll s) && f.launch.isSome && !f.reached && (f.late || launchNow s k.val f)) s
      (if f.late then lateDiscard (creditSync s k.val) k.val q.val f
       else setQueue (creditSync s k.val) k.val q.val ({ f with reached := true } :: fs))

/-- A forward step from `old` to `new`, in units of `Clock.ptp`, takes held frames past their tolerance (R386). -/
def ethForward (s : State) (old new : Nat) : State :=
  (List.range 32).foldl (fun s i =>
    match queueOf s (i / 8) (i % 8) with
    | f :: fs =>
      match f.launch with
      | some l =>
        if !f.reached && decide (old < l * ptpUnit) && decide ((l + lateTol s (i / 8)) * ptpUnit < new)
        then setQueue s (i / 8) (i % 8) ({ f with late := true } :: fs) else s
      | none => s
    | [] => s) s

/-! ### Frames (R410, R412, R413, R415) -/

/-- The port's MAC address. -/
def portMac (s : State) (k : Nat) : List Byte :=
  beBytes 2 (fld s (Reg.ETH_MAC_HI k) F.ETH_MAC_HI_V) ++ beBytes 4 (rdn s (Reg.ETH_MAC_LO k))

/-- An RXE frame's session. -/
def lsxSession (f : TxFrame) : Nat := beNat ((f.bytes.drop 4).take 2)

/-- The VLAN tag of RXE frames. -/
def rxeVlan (s : State) (k : Nat) : List Byte :=
  let r := Reg.ETH_RXE_TAG k
  if flag s r F.ETH_RXE_TAG_EN then beBytes 2 0x8100 ++ beBytes 2 (fld s r F.ETH_RXE_TAG_PCP * 8192 + fld s r F.ETH_RXE_TAG_VID) else []

/-- An RXE frame from its destination address on (R410); the IPv4 identification and the IPv6 flow label `id` are open. -/
def rxeFrame (s : State) (k id : Nat) (f : TxFrame) : List Byte :=
  let x := lsxSession f
  let n := f.bytes.length
  let src := if role s = 0 then portMac s k else vmac s
  let h := xMac s x ++ src ++ rxeVlan s k
  let udp := fun (sum : Nat) => beBytes 2 47208 ++ beBytes 2 47208 ++ beBytes 2 (n + 8) ++ beBytes 2 sum ++ f.bytes
  let fix := fun (sum : Nat) => if sum = 0 then 65535 else sum
  if xV6 s x then
    let sa := beBytes 16 (rxeAddr6 s)
    let da := beBytes 16 (xIp s x)
    let sum := fix (inetSum (sa ++ da ++ beBytes 4 (n + 8) ++ beBytes 4 17 ++ udp 0))
    h ++ beBytes 2 0x86DD ++ beBytes 4 (0x6B800000 + id % 2 ^ 20) ++ beBytes 2 (n + 8) ++ beBytes 1 17 ++ beBytes 1 64 ++ sa ++ da ++ udp sum
  else
    let sa := beBytes 4 (rdn s Reg.RXE_ADDR4)
    let da := beBytes 4 (xIp s x)
    let sum := fix (inetSum (sa ++ da ++ beBytes 2 17 ++ beBytes 2 (n + 8) ++ udp 0))
    let ip := fun (c : Nat) => [0x45, 0xB8] ++ beBytes 2 (n + 28) ++ beBytes 2 (id % 65536) ++ beBytes 2 0x4000 ++ [64, 17] ++
      beBytes 2 c ++ sa ++ da
    h ++ beBytes 2 0x0800 ++ ip (inetSum (ip 0)) ++ udp sum

/-- MACsec applies to a frame (R413). -/
def secures (s : State) (k : Nat) (f : TxFrame) : Bool := flag s (Reg.ETH_CFG k) F.ETH_CFG_SEC && !f.nosec && !f.asIs

/-- Frame length on the wire, FCS included (R404). -/
def wireLen (s : State) (k : Nat) (f : TxFrame) : Nat :=
  let body := if f.ring.isSome then f.len
    else if f.slot.isSome then 14 + (rxeVlan s k).length + (if xV6 s (lsxSession f) then 40 else 20) + 8 + f.bytes.length
    else f.bytes.length
  let sec := if secures s k f then (if flag s (Reg.ETH_SEC_CFG k) F.ETH_SEC_CFG_INCL_SCI then 32 else 24) else 0
  max 60 (body + sec + (if f.pair.isSome then 6 else 0)) + 4

/-- The confidentiality offset in bytes. -/
def secOffset (s : State) (k : Nat) : Nat :=
  let v := fld s (Reg.ETH_SEC_CFG k) F.ETH_SEC_CFG_OFFSET
  if v = 1 then 30 else if v = 2 then 50 else 0

/-- The SCI of the transmit SC. -/
def txSci (s : State) (k : Nat) : List Byte := portMac s k ++ [0, 1]

/-- A protected frame: SecTAG, secure data and ICV (R412). (PRESUMED, log entry 75; DESIGN CHOICE, log entry 76.) -/
def protect (s : State) (k an pn : Nat) (key bs : List Byte) : List Byte :=
  let incl := flag s (Reg.ETH_SEC_CFG k) F.ETH_SEC_CFG_INCL_SCI
  let user := bs.drop 12
  let o := secOffset s k
  let tag := beBytes 2 0x88E5 ++ beBytes 1 (0x0C + an + (if incl then 0x20 else 0)) ++
    beBytes 1 (if user.length < 48 then user.length else 0) ++ beBytes 4 pn ++ (if incl then txSci s k else [])
  let iv := txSci s k ++ beBytes 4 pn
  let ct := gcmCrypt key iv 2 (user.drop o)
  let head := bs.take 12 ++ tag ++ user.take o
  head ++ ct ++ gcmTag key iv head ct

/-- Bytes before the place of an HSR tag: the addresses and a VLAN tag. (PRESUMED, log entry 75.) -/
def hsrAt (bs : List Byte) : Nat := if beNat ((bs.drop 12).take 2) = 0x8100 then 16 else 12

/-- The HSR tag or PRP trailer of a copy for port `k` (R415). (PRESUMED, log entry 75.) -/
def redTag (s : State) (k seq : Nat) (bs : List Byte) : List Byte :=
  let n := hsrAt bs
  if redMode s = 1 then
    bs.take n ++ beBytes 2 0x892F ++ beBytes 2 (k % 2 * 4096 + (bs.length - n - 2 + 6) % 4096) ++ beBytes 2 seq ++ bs.drop n
  else
    let b := padTo (max 54 bs.length) bs
    b ++ beBytes 2 seq ++ beBytes 2 ((0xA + k % 2) * 4096 + (b.length - n - 2 + 6) % 4096) ++ beBytes 2 0x88FB

/-- The transmit SA in use: its key, read at the frame start (R413, R493), or none. -/
def txKey (s : State) (k : Nat) : Option (List Byte) × State :=
  let an := fld s (Reg.ETH_SEC_TXAN k) F.ETH_SEC_TXAN_AN
  let sa := Reg.ETH_SEC_TXSA (4 * k + an)
  if flag s sa F.ETH_SEC_TXSA_VALID && decide (rdn s (Reg.ETH_SEC_TXPN (4 * k + an)) < 0xFFFFFFFF) then
    keyUse s (fld s sa F.ETH_SEC_TXSA_KEY_SLOT) (k + 1) 1 (fun w => w == flag s (Reg.ETH_SEC_CFG k) F.ETH_SEC_CFG_CS)
  else (none, s)

/-! ### PTP messages (R385) -/

/-- Where a frame's PTP message begins, if it carries one: ethertype 0x88F7, or UDP to port 319 or 320; and where its
UDP header begins. -/
def ptpPlace (bs : List Byte) : Option (Nat × Option Nat) :=
  let e := fun (o : Nat) => beNat ((bs.drop o).take 2)
  let o := if e 12 = 0x8100 then 16 else 12
  let o := if e o = 0x892F then o + 6 else o
  let u := fun (p : Nat) => if e (p + 2) = 319 ∨ e (p + 2) = 320 then some (p + 8, some p) else none
  if e o = 0x88F7 then some (o + 2, none)
  else if e o = 0x0800 then
    (if (bs.getD (o + 11) 0) = 17 then u (o + 2 + 4 * ((bs.getD (o + 2) 0).toNat % 16)) else none)
  else if e o = 0x86DD then (if (bs.getD (o + 8) 0) = 17 then u (o + 42) else none)
  else none

/-- Replace `n` bytes at an offset. -/
def patch (bs : List Byte) (o : Nat) (b : List Byte) : List Byte := bs.take o ++ b ++ bs.drop (o + b.length)

/-- The UDP checksum of a datagram at offset `u`, computed afresh. -/
def udpFix (bs : List Byte) (u : Nat) : List Byte :=
  let v6 := decide (bs.getD (u - 40) 0 / 16 = 6 ∧ beNat ((bs.drop (u - 42)).take 2) = 0x86DD)
  let len := beNat ((bs.drop (u + 4)).take 2)
  let z := patch bs (u + 6) [0, 0]
  let addr := if v6 then (bs.drop (u - 32)).take 32 else (bs.drop (u - 8)).take 8
  let pseudo := addr ++ (if v6 then beBytes 4 len ++ beBytes 4 17 else beBytes 2 17 ++ beBytes 2 len)
  let sum := inetSum (pseudo ++ (z.drop u).take len)
  if !v6 && beNat ((bs.drop (u + 6)).take 2) = 0 then bs else patch bs (u + 6) (beBytes 2 (if sum = 0 then 65535 else sum))

/-- Add to the correctionField of a message at offset `o`, in 2⁻¹⁶ ns. -/
def addCorrection (bs : List Byte) (o : Nat) (u : Option Nat) (d : Nat) : List Byte :=
  let c := (beNat ((bs.drop (o + 8)).take 8) + d) % 2 ^ 64
  let t := patch bs (o + 8) (beBytes 8 c)
  match u with | some p => udpFix t p | none => t

/-- Source port identity and sequence number of a message. -/
def syncId (bs : List Byte) (o : Nat) : List Byte := (bs.drop (o + 20)).take 12

/-- A forwarded PTP message at its egress (R385): a one-step Sync is corrected by its residence and the ingress port's
link delay; those of a two-step Sync go into its Follow_Up. -/
def tcForward (s : State) (k : Nat) (f : TxFrame) (egress : Nat) (bs : List Byte) : List Byte × State :=
  match f.tcIn, ptpPlace bs with
  | some tin, some (o, u) =>
    let kind := (bs.getD o 0).toNat % 16
    let d := (egress - tin) * 65536 + rdn s (Reg.PTP_LINK_DLY (1 - k % 2))
    if kind = 0 ∧ (bs.getD (o + 6) 0).toNat.testBit 1 then
      (bs, setPort s k (fun p => { p with syncs := p.syncs ++ [(syncId bs o, d)] }))
    else if kind = 0 then (addCorrection bs o u d, s)
    else if kind = 8 then
      match (port s k).syncs.find? (fun x => x.1 == syncId bs o) with
      | some x => (addCorrection bs o u x.2, setPort s k (fun p => { p with syncs := p.syncs.erase x }))
      | none => (bs, s)
    else (bs, s)
  | _, _ => (bs, s)

/-! ### Starting and ending a frame (R404, R408) -/

/-- A head frame's transmission time T, in VCO cycles. -/
def frameTime (s : State) (k : Nat) (f : TxFrame) : Nat := (wireLen s k f + 8) * byteTime s k

/-- A queue with GUARD holds a frame whose launch time falls before the end of T. -/
def guarded (s : State) (k q t : Nat) : Bool :=
  (List.range 8).any (fun g => g != q && flag s (Reg.ETH_TQ_CFG (8 * k + g)) F.ETH_TQ_CFG_GUARD &&
    (match queueOf s k g with
     | f :: _ => (match f.launch with | some l => decide (l * ptpUnit < s.clock.ptp + t * (ptpUnit / 5)) | none => false)
     | [] => false))

/-- The head of a queue is eligible (R404). -/
def eligible (s : State) (k q : Nat) : Bool :=
  match queueOf s k q with
  | [] => false
  | f :: _ =>
    let t := frameTime s k f
    tqEn s k q && !f.late && launchNow s k f &&
      gateHolds s k q (s.clock.ptp + t * (ptpUnit / 5)) (t / 40 + 2) s.clock.ptp &&
      (!(tqCbs s k q) || decide (0 ≤ creditNext s k q)) && !(guarded s k q t)

/-- The queue served next. -/
def nextQueue (s : State) (k : Nat) : Option Nat := (List.range 8).reverse.find? (fun q => eligible s k q)

/-- The hardware stamp of an event message (R383): the time of a point `after` VCO cycles from now, with an asymmetry and the
uncertainty of R384. (DESIGN CHOICE, log entry 76.) -/
def stampOf (s : State) (k : Nat) (after : Int) (asym : Word) : Nat × State :=
  let f := fresh s
  let u : Nat := if k < 2 then 2 else 4
  let t : Int := (s.clock.ptp : Int) + after * ((ptpUnit / 5 : Nat) : Int) + signed 32 asym.toNat * ((ptpUnit / 65536 : Nat) : Int)
  ((t / (ptpUnit : Int) + ((Config.freeNat f.1 % (2 * u + 1) : Nat) : Int) - (u : Int)).toNat, f.2)

/-- A frame without its tags; none: its buffer cannot be read (R417). -/
def frameBody (s : State) (k : Nat) (f : TxFrame) : Option (List Byte) × State :=
  if f.ring.isSome then
    let r := readScan s 11 f.buf f.len
    (if r.1.isSome then none else some (rdBytes r.2 f.buf f.len), r.2)
  else if f.slot.isSome then
    let g := fresh s
    (some (rxeFrame s k (Config.freeNat g.1) f), g.2)
  else (some f.bytes, s)

/-- MACsec protection: the frame and the PN used, or none where the SA gives none (R413). -/
def secure (s : State) (k : Nat) (f : TxFrame) (bs : List Byte) : Option (List Byte) × State :=
  if !(secures s k f) then (some bs, s)
  else
    let an := fld s (Reg.ETH_SEC_TXAN k) F.ETH_SEC_TXAN_AN
    let r := txKey s k
    match r.1 with
    | none => (none, r.2)
    | some key =>
      let a := Reg.ETH_SEC_TXPN (4 * k + an)
      let pn := rdn s a
      let t := wrn r.2 a (pn + 1)
      (some (protect s k an pn key bs), if pn = 0xC0000000 then raise t (portPage k) 3 else t)

/-- The frame starts: read whole, protected, tagged, or discarded. -/
def startFrame (s : State) (k q : Nat) (f : TxFrame) : State :=
  let until0 := s.now + frameTime s k f
  let len := wireLen s k f
  let b := frameBody s k f
  if f.slot.isSome && !([0, 3, 4].contains (role s)) then frameDone s q f 255
  else match b.1 with
  | none => frameDone (ethCount b.2 k 11) q f 3
  | some body =>
    let e := stampOf b.2 k ((8 * byteTime s k : Nat) : Int) (rd s (Reg.PTP_ASYM_EG k))
    let tc := tcForward e.2 k f e.1 body
    let p := secure tc.2 k f tc.1
    match p.1 with
    | none => frameDone (if f.slot.isSome then ethCount p.2 k 11 else p.2) q f 2
    | some bs =>
      let wire := match f.pair with | some (_, n) => redTag s k n bs | none => bs
      setPort p.2 k (fun x => { x with
        freeAt := until0 + 12 * byteTime s k,
        sending := some {
          frame := f, queue := q, wire := padTo (len - 4) wire, until0 := until0, stamp := e.1, gen := stepGen s } })

/-- FRAME_TX_START (R403, R404, R408, R412, R413, R415, R417). -/
def execFrameTxStart (k : Fin 4) (s : State) : Result :=
  let k := k.val
  match nextQueue s k with
  | none => .next s
  | some q =>
    match queueOf s k q with
    | [] => .next s
    | f :: _ =>
      settleDue (portUp s k && !(heldAll s) && (port s k).sending.isNone && decide ((port s k).freeAt ≤ s.now)) s
        (startFrame (popHead (creditSync s k) k q) k q f)

/-- PSTAT.ENABLED of a port falls once its last frame has ended (R22, R400). -/
def portSettle (s : State) (k : Nat) : State :=
  if !(pageEn s (portPage k)) && (port s k).sending.isNone then setFlag s (Reg.PSTAT (portPage k)) F.PSTAT_ENABLED false else s

/-- The frame `x` a port sends ends: it counts as sent, its stamp goes to the Echo queue, and it is done. -/
def txEnd (s : State) (k : Nat) (x : Sending) : State :=
  let s := setPort (creditSync s k) k (fun p => { p with sending := none })
  let s := ethCount s k 1
  let s := match x.frame.echo with | some t => echoAppend s k t x.gen false x.stamp | none => s
  portSettle (frameDone s x.queue x.frame 0) k

/-- FRAME_TX_END (R383, R384, R387, R402): the egress stamp goes to the Echo queue; no frame is changed to carry it. In the power-fail state the frame ends with an invalid FCS (R418). -/
def execFrameTxEnd (k : Fin 4) (s : State) : Result :=
  let k := k.val
  match (port s k).sending with
  | none => .next s
  | some x =>
    settleDue (decide (x.until0 ≤ s.now)) s
      (if heldAll s then setPort s k (fun p => { p with sending := none }) else txEnd s k x)

/-! ### Links, enabling and stopping (R400, R417, R418) -/

/-- LINK and AN_DONE take values; a change of LINK raises bit 2. -/
def setLink (s : State) (k : Nat) (up an : Bool) : State :=
  let was := flag s (Reg.ETH_STAT k) F.ETH_STAT_LINK
  let s := setFlag (setFlag s (Reg.ETH_STAT k) F.ETH_STAT_LINK up) (Reg.ETH_STAT k) F.ETH_STAT_AN_DONE an
  if was != up then raise s (portPage k) 2 else s

/-- LINK_CHANGE (R400). -/
def execLinkChange (k : Fin 4) (up an : Bool) (s : State) : Result :=
  whenDue (pageEn s (portPage k.val) && domainUp s 5) s (setLink s k.val up an)

/-- The port starts: its rings are fetched (R400). -/
def portStart (s : State) (k : Nat) : State :=
  (List.range 8).foldl (fun s q => fetchRing k q 2048 s) (setPort s k (fun p => { p with creditAt := s.now }))

/-- A frame that has not started when EN is cleared (R400): a ring's own stays in its ring with its other copy withdrawn;
an RXE frame is discarded. -/
def dropQueued (k q : Nat) (s : State) (f : TxFrame) : State :=
  match f.ring with
  | some (home, i) =>
    if home = k then
      let s := match f.pair with
        | some (n, _) =>
          let s := setEth s (fun e => { e with half := e.half.filter (fun h => h.1 != n) })
          setQueue s 1 q ((queueOf s 1 q).filter (fun g => match g.pair with | some (m, _) => m != n | none => true))
        | none => s
      let due := (tqTail s k q + 2 * tqSize s k q - i) % (2 * tqSize s k q)
      let old := (tqTail s k q + 2 * tqSize s k q - tqFetched s k q) % (2 * tqSize s k q)
      if old < due then setFetched s k q i else s
    else frameDone s q f 255
  | none => if f.slot.isSome then frameDone (ethCount s k 11) q f 255 else s

/-- The port stops at the next frame boundary (R400). -/
def portHalt (s : State) (k : Nat) : State :=
  let s := (List.range 8).foldl (fun s q => (queueOf s k q).foldl (dropQueued k q) (setQueue s k q [])) s
  portSettle (setLink s k false false) k

/-- PCTL.SRST of a port page: the internal state of the port. -/
def portReset (s : State) (k : Nat) : State :=
  let s := (List.range 8).foldl (fun s q =>
    let fs := queueOf s k q
    fs.foldl (fun s f => if f.slot.isSome || (match f.ring with | some (h, _) => h != k | none => false) then frameDone s q f 255 else s)
      (setQueue s k q [])) s
  let s := match (port s k).sending with | some x => slotFreed s x.frame | none => s
  setPort (setFlag s (Reg.PSTAT (portPage k)) F.PSTAT_ENABLED (pageEn s (portPage k))) k (fun p => { oper := p.oper, gates := p.gates, changeAt := p.changeAt, creditAt := s.now })

/-! ### MDIO (R398) -/

/-- MDIO_COMMAND: Clause 22, on E2 and E3 only. (PRESUMED, log entry 77.) -/
def execMdioCommand (ini : Fin 16) (k : Fin 4) (value : Word) (s : State) : Result :=
  let op := fieldGet F.ETH_MDIO_CMD_OP value
  softWrite ini (portPage k.val) 0x94
    ((errIf (decide (k.val < 2) || flag s (Reg.ETH_MDIO_DATA k.val) F.ETH_MDIO_DATA_BUSY) 38).orElse (fun _ =>
      errIf (op == 0 || op == 3 || decide (4096 ≤ value.toNat)) 37)) s
    (fun s => setFlag (setPort s k.val (fun p => { p with mdio := some (value, s.now) })) (Reg.ETH_MDIO_DATA k.val) F.ETH_MDIO_DATA_BUSY true)

/-- MDIO_COMPLETE: 64 bits at 2.5 MHz have passed; a read returns what the PHY gave. (PRESUMED, log entry 77.) -/
def execMdioComplete (k : Fin 4) (data : BitVec 16) (s : State) : Result :=
  match (port s k.val).mdio with
  | none => .next s
  | some (v, t) =>
    whenDue (domainUp s 5 && decide (t + 128000 ≤ s.now)) s
      (let s := setFlag (setPort s k.val (fun p => { p with mdio := none })) (Reg.ETH_MDIO_DATA k.val) F.ETH_MDIO_DATA_BUSY false
       if fieldGet F.ETH_MDIO_CMD_OP v = 2 then setFld s (Reg.ETH_MDIO_DATA k.val) F.ETH_MDIO_DATA_DATA data.toNat else s)

end Sys2Proof.Machine
end

