-- ==== Sys2Proof/Machine/EthRx.lean ====
section
/-!
DEFINITION. Ethernet reception (R399, R409-R411, R414-R417): the checks in their order, redundancy, MACsec verification,
steering to RXE and to the receive rings.
-/

namespace Sys2Proof.Machine

/-! ### Fields of a frame -/

def fw (bs : List Byte) (o n : Nat) : Nat := beNat ((bs.drop o).take n)

/-- Where the ethertype stands, after a VLAN tag. -/
def typeAt (bs : List Byte) : Nat := if fw bs 12 2 = 0x8100 then 16 else 12

/-- The source address. -/
def srcMac (bs : List Byte) : List Byte := (bs.drop 6).take 6

/-- The HSR tag, if the frame has one: its place. -/
def hsrTag (bs : List Byte) : Option Nat := if fw bs (typeAt bs) 2 = 0x892F then some (typeAt bs) else none

/-- A PRP trailer ends the frame. (PRESUMED, log entry 75.) -/
def prpTrailer (bs : List Byte) : Bool :=
  let n := bs.length
  decide (20 ≤ n) && fw bs (n - 2) 2 == 0x88FB && (fw bs (n - 4) 1 / 16 == 0xA || fw bs (n - 4) 1 / 16 == 0xB)

/-- The redundancy sequence number of a frame, in the mode of the pair. -/
def redSeqOf (s : State) (bs : List Byte) : Option Nat :=
  if redMode s = 1 then (hsrTag bs).map (fun o => fw bs (o + 4) 2)
  else if redMode s = 2 then (if prpTrailer bs then some (fw bs (bs.length - 6) 2) else none)
  else none

/-- A frame without its redundancy tag. -/
def untag (s : State) (bs : List Byte) : List Byte :=
  if redMode s = 1 then (match hsrTag bs with | some o => bs.take o ++ bs.drop (o + 6) | none => bs)
  else if redMode s = 2 && prpTrailer bs then bs.take (bs.length - 6)
  else bs

/-- Bytes that MACsec and redundancy add to a received frame. -/
def rxExtra (s : State) (bs : List Byte) : Nat :=
  let u := untag s bs
  (bs.length - u.length) +
    (if fw u 12 2 = 0x88E5 then (if (u.getD 14 0).toNat.testBit 5 then 32 else 24) else 0)

/-! ### Redundancy (R415, R416) -/

/-- This node is the source of a frame. (PRESUMED, log entry 75.) -/
def ownSource (s : State) (bs : List Byte) : Bool :=
  srcMac bs == portMac s 0 || srcMac bs == portMac s 1 || (role s == 4 && srcMac bs == vmac s)

/-- A frame is unicast to this node alone. -/
def ownUnicast (s : State) (bs : List Byte) : Bool :=
  bs.take 6 == portMac s 0 || bs.take 6 == portMac s 1 || (role s == 4 && bs.take 6 == vmac s)

/-- A copy within its lifetime. -/
def dupFind (s : State) (src : List Byte) (q : Nat) : Option Duplicate :=
  s.eth.dups.find? (fun d => d.source == src && d.seq == q &&
    decide (monoNs s ≤ d.since + fld s (Reg.ETH_RED_CFG 0) F.ETH_RED_CFG_ENTRY_MS * 1000000))

/-- Record a first copy; the oldest of 1,024 entries goes. -/
def dupAdd (s : State) (src : List Byte) (q : Nat) : State :=
  setEth s (fun e =>
    let ds := e.dups.filter (fun d => !(d.source == src && d.seq == q))
    { e with dups := (if 1024 ≤ ds.length then ds.tail else ds) ++ [{ source := src, seq := q, since := monoNs s }] })

/-- Forward a frame to the other ring port (R416), with its ingress stamp where R385 applies. (PRESUMED, log entry 75.) -/
def hsrForward (s : State) (k stamp : Nat) (bs : List Byte) : State :=
  let o := 1 - k
  let tc := flag s (Reg.PTP_PORT_CFG 0) F.PTP_PORT_CFG_TC || flag s (Reg.PTP_PORT_CFG 1) F.PTP_PORT_CFG_TC
  ethEnter s o (fld s (Reg.ETH_RED_CFG 0) F.ETH_RED_CFG_FWD_Q) true {
    bytes := bs, asIs := true, tcIn := if tc && (ptpPlace bs).isSome then some stamp else none }

/-- Step 2 of R409: whether the frame goes on, and the state. (DESIGN CHOICE, log entry 76.) -/
def redundant (s : State) (k stamp : Nat) (bs : List Byte) : Bool × State :=
  if 2 ≤ k then (true, s)
  else match redSeqOf s bs with
    | none => (true, s)
    | some q =>
      match dupFind s (srcMac bs) q with
      | some _ => (false, ethCount s 0 9)
      | none =>
        let s := dupAdd s (srcMac bs) q
        let s := if redMode s = 1 && !(ownSource s bs) && !(ownUnicast s bs) then hsrForward s k stamp bs else s
        (!(redMode s == 1 && ownSource s bs), s)

/-! ### Address filter (R365, R409) -/

def addressOk (s : State) (k : Nat) (bs : List Byte) : Bool :=
  let d := bs.take 6
  d == portMac s k || d == List.replicate 6 0xFF || d == beBytes 6 0x011B19000000 || d == beBytes 6 0x0180C200000E ||
    (flag s (Reg.ETH_CFG k) F.ETH_CFG_MC_ALL && (d.getD 0 0).getLsbD 0) ||
    (d == vmac s && (role s == 3 || role s == 4))

/-! ### MACsec verification (R414) -/

/-- The receive SC of a SecTAG: the one whose SCI it carries, or SC 0. -/
def rxSc (s : State) (k : Nat) (bs : List Byte) : Option Nat :=
  if (bs.getD 14 0).toNat.testBit 5 then
    (List.range 4).find? (fun c =>
      fw bs 20 8 == rdn s (Reg.ETH_SEC_RXSCI (8 * k + 2 * c + 1)) * 2 ^ 32 + rdn s (Reg.ETH_SEC_RXSCI (8 * k + 2 * c)))
  else some 0

/-- The frame a verified one carries, without SecTAG and ICV, or the counter of its drop. (PRESUMED, log entry 75.) -/
def verify (s : State) (k : Nat) (bs : List Byte) : (Nat ⊕ List Byte) × State :=
  match rxSc s k bs with
  | none => (.inl 6, s)
  | some c =>
    let tci := (bs.getD 14 0).toNat
    let i := 16 * k + 4 * c + tci % 4
    let sa := Reg.ETH_SEC_RXSA i
    if !(flag s sa F.ETH_SEC_RXSA_VALID) then (.inl 6, s)
    else
      let r := keyUse s (fld s sa F.ETH_SEC_RXSA_KEY_SLOT) (k + 1) 1 (fun w => w == flag s (Reg.ETH_SEC_CFG k) F.ETH_SEC_CFG_CS)
      match r.1 with
      | none => (.inl 6, r.2)
      | some key =>
        let s := r.2
        let n := if tci.testBit 5 then 28 else 20
        let pn := fw bs 16 4
        let sl := (bs.getD 15 0).toNat
        let len := if sl = 0 then bs.length - n - 16 else sl
        let sci := beBytes 4 (rdn s (Reg.ETH_SEC_RXSCI (8 * k + 2 * c + 1))) ++ beBytes 4 (rdn s (Reg.ETH_SEC_RXSCI (8 * k + 2 * c)))
        let user := (bs.drop n).take len
        let o := if tci.testBit 3 then secOffset s k else user.length
        let iv := sci ++ beBytes 4 pn
        let ct := user.drop o
        if gcmTag key iv (bs.take n ++ user.take o) ct != (bs.drop (n + len)).take 16 then (.inl 6, s)
        else
          let low := rdn s (Reg.ETH_SEC_RXPN i)
          if flag s (Reg.ETH_SEC_CFG k) F.ETH_SEC_CFG_REPLAY && decide (pn + rdn s (Reg.ETH_SEC_WIN k) < low) then (.inl 7, s)
          else (.inr (bs.take 12 ++ user.take o ++ gcmCrypt key iv 2 ct),
            if low < pn + 1 then wrn s (Reg.ETH_SEC_RXPN i) (min (pn + 1) 0xFFFFFFFF) else s)

/-- Step 4 of R409: the frame, whether it was secured, or the counter of its drop. -/
def secStep (s : State) (k : Nat) (bs : List Byte) : (Nat ⊕ (List Byte × Bool)) × State :=
  if !(flag s (Reg.ETH_CFG k) F.ETH_CFG_SEC) then (.inr (bs, false), s)
  else if fw bs 12 2 = 0x88E5 then
    let v := verify s k bs
    (match v.1 with | .inl c => .inl c | .inr f => .inr (f, true), v.2)
  else
    let e := fw bs (typeAt bs) 2
    let f := Reg.ETH_SEC_CFG k
    if (e = 0x888E && flag s f F.ETH_SEC_CFG_PASS_EAPOL) || (e = 0x88F7 && flag s f F.ETH_SEC_CFG_PASS_PTP) then (.inr (bs, false), s)
    else (.inl 8, s)

/-! ### Steering to RXE (R410) -/

/-- A UDP datagram in a frame: address family, source, destination, IP bytes of the pseudo header, and the UDP header's
place and length. -/
structure UdpPlace where
  v6 : Bool := false
  source : Nat := 0
  dest : Nat := 0
  proto : Nat := 0
  whole : Bool := true
  pseudo : List Byte := []
  place : Nat := 0
  len : Nat := 0
  deriving DecidableEq, Repr

/-- The IP datagram of a frame. -/
def ipOf (bs : List Byte) : Option UdpPlace :=
  let o := typeAt bs
  let b := o + 2
  if fw bs o 2 = 0x0800 ∧ fw bs b 1 / 16 = 4 ∧ 5 ≤ fw bs b 1 % 16 ∧ b + 4 * (fw bs b 1 % 16) ≤ bs.length then
    let h := 4 * (fw bs b 1 % 16)
    let len := fw bs (b + 2) 2 - h
    some {
      source := fw bs (b + 12) 4, dest := fw bs (b + 16) 4, proto := fw bs (b + 9) 1,
      whole := fw bs (b + 6) 2 % 0x4000 == 0 && inetSum ((bs.drop b).take h) == 0 && decide (h ≤ fw bs (b + 2) 2) &&
        decide (b + fw bs (b + 2) 2 ≤ bs.length),
      pseudo := (bs.drop (b + 12)).take 8 ++ beBytes 2 (fw bs (b + 9) 1) ++ beBytes 2 len, place := b + h, len := len }
  else if fw bs o 2 = 0x86DD ∧ fw bs b 1 / 16 = 6 ∧ b + 40 ≤ bs.length then
    let len := fw bs (b + 4) 2
    some {
      v6 := true, source := fw bs (b + 8) 16, dest := fw bs (b + 24) 16, proto := fw bs (b + 6) 1,
      whole := decide (b + 40 + len ≤ bs.length),
      pseudo := (bs.drop (b + 8)).take 32 ++ beBytes 4 len ++ beBytes 4 (fw bs (b + 6) 1), place := b + 40, len := len }
  else none

/-- The datagram RXE takes (R410): its payload and source. -/
def steerRxe (s : State) (bs : List Byte) : Option (List Byte × Nat × Bool) :=
  match ipOf bs with
  | none => none
  | some u =>
    let udp := (bs.drop u.place).take u.len
    let n := fw udp 4 2
    let fam := flag s Reg.RXE_CFG (if u.v6 then F.RXE_CFG_V6 else F.RXE_CFG_V4)
    let here := if u.v6 then u.dest == rxeAddr6 s else u.dest == rdn s Reg.RXE_ADDR4
    let sum := fw udp 6 2
    let sumOk := (sum == 0 && !u.v6) || (sum != 0 && inetSum (u.pseudo ++ udp) == 0)
    if pageEn s 0x50 && fam && here && u.whole && u.proto == 17 && decide (8 ≤ n) && decide (n ≤ u.len) && fw udp 2 2 == 47208 && sumOk
    then some ((udp.take n).drop 8, u.source, u.v6) else none

/-! ### The steering table and the rings (R409, R411) -/

/-- An entry matches a frame. -/
def steerMatch (s : State) (k i : Nat) (bs : List Byte) : Bool :=
  let r := Reg.ETH_STEER (16 * k + i)
  let v := fld s r F.ETH_STEER_VALUE
  let kind := fld s r F.ETH_STEER_KIND
  if kind = 1 then fw bs (typeAt bs) 2 == v
  else if kind = 2 then (match ipOf bs with | some u => u.proto == 17 && fw bs (u.place + 2) 2 == v | none => false)
  else if kind = 3 then (match ipOf bs with | some u => u.proto == v % 256 | none => false)
  else false

def rqSize (s : State) (k r : Nat) : Nat := 2 ^ fld s (Reg.ETH_RQ_CFG (8 * k + r)) F.ETH_RQ_CFG_LOG2
def rqHead (s : State) (k r : Nat) : Nat := fld s (Reg.ETH_RQ_HEAD (8 * k + r)) F.ETH_RQ_HEAD_IDX
def rqTail (s : State) (k r : Nat) : Nat := fld s (Reg.ETH_RQ_TAIL (8 * k + r)) F.ETH_RQ_TAIL_IDX

/-- A store of received bytes meets an uncorrectable word it must read and modify (R417). -/
def storeFails (s : State) (a n : Nat) : Bool :=
  (eccIn s a n).any (fun w => ueAt s w && (decide (w < a) || decide (a + n < w + cwBytes w)))

/-- What reception knows of a frame beside its bytes. -/
structure RxInfo where
  stamp : Nat := 0
  secured : Bool := false
  lanB : Bool := false
  entry : Option Nat := none
  deriving DecidableEq, Repr

/-- Placement in a receive descriptor (R411). -/
def placeFrame (s : State) (k r : Nat) (x : RxInfo) (bs : List Byte) : State :=
  let h := rqHead s k r
  if !(flag s (Reg.ETH_RQ_CFG (8 * k + r)) F.ETH_RQ_CFG_EN) || h == rqTail s k r then ethCount s k 4
  else
    let d := rdn s (Reg.ETH_RQ_BASE (8 * k + r)) + 32 * (h % rqSize s k r)
    let q := readScan s 11 d 32
    match q.1 with
    | some _ => portStop q.2 k
    | none =>
      let s := q.2
      let buf := rdLE s d 4
      if rdLE s (d + 4) 2 < bs.length then ethCount s k 3
      else if storeFails s buf bs.length then store s 11 buf bs
      else
        let s := store s 11 buf bs
        let status := 1 + (if x.secured then 2 else 0) + (if x.lanB then 4 else 0) + (if fw bs 12 2 = 0x8100 then 8 else 0) +
          (match x.entry with | some i => 16 * i | none => 256)
        let s := store s 11 (d + 6) (leBytes 2 bs.length ++ leBytes 2 status ++ leBytes 1 (stepGen s) ++ leBytes 1 0 ++
          leBytes 4 (x.stamp % 10 ^ 9) ++ leBytes 8 (x.stamp / 10 ^ 9 % 2 ^ 48) ++ leBytes 8 0)
        let s := setFld s (Reg.ETH_RQ_HEAD (8 * k + r)) F.ETH_RQ_HEAD_IDX ((h + 1) % (2 * rqSize s k r))
        raise (ethCount s k 0) (portPage k) 0

/-- Frames of one CLK_NET cycle are admitted in ascending port number (R160). -/
def inboxAdd (ds : List RxDatagram) (d : RxDatagram) : List RxDatagram :=
  let after := fun (e : RxDatagram) => decide (e.cycle < d.cycle) || decide (e.port ≤ d.port)
  ds.takeWhile after ++ d :: ds.dropWhile after

/-- Steps 5 to 7 of R409. RXE takes nothing while it does not receive (R355). -/
def deliverFrame (s : State) (k : Nat) (x : RxInfo) (bs : List Byte) : State :=
  match steerRxe s bs with
  | some (p, src, v6) =>
    let d : RxDatagram := { bytes := p, source := src, v6 := v6, arrival := x.stamp, port := k, cycle := s.now / 16 }
    ethCount (if rxeReceives s then { s with rxe := { s.rxe with inbox := inboxAdd s.rxe.inbox d } } else s) k 0
  | none =>
    match (List.range 16).find? (fun i => steerMatch s k i bs) with
    | some i =>
      if flag s (Reg.ETH_STEER (16 * k + i)) F.ETH_STEER_DROP then ethCount s k 10
      else placeFrame s k (fld s (Reg.ETH_STEER (16 * k + i)) F.ETH_STEER_RING) { x with entry := some i } bs
    | none => placeFrame s k 0 x bs

/-- Steps 1 to 7 of R409 on a frame without its FCS. -/
def receiveFrame (s : State) (k : Nat) (bs : List Byte) (fcsOk : Bool) : State :=
  if !fcsOk then ethCount s k 2
  else if decide (bs.length < 60) || decide (1518 + rxExtra s bs < bs.length) || fw bs (typeAt bs) 2 == 0x8808 then ethCount s k 3
  else
    let e := stampOf s k (-(((bs.length + 4) * byteTime s k : Nat) : Int)) (rd s (Reg.PTP_ASYM_IN k))
    let r := redundant e.2 k e.1 bs
    if !r.1 then r.2
    else
      let lanB := decide (k = 1) && (redSeqOf s bs).isSome
      let f := if k < 2 then untag s bs else bs
      if !(addressOk r.2 k f) then r.2
      else
        let q := secStep r.2 k f
        match q.1 with
        | .inl c => ethCount q.2 k c
        | .inr (g, sec) => deliverFrame q.2 k { stamp := e.1, secured := sec, lanB := lanB } g

/-- The aggregate rate of R399 may be exceeded: more than 4,000,000 frames in this second. (DESIGN CHOICE, log entry 76.) -/
def rateCount (s : State) : State :=
  let n := s.now / (1000 * vcoMs)
  setEth s (fun e => if e.second = n then { e with count := e.count + 1 } else { e with second := n, count := 1 })

/-- A descriptor handed over holds a buffer length outside R411's range. (DEDUCED, log entry 73.) -/
def rxDescErr (s : State) (k r : Nat) (v : Nat) : Option Nat :=
  let n := rqSize s k r
  let t := rqTail s k r
  errIf ((List.range ((v + 2 * n - t) % (2 * n))).any (fun j =>
    let b := rdLE s (rdn s (Reg.ETH_RQ_BASE (8 * k + r)) + 32 * ((t + j) % n) + 4) 2
    decide (b < 64) || decide (1536 < b))) 411

/-- A frame reaches a port: beyond 4,000,000 frames in a second it may be lost (R398). (DESIGN CHOICE, log entry 76.) -/
def frameIn (s : State) (k : Nat) (bytes : List Byte) (fcsOk : Bool) : State :=
  let s := rateCount s
  if 4000000 < s.eth.count then
    let f := fresh s
    if Config.freeBool f.1 then ethCount f.2 k 5 else receiveFrame f.2 k bytes fcsOk
  else receiveFrame s k bytes fcsOk

/-- FRAME_RECEIVE (R399, R409-R411, R414-R417): the frame from its destination address on, without its FCS. Above the
aggregate rate it is open whether the frame can be taken. -/
def execFrameReceive (k : Fin 4) (bytes : List Byte) (fcsOk : Bool) (s : State) : Result :=
  settleDue (portUp s k.val && !(heldAll s)) s (frameIn s k.val bytes fcsOk)

/-- ETH_RQ_TAIL_WRITE (R411). -/
def execEthRqTailWrite (ini : Fin 16) (k : Fin 4) (r : Fin 8) (value : Word) (s : State) : Result :=
  let n := rqSize s k.val r.val
  softWrite ini (portPage k.val + 1) (0x148 + 0x10 * r.val)
    ((errIf (decide (2 * n ≤ value.toNat) || decide (n < (value.toNat + 2 * n - rqHead s k.val r.val) % (2 * n))) 38).orElse
      (fun _ => rxDescErr s k.val r.val value.toNat)) s
    (fun s => wr s (Reg.ETH_RQ_TAIL (8 * k.val + r.val)) value)

end Sys2Proof.Machine
end

