-- ==== Sys2Proof/Machine/PowerFail.lean ====
section
/-!
DEFINITION. The power-fail input and the orderly shutdown (R71-R75).
-/

namespace Sys2Proof.Machine

def setPower (s : State) (f : Power → Power) : State := { s with power := f s.power }

/-- PWR_FAIL_N takes a level. (DESIGN CHOICE, log entry 34.) -/
def pwrLevel (s : State) (low : Bool) : State :=
  setFlag (setPower s (fun p => { p with low := low, fellAt := if low then some s.now else none }))
    Reg.PWR_STAT F.PWR_STAT_PFAIL_LVL low

/-- PWR_FAIL_N_FALL (R71): the qualification of 2 µs begins. (DESIGN CHOICE, log entry 34.) -/
def execPwrFailNFall (s : State) : Result := .next (if s.power.low then s else pwrLevel s true)

/-- PWR_FAIL_N_RISE (R71, R74): a shorter low pulse is ignored; a shutdown that has begun goes on. -/
def execPwrFailNRise (s : State) : Result := .next (pwrLevel s false)

/-- The shut state (R71 step 6): all cores are held. -/
def enterShut (s : State) : State := setFlag s Reg.PWR_STAT F.PWR_STAT_SHUT true

/-- Every block drives its power-fail state and starts nothing new (R71 step 2): CLE R196, MTR R268, MXE R300, SAFE R304,
Lantern R516, Ethernet R418, CAN R432; a copy that Afterglow writes is cut (R523); an ACTIVE unit of a pair gives up (R351). CYC, RXE and Prism start nothing while
PFAIL is 1 (R103, R165, R233). -/
def blocksPowerFail (s : State) : State :=
  let s := clePowerFail (mtrPowerFail (mxePowerFail (safePowerFail s)))
  let s := aglCut (canPowerFail (ethPowerFail (lanternPowerFail s)))
  settleRelease (giveUp s 5)

/-- The Boot ROM runs (R75). -/
def bootRomRuns (s : State) : Bool :=
  s.start.step == .running && (match s.boot.step with | .off => false | .done => false | .failed => false | _ => true)

/-- PWR_FAIL_QUALIFIED (R71 steps 1 and 2, R73, R75). (DESIGN CHOICE, log entries 34, 35.) -/
def execPwrFailQualified (s : State) : Result :=
  match s.power.fellAt with
  | some t =>
    whenDue (s.power.low && !(pfail s) && decide (t + 2 * vcoUs ≤ s.now) && s.start.step != .porActive) s
      (let u := setPower s (fun p => { p with qualifiedAt := some s.now })
       let u := raise (setFlag u Reg.PWR_STAT F.PWR_STAT_PFAIL true) 2 0
       let v := retDrop (blocksPowerFail u)
       if bootRomRuns s then enterShut v else v)
  | none => .next s

/-- Afterglow's record 0 at step 5 (R523): ORDERLY counts and T_SHUT is set, whatever PCTL.EN of AGL holds. (DESIGN CHOICE, log entry 35.) -/
def shutRecord (s : State) : State :=
  if aglLoaded s then aglWrite (aglApply (aglApply s (.add 0 4 4 1)) (.put 0 16 8 (aglTime s))) 0 else s

/-- AFTERGLOW_POWER_FAIL_RECORD (R71 steps 5 and 6, R523): after a retentive commit and a journal write already begun have
ended, and 4 µs after the last of them, or after qualification, the record is written and the shut state entered. (DESIGN CHOICE, log entry 35.) -/
def execAfterglowPowerFailRecord (s : State) : Result :=
  match s.power.qualifiedAt with
  | some t =>
    settleDue (s.cyc.ret.phase == .idle && !(lanternWriting s) && !(shut s) &&
        decide (max t s.power.writeEnd + 4 * vcoUs ≤ s.now)) s
      (enterShut (shutRecord s))
  | none => .next s

end Sys2Proof.Machine
end

