-- ==== Sys2Proof/Machine/PrismNum.lean ====
section
/-!
DEFINITION. Prism's numerics (R199, R200, R204-R224, R545): system assembly, network elements, static-pivot factors,
refinement, Newton and interior-point steps. One sum accumulates its terms by fused multiply-adds in an order the spec
does not give: the free keys of `Config.laneKey` choose it.
-/

namespace Sys2Proof.Machine

/-! ### Sums -/

/-- Terms in the lanes' order. (DESIGN CHOICE, log entry 52.) -/
def laneOrder {α : Type} (seed : Nat) (xs : List α) : List α :=
  (sortBy (fun a b => decide (a.1 ≤ b.1)) (xs.zipIdx.map (fun p => (Config.laneKey seed p.2, p.1)))).map (fun p => p.2)

/-- init + Σ a × b, one rounding a term. (DESIGN CHOICE, log entry 52.) -/
def fmaSum (seed : Nat) (init : Fp) (ts : List (Fp × Fp)) : Fp :=
  (laneOrder seed ts).foldl (fun acc t => fpFma t.1 t.2 acc) init

def fpSum (seed : Nat) (xs : List Fp) : Fp := fmaSum seed 0 (xs.map (fun x => (x, fpOne)))

/-- ∞-norm of a vector. -/
def normInf (xs : List Fp) : Fp := xs.foldl (fun m x => fpMax m (fpAbs x)) 0

/-- A sparse row: column ↦ value. -/
abbrev SRow := AMap Fp

/-- ‖A‖∞: the largest row sum of magnitudes. -/
def matNorm (rows : List SRow) : Fp := normInf (rows.map (fun r => fpSum r.length (r.map (fun e => fpAbs e.2))))

def vget (xs : List Fp) (i : Nat) : Fp := xs.getD i 0

/-- b − A x. -/
def residualOf (rows : List SRow) (b x : List Fp) : List Fp :=
  rows.zipIdx.map (fun r => fmaSum r.2 (vget b r.2) (r.1.map (fun e => (fpNeg e.2, vget x e.1))))

/-- A x. -/
def matVec (rows : List SRow) (x : List Fp) : List Fp :=
  rows.zipIdx.map (fun r => fmaSum r.2 0 (r.1.map (fun e => (e.2, vget x e.1))))

/-- ρ(r) of R221. (PRESUMED, log entry 55.) -/
def rhoOf (rows : List SRow) (x b r : List Fp) : Fp :=
  let nx := fpFma (matNorm rows) (normInf x) (normInf b)
  if fpIsZero nx && fpIsZero (normInf r) then 0 else fpDiv (normInf r) nx

def vmap2 (f : Fp → Fp → Fp) (xs ys : List Fp) : List Fp := xs.zipIdx.map (fun p => f p.1 (vget ys p.2))
def allFinite (xs : List Fp) : Bool := xs.all fpFinite

/-! ### Matrices (R204) -/

/-- The entries of a matrix: row, column, value. -/
def matEntries (m : PrismMat) : List (Nat × Nat × Fp) :=
  (List.range m.cols).flatMap (fun j =>
    let a := m.ptr.getD j 0
    (List.range (m.ptr.getD (j + 1) 0 - a)).map (fun k => (m.idx.getD (a + k) 0, j, m.val.getD (a + k) 0)))

/-- Rows of a matrix given by entries; entries at one place are added in order. -/
def rowsOf (n : Nat) (es : List (Nat × Nat × Fp)) : List SRow :=
  (List.range n).map (fun i => (es.filter (fun e => e.1 == i)).foldl (fun r e =>
    mins r e.2.1 (match r.find? (fun x => x.1 == e.2.1) with | some x => fpAdd x.2 e.2.2 | none => e.2.2)) [])

def transposed (es : List (Nat × Nat × Fp)) : List (Nat × Nat × Fp) := es.map (fun e => (e.2.1, e.1, e.2.2))

/-- A symmetric matrix from its lower triangle. -/
def symmetric (es : List (Nat × Nat × Fp)) : List (Nat × Nat × Fp) :=
  es ++ (transposed es).filter (fun e => e.1 != e.2.1)

/-! ### The system (R199, R211) -/

def kGeneral : Nat := 0
def kSymmetric : Nat := 1
def kNetwork : Nat := 2
def kQp : Nat := 3
def kReconcile : Nat := 4

def eFixp : Nat := 5
def eValve : Nat := 3
def eSubst : Nat := 4

/-- The branch elements, with their unknowns' indices. -/
def branches (m : PrismModel) : List (PrismElem × Nat) :=
  (m.elems.filter (fun e => e.kind != eFixp)).zipIdx.map (fun p => (p.1, m.nodes + p.2))

/-- System dimension (R199). -/
def sysDim (m : PrismModel) : Nat :=
  if m.kind = kNetwork then m.nodes + (branches m).length
  else if m.kind = kQp ∨ m.kind = kReconcile then m.n + m.mEq
  else m.n

/-- Places of the system's entries, before symmetrisation. -/
def sysPlaces (m : PrismModel) : List (Nat × Nat) :=
  let es := fun (x : PrismMat) => (matEntries x).map (fun e => (e.1, e.2.1))
  if m.kind = kNetwork then (branches m).flatMap (fun b => [(b.2, b.1.fromNode), (b.2, b.1.toNode)])
  else if m.kind = kQp then es m.mat0 ++ (es m.mat1).map (fun e => (m.n + e.1, e.2))
  else if m.kind = kReconcile then
    let es0 := es m.mat0
    (es0.flatMap (fun a => (es0.filter (fun b => b.1 == a.1)).map (fun b => (a.2, b.2)))) ++
      (es m.mat1).map (fun e => (m.n + e.1, e.2))
  else es m.mat0

/-- Rows of the symmetrised system pattern, diagonal included. -/
def sysPattern (m : PrismModel) : List (List Nat) :=
  let d := sysDim m
  let ps := sysPlaces m
  let all := ps ++ ps.map (fun p => (p.2, p.1))
  (List.range d).map (fun i =>
    sortBy (fun a b => decide (a ≤ b)) ((i :: (all.filter (fun p => p.1 == i)).map (fun p => p.2)).eraseDups))

/-- NNZ_K (R200). -/
def nnzK (m : PrismModel) : Nat := (m.pattern.map List.length).foldl (· + ·) 0

/-- Lengths of the vectors (R212). -/
def vecLen (m : PrismModel) (id : Nat) : Nat :=
  if id = 0 then (if m.kind = kNetwork then m.nodes else if m.kind = kQp ∨ m.kind = kReconcile then m.mEq else m.n)
  else if id ≤ 3 then (if m.kind = kQp then m.n else 0)
  else if id ≤ 5 then (if m.kind = kReconcile then m.nMeas else 0)
  else 0

/-- Default value of a vector's entries (R212). -/
def vecDefault (id : Nat) : Fp :=
  if id = 2 then fpNeg fpInf else if id = 3 then fpInf else if id = 5 then fpOne else 0

def vec (m : PrismModel) (id : Nat) : List Fp := m.vecs.getD id []

/-! ### Ordering and symbolic factor (R204, R205) -/

/-- An order of old indices by free keys: AMD is named and not defined, so its result is open. (DESIGN CHOICE, log entry 52.) -/
def freeOrder (seed : Nat) (is : List Nat) : List Nat := laneOrder seed is

/-- The unknowns that are no constraint rows. -/
def unknowns (m : PrismModel) : Nat := if m.kind = kQp ∨ m.kind = kReconcile then m.n else sysDim m

/-- The stages: their variables and their constraint rows, each in index order. How many of a stage's unknowns are variables
is open, within what the sizes leave. (DESIGN CHOICE, log entry 52.) -/
def stageSplit (n d seed : Nat) : Nat → Nat → Nat → List Nat → List (List Nat × List Nat)
  | _, _, _, [] => []
  | k, v, r, size :: rest =>
    let most := min size v
    let least := size - r
    let take := least + Config.laneKey seed k % (most - least + 1)
    let rows := size - take
    ((List.range take).map (fun i => n - v + i), (List.range rows).map (fun i => d - r + i)) ::
      stageSplit n d seed (k + 1) (v - take) (r - rows) rest

/-- STAGE_AMD: the unknowns stage by stage, the constraint rows of each stage after its variables (R204). (DESIGN CHOICE, log entry 52.) -/
def stageOrder (m : PrismModel) (seed : Nat) : List Nat :=
  let n := unknowns m
  (stageSplit n (sysDim m) (seed + 2 * m.stages.length) 0 n (sysDim m - n) m.stages).zipIdx.flatMap (fun p =>
    freeOrder (seed + 2 * p.2) p.1.1 ++ freeOrder (seed + 2 * p.2 + 1) p.1.2)

/-- The ordering of R205 step 4. -/
def orderOf (m : PrismModel) (seed : Nat) : List Nat :=
  if m.order = 1 then m.supplied
  else if m.order = 2 then stageOrder m seed
  else freeOrder seed (List.range (sysDim m))

/-- Position of an old index in an ordering. -/
def posOf (perm : List Nat) (old : Nat) : Nat := perm.findIdx (fun x => x == old)

/-- Below-diagonal rows of each factor column by the elimination tree (R205 step 5). -/
def belowOf (m : PrismModel) : List (List Nat) :=
  let d := sysDim m
  ((List.range d).foldl (fun (st : List (List Nat) × AMap (List Nat)) j =>
    let own := ((m.pattern.getD (m.perm.getD j 0) []).map (posOf m.perm)).filter (fun i => decide (j < i))
    let rows := sortBy (fun a b => decide (a ≤ b)) ((own ++ mget [] st.2 j).eraseDups)
    let pend := match rows with
      | [] => st.2
      | p :: rest => mput [] st.2 p (mget [] st.2 p ++ rest)
    (st.1 ++ [rows], pend)) ([], [])).1

/-- FNZ (R199): L and U with the diagonal once for LU; L and D for LDLᵀ. -/
def isLu (m : PrismModel) : Bool := m.kind == kGeneral || m.kind == kNetwork
def fnzOf (m : PrismModel) : Nat :=
  let off := (m.below.map List.length).foldl (· + ·) 0
  (if isLu m then 2 * off else off) + sysDim m

/-- V: total length of the model's vectors. -/
def vecTotal (m : PrismModel) : Nat := ((List.range 6).map (vecLen m)).foldl (· + ·) 0

/-- NEED (R200). -/
def needOf (m : PrismModel) : Nat :=
  (8 * fnzOf m + 12 * nnzK m + 72 * sysDim m + 64 * m.elems.length + 8 * vecTotal m + 65536 + 65535) / 65536

/-- CRC-64 of R208. -/
def crc64Byte (c b : Nat) : Nat :=
  (List.range 8).foldl (fun c k =>
    let top := (c / 2 ^ 63 + b / 2 ^ (7 - k)) % 2
    let sh := c * 2 % 2 ^ 64
    if top = 1 then sh ^^^ 0x42F0E1EBA9EA3693 else sh) c

def crc64 (bs : List Byte) : Nat :=
  bs.foldl (fun c b => crc64Byte c b.toNat) (2 ^ 64 - 1) ^^^ (2 ^ 64 - 1)

/-- The structure signature (R208). -/
def signatureOf (m : PrismModel) : Nat :=
  let ptrs := (m.pattern.foldl (fun (acc : List Nat × Nat) c => (acc.1 ++ [acc.2 + c.length], acc.2 + c.length)) ([0], 0)).1
  crc64 (leBytes 1 m.kind ++ leBytes 4 (sysDim m) ++ ptrs.flatMap (leBytes 4) ++ (m.pattern.flatMap id).flatMap (leBytes 4))

/-! ### Network elements (R209, R210) -/

def fpPi : Fp := fpRat 3141592653589793238462643383279 (10 ^ 30)
def fpTwo : Fp := fpNat 2

/-- Swamee-Jain's friction factor and its derivative in Re (R210). -/
def frictionTurb (eps d re : Fp) : Fp × Fp :=
  let x := fpAdd (fpDiv eps (fpMul (fpRat 37 10) d)) (fpDiv (fpRat 574 100) (fpPower re (fpRat 9 10)))
  let l := fpLog10 x
  let f := fpDiv (fpRat 25 100) (fpMul l l)
  let dx := fpMul (fpRat (-5166) 1000) (fpPower re (fpRat (-19) 10))
  let ln10 := fpRat 2302585092994045684017991454684 (10 ^ 30)
  (f, fpMul (fpDiv (fpRat (-1) 2) (fpMul l (fpMul l l))) (fpDiv dx (fpMul x ln10)))

/-- A pipe's pressure drop and its derivative in q (R210). -/
def pipeDrop (m : PrismModel) (p : List Fp) (q : Fp) : Fp × Fp :=
  let len := vget p 0
  let d := vget p 1
  let area4 := fpMul fpPi (fpMul d d)
  let v := fpDiv (fpMul (fpNat 4) q) area4
  let dv := fpDiv (fpNat 4) area4
  let av := fpAbs v
  let re := fpDiv (fpMul av d) m.nu
  let half := fpMul m.rho (fpRat 1 2)
  let minor := fpMul (vget p 3) (fpMul half (fpMul v av))
  let dMinor := fpMul (vget p 3) (fpMul (fpMul m.rho av) dv)
  let ld := fpDiv len d
  if fpLe re (fpNat 2000) then
    let c := fpDiv (fpMul (fpMul (fpNat 32) (fpMul m.rho m.nu)) len) (fpMul d d)
    (fpFma c v minor, fpFma c dv dMinor)
  else
    let f4 := (frictionTurb (vget p 2) d (fpNat 4000)).1
    let f2 := fpDiv (fpNat 64) (fpNat 2000)
    let slope := fpDiv (fpSub f4 f2) (fpNat 2000)
    let fl := if fpLt re (fpNat 4000) then fpFma slope (fpSub re (fpNat 2000)) f2 else (frictionTurb (vget p 2) d re).1
    let df := if fpLe re (fpNat 4000) then slope else (frictionTurb (vget p 2) d re).2
    let k := fpMul ld half
    -- d(f v|v|)/dv = f' (d/NU) v² + 2 f |v|
    let dterm := fpFma (fpMul df (fpDiv d m.nu)) (fpMul v v) (fpMul (fpMul fpTwo fl) av)
    (fpFma (fpMul k fl) (fpMul v av) minor, fpFma (fpMul k dterm) dv dMinor)

/-- A valve's coefficient k (R210). -/
def valveK (p : List Fp) : Fp :=
  let tau0 := if fpIsZero (vget p 2) then vget p 1 else fpPower (vget p 2) (fpSub (vget p 1) fpOne)
  let tau := fpMax tau0 (vget p 4)
  let a := vget p 3
  let phi := fpDiv fpOne (fpSqrt (fpAdd (fpSub fpOne a) (fpDiv a (fpMul tau tau))))
  fpDiv (fpMul (vget p 0) phi) (fpNat 3600)

/-- q_c of a substation. -/
def substQc (p : List Fp) : Fp := fpMin (fpMax (vget p 0) (vget p 1)) (vget p 2)

/-- g(Δp) of a substation and its derivative. -/
def substG (p : List Fp) (dp : Fp) : Fp × Fp :=
  let qc := substQc p
  let m := vget p 3
  let lo := fpMul (fpRat 1 100) m
  let lin := fpDiv (fpMul (fpNat 10) qc) m
  let g := if fpLe m dp then qc else if fpLe lo dp then fpMul qc (fpSqrt (fpDiv dp m)) else fpMul lin dp
  let d := if fpLt m dp then 0
    else if fpLt lo dp then fpDiv qc (fpMul fpTwo (fpSqrt (fpMul dp m)))
    else lin
  (g, d)

/-- An element's equation: value, derivatives in p_FROM, p_TO and q, and its constant term (R210, R222). -/
def elemEval (m : PrismModel) (e : PrismElem) (dp q : Fp) : Fp × (Fp × Fp × Fp) × Fp :=
  let p := e.p
  if e.kind = 1 then
    let r := pipeDrop m p q
    (fpSub dp r.1, (fpOne, fpNeg fpOne, fpNeg r.2), 0)
  else if e.kind = 2 then
    let sp := vget p 3
    if fpLt (vget p 4) sp then
      let c := fpMul (vget p 0) (fpMul sp sp)
      let a1 := fpMul (vget p 1) sp
      let poly := fpFma (fpFma (vget p 2) q a1) q c
      (fpSub (fpNeg dp) poly, (fpNeg fpOne, fpOne, fpNeg (fpFma (fpMul fpTwo (vget p 2)) q a1)), c)
    else (q, (0, 0, fpOne), 0)
  else if e.kind = 3 then
    let r := fpDiv q (valveK p)
    let s := fpMul (fpNat 100000) (fpMul r (fpAbs r))
    (fpSub dp s, (fpOne, fpNeg fpOne, fpNeg (fpDiv (fpMul (fpNat 200000) (fpAbs r)) (valveK p))), 0)
  else
    let g := substG p dp
    (fpSub q g.1, (fpNeg g.2, g.2, fpOne), if fpLe (vget p 3) dp then substQc p else 0)

/-- The FIXP element of a node. -/
def fixpAt (m : PrismModel) (j : Nat) : Option PrismElem := m.elems.find? (fun e => e.kind == eFixp && e.fromNode == j)

/-- Σ q in minus Σ q out of a node, minus `d`. -/
def nodeBalance (m : PrismModel) (x : List Fp) (j : Nat) (d : Fp) : Fp :=
  fmaSum j (fpNeg d) ((branches m).flatMap (fun b =>
    (if b.1.toNode == j then [(fpOne, vget x b.2)] else []) ++ (if b.1.fromNode == j then [(fpNeg fpOne, vget x b.2)] else [])))

/-- F(x), the rows of J(x), and the constant vector of R222 (R210, R211). -/
def netEval (m : PrismModel) (x : List Fp) : List Fp × List SRow × List Fp :=
  let bs := branches m
  let b := vec m 0
  let nodes := (List.range m.nodes).map (fun j =>
    match fixpAt m j with
    | some e => (fpSub (vget x j) (vget e.p 0), ([(j, fpOne)] : SRow), vget e.p 0)
    | none =>
      let row : SRow := bs.foldl (fun r p =>
        if p.1.toNode == j then mins r p.2 fpOne else if p.1.fromNode == j then mins r p.2 (fpNeg fpOne) else r) []
      (nodeBalance m x j (vget b j), row, vget b j))
  let els := bs.map (fun p =>
    let r := elemEval m p.1 (fpSub (vget x p.1.fromNode) (vget x p.1.toNode)) (vget x p.2)
    let row : SRow := mins (mins [(p.2, r.2.1.2.2)] p.1.fromNode r.2.1.1) p.1.toNode r.2.1.2.1
    (r.1, row, r.2.2))
  let all := nodes ++ els
  (all.map (fun t => t.1), all.map (fun t => t.2.1), all.map (fun t => t.2.2))

/-- The cold iterate of NEWTON_NET (R223). -/
def netCold (m : PrismModel) : List Fp :=
  let fs := m.elems.filter (fun e => e.kind == eFixp)
  let mean := if fs.isEmpty then 0 else fpDiv (fpSum 0 (fs.map (fun e => vget e.p 0))) (fpNat fs.length)
  List.replicate m.nodes mean ++ (branches m).map (fun b => if b.1.kind = 4 then substQc b.1.p else 0)

/-- Y of NEWTON_NET: net inflow supplied at each FIXP (R226). -/
def netY (m : PrismModel) (x : List Fp) : List Fp :=
  (m.elems.filter (fun e => e.kind == eFixp)).map (fun e => fpNeg (nodeBalance m x e.fromNode (vget (vec m 0) e.fromNode)))

/-! ### Factor and solve (R219, R221) -/

/-- What a factorisation leaves. -/
structure Factored where
  lower : List SRow := []
  upper : List SRow := []
  perturb : Nat := 0
  pivMin : Fp := fpInf
  /-- an all-zero row was met -/
  zeroRow : Bool := false

def rowGet (r : SRow) (j : Nat) : Fp := mget 0 r j

/-- Σ over eliminated columns k of l_ik u_kj, subtracted from `a`. -/
def elimSum (seed : Nat) (lrow : SRow) (upper : List SRow) (j : Nat) (a : Fp) : Fp :=
  fmaSum seed a (lrow.filterMap (fun l =>
    if l.1 < j then (match (upper.getD l.1 []).find? (fun e => e.1 == j) with
      | some u => some (fpNeg l.2, u.2)
      | none => none) else none))

/-- One row of the factor, in the new numbering, without row interchanges (R219). (DESIGN CHOICE, log entry 52.) -/
def factorRow (m : PrismModel) (seed : Nat) (pivEps : Fp) (rows : List SRow) (f : Factored) (i : Nat) : Factored :=
  let d := m.below.length
  let old := rows.getD (m.perm.getD i 0) []
  let at0 := fun j => rowGet old (m.perm.getD j 0)
  let lrow : SRow := ((List.range i).filter (fun j => (m.below.getD j []).contains i)).foldl (fun (acc : SRow) j =>
    let piv := rowGet (f.upper.getD j []) j
    let num := if isLu m then elimSum (seed + i * d + j) acc f.upper j (at0 j) else rowGet (f.upper.getD j []) i
    acc ++ [(j, fpDiv num piv)]) []
  let urow : SRow := (i :: m.below.getD i []).map (fun j => (j, elimSum (seed + i * d + j) lrow f.upper j (at0 j)))
  let norm := normInf (old.map (fun e => e.2))
  let piv := rowGet urow i
  let ratio := if fpIsZero norm then 0 else fpDiv (fpAbs piv) norm
  let lim := fpMul pivEps norm
  let small := fpLt (fpAbs piv) lim || fpIsZero norm
  let piv' := if small then (if fpSign piv && !(fpIsZero piv) then fpNeg lim else lim) else piv
  { lower := f.lower ++ [lrow], upper := f.upper ++ [mins urow i piv'],
    perturb := f.perturb + (if small then 1 else 0), pivMin := fpMin f.pivMin ratio,
    zeroRow := f.zeroRow || fpIsZero norm }

/-- FP64 operations of the model's numeric factor: a division for each entry below the diagonal, a fused multiply-add for
each update (R230). -/
def factorFlops (m : PrismModel) : Nat :=
  (m.below.map (fun c => c.length + (if isLu m then 2 * c.length * c.length else c.length * (c.length + 1)))).foldl (· + ·) 0

/-- FP64 operations of a forward and backward solve (R230). -/
def solveFlops (m : PrismModel) : Nat := 4 * (m.below.map List.length).foldl (· + ·) 0 + m.below.length

/-- FP64 operations of a residual (R230). -/
def residualFlops (rows : List SRow) : Nat := 2 * (rows.map List.length).foldl (· + ·) 0

/-- The stored values of a factor. -/
def factorVals (f : Factored) : List Fp :=
  f.lower.flatMap (fun w => w.map (fun e => e.2)) ++ f.upper.flatMap (fun w => w.map (fun e => e.2))

def factorOf (m : PrismModel) (seed : Nat) (pivEps : Fp) (rows : List SRow) : Factored :=
  (List.range m.below.length).foldl (factorRow m seed pivEps rows) {}

/-- Forward and backward solve with the resident factor, in original numbering. -/
def solveWith (m : PrismModel) (seed : Nat) (b : List Fp) : List Fp :=
  let d := m.perm.length
  let y := (List.range d).foldl (fun (acc : List Fp) i =>
    acc ++ [fmaSum (seed + i) (vget b (m.perm.getD i 0)) ((m.lower.getD i []).map (fun l => (fpNeg l.2, vget acc l.1)))]) []
  let piv := fun i => rowGet (m.upper.getD i []) i
  let x := (List.range d).reverse.foldl (fun (acc : AMap Fp) i =>
    let urow := (m.upper.getD i []).filter (fun u => decide (i < u.1))
    if isLu m then
      mins acc i (fpDiv (fmaSum (seed + d + i) (vget y i) (urow.map (fun u => (fpNeg u.2, mget 0 acc u.1)))) (piv i))
    else
      -- LDLᵀ: D first, then the transpose of L
      mins acc i (fmaSum (seed + d + i) (fpDiv (vget y i) (piv i))
        (urow.map (fun u => (fpNeg (rowGet (m.lower.getD u.1 []) i), mget 0 acc u.1))))) []
  (List.range d).map (fun old => mget 0 x (posOf m.perm old))

/-! ### KKT systems (R220, R223) -/

/-- The KKT matrix and its constraint diagonal −PIV_EPS × ‖K‖∞. -/
def kktRows (m : PrismModel) (top : List (Nat × Nat × Fp)) (pivEps : Fp) : List SRow :=
  let c := (matEntries m.mat1).map (fun e => (m.n + e.1, e.2.1, e.2.2))
  let d := m.n + m.mEq
  let k := rowsOf d (top ++ c ++ transposed c)
  let delta := fpNeg (fpMul pivEps (matNorm k))
  k.zipIdx.map (fun r => if m.n ≤ r.2 then mins r.1 r.2 delta else r.1)

/-- RECONCILE: [MᵀWM, Cᵀ; C, −δI] and [MᵀWm; B] (R223). -/
def reconcileSystem (m : PrismModel) (pivEps : Fp) : List SRow × List Fp :=
  let es := matEntries m.mat0
  let w := vec m 5
  let top := es.flatMap (fun a => (es.filter (fun b => b.1 == a.1)).map (fun b =>
    (a.2.1, b.2.1, fpMul (fpMul a.2.2 (vget w a.1)) b.2.2)))
  let rhs := (List.range m.n).map (fun j =>
    fmaSum j 0 ((es.filter (fun e => e.2.1 == j)).map (fun e => (fpMul e.2.2 (vget w e.1), vget (vec m 4) e.1))))
  (kktRows m top pivEps, rhs ++ vec m 0)

/-- m_i − (Mx)_i and Σ w r² (R226). -/
def reconcileY (m : PrismModel) (x : List Fp) : List Fp :=
  residualOf (rowsOf m.nMeas (matEntries m.mat0)) (vec m 4) x
def reconcileObj (m : PrismModel) (r : List Fp) : Fp := fmaSum 0 0 (r.zipIdx.map (fun p => (fpMul (vget (vec m 5) p.2) p.1, p.1)))

/-! ### The interior-point steps of QP_IPM (R220, R222, R223) -/

def qpH (m : PrismModel) : List SRow := rowsOf m.n (symmetric (matEntries m.mat0))
def qpA (m : PrismModel) : List SRow := rowsOf m.mEq (matEntries m.mat1)
def qpAt (m : PrismModel) : List SRow := rowsOf m.n (transposed (matEntries m.mat1))
def hasLo (m : PrismModel) (i : Nat) : Bool := fpFinite (vget (vec m 2) i)
def hasHi (m : PrismModel) (i : Nat) : Bool := fpFinite (vget (vec m 3) i)

/-- The cold x (R223). -/
def qpCold (m : PrismModel) : List Fp :=
  (List.range m.n).map (fun i =>
    let lo := vget (vec m 2) i
    let hi := vget (vec m 3) i
    match hasLo m i, hasHi m i with
    | true, true => fpMul (fpAdd lo hi) (fpRat 1 2)
    | true, false => fpMax 0 (fpAdd lo fpOne)
    | false, true => fpMin 0 (fpSub hi fpOne)
    | false, false => 0)

/-- A warm x is moved inside its bounds (R223). -/
def qpWarm (m : PrismModel) (x : List Fp) : List Fp :=
  (List.range m.n).map (fun i =>
    let lo := vget (vec m 2) i
    let hi := vget (vec m 3) i
    let d := if hasLo m i && hasHi m i then fpMul (fpRat 1 100) (fpSub hi lo) else fpOne
    let v := if hasLo m i then fpMax (vget x i) (fpAdd lo d) else vget x i
    if hasHi m i then fpMin v (fpSub hi d) else v)

/-- f(x) = ½ xᵀHx + cᵀx. -/
def qpObj (m : PrismModel) (x : List Fp) : Fp :=
  let hx := matVec (qpH m) x
  fmaSum 1 (fmaSum 0 0 (x.zipIdx.map (fun p => (fpMul (fpRat 1 2) p.1, vget hx p.2)))) (x.zipIdx.map (fun p => (p.1, vget (vec m 1) p.2)))

/-- Slacks to the bounds. -/
def slackLo (m : PrismModel) (x : List Fp) (i : Nat) : Fp := fpSub (vget x i) (vget (vec m 2) i)
def slackHi (m : PrismModel) (x : List Fp) (i : Nat) : Fp := fpSub (vget (vec m 3) i) (vget x i)

/-- μ: complementarity over the number of finite bounds (R222). -/
def qpMu (m : PrismModel) (x zl zu : List Fp) : Fp :=
  let ts := (List.range m.n).flatMap (fun i =>
    (if hasLo m i then [(vget zl i, slackLo m x i)] else []) ++ (if hasHi m i then [(vget zu i, slackHi m x i)] else []))
  if ts.isEmpty then 0 else fpDiv (fmaSum 0 0 ts) (fpNat ts.length)

/-- Dual residual Hx + c + Aᵀy − zl + zu, and primal Ax − b. -/
def qpDual (m : PrismModel) (x y zl zu : List Fp) : List Fp :=
  let hx := matVec (qpH m) x
  let ay := matVec (qpAt m) y
  (List.range m.n).map (fun i =>
    fpSum i [vget hx i, vget (vec m 1) i, vget ay i, (if hasLo m i then fpNeg (vget zl i) else 0), (if hasHi m i then vget zu i else 0)])
def qpPrimal (m : PrismModel) (x : List Fp) : List Fp := (residualOf (qpA m) (vec m 0) x).map fpNeg

/-- The three ratios of R222. -/
def qpRatios (m : PrismModel) (x y zl zu : List Fp) : Fp × Fp × Fp :=
  let both := (qpH m).zipIdx.map (fun r => r.1 ++ ((qpAt m).getD r.2 []).map (fun e => (m.n + e.1, e.2)))
  (rhoOf (qpA m) x (vec m 0) (qpPrimal m x), rhoOf both (x ++ y) (vec m 1) (qpDual m x y zl zu),
    fpDiv (qpMu m x zl zu) (fpAdd fpOne (fpAbs (qpObj m x))))

/-- The KKT matrix [H + Z/S, Aᵀ; A, −δI]. -/
def qpKkt (m : PrismModel) (pivEps : Fp) (x zl zu : List Fp) : List SRow :=
  let d := (List.range m.n).flatMap (fun i =>
    (if hasLo m i then [(i, i, fpDiv (vget zl i) (slackLo m x i))] else []) ++
      (if hasHi m i then [(i, i, fpDiv (vget zu i) (slackHi m x i))] else []))
  kktRows m (symmetric (matEntries m.mat0) ++ d) pivEps

/-- Right side for the complementarity targets `tl` and `tu`. (PRESUMED, log entry 55.) -/
def qpRhs (m : PrismModel) (x y zl zu tl tu : List Fp) : List Fp :=
  let rd := qpDual m x y zl zu
  (List.range m.n).map (fun i => fpSum i [fpNeg (vget rd i),
      (if hasLo m i then fpSub (fpDiv (vget tl i) (slackLo m x i)) (vget zl i) else 0),
      (if hasHi m i then fpSub (vget zu i) (fpDiv (vget tu i) (slackHi m x i)) else 0)]) ++
    (qpPrimal m x).map fpNeg

/-- Steps of the bound multipliers for dx. -/
def qpDzl (m : PrismModel) (x zl tl dx : List Fp) : List Fp :=
  (List.range m.n).map (fun i => if hasLo m i then
    fpSub (fpDiv (fpFma (fpNeg (vget zl i)) (vget dx i) (vget tl i)) (slackLo m x i)) (vget zl i) else 0)
def qpDzu (m : PrismModel) (x zu tu dx : List Fp) : List Fp :=
  (List.range m.n).map (fun i => if hasHi m i then
    fpSub (fpDiv (fpFma (vget zu i) (vget dx i) (vget tu i)) (slackHi m x i)) (vget zu i) else 0)

/-- The largest step that keeps values positive, times `frac`, at most 1. -/
def maxStep (frac : Fp) (ps : List (Fp × Fp)) : Fp :=
  ps.foldl (fun a p => if fpLt p.2 0 then fpMin a (fpMul frac (fpDiv (fpNeg p.1) p.2)) else a) fpOne

def qpAlphas (m : PrismModel) (frac : Fp) (x zl zu dx dzl dzu : List Fp) : Fp × Fp :=
  let is := List.range m.n
  (maxStep frac (is.flatMap (fun i => (if hasLo m i then [(slackLo m x i, vget dx i)] else []) ++
      (if hasHi m i then [(slackHi m x i, fpNeg (vget dx i))] else []))),
   maxStep frac (is.flatMap (fun i => (if hasLo m i then [(vget zl i, vget dzl i)] else []) ++
      (if hasHi m i then [(vget zu i, vget dzu i)] else []))))

def axpy (a : Fp) (dx x : List Fp) : List Fp := x.zipIdx.map (fun p => fpFma a (vget dx p.2) p.1)

/-- Complementarity targets of the corrector: σμ − Δx_aff Δz_aff, with σ = (μ_aff / μ)³ (R223). (PRESUMED, log entry 55.) -/
def qpTargets (m : PrismModel) (x zl zu aff : List Fp) : List Fp × List Fp :=
  let z0 := List.replicate m.n (0 : Fp)
  let dx := aff.take m.n
  let dzl := qpDzl m x zl z0 dx
  let dzu := qpDzu m x zu z0 dx
  let a := qpAlphas m fpOne x zl zu dx dzl dzu
  let mu := qpMu m x zl zu
  let muA := qpMu m (axpy a.1 dx x) (axpy a.2 dzl zl) (axpy a.2 dzu zu)
  let r := if fpIsZero mu then 0 else fpDiv muA mu
  let sm := fpMul (fpMul r (fpMul r r)) mu
  ((List.range m.n).map (fun i => fpFma (fpNeg (vget dx i)) (vget dzl i) sm),
   (List.range m.n).map (fun i => fpFma (vget dx i) (vget dzu i) sm))

end Sys2Proof.Machine
end

