-- ==== Sys2Proof/Machine/Prism.lean ====
section
/-!
DEFINITION. Prism, the network solver engine (R197-R237, R545): model slots and loads, the job ring and queue, the
order of execution, segments, publishing and completion records.
-/

namespace Sys2Proof.Machine

/-! ### State and registers -/

def setPrism (s : State) (f : Prism → Prism) : State := { s with prism := f s.prism }
def pslot (s : State) (k : Nat) : PrismSlot := mget {} s.prism.slots k
def setPslot (s : State) (k : Nat) (f : PrismSlot → PrismSlot) : State :=
  setPrism s (fun p => { p with slots := mput {} p.slots k (f (pslot s k)) })

/-- PRISM_SLOT_STAT.STATE values. -/
def slotEmpty : Nat := 0
def slotLoading : Nat := 1
def slotReady : Nat := 2
def slotFailed : Nat := 3
def slotState (s : State) (k : Nat) : Nat := fld s (Reg.PRISM_SLOT_STAT k) F.PRISM_SLOT_STAT_STATE

/-- Job STATUS values (R230). -/
def jOk : Nat := 0
def jCap : Nat := 1
def jNonfinite : Nat := 2
def jFault : Nat := 3
def jCancelled : Nat := 4

def jobRunning (j : PrismJob) : Bool := j.state == .running
def jobEnded (j : PrismJob) : Bool := match j.state with | .ended _ _ _ => true | _ => false
def runningJob (s : State) : Option PrismJob := s.prism.jobs.find? jobRunning
def prismHalted (s : State) : Bool := flag s Reg.PRISM_STAT F.PRISM_STAT_HALTED
def prismEn (s : State) : Bool := pageEn s 0x60

/-- Jobs held in the queue: those whose records firmware has not passed (R215). (DEDUCED, log entry 53.) -/
def heldJobs (s : State) : List (Nat × Nat) := s.prism.jobs.map (fun j => (j.slot, j.cls)) ++ s.prism.unread

/-- The effective class of a slot: the lowest CLASS among its jobs held in the queue (R215, R216). (DEDUCED, log entry 53.) -/
def effClass (s : State) (k : Nat) : Nat :=
  (((heldJobs s).filter (fun j => j.1 == k)).map (fun j => j.2)).foldl min 3

/-- An ended job whose record may be written: no job of its slot accepted before it is left (R216). -/
def recordReady (s : State) (j : PrismJob) : Bool :=
  jobEnded j && s.prism.jobs.all (fun x => x.slot != j.slot || decide (j.seq ≤ x.seq))

/-- PSQ and the record writer work: the clock runs and the engine is not halted (R232). -/
def psqRuns (s : State) : Bool := domainUp s 2 && !(prismHalted s)

/-- PRISM_STAT and the slots' QUEUED follow the queue. -/
def prismSync (s : State) : State :=
  let s := setFld s Reg.PRISM_STAT F.PRISM_STAT_QUEUED (heldJobs s).length
  let s := (List.range 8).foldl (fun s k =>
    setFld s (Reg.PRISM_SLOT_STAT k) F.PRISM_SLOT_STAT_QUEUED ((heldJobs s).filter (fun x => x.1 == k)).length) s
  match runningJob s with
  | some j => setFld (setFld (setFlag s Reg.PRISM_STAT F.PRISM_STAT_BUSY true) Reg.PRISM_STAT F.PRISM_STAT_RUN_SLOT j.slot)
      Reg.PRISM_STAT F.PRISM_STAT_RUN_CLASS (effClass s j.slot)
  | none => setFlag s Reg.PRISM_STAT F.PRISM_STAT_BUSY false

/-- PRISM_FNZ_USED: factor non-zeros of LOADING and READY slots; a load's are known once its step 5 has found them. (DEDUCED, log entry 92.) -/
def fnzUsed (s : State) : Nat :=
  (List.range 8).foldl (fun n k =>
    if slotState s k = slotReady ∨ (slotState s k = slotLoading ∧ (pslot s k).load = some 6) then
      n + fld s (Reg.PRISM_SLOT_FNZ k) F.PRISM_SLOT_DIM_COUNT
    else n) 0
def fnzSync (s : State) : State := setFld s Reg.PRISM_FNZ_USED F.PRISM_FNZ_USED_FNZ (fnzUsed s)

/-- Record a fault (R232). -/
def prismFault (s : State) (cause path slot va : Nat) : State :=
  let s := wrn s Reg.PRISM_FLT_CAUSE (cause + 16 * path + 256 * slot)
  raise (wr64 s Reg.PRISM_FLT_VA_LO Reg.PRISM_FLT_VA_HI (va % 2 ^ 40)) 0x60 1

/-- Prism halts (R232). -/
def prismHalt (s : State) : State := setFlag s Reg.PRISM_STAT F.PRISM_STAT_HALTED true

/-- Replace a job, by its acceptance number. -/
def setJob (s : State) (seq : Nat) (f : PrismJob → PrismJob) : State :=
  setPrism s (fun p => { p with jobs := p.jobs.map (fun j => if j.seq = seq then f j else j) })

/-- A job ends; its record is to be written. (DEDUCED, log entry 53.) -/
def endJob (s : State) (seq status cause gen : Nat) : State :=
  let n := s.prism.nextSeq
  let s := setPrism s (fun p => { p with nextSeq := n + 1 })
  let s := setJob s seq (fun j => { j with state := .ended status cause gen, endSeq := n })
  prismSync (if status = jCap ∨ status = jNonfinite then raise s 0x60 2 else s)

/-! ### Enable, reset, lanes (R201) -/

/-- PSTAT.ENABLED follows EN, and drops once the running job's record has been written; then the lanes sleep. -/
def prismQuiet (s : State) : State :=
  if prismEn s then setFlag s (Reg.PSTAT 0x60) F.PSTAT_ENABLED true
  else if (runningJob s).isSome || s.prism.jobs.any (recordReady s) then s
  else setFld (setFlag s (Reg.PSTAT 0x60) F.PSTAT_ENABLED false) Reg.PRISM_STAT F.PRISM_STAT_AWAKE 0

/-- A load ends in FAILED with a code. -/
def loadFail (s : State) (k code : Nat) : State :=
  let s := setPslot s k (fun p => { p with load := none })
  let s := setFld (setFld s (Reg.PRISM_SLOT_STAT k) F.PRISM_SLOT_STAT_STATE slotFailed) (Reg.PRISM_SLOT_STAT k) F.PRISM_SLOT_STAT_LOAD_ERR code
  raise (fnzSync s) 0x60 3

/-- EN of page 0x060 changes (R201). (DEDUCED, log entry 92.) -/
def prismEnable (s : State) (en : Bool) : State :=
  if en then
    let s := setFld s Reg.PRISM_STAT F.PRISM_STAT_AWAKE 0
    setFlag (setPrism s (fun p => { p with wakeAt := s.now })) (Reg.PSTAT 0x60) F.PSTAT_ENABLED true
  else
    let s := (List.range 8).foldl (fun s k => if (pslot s k).load.isSome then loadFail s k 7 else s) s
    prismQuiet (setPrism s (fun p => { p with jobs := p.jobs.map (fun j => if j.state = .running then { j with cancel := true } else j) }))

/-- PCTL.SRST: every slot EMPTY and the queue empty (R232). The registers are reset by the page. -/
def prismReset (s : State) : State := setPrism s (fun _ => {})

/-- PCTL.SRST of a slot's page: the slot is EMPTY. (DESIGN CHOICE, log entry 22.) -/
def prismSlotReset (k : Nat) (s : State) : State := fnzSync (prismSync (setPslot s k (fun _ => {})))

/-- LANE_GROUP_WAKE (R45, R201, R203). -/
def execLaneGroupWake (s : State) : Result :=
  let n := fld s Reg.PRISM_STAT F.PRISM_STAT_AWAKE
  let s1 := setFld (setPrism s (fun p => { p with wakeAt := s.now + 10 * vcoUs })) Reg.PRISM_STAT F.PRISM_STAT_AWAKE (n + 1)
  whenDue (prismEn s && domainUp s 2 && decide (n < 4) && decide (s.prism.wakeAt ≤ s.now)) s (if n + 1 = 4 then raise s1 0x60 4 else s1)

/-! ### Loading (R204-R208) -/

def slotBase (s : State) (k : Nat) : Nat := fld s (Reg.PRISM_SLOT_MEM k) F.PRISM_SLOT_MEM_BASE
def slotLen (s : State) (k : Nat) : Nat := fld s (Reg.PRISM_SLOT_MEM k) F.PRISM_SLOT_MEM_LEN

/-- The area of a slot about to load keeps R197. -/
def areaOk (s : State) (k : Nat) : Bool :=
  let b := slotBase s k
  let e := b + slotLen s k
  decide (slotLen s k ≠ 0) && decide (e ≤ 240) && (List.range 8).all (fun i => i == k || slotState s i == slotEmpty ||
    decide (e ≤ slotBase s i) || decide (slotBase s i + slotLen s i ≤ b))

/-- A write of PRISM_SLOT_CMD. -/
def slotCommand (ini : Fin 16) (k : Nat) (extra : Option Nat) (s : State) (f : State → State) : Result :=
  softWrite ini (0x62 + k) 0x40 extra s f

/-- LOAD (R197, R205, R206). -/
def execPrismLoad (ini : Fin 16) (slot : Fin 8) (ctx : Fin 64) (s : State) : Result :=
  let k := slot.val
  slotCommand ini k ((errIf (slotState s k != slotEmpty) 206).orElse (fun _ => errIf (!(areaOk s k)) 197)) s (fun s =>
    let va := rdn s (Reg.PRISM_SLOT_DESC_LO k) + 2 ^ 32 * (rdn s (Reg.PRISM_SLOT_DESC_HI k) % 256)
    let s := setPslot s k (fun _ => { load := some 1, loadCtx := ctx.val, named := [(va, 256)] })
    let s := setFld s (Reg.PRISM_SLOT_STAT k) F.PRISM_SLOT_STAT_STATE slotLoading
    setFld (setFlag s (Reg.PRISM_SLOT_STAT k) F.PRISM_SLOT_STAT_HAS_FACTOR false) (Reg.PRISM_SLOT_STAT k) F.PRISM_SLOT_STAT_LOAD_ERR 0)

/-- UNLOAD (R206). -/
def execPrismUnload (ini : Fin 16) (slot : Fin 8) (s : State) : Result :=
  let k := slot.val
  let st := slotState s k
  slotCommand ini k (errIf (!(st == slotReady || st == slotFailed) ||
      fld s (Reg.PRISM_SLOT_STAT k) F.PRISM_SLOT_STAT_QUEUED != 0) 206) s (fun s =>
    let s := setPslot s k (fun _ => {})
    fnzSync (setFlag (setFld (setFld s (Reg.PRISM_SLOT_STAT k) F.PRISM_SLOT_STAT_STATE slotEmpty)
      (Reg.PRISM_SLOT_STAT k) F.PRISM_SLOT_STAT_LOAD_ERR 0) (Reg.PRISM_SLOT_STAT k) F.PRISM_SLOT_STAT_HAS_FACTOR false))

/-- Little-endian fields of a byte list. -/
def bRd (bs : List Byte) (off n : Nat) : Nat := leNat ((bs.drop off).take n)
def bFp (bs : List Byte) (off : Nat) : Fp := BitVec.ofNat 64 (bRd bs off 8)
def nats (sz : Nat) (bs : List Byte) : List Nat := (List.range (bs.length / sz)).map (fun k => bRd bs (sz * k) sz)
def fps (bs : List Byte) : List Fp := (nats 8 bs).map (BitVec.ofNat 64)

/-- Result of an import: a fault, or what was read. -/
abbrev Import (α : Type) := (AccFault ⊕ α) × State

/-- Import bytes for a load or a job. -/
def pimport (s : State) (ctx va n : Nat) : Import (List Byte) := vread s 2 ctx 0 va n

/-- Import a matrix by its 32-byte reference (R204). -/
def importMat (s : State) (ctx cols : Nat) (r : List Byte) : Import PrismMat :=
  let nnz := bRd r 0x18 4
  let p := pimport s ctx (bRd r 0 8) (4 * (cols + 1))
  match p.1 with
  | .inl f => (.inl f, p.2)
  | .inr ptr =>
    let i := pimport p.2 ctx (bRd r 8 8) (4 * nnz)
    match i.1 with
    | .inl f => (.inl f, i.2)
    | .inr idx =>
      let v := pimport i.2 ctx (bRd r 16 8) (8 * nnz)
      match v.1 with
      | .inl f => (.inl f, v.2)
      | .inr val => (.inr { rows := bRd r 0x1C 4, cols := cols, ptr := nats 4 ptr, idx := nats 4 idx, val := fps val }, v.2)

/-- Import one vector, or its default (R212). -/
def importVec (ctx : Nat) (desc : List Byte) (m : PrismModel) (st : Import (List (List Fp))) (id : Nat) : Import (List (List Fp)) :=
  match st.1 with
  | .inl _ => st
  | .inr vs =>
    let va := bRd desc (0x80 + 8 * id) 8
    let n := vecLen m id
    if va = 0 ∨ n = 0 then (.inr (vs ++ [List.replicate n (vecDefault id)]), st.2)
    else
      let r := pimport st.2 ctx va (8 * n)
      match r.1 with
      | .inl f => (.inl f, r.2)
      | .inr bs => (.inr (vs ++ [fps bs]), r.2)

/-- Elements of a table (R209). A field takes the reserved bytes after it with it, so that one that is not zero breaks its range. -/
def elemsOf (bs : List Byte) : List PrismElem :=
  (List.range (bs.length / 64)).map (fun k =>
    let e := (bs.drop (64 * k)).take 64
    { kind := bRd e 0 4, fromNode := bRd e 4 4, toNode := bRd e 8 8, p := (List.range 6).map (fun i => bFp e (16 + 8 * i)) })

/-- The fields of a model descriptor itself (R204). -/
def modelHead (d : List Byte) : PrismModel := {
  kind := bRd d 6 1
  order := bRd d 7 1
  n := bRd d 8 4
  mEq := bRd d 0x0C 4
  nMeas := bRd d 0x10 4
  nodes := bRd d 0x18 4
  rho := bFp d 0xC0
  nu := bFp d 0xC8 }

/-- The virtual ranges a descriptor names (R204, R205); the length of a permutation of a network is known once its elements are. -/
def namedRanges (d : List Byte) (m : PrismModel) : List (Nat × Nat) :=
  let mat := fun (o : Nat) => [(bRd d o 8, 4 * (m.n + 1)), (bRd d (o + 8) 8, 4 * bRd d (o + 24) 4), (bRd d (o + 16) 8, 8 * bRd d (o + 24) 4)]
  (if m.kind = kNetwork then [(bRd d 0x68 8, 64 * bRd d 0x14 4)] else mat 0x20) ++
    (if m.kind = kQp ∨ m.kind = kReconcile then mat 0x40 else []) ++
    (if m.order = 1 then [(bRd d 0x60 8, 4 * sysDim m)] else []) ++ (if m.order = 2 then [(bRd d 0x70 8, 4 * bRd d 0x1C 4)] else []) ++
    ((List.range 6).filter (fun i => bRd d (0x80 + 8 * i) 8 != 0)).map (fun i => (bRd d (0x80 + 8 * i) 8, 8 * vecLen m i))

/-- Import of everything a descriptor names (R205 step 2). -/
def importModel (s : State) (ctx : Nat) (d : List Byte) : Import PrismModel :=
  let kind := bRd d 6 1
  let m0 := modelHead d
  let a : Import PrismMat := if kind = kNetwork then (.inr {}, s) else importMat s ctx m0.n ((d.drop 0x20).take 32)
  match a.1 with
  | .inl f => (.inl f, a.2)
  | .inr mat0 =>
    let b : Import PrismMat := if kind = kQp ∨ kind = kReconcile then importMat a.2 ctx m0.n ((d.drop 0x40).take 32) else (.inr {}, a.2)
    match b.1 with
    | .inl f => (.inl f, b.2)
    | .inr mat1 =>
      let e := pimport b.2 ctx (bRd d 0x68 8) (if kind = kNetwork then 64 * bRd d 0x14 4 else 0)
      match e.1 with
      | .inl f => (.inl f, e.2)
      | .inr ebs =>
        let m1 := { m0 with mat0 := mat0, mat1 := mat1, elems := elemsOf ebs }
        let p := pimport e.2 ctx (bRd d 0x60 8) (if m0.order = 1 then 4 * sysDim m1 else 0)
        match p.1 with
        | .inl f => (.inl f, p.2)
        | .inr pbs =>
          let g := pimport p.2 ctx (bRd d 0x70 8) (if m0.order = 2 then 4 * bRd d 0x1C 4 else 0)
          match g.1 with
          | .inl f => (.inl f, g.2)
          | .inr gbs =>
            let v := (List.range 6).foldl (importVec ctx d m1) (.inr [], g.2)
            match v.1 with
            | .inl f => (.inl f, v.2)
            | .inr vs => (.inr { m1 with supplied := nats 4 pbs, stages := nats 4 gbs, vecs := vs }, v.2)

/-- Strictly rising. -/
def rising : List Nat → Bool
  | a :: b :: r => decide (a < b) && rising (b :: r)
  | _ => true

/-- Never falling. -/
def notFalling : List Nat → Bool
  | a :: b :: r => decide (a ≤ b) && notFalling (b :: r)
  | _ => true

/-- A matrix that breaks R204 or R212: its rows, its column pointers, its row indices, a value that is not finite. -/
def matErr (rows : Nat) (lower : Bool) (a : PrismMat) : Bool :=
  a.rows != rows || a.ptr.head? != some 0 || a.ptr.getLast? != some a.idx.length || !(notFalling a.ptr) || !(allFinite a.val) ||
    (a.ptr.zip (a.ptr.drop 1)).zipIdx.any (fun e =>
      let col := (a.idx.drop e.1.1).take (e.1.2 - e.1.1)
      !(rising col) || col.any (fun r => decide (rows ≤ r) || (lower && decide (r < e.2))))

/-- The descriptor fields a load must not break (R204). -/
def modelDescErr (d : List Byte) (m : PrismModel) : Bool :=
  decide (4 < m.kind) || decide (2 < m.order) || bRd d 0x78 8 != 0 || bRd d 0xB0 16 != 0 || bRd d 0xD0 48 != 0 ||
    (m.kind != kQp && m.kind != kReconcile && bRd d 0x40 32 != 0) ||
    (m.kind == kNetwork && bRd d 0x14 4 == 0) ||
    (m.order == 1 && !((List.range (sysDim m)).all (fun k => m.supplied.contains k))) ||
    (m.order == 2 && (m.stages.isEmpty || decide (4096 < m.stages.length) || m.stages.foldl (· + ·) 0 != sysDim m)) ||
    (m.kind != kNetwork && matErr (if m.kind = kReconcile then m.nMeas else m.n) (m.kind == kSymmetric || m.kind == kQp) m.mat0) ||
    ((m.kind == kQp || m.kind == kReconcile) && matErr m.mEq false m.mat1)

/-- An element breaks R209 or R210. -/
def elemErr (m : PrismModel) (e : PrismElem) : Bool :=
  let p := fun k => e.p.getD k 0
  e.kind == 0 || decide (5 < e.kind) || decide (m.nodes ≤ e.fromNode) ||
    (if e.kind = eFixp then e.toNode != 0xFFFFFFFF || decide (1 < (m.elems.filter (fun x => x.kind == eFixp && x.fromNode == e.fromNode)).length)
     else decide (m.nodes ≤ e.toNode) || e.fromNode == e.toNode) ||
    (e.kind == eValve && (!(fpLe 0 (p 1) && fpLe (p 1) fpOne) || !(fpIsZero (p 2) || fpLt fpOne (p 2)) ||
      !(fpLt 0 (p 3) && fpLe (p 3) fpOne) || !(fpLt 0 (p 4)))) ||
    (e.kind == eSubst && !(fpLt 0 (p 3)))

/-- An input breaks R212: LO may hold −∞ and HI +∞, a weight is greater than 0, and every other input is finite. -/
def inputErr (m : PrismModel) : Bool :=
  m.vecs.zipIdx.any (fun v => v.1.any (fun x => !(fpFinite x || (v.2 == 2 && x == fpNeg fpInf) || (v.2 == 3 && x == fpInf)) ||
      (v.2 == 5 && !(fpLt 0 x)))) ||
    m.elems.any (fun e => !(allFinite e.p)) || (m.kind == kNetwork && !(allFinite [m.rho, m.nu]))

/-- The descriptor fields, elements and inputs a load must not break (R204, R205, R209, R210, R212). -/
def modelErr (d : List Byte) (m : PrismModel) : Option Nat :=
  (errIf (modelDescErr d m) 204).orElse (fun _ => (errIf (m.kind == kNetwork && m.elems.any (elemErr m)) 209).orElse (fun _ => errIf (inputErr m) 212))

/-- A load's import fault (R205, R232): code 0x05, or 0x06 for an uncorrectable error. (DEDUCED, log entry 54.) -/
def loadFault (s : State) (k : Nat) (f : AccFault) (path : Nat) : State :=
  loadFail (prismFault s f.1 path k f.2) k (if f.1 = 3 then 6 else 5)

/-- The result area of a slot: context and virtual address. -/
def outCtx (s : State) (k : Nat) : Nat := fld s (Reg.PRISM_SLOT_OUT_HI k) F.PRISM_SLOT_OUT_HI_OUT_CTX
def outVa (s : State) (k : Nat) : Nat :=
  rdn s (Reg.PRISM_SLOT_OUT_LO k) + 2 ^ 32 * fld s (Reg.PRISM_SLOT_OUT_HI k) F.PRISM_SLOT_OUT_HI_VA_HI

/-- One load step (R205). -/
def loadStepAt (s : State) (k step : Nat) : State :=
  let sl := pslot s k
  let go := fun (s : State) (f : PrismSlot → PrismSlot) => setPslot s k (fun p => { f p with load := some (step + 1) })
  if step = 1 then
    let va := rdn s (Reg.PRISM_SLOT_DESC_LO k) + 2 ^ 32 * (rdn s (Reg.PRISM_SLOT_DESC_HI k) % 256)
    let r := pimport s sl.loadCtx va 256
    match r.1 with
    | .inl f => loadFault r.2 k f 5
    | .inr d => if bRd d 0 4 ≠ 0x504D4431 ∨ bRd d 4 2 ≠ 1 then loadFail r.2 k 1 else go r.2 (fun p => { p with desc := d, named := (va, 256) :: namedRanges d (modelHead d) })
  else if step = 2 then
    let r := importModel s sl.loadCtx sl.desc
    match r.1 with
    | .inl f => loadFault r.2 k f 5
    | .inr m => go r.2 (fun p => { p with model := m, named := p.named.take 1 ++ namedRanges p.desc m })
  else if step = 3 then
    let m := { sl.model with pattern := sysPattern sl.model }
    let d := sysDim m
    let s1 := setFld s (Reg.PRISM_SLOT_DIM k) F.PRISM_SLOT_DIM_COUNT d
    if 131072 < d ∨ (m.kind = kNetwork ∧ 8192 < m.elems.length) then loadFail s1 k 2
    else go s1 (fun p => { p with model := m })
  else if step = 4 then
    let f := fresh s
    go f.2 (fun p => { p with model := { p.model with perm := orderOf p.model (Config.freeNat f.1) } })
  else if step = 5 then
    let f := fresh s
    let m := { sl.model with below := belowOf sl.model }
    let m := { m with snodes := min 1 (sysDim m) + Config.freeNat f.1 % max 1 (sysDim m) }
    let used := fnzUsed f.2
    let s1 := wrn f.2 (Reg.PRISM_SLOT_NEED k) (needOf m)
    let s2 := setFld (setFld s1 (Reg.PRISM_SLOT_FNZ k) F.PRISM_SLOT_DIM_COUNT (fnzOf m)) (Reg.PRISM_SLOT_SNODE k) ⟨0, 18⟩ m.snodes
    if 1572864 < used + fnzOf m then loadFail s2 k 3
    else if slotLen s k < needOf m then loadFail s2 k 4
    else fnzSync (go s2 (fun p => { p with model := m }))
  else
    let s1 := wr64 s (Reg.PRISM_SLOT_SIG_LO k) (Reg.PRISM_SLOT_SIG_HI k) (signatureOf sl.model)
    -- the header: the PUB word of generation 0 and the reserved bytes (R225)
    let w := vwrite s1 2 (outCtx s k) 0 (outVa s k) (leBytes 64 0)
    match w.1 with
    | some f => loadFault w.2 k f 4
    | none =>
      let s2 := setPslot (wrn w.2 (Reg.PRISM_SLOT_PUB k) 0) k (fun p => { p with load := none, pubB := false })
      raise (fnzSync (setFld s2 (Reg.PRISM_SLOT_STAT k) F.PRISM_SLOT_STAT_STATE slotReady)) 0x60 3

/-- A job of R216 can start or resume: the oldest unended job of each slot, not running. -/
def candidates (s : State) : List PrismJob :=
  (List.range 8).filterMap (fun k =>
    match s.prism.jobs.find? (fun j => j.slot == k && !(jobEnded j)) with
    | some j => if jobRunning j then none else some j
    | none => none)

/-- The choice of R216 among the slots `ok` admits. -/
def choose (s : State) (ok : Nat → Bool) : Option PrismJob :=
  ((candidates s).filter (fun j => ok j.slot)).foldl (fun b j => match b with
    | none => some j
    | some c => if effClass s j.slot * 2 ^ 40 + j.seq < effClass s c.slot * 2 ^ 40 + c.seq then some j else some c) none

/-- PSQ is free: nothing runs, and the previous job's record has been written (R227). -/
def psqFree (s : State) : Bool :=
  (runningJob s).isNone && !(s.prism.jobs.any (recordReady s)) && prismEn s && psqRuns s && !(held s)

/-- The slot whose load step comes next. (DEDUCED, log entry 53.) -/
def nextLoad (s : State) : Option (Nat × Nat) :=
  ((List.range 8).filterMap (fun k => ((pslot s k).load).map (fun n => (k, n)))).head?

/-- Words of an area of PrismRAM with an uncorrectable error, in address order. -/
def areaUe (s : State) (a n : Nat) : Option Nat := ((eccIn s a n).filter (ueAt s)).head?

/-- A PrismRAM error that a segment or load step met, and whether in the staging area: whether it reads the failing word is
not stated, so the choice is free. (DEDUCED, log entry 54.) -/
def prismRamHit (s : State) (k : Nat) : Option (Nat × Bool) × State :=
  match areaUe s 0x30F00000 0x100000, areaUe s (0x30000000 + 65536 * slotBase s k) (65536 * slotLen s k) with
  | none, none => (none, s)
  | some w, _ => let f := fresh s; (if Config.freeBool f.1 then some (w, true) else none, f.2)
  | none, some w => let f := fresh s; (if Config.freeBool f.1 then some (w, false) else none, f.2)

/-- LOAD_STEP (R199, R200, R204, R205, R207, R208, R212, R232). -/
def execLoadStep (s : State) : Result :=
  match nextLoad s with
  | none => .next s
  | some (k, n) =>
    if psqFree s && (candidates s).isEmpty then
      let hit := prismRamHit s k
      match hit.1 with
      | some (w, _) => .next (loadFault (recordUe hit.2 w 9 ueRead) k (3, w) 6)
      | none => check (if n = 3 then modelErr (pslot s k).desc (pslot s k).model else none) (settle s (loadStepAt hit.2 k n))
    else .next s

/-! ### Ring and queue (R214, R215) -/

/-- PRISM_CQ_HEAD_WRITE (R215): the jobs whose records the index passes leave the queue. -/
def execPrismCqHeadWrite (ini : Fin 16) (value : Word) (s : State) : Result :=
  softWrite ini 0x61 0x48 (errIf (decide (128 ≤ value.toNat)) 37) s (fun s =>
    let n := (value.toNat + 128 - fld s Reg.PRISM_CQ_HEAD F.PRISM_CQ_HEAD_IDX) % 128
    prismSync (setPrism (wr s Reg.PRISM_CQ_HEAD value) (fun p => { p with unread := p.unread.drop n })))

/-- A job of a ring descriptor (R214). -/
def jobOf (d : List Byte) (seq now : Nat) : PrismJob := {
  seq := seq
  type := bRd d 0 1
  slot := bRd d 1 1
  cls := bRd d 2 1
  flags := bRd d 3 1
  ctx := bRd d 4 1
  irMax := bRd d 5 1
  iterMax := bRd d 6 1
  tag := bRd d 8 4
  deltaCnt := bRd d 12 4
  deltaVa := bRd d 16 8
  wsVa := bRd d 24 8
  bestVa := bRd d 32 8
  rtol := bFp d 0x30
  pivEps := bFp d 0x38
  acceptedAt := now }

def jobWs (j : PrismJob) : Bool := j.flags.testBit 0
def jobBest (j : PrismJob) : Bool := j.flags.testBit 1

/-- The model kinds a job type takes (R214). -/
def typeFits (type kind : Nat) : Bool :=
  ((type == 1 || type == 5) && (kind == kGeneral || kind == kSymmetric)) || (type == 2 && kind == kNetwork) ||
    (type == 3 && kind == kQp) || (type == 4 && kind == kReconcile)

/-- The descriptor breaks R214. -/
def jobErr (s : State) (d : List Byte) (j : PrismJob) : Bool :=
  decide (7 < j.slot) || slotState s j.slot != slotReady || !(typeFits j.type (pslot s j.slot).model.kind) ||
    decide (3 < j.cls) || decide (3 < j.flags) || decide (63 < j.ctx) || j.irMax == 0 || decide (15 < j.irMax) ||
    (if j.type = 2 ∨ j.type = 3 then j.iterMax == 0 else j.iterMax != 0) || decide (65536 < j.deltaCnt) ||
    j.deltaVa % 16 != 0 || (jobWs j && (j.wsVa % 64 != 0 || j.type == 1 || j.type == 4)) || (jobBest j && j.bestVa % 64 != 0) ||
    !(fpLe (fpRat 1 (2 ^ 50)) j.rtol && fpLt j.rtol fpOne) || !(fpLe (fpRat 1 (2 ^ 52)) j.pivEps && fpLe j.pivEps (fpRat 1 1024)) ||
    bRd d 7 1 != 0 || bRd d 0x28 8 != 0 || bRd d 0x40 64 != 0

/-- The length of X and of Y in a result of a model (R226). -/
def lenX (m : PrismModel) : Nat := if m.kind = kQp ∨ m.kind = kReconcile then m.n else sysDim m
def lenY (m : PrismModel) : Nat :=
  if m.kind = kQp then m.mEq else if m.kind = kReconcile then m.nMeas
  else if m.kind = kNetwork then (m.elems.filter (fun e => e.kind == eFixp)).length else 0

/-- S of R226. -/
def bufSize (m : PrismModel) : Nat := 64 * ((128 + 8 * (lenX m + lenY m) + 63) / 64)

/-- The job names its slot's published buffer as its warm start (R237). (DEDUCED, log entry 53.) -/
def ownBuffer (s : State) (j : PrismJob) : Bool :=
  let p := pslot s j.slot
  jobWs j && j.ctx == outCtx s j.slot && rdn s (Reg.PRISM_SLOT_PUB j.slot) != 0 &&
    j.wsVa == outVa s j.slot + 0x40 + (if p.pubB then bufSize p.model else 0)

/-- The ring entry an index names. -/
def ringVa (s : State) (h : Nat) : Nat :=
  rdn s Reg.PRISM_JOBQ_LO + 2 ^ 32 * (rdn s Reg.PRISM_JOBQ_HI % 256) + 128 * (h % 64)

/-- What a ring entry holds, without an access of Prism's. -/
def ringJob (s : State) (h : Nat) : Option PrismJob :=
  match (vread s 2 (fld s Reg.PRISM_CFG F.PRISM_CFG_CTX) 0 (ringVa s h) 128).1 with
  | .inl _ => none
  | .inr d => some (jobOf d 0 0)

/-- A job that this doorbell offers names its slot's published buffer while another job of the slot is queued: accepted and not
ended, or offered before it (R237). (DEDUCED, log entry 53.) -/
def ownBufferErr (s : State) (door : Nat) : Bool :=
  let h := fld s Reg.PRISM_JOBQ_HEAD F.PRISM_JOBQ_HEAD_IDX
  let from' := (fld s Reg.PRISM_JOBQ_DOOR F.PRISM_JOBQ_DOOR_IDX + 128 - h) % 128
  (List.range ((door + 128 - h) % 128)).any (fun i => decide (from' ≤ i) && match ringJob s (h + i) with
    | some j => ownBuffer s j && (s.prism.jobs.any (fun x => x.slot == j.slot && !(jobEnded x)) ||
        (List.range i).any (fun e => ((ringJob s (h + e)).map (fun x => x.slot)) == some j.slot))
    | none => false)

/-- PRISM_JOBQ_DOOR_WRITE (R215, R237). -/
def execPrismJobqDoorWrite (ini : Fin 16) (value : Word) (s : State) : Result :=
  softWrite ini 0x61 0x40 ((errIf (decide (128 ≤ value.toNat)) 37).orElse (fun _ => errIf (ownBufferErr s value.toNat) 237)) s
    (fun s => wr s Reg.PRISM_JOBQ_DOOR value)

/-- JOB_ACCEPT (R214, R215, R232). -/
def execJobAccept (s : State) : Result :=
  let h := fld s Reg.PRISM_JOBQ_HEAD F.PRISM_JOBQ_HEAD_IDX
  if prismEn s && psqRuns s && h != fld s Reg.PRISM_JOBQ_DOOR F.PRISM_JOBQ_DOOR_IDX && decide ((heldJobs s).length < 64) then
    let r := vread s 2 (fld s Reg.PRISM_CFG F.PRISM_CFG_CTX) 0 (ringVa s h) 128
    match r.1 with
    | .inl f => settle s (prismHalt (prismFault r.2 f.1 1 0 f.2))
    | .inr d =>
      let j := jobOf d r.2.prism.nextSeq s.now
      check (errIf (jobErr s d j) 214)
        (settle s (prismSync (setFld (setPrism r.2 (fun p => { p with jobs := p.jobs ++ [j], nextSeq := p.nextSeq + 1 }))
          Reg.PRISM_JOBQ_HEAD F.PRISM_JOBQ_HEAD_IDX (h + 1))))
  else .next s

/-- PRISM_CANCEL (R231). A write with GO = 0 has no effect. (DEDUCED, log entry 53.) -/
def execPrismCancel (ini : Fin 16) (value : Word) (s : State) : Result :=
  softWrite ini 0x61 0x50 (errIf (value &&& 0xFFFFFEF8#32 != 0) 37) s (fun s =>
    let k := fieldGet F.PRISM_CANCEL_SLOT value
    if fieldGet F.PRISM_CANCEL_GO value = 0 then s
    else
      let s := (s.prism.jobs.filter (fun j => j.slot == k && j.state == .waiting)).foldl (fun s j => endJob s j.seq jCancelled 0 0) s
      setPrism s (fun p => { p with jobs := p.jobs.map (fun j =>
        if j.slot = k ∧ (j.state = .running ∨ j.state = .suspended) then { j with cancel := true } else j) }))

/-! ### Running a job (R216-R224) -/

def hasFactor (s : State) (k : Nat) : Bool := flag s (Reg.PRISM_SLOT_STAT k) F.PRISM_SLOT_STAT_HAS_FACTOR

def slotSig (s : State) (k : Nat) : Nat := rd64 s (Reg.PRISM_SLOT_SIG_LO k) (Reg.PRISM_SLOT_SIG_HI k)

/-- Import of the warm-start vector (R229): accepted, rejected, or a fault. -/
def importWarm (s : State) (j : PrismJob) (m : PrismModel) : Import (Option (List Fp)) :=
  let h := pimport s j.ctx j.wsVa 64
  match h.1 with
  | .inl f => (.inl f, h.2)
  | .inr hd =>
    let lx := bRd hd 0x10 4
    let ly := bRd hd 0x14 4
    if bRd hd 8 8 ≠ slotSig s j.slot ∨ lx ≠ lenX m then (.inr none, h.2)
    else
      let b := pimport h.2 j.ctx (j.wsVa + 64) (8 * (lx + ly) + 64)
      match b.1 with
      | .inl f => (.inl f, b.2)
      | .inr bs => (.inr (if bRd bs (8 * (lx + ly)) 4 = bRd hd 0 4 then some (fps (bs.take (8 * lx))) else none), b.2)

/-- A fault of a job (R232): it ends FAULT. -/
def jobFault (s : State) (j : PrismJob) (f : AccFault) (path : Nat) : State :=
  endJob (prismFault s f.1 path j.slot f.2) j.seq jFault (f.1 + 16 * path) 0

/-- A new job starts: its inputs are imported before any is applied (R218, R229, R232). -/
def startJob (s : State) (j : PrismJob) : State :=
  let s := setJob s j.seq (fun x => { x with state := .running, run := { startMono := monoNs s, startAt := some s.now, segAt := s.now } })
  let d := pimport s j.ctx j.deltaVa (16 * j.deltaCnt)
  match d.1 with
  | .inl f => jobFault d.2 j f 3
  | .inr ds =>
    if jobWs j then
      let w := importWarm d.2 j (pslot s j.slot).model
      match w.1 with
      | .inl f => jobFault w.2 j f 3
      | .inr warm => prismSync (setJob w.2 j.seq (fun x => { x with run := { x.run with deltas := ds, warm := warm, wsReject := warm.isNone } }))
    else prismSync (setJob d.2 j.seq (fun x => { x with run := { x.run with deltas := ds } }))

/-- JOB_START (R216-R218, R223, R229, R545): a new job starts, or a suspended one goes on. -/
def execJobStart (s : State) : Result :=
  match choose s (fun _ => true) with
  | none => .next s
  | some j => settleDue (psqFree s && fld s Reg.PRISM_STAT F.PRISM_STAT_AWAKE == 4) s
      (if j.state = .suspended then prismSync (setJob s j.seq (fun x => { x with state := .running, run := { x.run with segAt := s.now } }))
       else startJob s j)

/-- One delta on a value. -/
def deltaVal (op : Nat) (old v : Fp) : Fp := if op = 0 then v else fpAdd old v

def setAt (xs : List Fp) (i : Nat) (f : Fp → Fp) : List Fp := xs.zipIdx.map (fun p => if p.2 = i then f p.1 else p.1)

/-- Apply one delta-list entry (R213). -/
def applyDelta (m : PrismModel) (e : List Byte) : PrismModel :=
  let op := bRd e 1 1
  let w := bRd e 2 1
  let i := bRd e 4 4
  let f := fun (old : Fp) => deltaVal op old (bFp e 8)
  match bRd e 0 1 with
  | 1 => if w = 0 then { m with mat0 := { m.mat0 with val := setAt m.mat0.val i f } }
         else { m with mat1 := { m.mat1 with val := setAt m.mat1.val i f } }
  | 2 => { m with elems := m.elems.zipIdx.map (fun p => if p.2 = i then { p.1 with p := setAt p.1.p w f } else p.1) }
  | _ => { m with vecs := m.vecs.zipIdx.map (fun p => if p.2 = w then setAt p.1 i f else p.1) }

def deltaList (bs : List Byte) : List (List Byte) := (List.range (bs.length / 16)).map (fun k => (bs.drop (16 * k)).take 16)

/-- The value an entry is to change. -/
def deltaOld (m : PrismModel) (e : List Byte) : Fp :=
  let w := bRd e 2 1
  let i := bRd e 4 4
  match bRd e 0 1 with
  | 1 => vget (if w = 0 then m.mat0 else m.mat1).val i
  | 2 => vget ((m.elems.map (fun x => x.p)).getD i []) w
  | _ => vget (vec m w) i

/-- A sum the entry makes is not finite; an infinite LO or HI enters no arithmetic (R224). -/
def deltaSum (m : PrismModel) (e : List Byte) : Bool :=
  bRd e 1 1 == 1 && fpFinite (deltaOld m e) && fpFinite (bFp e 8) && !(fpFinite (fpAdd (deltaOld m e) (bFp e 8)))

/-- An entry breaks R212 or R213: reserved codes, an index out of range, a matrix entry in a NETWORK job, a value not finite
that is no −∞ for LO and no +∞ for HI, a weight that is not greater than 0. -/
def deltaErr (m : PrismModel) (e : List Byte) : Bool :=
  let w := bRd e 2 1
  let i := bRd e 4 4
  let v := bFp e 8
  let isVec := bRd e 0 1 == 3
  decide (1 < bRd e 1 1) || bRd e 3 1 != 0 ||
    !(fpFinite v || (isVec && w == 2 && v == fpNeg fpInf) || (isVec && w == 3 && v == fpInf)) ||
    (isVec && w == 5 && !(fpLt 0 (deltaVal (bRd e 1 1) (deltaOld m e) v))) ||
    (match bRd e 0 1 with
     | 1 => m.kind == kNetwork || decide (1 < w) || decide ((if w = 0 then m.mat0 else m.mat1).val.length ≤ i)
     | 2 => decide (5 < w) || decide (m.elems.length ≤ i)
     | 3 => decide ((vec m w).length ≤ i)
     | _ => true)

/-- Apply a delta list in order: an entry broke its rules; a sum was not finite; the model. (R212, R213, R224) -/
def applyDeltas (m : PrismModel) (es : List (List Byte)) : Bool × Bool × PrismModel :=
  es.foldl (fun st e => (st.1 || deltaErr st.2.2 e, st.2.1 || deltaSum st.2.2 e, applyDelta st.2.2 e)) (false, false, m)

/-- A delta list breaks R212 or R213, or leaves an element that breaks R210. -/
def deltasErr (m : PrismModel) (es : List (List Byte)) : Bool :=
  let r := applyDeltas m es
  r.1 || (es.any (fun e => bRd e 0 1 == 2) && r.2.2.elems.any (elemErr r.2.2))

/-- The system of a job that solves one linear system (R222, R223). -/
def linearSystem (j : PrismJob) (m : PrismModel) : List SRow × List Fp :=
  if j.type = 4 then reconcileSystem m j.pivEps
  else (rowsOf m.n (if m.kind = kSymmetric then symmetric (matEntries m.mat0) else matEntries m.mat0), vec m 0)

/-- A supernode count of at least one segment. -/
def segments (m : PrismModel) : Nat := max 1 m.snodes

/-- The run goes to a phase. -/
def toPhase (r : PrismRun) (p : PrismPhase) : PrismRun := { r with phase := p }

/-- A linear solve begins. -/
def beginSolve (r : PrismRun) (rows : List SRow) (b : List Fp) : PrismRun :=
  { r with rows := rows, rhs := b, sol := [], res := b, steps := 0, phase := .solve }

/-- A factorisation begins for this system, its solve to follow. -/
def beginFactor (r : PrismRun) (rows : List SRow) (b : List Fp) : PrismRun :=
  { r with rows := rows, rhs := b, sol := [], res := b, steps := 0, phase := .factor 0 }

/-- The lanes' sticky flag sees these results (R224). -/
def sawVec (r : PrismRun) (xs : List Fp) : PrismRun := { r with nonfinite := r.nonfinite || !(allFinite xs) }

/-- The values of rows. -/
def rowVals (rows : List SRow) : List Fp := rows.flatMap (fun w => w.map (fun e => e.2))

/-- FP64 operations are done (R230). -/
def didFlops (r : PrismRun) (n : Nat) : PrismRun := { r with flops := r.flops + n }

/-- Keep the best iterate (R222). -/
def keepBest (r : PrismRun) (rho : Fp) (x y : List Fp) (obj : Fp) : PrismRun :=
  match r.best with
  | some b => if fpLt rho b.1 then { r with best := some (rho, x, y, r.iter, obj) } else r
  | none => { r with best := some (rho, x, y, r.iter, obj) }

/-- What a phase's end decides. -/
inductive SegNext where
  /-- go on with the run -/
  | go (r : PrismRun)
  /-- the job's test has passed -/
  | ok (r : PrismRun)
  /-- the job's cap is reached with its test failed -/
  | cap (r : PrismRun)

/-- The start of the work after the deltas (R223). -/
def afterDeltas (j : PrismJob) (m : PrismModel) (factorHere : Bool) (r : PrismRun) : PrismRun :=
  if j.type = 2 then { r with x := r.warm.getD (netCold m), dx := [], phase := .eval }
  else if j.type = 3 then
    let x := match r.warm with | some w => qpWarm m w | none => qpCold m
    let one := fun (has : Nat → Bool) => (List.range m.n).map (fun i => if has i then fpOne else 0)
    { r with x := x, y := List.replicate m.mEq 0, zl := one (hasLo m), zu := one (hasHi m), phase := .kkt }
  else if j.type = 4 then toPhase r .kkt
  else
    let sys := linearSystem j m
    if j.type = 5 then
      let x0 := r.warm.getD (List.replicate m.n 0)
      if factorHere then { r with rows := sys.1, rhs := sys.2, sol := x0, steps := 0, reused := true, phase := .residual }
      else { beginFactor r sys.1 sys.2 with sol := x0 }
    else beginFactor r sys.1 sys.2

/-- The norm of F at the trial point did not grow, or four halvings are spent (R223). -/
def trialAccepted (r : PrismRun) (f : List Fp) : Bool :=
  r.dx.isEmpty || decide (4 ≤ r.halvings) || !(fpLt r.norm0 (normInf f))

/-- The end of an element evaluation (R222, R223): a line-search trial is also the next iterate's evaluation. -/
def evalEnd (j : PrismJob) (m : PrismModel) (r : PrismRun) : SegNext :=
  let e := netEval m r.x
  let r := sawVec { r with evaluated := true } (e.1 ++ rowVals e.2.1)
  if !(trialAccepted r e.1) then
    let t := fpMul r.t (fpRat 1 2)
    .go { r with t := t, halvings := r.halvings + 1, x := axpy (fpNeg t) r.dx r.base, phase := .eval }
  else
    let rho := rhoOf e.2.1 r.x e.2.2 e.1
    let r := keepBest (sawVec { r with resid := rho } (rho :: netY m r.x)) rho r.x (netY m r.x) 0
    if fpLe rho j.rtol then .ok { r with y := netY m r.x }
    else if r.iter = j.iterMax then .cap r
    else .go (beginFactor { r with norm0 := normInf e.1 } e.2.1 e.1)

/-- The iterate of an interior-point job moves by its corrector (R223). (PRESUMED, log entry 55.) -/
def qpUpdate (m : PrismModel) (r : PrismRun) (tl tu : List Fp) : PrismRun :=
  let dx := r.sol.take m.n
  let dzl := qpDzl m r.x r.zl tl dx
  let dzu := qpDzu m r.x r.zu tu dx
  let a := qpAlphas m (fpRat 995 1000) r.x r.zl r.zu dx dzl dzu
  { r with x := axpy a.1 dx r.x, y := axpy a.2 (r.sol.drop m.n) r.y, zl := axpy a.2 dzl r.zl, zu := axpy a.2 dzu r.zu,
           aff := none, iter := r.iter + 1 }

/-- A solve step of NEWTON_NET or QP_IPM has its refined solution. -/
def stepSolved (j : PrismJob) (m : PrismModel) (r : PrismRun) : SegNext :=
  if j.type = 2 then
    .go { r with iter := r.iter + 1, dx := r.sol, base := r.x, t := fpOne, halvings := 0, x := axpy (fpNeg fpOne) r.sol r.x, phase := .eval }
  else match r.aff with
  | none =>
    let t := qpTargets m r.x r.zl r.zu r.sol
    let b := qpRhs m r.x r.y r.zl r.zu t.1 t.2
    .go { beginSolve r r.rows b with aff := some r.sol }
  | some aff =>
    let t := qpTargets m r.x r.zl r.zu aff
    let r := qpUpdate m r t.1 t.2
    let r := sawVec r (r.x ++ r.y ++ r.zl ++ r.zu)
    let q := qpRatios m r.x r.y r.zl r.zu
    let worst := fpMax q.1 (fpMax q.2.1 q.2.2)
    let r := sawVec r [q.1, q.2.1, q.2.2, qpObj m r.x]
    let r := keepBest { r with resid := worst, obj := qpObj m r.x } worst r.x r.y (qpObj m r.x)
    if fpLe worst j.rtol then .ok r
    else if r.iter = j.iterMax then .cap r
    else .go (toPhase r .kkt)

/-- The end of a residual phase (R221, R222). -/
def residualEnd (j : PrismJob) (m : PrismModel) (r : PrismRun) : SegNext :=
  let res := residualOf r.rows r.rhs r.sol
  let rho := rhoOf r.rows r.sol r.rhs res
  let r := sawVec (didFlops { r with res := res, evaluated := true } (residualFlops r.rows)) (rho :: res)
  if j.type = 2 ∨ j.type = 3 then
    if fpLe rho j.rtol then stepSolved j m r else .go (toPhase r .solve)
  else
    let x := if j.type = 4 then r.sol.take m.n else r.sol
    let y := if j.type = 4 then reconcileY m x else []
    let obj := if j.type = 4 then reconcileObj m y else 0
    let r := keepBest (sawVec { r with resid := rho, x := x, y := y, obj := obj } (obj :: y)) rho x y obj
    if fpLe rho j.rtol then .ok r
    else if r.steps = j.irMax then .cap r
    else .go (toPhase r .solve)

/-- The end of a solve phase (R221): the first solution, or a refinement step. -/
def solveEnd (j : PrismJob) (m : PrismModel) (seed : Nat) (r : PrismRun) : SegNext :=
  let d := solveWith m seed r.res
  let first := r.sol.isEmpty
  let r := if first then { r with sol := d } else { r with sol := vmap2 fpAdd r.sol d, steps := r.steps + 1, ir := r.ir + 1 }
  let r := sawVec (didFlops r (solveFlops m + (if first then 0 else d.length))) (d ++ r.sol)
  if (j.type = 2 ∨ j.type = 3) ∧ r.steps = j.irMax then stepSolved j m r else .go (toPhase r .residual)

/-! ### Segment boundaries (R217, R218, R224, R231-R233) -/

/-- The effect of a PrismRAM error (R232): in a slot's area the slot fails, and its other queued jobs end FAULT. (DEDUCED, log entry 54.) -/
def prismRamFault (s : State) (j : PrismJob) (w : Nat) (staging : Bool) : State :=
  let s := recordUe s w 9 ueRead
  let s := jobFault s j (3, w) 6
  if staging then s
  else
    let s := setFld s (Reg.PRISM_SLOT_STAT j.slot) F.PRISM_SLOT_STAT_STATE slotFailed
    let s := (s.prism.jobs.filter (fun x => x.slot == j.slot && !(jobEnded x))).foldl (fun s x => endJob s x.seq jFault (3 + 16 * 6) 0) s
    fnzSync s

/-- PRISM_NP_MAX takes the segment's length in ns (R218). -/
def noteSegment (s : State) (r : PrismRun) : State :=
  let ns := (s.now - r.segAt) / vcoNs
  if rdn s Reg.PRISM_NP_MAX < ns then wrn s Reg.PRISM_NP_MAX ns else s

/-- The next phase begins now; a factorisation that begins overwrites the resident factor. -/
def goOn (s : State) (j : PrismJob) (r : PrismRun) : State :=
  let s := if r.phase = .factor 0 then setFlag s (Reg.PRISM_SLOT_STAT j.slot) F.PRISM_SLOT_STAT_HAS_FACTOR false else s
  setJob s j.seq (fun x => { x with run := { r with segAt := s.now } })

/-- A decision of a phase's end. -/
def decide' (s : State) (j : PrismJob) : SegNext → State
  | .go r => if r.nonfinite then endJob (goOn s j r) j.seq jNonfinite 0 0 else goOn s j r
  | .ok r => if r.nonfinite then endJob (goOn s j r) j.seq jNonfinite 0 0 else goOn s j (toPhase r .exporting)
  | .cap r => if r.nonfinite then endJob (goOn s j r) j.seq jNonfinite 0 0
      else if jobBest j && r.best.isSome then goOn s j (toPhase r .bestWrite)
      else endJob (goOn s j r) j.seq jCap 0 0

/-- The factor of a job's system is complete at the last supernode (R219). -/
def factorEnd (s : State) (j : PrismJob) (m : PrismModel) (r : PrismRun) : State :=
  let fa := factorOf m r.seed j.pivEps r.rows
  let s1 := setPslot s j.slot (fun p => { p with model := { p.model with lower := fa.lower, upper := fa.upper } })
  let s2 := setFlag s1 (Reg.PRISM_SLOT_STAT j.slot) F.PRISM_SLOT_STAT_HAS_FACTOR true
  let r := sawVec (didFlops { r with perturb := r.perturb + fa.perturb, pivMin := fpMin r.pivMin fa.pivMin } (factorFlops m)) (factorVals fa)
  decide' s2 j (.go (toPhase r (if j.type = 5 then .residual else .solve)))

/-- A supernode before the last one gave a result that is not finite: which supernode holds a column is open. (DESIGN CHOICE, log entry 52.) -/
def factorSaw (s : State) (j : PrismJob) (m : PrismModel) (r : PrismRun) : Bool × State :=
  if allFinite (factorVals (factorOf m r.seed j.pivEps r.rows)) then (false, s)
  else let f := fresh s; (Config.freeBool f.1, f.2)

/-- The best waiting slot has a strictly lower class value (R217). -/
def preempts (s : State) (j : PrismJob) : Bool :=
  match choose s (fun k => k != j.slot) with
  | some c => decide (effClass s c.slot < effClass s j.slot)
  | none => false

/-- One header of a result or best-iterate buffer with X, Y and TAIL (R226). -/
def resultBytes (s : State) (j : PrismJob) (m : PrismModel) (gen : Nat) (x y : List Fp) (iter : Nat) (rho obj : Fp) : List Byte :=
  leBytes 4 gen ++ leBytes 1 j.type ++ leBytes 3 0 ++ leBytes 8 (slotSig s j.slot) ++ leBytes 4 (lenX m) ++ leBytes 4 (lenY m) ++
    leBytes 4 j.tag ++ leBytes 2 iter ++ leBytes 2 0 ++ leBytes 8 rho.toNat ++ leBytes 8 obj.toNat ++ leBytes 8 j.run.startMono ++
    leBytes 8 0 ++ x.flatMap (fun v => leBytes 8 v.toNat) ++ y.flatMap (fun v => leBytes 8 v.toNat) ++ leBytes 4 gen ++ leBytes 60 0

/-- The best iterate is written before the record, and the job ends CAP, or CANCELLED if it has been cancelled; a fault ends it
FAULT (R227, R231, R232). (DEDUCED, log entry 53.) -/
def bestWriteEnd (s : State) (j : PrismJob) (m : PrismModel) : State :=
  let status := if j.cancel then jCancelled else jCap
  match j.run.best with
  | none => endJob s j.seq status 0 0
  | some (rho, x, y, it, obj) =>
    let w := vwrite s 2 j.ctx 0 j.bestVa (resultBytes s j m 0 x y it rho obj)
    match w.1 with
    | some f => jobFault w.2 j f 4
    | none => endJob (setJob w.2 j.seq (fun x => { x with run := { x.run with bestWritten := true } })) j.seq status 0 0

/-- The end of a segment by its phase. -/
def phaseEnd (s : State) (j : PrismJob) : State :=
  let m := (pslot s j.slot).model
  let r := j.run
  match r.phase with
  | .importing => goOn s j (toPhase r .deltas)
  | .deltas =>
    let es := deltaList r.deltas
    let d := applyDeltas m es
    let s := setPslot s j.slot (fun p => { p with model := d.2.2 })
    let r := didFlops { r with nonfinite := r.nonfinite || d.2.1 } (es.filter (fun e => bRd e 1 1 == 1)).length
    decide' s j (.go (afterDeltas j d.2.2 (hasFactor s j.slot) r))
  | .eval => decide' s j (evalEnd j m r)
  | .kkt =>
    if j.type = 3 then
      let rows := qpKkt m j.pivEps r.x r.zl r.zu
      let z := List.replicate m.n (0 : Fp)
      let b := qpRhs m r.x r.y r.zl r.zu z z
      decide' s j (.go (beginFactor (sawVec { r with aff := none } (rowVals rows ++ b)) rows b))
    else
      let sys := reconcileSystem m j.pivEps
      decide' s j (.go (beginFactor (sawVec r (rowVals sys.1 ++ sys.2)) sys.1 sys.2))
  | .factor n =>
    let f := if n = 0 then fresh s else (r.seed, s)
    let s := f.2
    let r := { r with seed := f.1 }
    if segments m ≤ n + 1 then factorEnd s j m r
    else
      let w := factorSaw s j m r
      let s := decide' w.2 j (.go (toPhase { r with nonfinite := r.nonfinite || w.1 } (.factor (n + 1))))
      if w.1 then s
      else if preempts s j then
        prismSync (setJob s j.seq (fun x => { x with state := .suspended, run := { x.run with preempted := true } }))
      else s
  | .solve =>
    let f := fresh s
    decide' f.2 j (solveEnd j m f.1 r)
  | .residual => decide' s j (residualEnd j m r)
  | .exporting => s
  | .bestWrite => bestWriteEnd s j m

/-- A host error the boundary shows: an accepted warm-start vector that is not finite, a broken delta list, or an all-zero row of
a system to factor (R212, R213, R219). -/
def boundaryErr (s : State) (j : PrismJob) : Option Nat :=
  let m := (pslot s j.slot).model
  match j.run.phase with
  | .importing => errIf (!(allFinite (j.run.warm.getD []))) 212
  | .deltas => errIf (deltasErr m (deltaList j.run.deltas)) 213
  | .factor n => errIf (decide (segments m ≤ n + 1) && j.run.rows.any (fun r => r.all (fun e => fpIsZero e.2))) 219
  | _ => none

/-- After power-fail qualification the running job stops, without a record (R233). -/
def dropJob (s : State) (j : PrismJob) : State :=
  prismSync (setPrism s (fun p => { p with jobs := p.jobs.filter (fun x => x.seq != j.seq) }))

/-- SEGMENT_BOUNDARY (R201, R210, R213, R217-R224, R231-R233, R545): the running segment ends. An export ends with
PUBLISH instead. -/
def execSegmentBoundary (s : State) : Result :=
  match runningJob s with
  | none => .next s
  | some j =>
    if j.run.phase = .exporting ∨ psqRuns s = false then .next s
    else
      let s0 := s
      let s := noteSegment s j.run
      if held s then .next (dropJob s j)
      else
        let hit := prismRamHit s j.slot
        match hit.1 with
        | some (w, st) => .next (prismRamFault hit.2 j w st)
        | none =>
          check (boundaryErr hit.2 j)
            (let s := hit.2
             let mid := match j.run.phase with | .factor n => decide (n + 1 < segments (pslot s j.slot).model) | _ => false
             if j.cancel then
               -- deltas already applied stay applied; a factor cut short is not resident
               let s := if j.run.phase = .deltas then
                 setPslot s j.slot (fun p => { p with model := (applyDeltas p.model (deltaList j.run.deltas)).2.2 }) else s
               let s := if mid then setFlag s (Reg.PRISM_SLOT_STAT j.slot) F.PRISM_SLOT_STAT_HAS_FACTOR false else s
               if j.run.phase = .bestWrite then settle s0 (prismQuiet (bestWriteEnd s j (pslot s j.slot).model))
               else .next (prismQuiet (endJob s j.seq jCancelled 0 0))
             else settle s0 (phaseEnd s j))

/-! ### Publishing and records (R225-R230) -/

/-- The published generation after this one; 0 is skipped (R227). -/
def nextGen (g : Nat) : Nat := if (g + 1) % 2 ^ 32 = 0 then 1 else (g + 1) % 2 ^ 32

/-- Where the next result of a slot goes: buffer B or A, its generation, its address and its bytes (R225-R227). -/
def exportOf (s : State) (j : PrismJob) : Bool × Nat × Nat × List Byte :=
  let m := (pslot s j.slot).model
  let b := !((pslot s j.slot).pubB)
  let g := nextGen (rdn s (Reg.PRISM_SLOT_PUB j.slot))
  (b, g, outVa s j.slot + 0x40 + (if b then bufSize m else 0), resultBytes s j m g j.run.x j.run.y j.run.iter j.run.resid j.run.obj)

/-- The export of a result and its PUB word (R225-R227, R232); a cancelled job ends at the end of the export, before the PUB
word (R231). -/
def publishJob (s : State) (j : PrismJob) : State :=
  let e := exportOf s j
  let w := vwrite s 2 (outCtx s j.slot) 0 e.2.2.1 e.2.2.2
  match w.1 with
  | some f => jobFault w.2 j f 4
  | none =>
    if j.cancel then endJob w.2 j.seq jCancelled 0 0
    else
      let p := vwrite w.2 2 (outCtx s j.slot) 0 (outVa s j.slot) (leBytes 8 (e.2.1 + (if e.1 then 2 ^ 32 else 0)))
      match p.1 with
      | some f => jobFault p.2 j f 4
      | none => endJob (setPslot (wrn p.2 (Reg.PRISM_SLOT_PUB j.slot) e.2.1) j.slot (fun x => { x with pubB := e.1 })) j.seq jOk 0 e.2.1

/-- After power-fail qualification an export stops before the PUB write (R233): how much of the buffer it has written is open.
(DESIGN CHOICE, log entry 52.) -/
def exportCut (s : State) (j : PrismJob) : State :=
  let e := exportOf s j
  let f := fresh s
  let w := vwrite f.2 2 (outCtx s j.slot) 0 e.2.2.1 (e.2.2.2.take (Config.freeNat f.1))
  dropJob (match w.1 with | some flt => prismFault w.2 flt.1 4 j.slot flt.2 | none => w.2) j

/-- PUBLISH (R201, R218, R225-R227, R231-R233): the export ends, with the write of the PUB word. -/
def execPrismPublish (s : State) : Result :=
  match runningJob s with
  | none => .next s
  | some j =>
    if j.run.phase = .exporting ∧ psqRuns s = true then
      if held s then settle s (exportCut s j)
      else
        let hit := prismRamHit (noteSegment s j.run) j.slot
        match hit.1 with
        | some (w, st) => .next (prismRamFault hit.2 j w st)
        | none => settle s (prismQuiet (publishJob hit.2 j))
    else .next s

/-- The record of an ended job (R230). FLOPS holds the operations the rules count and a free number of others, and T_ELAPSED
of a job that never started is free: of the run number `k`. (DEDUCED, log entry 53.) -/
def recordBytes (s : State) (j : PrismJob) (status cause gen k : Nat) : List Byte :=
  let r := j.run
  let full := r.evaluated
  let v := fun (n : Nat) => if full then n else 0
  let b := fun (c : Bool) (k : Nat) => if c then k else 0
  let flags := b r.wsReject 1 + b (gen != 0) 2 + b r.warm.isSome 4 + b r.preempted 8 + b r.bestWritten 16 + b r.reused 32
  leBytes 4 j.tag ++ leBytes 1 status ++ leBytes 1 j.type ++ leBytes 1 j.slot ++ leBytes 1 (v flags) ++ leBytes 2 (v r.iter) ++
    leBytes 2 (v r.ir) ++ leBytes 4 (v r.perturb) ++ leBytes 8 (v r.resid.toNat) ++
    leBytes 8 (v (if r.pivMin = fpInf then 0 else r.pivMin.toNat)) ++ leBytes 8 (v (r.flops + Config.freeNat k)) ++ leBytes 8 (v r.startMono) ++
    leBytes 8 (match r.startAt with | some t => (s.now - t) / vcoNs | none => Config.freeNat (k + 1)) ++ leBytes 4 gen ++
    leBytes 1 (v cause) ++ leBytes 3 0

/-- The record of an ended job enters the completion queue and the job leaves the list; a fault of the queue halts PSQ (R227, R230, R232). -/
def completeJob (s : State) (j : PrismJob) (status cause gen : Nat) : State :=
  let f := freshN s 2
  let t := fld s Reg.PRISM_CQ_TAIL F.PRISM_CQ_TAIL_IDX
  let va := rdn s Reg.PRISM_CQ_LO + 2 ^ 32 * (rdn s Reg.PRISM_CQ_HI % 256) + 64 * (t % 64)
  let w := vwrite f.2 2 (fld s Reg.PRISM_CFG F.PRISM_CFG_CTX) 0 va (recordBytes s j status cause gen f.1)
  match w.1 with
  | some flt => prismHalt (prismFault w.2 flt.1 2 j.slot flt.2)
  | none =>
    let s1 := setPrism w.2 (fun p => { p with jobs := p.jobs.filter (fun x => x.seq != j.seq), unread := p.unread ++ [(j.slot, j.cls)] })
    let s2 := satFld (setFld s1 Reg.PRISM_CQ_TAIL F.PRISM_CQ_TAIL_IDX (t + 1)) Reg.PRISM_JOBS_DONE ⟨0, 32⟩ 1
    prismQuiet (prismSync (raise s2 0x60 0))

/-- COMPLETION_RECORD (R227, R230, R232): the next record of an ended job, in the order in which jobs ended. -/
def execCompletionRecord (s : State) : Result :=
  let best := (s.prism.jobs.filter (recordReady s)).foldl (fun (b : Option PrismJob) j => match b with
    | none => some j
    | some c => if j.endSeq < c.endSeq then some j else some c) none
  match best with
  | none => .next s
  | some j =>
    match j.state with
    | .ended status cause gen =>
      if psqRuns s = false ∨ held s = true then .next s else settle s (completeJob s j status cause gen)
    | _ => .next s

end Sys2Proof.Machine
end

