-- ==== Sys2Proof/Machine/Ptp.lean ====
section
/-!
DEFINITION. PTP time and its servo (R371-R389): steps, slews, samples, holdover, and the reads that latch.
-/

namespace Sys2Proof.Machine

/-! ### Steps (R376, R377) -/

/-- PTP time takes a new value, in units of `Clock.ptp`: what follows a step in the other blocks (R83, R149, R151, R242,
R386, R394). -/
def ptpApply (s0 : State) (new : Nat) : State :=
  let old := s0.clock.ptp
  let s := setClock s0 (fun c => { c with ptp := new })
  let s := setFld s Reg.PTP_STAT F.PTP_STAT_STEP_GEN ((stepGen s0 + 1) % 256)
  let s := raise (setFlag s Reg.PTP_STAT F.PTP_STAT_STEP_REFUSED false) 0xC0 0
  let s := match s.rtc.setPend with
    | some sec =>
      if !s.rtc.setChanged && ptpSec s != sec then
        setFlag { s with rtc := { s.rtc with setChanged := true, setNow := s.rtc.setNow.orElse (fun _ => some s.now) } } Reg.RTC_STAT F.RTC_STAT_SET_AT_STEP true
      else s
    | none => s
  if old < new then
    let n := new / ptpUnit
    ethForward (mtrForward (rxeForward ((List.range 16).foldl (fun s t => gridForward s t n) s) old new)) old new
  else s

/-- A refused step: its offset, in units of `Clock.ptp`, is recorded (R377). (DESIGN CHOICE, log entry 71.) -/
def ptpRefuse (s : State) (off : Int) : State :=
  let r := roundOpen s off ptpUnit
  let v := unsignedOf 64 r.1
  raise (setFlag (wr64 r.2 Reg.PTP_REFUSED_LO Reg.PTP_REFUSED_HI v) Reg.PTP_STAT F.PTP_STAT_STEP_REFUSED true) 0xC0 1

/-- The offset exceeds PTP_STEP_MAX in magnitude. -/
def stepTooFar (s : State) (off : Int) : Bool := decide (((rdn s Reg.PTP_STEP_MAX * ptpUnit : Nat) : Int) < (off.natAbs : Nat))

/-- A step by an offset, or its refusal (R376, R377). (DEDUCED, log entry 70.) -/
def ptpStepBy (s : State) (off : Int) (force : Bool) : State :=
  if stepTooFar s off && !force then ptpRefuse s off else ptpApply s ((s.clock.ptp : Int) + off).toNat

/-- A step that is applied and would make PTP time negative (R376). -/
def stepErr (s : State) (off : Int) (force : Bool) : Option Nat :=
  errIf ((force || !(stepTooFar s off)) && decide ((s.clock.ptp : Int) + off < 0)) 376

/-- PTP_STEP in units of `Clock.ptp`. -/
def stepOffset (s : State) : Int := signed 64 (rd64 s Reg.PTP_STEP_LO Reg.PTP_STEP_HI) * (ptpUnit : Int)

/-- STEP (R376, R377). -/
def execPtpStep (ini : Fin 16) (force : Bool) (s : State) : Result :=
  settleWrite ini 0xC0 0x84 (stepErr s (stepOffset s) force) s (fun s => ptpStepBy s (stepOffset s) force)

/-- The offset of SET: the new time, with no fraction, minus the time it replaces. -/
def setOffset (s : State) : Int :=
  let sec := rdn s Reg.PTP_SET_SEC_LO + 2 ^ 32 * fld s Reg.PTP_SET_SEC_HI F.PTP_SET_SEC_HI_V
  (((sec * 10 ^ 9 + fld s Reg.PTP_SET_NS F.PTP_SET_NS_NS) * ptpUnit : Nat) : Int) - (s.clock.ptp : Int)

/-- SET (R376, R377). -/
def execPtpSet (ini : Fin 16) (force : Bool) (s : State) : Result :=
  settleWrite ini 0xC0 0x84 none s (fun s => ptpStepBy s (setOffset s) force)

/-- FORCE_NEXT (R377). -/
def execForceNext (ini : Fin 16) (s : State) : Result :=
  softWrite ini 0xC0 0x84 none s (fun s => setFlag s Reg.PTP_STAT F.PTP_STAT_FORCE_ARMED true)

/-! ### Slews (R375) -/

/-- A slew of d ns starts. -/
def slewStart (s : State) (v : Word) : State :=
  let d := signed 32 v.toNat
  let s := setClock s (fun c => { c with slewLeft := d.natAbs * ptpUnit, slewNeg := decide (d < 0) })
  setFlag (wr s Reg.PTP_SLEW_LEFT v) Reg.PTP_STAT F.PTP_STAT_SLEW_BUSY true

/-- The servo is enabled. -/
def servoEn (s : State) : Bool := flag s Reg.PTP_SERVO_CFG F.PTP_SERVO_CFG_EN

/-- PTP_SLEW_WRITE (R375). -/
def execPtpSlewWrite (ini : Fin 16) (value : Word) (s : State) : Result :=
  softWrite ini 0xC0 0x64 (errIf (servoEn s) 375) s (fun s => slewStart s value)

/-- SLEW_DONE (R375). -/
def execSlewDone (s : State) : Result :=
  whenDue (flag s Reg.PTP_STAT F.PTP_STAT_SLEW_BUSY && s.clock.slewLeft == 0) s
    (raise (setFlag s Reg.PTP_STAT F.PTP_STAT_SLEW_BUSY false) 0xC0 3)

/-! ### The servo (R380-R382) -/

def servo (s : State) : Nat := fld s Reg.PTP_STAT F.PTP_STAT_SERVO

/-- The servo changes state; a HOLDOVER begins to count its seconds, and the runs of samples start again. -/
def setServo (s : State) (v : Nat) : State :=
  if servo s = v then s
  else
    let s := setClock (setFld s Reg.PTP_STAT F.PTP_STAT_SERVO v) (fun c => { c with inside := 0, outside := 0, holdFrom := monoNs s })
    raise (wr s Reg.PTP_HOLD_S 0) 0xC0 2

/-- The clamp of R374 on PTP_RATE, and on the integral term in its units. -/
def clampTo (m : Int) (v : Int) : Int := max (-m) (min m v)
def rateMax : Int := 1024000000

/-- PTP_RATE takes a value given in 2⁻¹⁶ of its units; its rounding is open. (DESIGN CHOICE, log entry 71.) -/
def setRate (s : State) (v : Int) : State :=
  let r := roundOpen s (clampTo (rateMax * 65536) v) 65536
  wrn r.2 Reg.PTP_RATE (unsignedOf 32 r.1)

/-- R381. -/
def servoUpdate (s : State) (o : Int) : State :=
  let ki : Int := (rdn s Reg.PTP_SERVO_KI : Nat)
  let kp : Int := (rdn s Reg.PTP_SERVO_KP : Nat)
  let i := clampTo (rateMax * 65536) (s.clock.integral - ki * o * 1024)
  setRate (setClock s (fun c => { c with integral := i })) (i - kp * o * 1024)

def lockThr (s : State) : Nat := fld s Reg.PTP_SERVO_THR F.PTP_SERVO_THR_LOCK_THR
def stepThr (s : State) : Nat := fld s Reg.PTP_SERVO_THR F.PTP_SERVO_THR_STEP_THR * 1000

/-- A sample in ACQUIRE. (DEDUCED, log entry 70.) -/
def acquire (s : State) (o : Int) : State :=
  if stepThr s < o.natAbs then
    let off := -o * (ptpUnit : Int)
    let force := flag s Reg.PTP_STAT F.PTP_STAT_FORCE_ARMED
    let far := stepTooFar s off && !force
    let s := setClock (setFlag s Reg.PTP_STAT F.PTP_STAT_FORCE_ARMED false) (fun c => { c with inside := 0 })
    let s := ptpStepBy s off force
    if far then setServo (setClock s (fun c => { c with qual := 0 })) 1 else s
  else
    let s := servoUpdate s o
    let s := setClock s (fun c => { c with inside := if o.natAbs < lockThr s then c.inside + 1 else 0 })
    if 8 ≤ s.clock.inside then setServo s 3 else s

/-- A sample in LOCKED. -/
def locked (s : State) (o : Int) : State :=
  let s := servoUpdate s o
  let s := setClock s (fun c => { c with outside := if lockThr s ≤ o.natAbs then c.outside + 1 else 0 })
  if 4 ≤ s.clock.outside then setServo s 2 else s

/-- A qualification count in HOLDOVER; it may have reached QUAL_N. (DEDUCED, log entry 70.) -/
def qualify (s : State) (tag n : Nat) (o : Int) : State :=
  let s := setClock s (fun c => { c with qual := n })
  if fld s Reg.PTP_SERVO_CFG F.PTP_SERVO_CFG_QUAL_N ≤ n then
    acquire (setServo (setFld s Reg.PTP_STAT F.PTP_STAT_MASTER tag) 2) o
  else s

/-- An accepted sample (R382). -/
def sampleIn (s : State) (tag : Nat) (o : Int) : State :=
  let same := tag == s.clock.prevTag
  let s := setClock s (fun c => { c with sampleAt := monoNs s, prevTag := tag })
  match servo s with
  | 0 => s
  | 1 => qualify s tag (if same then s.clock.qual + 1 else 1) o
  | st =>
    if tag != fld s Reg.PTP_STAT F.PTP_STAT_MASTER then qualify (setServo (setRate s s.clock.integral) 1) tag 1 o
    else if st = 2 then acquire s o
    else locked s o

/-- The offset a write of PTP_OFS_HI submits. -/
def sampleOffset (s : State) (hi : Word) : Int := signed 64 (rdn s Reg.PTP_OFS_LO + 2 ^ 32 * hi.toNat)

/-- The step a sample would make is one that R376 forbids. -/
def sampleErr (s : State) (o : Int) : Option Nat :=
  errIf (servoEn s && fld s Reg.PTP_OFS_TAG F.PTP_OFS_TAG_STEP_GEN == stepGen s && decide (stepThr s < o.natAbs) &&
    (stepErr s (-o * (ptpUnit : Int)) (flag s Reg.PTP_STAT F.PTP_STAT_FORCE_ARMED)).isSome &&
    (let tag := fld s Reg.PTP_OFS_TAG F.PTP_OFS_TAG_MASTER
     let q := fld s Reg.PTP_SERVO_CFG F.PTP_SERVO_CFG_QUAL_N
     if 2 ≤ servo s ∧ tag = fld s Reg.PTP_STAT F.PTP_STAT_MASTER then servo s == 2
     else if servo s = 1 ∧ tag = s.clock.prevTag then decide (q ≤ s.clock.qual + 1)
     else decide (q ≤ 1))) 376

/-- OFFSET_SAMPLE_SUBMIT (R376, R377, R380-R382). -/
def execOffsetSampleSubmit (ini : Fin 16) (value : Word) (s : State) : Result :=
  let o := sampleOffset s value
  settleWrite ini 0xC0 0xA4 (sampleErr s o) s (fun s =>
    if fld s Reg.PTP_OFS_TAG F.PTP_OFS_TAG_STEP_GEN ≠ stepGen s then raise (satFld s Reg.PTP_SMP_DISC ⟨0, 32⟩ 1) 0xC0 4
    else sampleIn s (fld s Reg.PTP_OFS_TAG F.PTP_OFS_TAG_MASTER) o)

/-- HOLDOVER_TIMEOUT (R382). (DEDUCED, log entry 70.) -/
def execHoldoverTimeout (s : State) : Result :=
  whenDue ((servo s == 2 || servo s == 3) &&
      decide (s.clock.sampleAt + fld s Reg.PTP_SERVO_CFG F.PTP_SERVO_CFG_HOLD_TMO * 1000000 ≤ monoNs s)) s
    (setServo (setClock (setRate s s.clock.integral) (fun c => { c with qual := 0 })) 1)

/-- A write of PTP_SERVO_CFG outside its ranges (R37, R38). -/
def servoCfgErr (v : Word) : Option Nat :=
  (errIf (v &&& 0xFE#32 != 0) 37).orElse (fun _ =>
    errIf (fieldGet F.PTP_SERVO_CFG_QUAL_N v == 0 || fieldGet F.PTP_SERVO_CFG_HOLD_TMO v == 0) 38)

/-- PTP_SERVO_CFG takes a value; a change of EN starts the servo in HOLDOVER or takes it to FREE (R381, R382). -/
def servoWrite (s : State) (v : Word) : State :=
  let was := servoEn s
  let s := wr s Reg.PTP_SERVO_CFG v
  if !was && servoEn s then
    setServo (setClock s (fun c => { c with integral := ptpRate s * 65536, qual := 0 })) 1
  else if was && !(servoEn s) then setServo s 0
  else s

/-- SERVO_ENABLE (R382). -/
def execServoEnable (ini : Fin 16) (value : Word) (s : State) : Result :=
  softWrite ini 0xC0 0x8C (servoCfgErr value) s (fun s => servoWrite s value)

/-! ### Reads that latch (R372, R378, R388) -/

/-- PTP_NOW_NS_READ (R378). -/
def execPtpNowNsRead (s : State) : Result :=
  check (pageErr s 0xC0 0x40)
    (let ns := ptpNs s % 10 ^ 9
     let s := wrn s Reg.PTP_NOW_NS ns
     let s := wrn (wrn s Reg.PTP_NOW_SEC_LO (ptpSec s)) Reg.PTP_NOW_SEC_HI (ptpSec s / 2 ^ 32 % 65536)
     let s := wrn s Reg.PTP_NOW_FRAC (s.clock.ptp % ptpUnit * 65536 / ptpUnit)
     .next (answer (wr64 s Reg.PTP_NOW_MONO_LO Reg.PTP_NOW_MONO_HI (monoNs s)) [BitVec.ofNat 32 ns]))

/-- MONO_LO_READ (R372): MONO_HI holds the snapshot. -/
def execMonoLoRead (s : State) : Result :=
  check (pageErr s 0xC0 0x58) (.next (answer (wr64 s Reg.MONO_LO Reg.MONO_HI (monoNs s)) [BitVec.ofNat 32 (monoNs s)]))

/-- PTP_ECHO_TAG_READ (R388). -/
def execPtpEchoTagRead (k : Fin 4) (s : State) : Result :=
  let k := k.val
  let put := fun (s : State) (tag sec ns : Nat) =>
    let s := wrn (wrn s (Reg.PTP_ECHO_TAG k) tag) (Reg.PTP_ECHO_NS k) ns
    answer (wrn (wrn s (Reg.PTP_ECHO_SEC_LO k) sec) (Reg.PTP_ECHO_SEC_HI k) (sec / 2 ^ 32 % 65536)) [BitVec.ofNat 32 tag]
  check (pageErr s (0xC1 + k) 0x48)
    (match echoOf s k with
     | [] => .next (put s 0 0 0)
     | (tag, gen, late, t) :: q =>
       .next (put (echoAccept (setEcho s k q) k) (tag + 65536 * gen + (if late then 0x1000000 else 0) + 0x80000000) (t / 10 ^ 9) (t % 10 ^ 9)))

end Sys2Proof.Machine
end

