-- ==== Sys2Proof/Machine/Rtc.lean ====
section
/-!
DEFINITION. The calendar clock (R391-R397): its count, the frozen shadow, commits and alarms.
-/

namespace Sys2Proof.Machine

def setRtc (s : State) (f : Rtc → Rtc) : State := { s with rtc := f s.rtc }

/-- Edges of the 32.768 kHz clock up to VCO cycle `t`, and the first edge at or after it. (DESIGN CHOICE, log entry 72.) -/
def rtcEdges (t : Nat) : Nat := t * 32768 / 5000000000
def rtcEdgeFrom (t : Nat) : Nat := (t * 32768 + 4999999999) / 5000000000

/-- Binary-coded decimal of two digits. -/
def bcd (n : Nat) : Nat := n / 10 % 10 * 16 + n % 10
def unbcd (b : Nat) : Nat := b / 16 * 10 + b % 16
def bcdOk (b : Nat) : Bool := decide (b % 16 < 10) && decide (b / 16 < 10)

/-- A calendar time, in plain numbers; `year` counts from 0000. -/
structure Calendar where
  sec : Nat := 0
  min : Nat := 0
  hour : Nat := 0
  wday : Nat := 0
  day : Nat := 1
  mon : Nat := 1
  year : Nat := 0
  deriving DecidableEq, Repr

/-- Leap years of R391. -/
def leapYear (y : Nat) : Bool := y % 4 == 0 && (y % 100 != 0 || y / 100 % 4 == 0)
def monthDays (y m : Nat) : Nat :=
  if m = 2 then (if leapYear y then 29 else 28) else if m = 4 ∨ m = 6 ∨ m = 9 ∨ m = 11 then 30 else 31

/-- The next day; after 9999-12-31 comes 0000-01-01. -/
def nextDay (c : Calendar) : Calendar :=
  let c := { c with wday := (c.wday + 1) % 7 }
  if c.day < monthDays c.year c.mon then { c with day := c.day + 1 }
  else if c.mon < 12 then { c with day := 1, mon := c.mon + 1 }
  else { c with day := 1, mon := 1, year := (c.year + 1) % 10000 }

/-- The next second. -/
def nextSecond (c : Calendar) : Calendar :=
  if c.sec < 59 then { c with sec := c.sec + 1 }
  else if c.min < 59 then { c with sec := 0, min := c.min + 1 }
  else if c.hour < 23 then { c with sec := 0, min := 0, hour := c.hour + 1 }
  else nextDay { c with sec := 0, min := 0, hour := 0 }

/-- Seven registers from an address, in the order SEC to YEAR, as a calendar time. -/
def calendarAt (s : State) (a : Nat) : Calendar :=
  let w := fun (k : Nat) => rdn s (a + 4 * k)
  {
    sec := unbcd (w 0 % 128), min := unbcd (w 1 % 128), hour := unbcd (w 2 % 64), wday := w 3 % 8, day := unbcd (w 4 % 64),
    mon := unbcd (w 5 % 32), year := unbcd (w 6 / 256 % 256) * 100 + unbcd (w 6 % 256) }

/-- The count registers take a calendar time. -/
def setCount (s : State) (c : Calendar) : State :=
  ([bcd c.sec, bcd c.min, bcd c.hour, c.wday, bcd c.day, bcd c.mon, bcd (c.year / 100) * 256 + bcd c.year]).zipIdx.foldl
    (fun s p => wrn s (Reg.RTC_SEC + 4 * p.2) p.1) s

def rtcCount (s : State) : Calendar := calendarAt s Reg.RTC_SEC
def rtcStaged (s : State) : Calendar := calendarAt s Reg.RTC_STG_SEC

/-- The staging registers hold valid BCD and a valid date (R394). -/
def stagedOk (s : State) : Bool :=
  let w := fun (k : Nat) => rdn s (Reg.RTC_STG_SEC + 4 * k)
  let c := rtcStaged s
  [0, 1, 2, 4, 5].all (fun k => bcdOk (w k)) && bcdOk (w 6 % 256) && bcdOk (w 6 / 256) && decide (w 3 < 7) &&
    decide (c.sec < 60) && decide (c.min < 60) && decide (c.hour < 24) && decide (1 ≤ c.mon) && decide (c.mon ≤ 12) &&
    decide (1 ≤ c.day) && decide (c.day ≤ monthDays c.year c.mon)

/-! ### Reads (R393) -/

/-- The divider's count. -/
def subsec (s : State) : Nat := min 32767 (rtcEdges s.now - s.rtc.base)

/-- The eight words of a shadow. -/
def rtcWords (s : State) : List Word := BitVec.ofNat 32 (subsec s) :: (List.range 7).map (fun k => rd s (Reg.RTC_SEC + 4 * k))

def thaw (s : State) : State := setFlag (setRtc s (fun r => { r with frozen := none })) Reg.RTC_STAT F.RTC_STAT_FROZEN false

/-- The shadow is released 250 ms of MONO after the freeze (R393). -/
def expireShadow (s : State) : State :=
  match s.rtc.frozen with
  | some (t, _) => if t + 250000000 ≤ monoNs s then raise (thaw s) 0xC5 4 else s
  | none => s

/-- RTC_COUNT_READ (R393): field 0 SUBSEC to 7 YEAR. -/
def execRtcCountRead (i : Fin 8) (s : State) : Result :=
  check (pageErr s 0xC5 (0x40 + 4 * i.val))
    (let s := expireShadow s
     let f := s.rtc.frozen.getD (monoNs s, rtcWords s)
     let t := setFlag (setRtc s (fun r => { r with frozen := some f })) Reg.RTC_STAT F.RTC_STAT_FROZEN true
     let t := answer t [f.2.getD i.val 0]
     .next (if i = 7 then thaw t else t))

/-- SHADOW_EXPIRED (R393): 250 ms of MONO after the freeze. -/
def execShadowExpired (s : State) : Result := .next (expireShadow s)

/-! ### Alarms (R396, R397) -/

/-- Address of an alarm's T (0) or D (1) register. -/
def alarmReg (n d : Nat) : Nat := Reg.RTC_ALM0_T + 8 * n + 4 * d

/-- The value matching uses at an edge. -/
def alarmAt (s : State) (a edge : Nat) : Word :=
  (mget [] s.rtc.alarms a).foldl (fun v e => if e.1 ≤ edge then e.2 else v) (regReset a)

/-- A write of an alarm register: matching uses it from the second edge after it. -/
def alarmWrite (s : State) (a : Nat) (v : Word) : State :=
  let e := rtcEdges s.now
  let old := alarmAt s a e
  let later := (mget [] s.rtc.alarms a).filter (fun p => decide (e < p.1))
  setRtc (wr s a v) (fun r => { r with alarms := mput [] r.alarms a ((0, old) :: later ++ [(e + 2, v)]) })

/-- One field of an alarm matches. -/
def fieldMatch (d : Word) (bit value own : Nat) : Bool := bitAt d (16 + bit) || value == own

/-- The date fields, and the time fields, of an alarm match. -/
def alarmDate (t d : Word) (c : Calendar) : Bool :=
  fieldMatch d 3 (fieldGet F.RTC_ALM0_T_WDAY t) c.wday && fieldMatch d 4 (fieldGet F.RTC_ALM0_D_DAY d) (bcd c.day) &&
    fieldMatch d 5 (fieldGet F.RTC_ALM0_D_MON d) (bcd c.mon)
def alarmTime (t d : Word) (h m x : Nat) : Bool :=
  fieldMatch d 2 (fieldGet F.RTC_ALM0_T_HOUR t) (bcd h) && fieldMatch d 1 (fieldGet F.RTC_ALM0_T_MIN t) (bcd m) &&
    fieldMatch d 0 (fieldGet F.RTC_ALM0_T_SEC t) (bcd x)

/-- An enabled alarm matches a second. -/
def alarmHits (t d : Word) (c : Calendar) : Bool := bitAt d 31 && alarmDate t d c && alarmTime t d c.hour c.min c.sec

/-- Alarms fire in the second that begins at an edge (R396); before POR a match is not recorded. (DESIGN CHOICE, log entry 72.) -/
def fireAlarms (s : State) (edge : Nat) : State :=
  if s.start.step = .porActive then s
  else [0, 1].foldl (fun s n =>
    if alarmHits (alarmAt s (alarmReg n 0) edge) (alarmAt s (alarmReg n 1) edge) (rtcCount s) then raise s 0xC5 n else s) s

/-- Some second of a day from `lo` up to, not including, `hi` (seconds of the day) has matching time fields. -/
def timeBetween (t d : Word) (lo hi : Nat) : Bool :=
  (List.range 24).any (fun h => (fieldMatch d 2 (fieldGet F.RTC_ALM0_T_HOUR t) (bcd h)) && decide (3600 * h < hi) && decide (lo < 3600 * (h + 1)) &&
    (List.range 60).any (fun m => (fieldMatch d 1 (fieldGet F.RTC_ALM0_T_MIN t) (bcd m)) &&
      decide (3600 * h + 60 * m < hi) && decide (lo < 3600 * h + 60 * (m + 1)) &&
      (List.range 60).any (fun x => alarmTime t d h m x && decide (lo ≤ 3600 * h + 60 * m + x) && decide (3600 * h + 60 * m + x < hi))))

/-- Some of `n` whole days from `c` on matches. -/
def daysMatch (t d : Word) : Nat → Calendar → Bool
  | 0, _ => false
  | n + 1, c => alarmDate t d c || daysMatch t d n (nextDay c)

/-- Days before a date, counted from 0000-01-01. -/
def dayNumber (c : Calendar) : Nat :=
  let y := c.year
  365 * y + (y + 3) / 4 + (y + 399) / 400 - (y + 99) / 100 +
    (List.range (c.mon - 1)).foldl (fun n k => n + monthDays y (k + 1)) 0 + (c.day - 1)

def daySecond (c : Calendar) : Nat := 3600 * c.hour + 60 * c.min + c.sec

/-- The date `n` days later. -/
def laterDay : Nat → Calendar → Calendar
  | 0, c => c
  | n + 1, c => laterDay n (nextDay c)

/-- An enabled alarm would have fired in some second strictly between two times (R397). Dates repeat, weekday
included, after 146,097 days. -/
def alarmBetween (t d : Word) (old new : Calendar) : Bool :=
  let n := dayNumber new - dayNumber old
  bitAt d 31 &&
    (if n = 0 then alarmDate t d old && timeBetween t d (daySecond old + 1) (daySecond new)
     else
       (alarmDate t d old && timeBetween t d (daySecond old + 1) 86400) ||
       (timeBetween t d 0 86400 && daysMatch t d (min (n - 1) 146097) (nextDay old)) ||
       (decide (0 < daySecond new) && timeBetween t d 0 (daySecond new) && alarmDate t d (laterDay (n % 146097) old)))

/-- A commit is forward (R397). -/
def calendarLater (a b : Calendar) : Bool :=
  decide (dayNumber b < dayNumber a) || (dayNumber a == dayNumber b && decide (daySecond b < daySecond a))

/-! ### Commits (R394, R395, R397) -/

/-- What RTC_CMD forbids: staging that is no date, a command while a SET_DEFER waits. -/
def rtcCmdErr (s : State) : Option Nat := errIf (flag s Reg.RTC_STAT F.RTC_STAT_SET_PEND || !(stagedOk s)) 394

/-- RTC_CMD SET (R394). -/
def execRtcSet (ini : Fin 16) (s : State) : Result :=
  softWrite ini 0xC5 0x7C (rtcCmdErr s) s (fun s =>
    setFlag (setRtc s (fun r => { r with setNow := some s.now })) Reg.RTC_STAT F.RTC_STAT_SET_AT_STEP false)

/-- SET_DEFER (R394). -/
def execRtcSetDefer (ini : Fin 16) (s : State) : Result :=
  softWrite ini 0xC5 0x7C (rtcCmdErr s) s (fun s =>
    let s := setRtc s (fun r => { r with setPend := some (ptpSec s), setChanged := false })
    setFlag (setFlag s Reg.RTC_STAT F.RTC_STAT_SET_AT_STEP false) Reg.RTC_STAT F.RTC_STAT_SET_PEND true)

/-- CANCEL (R394). -/
def execRtcCancel (ini : Fin 16) (s : State) : Result :=
  softWrite ini 0xC5 0x7C none s (fun s =>
    let s := setFlag s Reg.RTC_STAT F.RTC_STAT_SET_AT_STEP false
    if s.rtc.setPend.isSome then
      setFlag (setRtc s (fun r => { r with setPend := none, setChanged := false, setNow := if r.setChanged then none else r.setNow })) Reg.RTC_STAT F.RTC_STAT_SET_PEND false
    else s)

/-- The edge at which a command commits: the first one at least 8 ns after it. (DESIGN CHOICE, log entry 72.) -/
def commitEdge (t : Nat) : Nat := rtcEdgeFrom (t + 40)

/-- RTC_COMMIT (R394, R395, R397): a rollover at the same edge is replaced, one before it must have taken place. (DESIGN CHOICE, log entry 72.) -/
def execRtcCommit (s : State) : Result :=
  match s.rtc.setNow with
  | none => .next s
  | some t =>
    let e := commitEdge t
    whenDue (decide (e ≤ rtcEdges s.now) && decide (e ≤ s.rtc.base + 32768)) s
      (let old := rtcCount s
       let new := rtcStaged s
       let skipped := fun (n : Nat) => calendarLater new old &&
         alarmBetween (alarmAt s (alarmReg n 0) e) (alarmAt s (alarmReg n 1) e) old new
       let t := setCount s new
       let waits := s.rtc.setPend.isSome && !s.rtc.setChanged
       let t := setRtc t (fun r => { r with base := e, setNow := none, setPend := if waits then r.setPend else none, setChanged := false })
       let t := [0, 1].foldl (fun t n =>
         if skipped n then
           let t := raise t 0xC5 (2 + n)
           if bitAt (alarmAt s (alarmReg n 1) e) 24 then raise t 0xC5 n else t
         else t) t
       let t := fireAlarms t e
       raise (setFlag t Reg.RTC_STAT F.RTC_STAT_SET_PEND waits) 0xC5 5)

/-- RTC_SECOND (R391, R396). -/
def execRtcSecond (s : State) : Result :=
  let e := s.rtc.base + 32768
  let commits := match s.rtc.setNow with | some t => decide (commitEdge t ≤ e) | none => false
  whenDue (decide (e ≤ rtcEdges s.now) && !commits) s
    (fireAlarms (setRtc (setCount s (nextSecond (rtcCount s))) (fun r => { r with base := e })) e)

/-- BACKUP_POWER_LOSS (R392): 2000-01-01 00:00:00, Saturday, alarms at their reset values. (DESIGN CHOICE, log entry 72.) -/
def execBackupPowerLoss (s : State) : Result :=
  .next (setRtc ([Reg.RTC_ALM0_T, Reg.RTC_ALM0_D, Reg.RTC_ALM1_T, Reg.RTC_ALM1_D].foldl (fun s a => wr s a (regReset a))
    (setCount s { wday := 6, year := 2000 })) (fun r => { r with base := rtcEdges s.now, alarms := [] }))

end Sys2Proof.Machine
end

