-- ==== Sys2Proof/Machine/BlockReset.lean ====
section
/-!
DEFINITION. What a soft reset of a page (R23) and a reset of a clock domain (R17) return to its reset value: registers,
and what each block keeps beside them.
-/

namespace Sys2Proof.Machine

/-! ### Registers -/

/-- A register that only another kind of reset may change: the straps (R54), released cores (R52), the watchdog (R53),
the power state (R71, R74), the mode set (R79), and the backup domain (R391). (DESIGN CHOICE, log entry 22.) -/
def softKept (a : Nat) : Bool :=
  [Reg.STRAP_LATCH, Reg.SYS_CORE_REL, Reg.SYS_WDG_CFG, Reg.PWR_STAT, Reg.CYC_MODESET].contains a ||
    backupReg a

/-- Registers of page `pg` return to their reset values: all of them, or those of R23. -/
def pageRegsReset (all : Bool) (pg : Nat) (s : State) : State :=
  { s with regs := s.regs.filter (fun e =>
      !(e.1 / 0x1000 == pg && (all || decide (0x40 ≤ e.1 % 0x1000) || e.1 % 0x1000 == 0x0C || e.1 % 0x1000 == 0x10)) || softKept e.1) }

/-- A register at `a` shows what the block keeps. -/
def shownReg (a : Nat) : Bool :=
  match regRows.find? (fun r => rowAt r (a / 0x1000) (a % 0x1000)) with
  | some r => r.acc == .ro || r.acc == .rc
  | none => false

/-- What pages `p` to `q` show of their block returns to its reset value with the block. (DESIGN CHOICE, log entry 22.) -/
def shownReset (p q : Nat) (s : State) : State :=
  { s with regs := s.regs.filter (fun e => !(decide (p ≤ e.1 / 0x1000) && decide (e.1 / 0x1000 ≤ q) &&
      decide (0x40 ≤ e.1 % 0x1000) && shownReg e.1) || softKept e.1) }

/-! ### What blocks keep beside their registers -/

/-- The window words of the signals of pages `p` to `q` return to their reset value (R17, R23, R171): VALUE, QUAL and WMASK. (DESIGN CHOICE, log entry 22.) -/
def signalsReset (p q : Nat) (s : State) : State :=
  let gone := fun (a : Nat) => decide (512 * (p - 0x78) ≤ a / 16) && decide (a / 16 < 512 * (q + 1 - 0x78)) && decide (a % 16 < 8)
  { s with
    cleRam := s.cleRam.filter (fun e => !(gone e.1)),
    ecc := s.ecc.filter (fun e => !(decide (cleEcc ≤ e.1) && gone (e.1 - cleEcc))) }

/-- A remapped row is its bank's own row again (R453): what it then holds is open. (DESIGN CHOICE, log entry 23.) -/
def unmapRow (s : State) (row : Nat) : State :=
  let f := freeBytes s 1024
  wrBytes f.2 (rowBase row) f.1

def repairReset (s : State) : State :=
  let s := (s.memSys.rows.map (fun e => e.1)).foldl unmapRow s
  setMem s (fun m => { m with rows := [], spares := [], remap := none, refused := none })

/-- The safe state is left only through a reset of R49 (R302): a soft reset leaves it. (DESIGN CHOICE, log entry 22.) -/
def safeReset (s : State) : State :=
  if safeState s = 2 then s else safeSync (setSafe (shownReset 0xA1 0xA7 s) (fun _ => {}))

/-- GIVEUP is left only through a reset (R349). (DESIGN CHOICE, log entry 22.) -/
def mirrorReset (hard : Bool) (s : State) : State :=
  if s.mirror.gaveUp = true ∧ hard = false then s
  else
    let s := setMirror (shownReset 0xB1 0xB1 s) (fun m => { gaveUp := m.gaveUp })
    if pageEn s 0xB0 then mirrorEnable s true else pairCheck s

/-- PTP's own state: rates, slews and the servo; the time bases run on (R371, R373). -/
def ptpReset (s : State) : State :=
  setClock s (fun c => { running := c.running, mono := c.mono, ptp := c.ptp, echo := c.echo })

/-- Frames of a port's own rings leave its queues. -/
def ringsReset (k : Nat) (s : State) : State :=
  let s := (List.range 8).foldl (fun s q =>
    setQueue s k q ((queueOf s k q).filter (fun f => match f.ring with | some (h, _) => h != k | none => true))) s
  setPort s k (fun p => { p with fetched := [], done := [] })

/-- What the block of page `pg` keeps beside that page's registers returns to its reset value. Pages that only show or
configure a part of a block keep nothing of their own. (DESIGN CHOICE, log entry 22; DEDUCED, log entry 24.) -/
def blockReset (hard : Bool) (pg : Nat) (s : State) : State :=
  if pg = 0x004 then { s with sem := [] }
  else if pg = 0x009 then setFld s Reg.BOOT_STAT F.BOOT_STAT_LC s.efuse.lifeCycle.toNat
  else if 0x10 ≤ pg ∧ pg ≤ 0x16 then coreSync (setCore s (pg - 0x10) (fun k => { pc := k.pc, icacheFrom := k.icacheFrom })) (pg - 0x10)
  else if pg = 0x17 then { s with mmu := { tlb := s.mmu.tlb.filter (fun e => e.who == 6) } }
  else if pg = 0x35 then { s with mmu := { s.mmu with tlb := s.mmu.tlb.filter (fun e => e.who != 6) } }
  else if 0x20 ≤ pg ∧ pg ≤ 0x22 then setMem s (fun m => { m with track := m.track.filter (fun e => e.1 / 32 != pg - 0x20) })
  else if pg = 0x23 then
    (List.range 3).foldl (fun t i => setLane t i { passStart := monoNs t }) s
  else if pg = 0x24 then repairReset s
  else if 0x31 ≤ pg ∧ pg ≤ 0x34 then { s with dma := s.dma.filter (fun e => e.1 / 8 != pg - 0x31) }
  else if pg = 0x40 then
    let s := (List.range 4).foldl coreSync (shownReset 0x41 0x47 { s with cyc := {} })
    if modeSet s != 0 then setMachine s machStopped else s
  else if pg = 0x50 then setFlag (rxeReset s) (Reg.PSTAT 0x50) F.PSTAT_ENABLED (pageEn s 0x50)
  else if pg = 0x60 then
    let s := prismReset (shownReset 0x62 0x69 (pageRegsReset false 0x61 s))
    if prismEn s then prismEnable s true else s
  else if 0x62 ≤ pg ∧ pg ≤ 0x69 then prismSlotReset (pg - 0x62) s
  else if pg = 0x70 then
    let s := { shownReset 0x71 0x7F s with cle := { overrides := s.cle.overrides } }
    if pageEn s 0x70 then cleEnable s true else s
  else if 0x78 ≤ pg ∧ pg ≤ 0x7F then signalsReset pg pg s
  else if pg = 0x80 then
    let s := setMxe (mxeReset (shownReset 0x81 0x88 s)) (fun m => { m with
      ticks := monoNs s / 20000, grids := monoNs s / 50000, frames := monoNs s / 20000, signals := (monoNs s + 50000) / 100000 })
    axSync s
  else if pg = 0x90 then
    let s := mtrReset hard (shownReset 0x91 0x97 s)
    if mtrEn s then mtrStart s else s
  else if 0x91 ≤ pg ∧ pg ≤ 0x97 then mtrPartReset pg s
  else if pg = 0xA0 then safeReset s
  else if pg = 0xB0 then mirrorReset hard s
  else if pg = 0xC0 then ptpReset s
  else if 0xC1 ≤ pg ∧ pg ≤ 0xC4 then setEcho s (pg - 0xC1) []
  else if pg = 0xC5 then { s with rtc := { base := s.rtc.base, alarms := s.rtc.alarms } }
  else if 0xD0 ≤ pg ∧ pg ≤ 0xDB then
    let k := (pg - 0xD0) / 3
    if (pg - 0xD0) % 3 = 0 then portReset s k
    else if (pg - 0xD0) % 3 = 1 then ringsReset k s
    else setPort s k (fun p => { p with oper := none, gates := 255, changeAt := 0 })
  else if 0xE1 ≤ pg ∧ pg ≤ 0xE8 then setCan s (pg - 0xE1) (fun _ => {})
  else if pg = 0xF0 then setKeys s (fun q => { puf := q.puf, perm := q.perm })
  else if pg = 0x100 then setLantern s (fun _ => {})
  else if pg = 0x110 then setAgl s (fun g => { seconds := g.seconds })
  else s

/-- The pages of a clock domain. -/
def domainPages (d : Nat) : List Nat :=
  (pageTable.filter (fun r => r.2.2.2.1 == d)).flatMap (fun r => (List.range (r.2.1 + 1 - r.1)).map (fun k => r.1 + k))

/-- A domain comes out of reset (R17, R27): every register of its pages, page locks and keys included, and what its blocks
keep. (DEDUCED, log entry 24.) -/
def domainReset (d : Nat) (s : State) : State :=
  let ps := domainPages d
  let s := ps.foldl (fun s pg => pageRegsReset true pg { s with pkey := s.pkey.filter (fun e => e.1 != pg) }) s
  ps.foldl (fun s pg => blockReset true pg s) s

/-- The registers and the block of page `pg` after a soft reset (R23). One of the CLK page ends every domain reset (R17); the
mode set stays (R79), and FORCE_IND follows its condition (R113).
(DESIGN CHOICE, log entry 22.) -/
def softReset (pg : Nat) (s : State) : State :=
  let keepSafe := pg = 0xA0 ∧ safeState s = 2
  let keepRole := pg = 0xB0 ∧ s.mirror.gaveUp = true
  let held := if pg = 0x001 then (List.range 11).filter (fun d => bitAt (rd s Reg.CLK_DRST) d) else []
  let t := pageRegsReset false pg s
  let t := if keepSafe then wr t Reg.SAFE_STAT (rd s Reg.SAFE_STAT) else t
  let t := if keepRole then wr t Reg.MIRROR_STAT (rd s Reg.MIRROR_STAT) else t
  let t := if pg = 0x40 then setFlag t Reg.CYC_STAT F.CYC_STAT_FORCE_IND (flag s Reg.CYC_STAT F.CYC_STAT_FORCE_IND) else t
  let t := held.foldl (fun t d => domainReset d t) (blockReset false pg t)
  let t := if pageEn t pg || keepSafe || keepRole then t else setFlag t (Reg.PSTAT pg) F.PSTAT_ENABLED false
  if pg = 0x40 ∨ pg = 0x45 then syncForce t else t

end Sys2Proof.Machine
end

