-- ==== Sys2Proof/Machine/Mirror.lean ====
section
/-!
DEFINITION. The copy sets of a mirrored pair (R356-R362, R368, R483), the Mirror link (R353, R354), planned swaps (R367)
and the boot service (R369).
-/

namespace Sys2Proof.Machine

/-! ### What a set holds (R356) -/

/-- Bytes in pieces of at most 4,096, each with its item code and its destination. (DESIGN CHOICE, log entry 66.) -/
def fragments (code dest : Nat) (bs : List Byte) : List (Nat × Nat × List Byte) :=
  (List.range ((bs.length + 4095) / 4096)).map (fun k => (code, dest + 4096 * k, (bs.drop (4096 * k)).take 4096))

def padBytes (n : Nat) (bs : List Byte) : List Byte := (bs ++ List.replicate n 0).take n

/-- Leaf entries of a context as its tables hold them: virtual page, address and entry (R459, R466). -/
def leafList (s : State) (ctx : Nat) : List (Nat × Nat × Nat) :=
  let b := rdn s (Reg.MMU_CTXB ctx)
  if !(b.testBit 0) then []
  else (List.range (fld s (Reg.MMU_CTXL ctx) F.MMU_CTXL_LEN)).flatMap (fun i =>
    let root := rdLE s (b / 64 * 64 + 8 * i) 8
    if !(root.testBit 0) then []
    else (List.range (root / 2 ^ 32 % 2 ^ 15)).map (fun j =>
      let a := root % 2 ^ 32 / 64 * 64 + 8 * j
      (i * 2 ^ 14 + j, a, rdLE s a 8)))

/-- The page of a leaf entry. -/
def leafPage (leaf : Nat) : Nat := leaf % 2 ^ 32 / 4096 * 4096

/-- The mirror pages of a task's context. -/
def mirrorLeaves (s : State) (t : Nat) : List (Nat × Nat × Nat) :=
  (leafList s (fld s (Reg.TCTX t) F.TCTX_CTX)).filter (fun e => e.2.2.testBit 0 && leafBit e.2.2 6)

/-- Pieces of a virtual range as the page tables place them; an unmapped piece has no address. -/
def placeRange (s : State) (ctx va n : Nat) : List (Option Nat × Nat) :=
  (pieces (n / 4096 + 2) va n).map (fun p => match (walk s 10 ctx p.1).1 with
    | .inr (leaf, _) => (some (leafPage leaf + p.1 % 4096), p.2)
    | .inl _ => (none, p.2))

/-- The bytes of a virtual range, read at their physical addresses (R466). -/
def readPlaced (s : State) (ctx va n : Nat) : List Byte :=
  (placeRange s ctx va n).flatMap (fun p => match p.1 with
    | some a => rdBytes s a p.2
    | none => List.replicate p.2 0)

/-- Store the bytes of a virtual range at their physical addresses. -/
def writePlaced (s : State) (ctx va : Nat) (bs : List Byte) : State :=
  ((placeRange s ctx va bs.length).foldl (fun st p =>
    (match p.1 with | some a => store st.1 10 a (st.2.take p.2) | none => st.1, st.2.drop p.2)) (s, bs)).1

/-- The task record. -/
def taskRecord (s : State) (t : Nat) : List Byte :=
  padBytes 64 (leBytes 4 (rdn s (Reg.TCYCLES t)) ++ leBytes 4 (fld s (Reg.TSTAT t) F.TSTAT_OVR_RUN) ++
    leBytes 8 (task s t).t0Mono ++ leBytes 8 (task s t).t0Ptp)

/-- Where byte `o` of the CLE item lies in CLE RAM: loop states, pending slots, gain sets. -/
def cleItemAt (o : Nat) : Nat := if o < 8192 then lstA 0 + o else if o < 16384 then pndA 0 + (o - 8192) else gainA 0 0 + (o - 16384)

/-- The CLE item: 83,968 bytes. -/
def cleItem (s : State) : List Byte :=
  (List.range 81920).map (fun o => mget 0 s.cleRam (cleItemAt o)) ++
    (List.range 256).flatMap (fun l => leBytes 4 (rdn s (Reg.LCTL l))) ++ (List.range 256).flatMap (fun l => leBytes 4 (rdn s (Reg.LPIN l)))

/-- An axis's record. -/
def axisRecord (s : State) (a : Nat) : List Byte :=
  let ax := axNow s a
  padBytes 64 (leBytes 8 (unsignedOf 64 (fix16 ax.p)) ++ leBytes 4 (unsignedOf 32 ax.offset) ++ leBytes 1 (axState s a) ++
    leBytes 1 (if axFlag s a F.ASTAT_HOMED then 1 else 0) ++ leBytes 1 (if axFlag s a F.ASTAT_POS_LOST then 1 else 0) ++ leBytes 1 0 ++
    leBytes 8 (unsignedOf 64 ax.target) ++ leBytes 8 (unsignedOf 64 ax.ratio.num) ++ leBytes 8 ax.ratio.den ++
    leBytes 8 (unsignedOf 64 ax.m0) ++ leBytes 8 (unsignedOf 64 (fix16 ax.p0)) ++ leBytes 1 (if ax.blend.isSome then 1 else 0))

/-- A session's record and its published input buffer. -/
def sessionRecord (s : State) (x : Nat) : List Byte :=
  let k := sess s x
  padBytes 64 (leBytes 1 (sState s x) ++ leBytes 1 (match k.published with | some b => b + 1 | none => 0) ++ leBytes 2 0 ++
    leBytes 4 (rdn s (Reg.SRX_SEQ x)) ++ leBytes 4 (rdn s (Reg.STX_SEQ x)) ++ leBytes 4 k.outGen ++ leBytes 4 k.ebRxSeq ++
    leBytes 4 k.ebConsumed ++ leBytes 1 k.ebHeld ++ leBytes 1 k.ebCredit ++ leBytes 2 0 ++ leBytes 4 k.ebTxSeq ++
    leBytes 4 (rdn s (Reg.SGEN x)) ++ leBytes 4 0 ++ leBytes 8 (k.ageRef / ptpUnit)) ++
    (match k.published with
    | some b => readPlaced s (rxeCtx s) (xInBuf s x + b * xInSize s x) (xInLen s x)
    | none => List.replicate (xInLen s x) 0)

/-- A Prism slot's published buffer, then PUB. -/
def slotRecord (s : State) (k : Nat) : List Byte :=
  let n := bufSize (pslot s k).model
  readPlaced s (outCtx s k) (outVa s k + 0x40 + (if (pslot s k).pubB then n else 0)) n ++
    leBytes 8 (rdn s (Reg.PRISM_SLOT_PUB k) + (if (pslot s k).pubB then 2 ^ 32 else 0))

/-- The slots a set copies: changed since their last copy, or all the first time. -/
def slotsToCopy (s : State) : List Nat :=
  (List.range 8).filter (fun k => slotState s k == slotReady &&
    ((s.mirror.peerSync == 1 && !s.mirror.globalSent) || rdn s (Reg.PRISM_SLOT_PUB k) != mget 0 s.mirror.pubSeen k))

/-- The global items. -/
def globalItems (s : State) : List (Nat × Nat × List Byte) :=
  fragments 5 0 (cleItem s) ++ fragments 6 0 ((List.range 16).flatMap (axisRecord s)) ++
    ((List.range 1024).filter (fun x => !(rxeDisabled s x))).flatMap (fun x => fragments 7 (x * 65536) (sessionRecord s x)) ++
    (slotsToCopy s).flatMap (fun k => fragments 8 (k * 2 ^ 28) (slotRecord s k))

/-- The mapped pieces of a virtual range, at their physical addresses. -/
def placed (s : State) (ctx va n : Nat) : List (Nat × Nat) :=
  (placeRange s ctx va n).filterMap (fun p => p.1.map (fun a => (a, p.2)))

/-- The ranges the global items are read from: published input buffers, and published result buffers. -/
def globalRanges (s : State) : List (Nat × Nat) :=
  ((List.range 1024).filter (fun x => !(rxeDisabled s x))).flatMap (fun x => match (sess s x).published with
    | some b => placed s (rxeCtx s) (xInBuf s x + b * xInSize s x) (xInLen s x)
    | none => []) ++
  (slotsToCopy s).flatMap (fun k =>
    let n := bufSize (pslot s k).model
    placed s (outCtx s k) (outVa s k + 0x40 + (if (pslot s k).pubB then n else 0)) n)

/-- The physical ranges a set is read from, besides CLE RAM and registers: the leaf entries, then the items in order (R358). -/
def setRanges (s : State) (t : Nat) (leaves pages : List (Nat × Nat × Nat)) : List (Nat × Nat) :=
  let m := outMap s t
  leaves.map (fun e => (e.2.1, 8)) ++ [(mapBuf m (flag s (Reg.TSTAT t) F.TSTAT_OUTBUF), mapImgLen m),
    (rdn s Reg.CYC_RET_BASE + retLen s + 64 * fld s (Reg.TRET t) F.TRET_OFF64, 64 * fld s (Reg.TRET t) F.TRET_LEN64)] ++
    pages.map (fun e => (leafPage e.2.2, 4096)) ++
    (if t = fld s Reg.MIRROR_CFG F.MIRROR_CFG_GTASK then globalRanges s else [])

/-- Read ranges up to the first uncorrectable error. -/
def scanRanges (s : State) (rs : List (Nat × Nat)) : Bool × State :=
  rs.foldl (fun st r => if st.1 then st else let q := readScan st.2 10 r.1 r.2; (q.1.isSome, q.2)) (false, s)

/-- Clear the dirty bit of a leaf entry and of its cached copies (R358, R462). -/
def cleanLeaf (s : State) (e : Nat × Nat × Nat) : State :=
  let s := store s 10 e.2.1 (leBytes 8 (if e.2.2.testBit 7 then e.2.2 - 128 else e.2.2))
  setMmu s (fun m => { m with tlb := m.tlb.map (fun x =>
    if x.leafAt = e.2.1 then { x with leaf := if x.leaf.testBit 7 then x.leaf - 128 else x.leaf } else x) })

def setBytes (x : MirrorSet) : Nat := x.items.foldl (fun n i => n + i.2.2.length) 0

/-- A staging area holds a set in a layout of its own: its bytes are open. (DESIGN CHOICE, log entry 67.) -/
def scribble (s : State) (a n : Nat) : State :=
  let f := freeBytes s n
  store f.2 10 a f.1

/-- A set of task `t` is skipped (R359, R483). -/
def lagSet (s : State) (t : Nat) : State :=
  let s := wr s Reg.MIRROR_LAG (putBit (rd s Reg.MIRROR_LAG) t true)
  let s := raise (satFld s Reg.MIRROR_LAG_CNT ⟨0, 32⟩ 1) 0xB0 2
  setMirror (aglEvent s (.add 10 28 8 1)) (fun m => { m with lagged := mput false m.lagged t true })

/-- Note the largest set. -/
def noteSet (s : State) (n : Nat) : State := if rdn s Reg.MIRROR_SET_MAX < n then wrn s Reg.MIRROR_SET_MAX n else s

/-- Form the set of task `t` (R356, R358, R362, R368, R483); the flag tells of a set larger than the staging area. -/
def buildSet (s0 : State) (t : Nat) : Bool × State :=
  let leaves := leafList s0 (fld s0 (Reg.TCTX t) F.TCTX_CTX)
  let pagesAll := mirrorLeaves s0 t
  let dirty := pagesAll.filter (fun e => leafBit e.2.2 7)
  let sent := mget [] s0.mirror.swept t
  let sweep := if s0.mirror.peerSync == 1 then
      (pagesAll.filter (fun e => !(leafBit e.2.2 7) && !(sent.contains e.1))).take (fld s0 Reg.MIRROR_CFG F.MIRROR_CFG_SWEEP)
    else []
  let pages := dirty ++ sweep
  let m := outMap s0 t
  let b := flag s0 (Reg.TSTAT t) F.TSTAT_OUTBUF
  let isG := t == fld s0 Reg.MIRROR_CFG F.MIRROR_CFG_GTASK
  let r := scanRanges s0 (setRanges s0 t leaves pages)
  if r.1 then (false, lagSet r.2 t)
  else
    let s := r.2
    let ret := rdn s Reg.CYC_RET_BASE + retLen s + 64 * fld s (Reg.TRET t) F.TRET_OFF64
    let items := fragments 1 0 (taskRecord s t) ++ fragments 2 (mapBuf m b) (rdBytes s (mapBuf m b) (mapImgLen m)) ++
      fragments 3 ret (rdBytes s ret (64 * fld s (Reg.TRET t) F.TRET_LEN64)) ++
      pages.flatMap (fun e => fragments 4 (leafPage e.2.2) (rdBytes s (leafPage e.2.2) 4096)) ++
      (if isG then globalItems s else [])
    let n := nextNumber s t
    let x : MirrorSet := {
      task := t, number := n, exch := s.mirror.exchTasks.contains t, image := imageId s, mono := monoNs s, items := items }
    let x := { x with frozenAt := s.now + 32 * leaves.length + (setBytes x + 1) / 2 }
    let slots := if isG then slotsToCopy s else []
    let s := dirty.foldl cleanLeaf s
    let s := noteSet (scribble s (rdn s Reg.MIRROR_TXS) (setBytes x)) (setBytes x)
    (decide (4096 * fld s Reg.MIRROR_BUFLEN F.MIRROR_BUFLEN_TXS_PG < setBytes x), setMirror s (fun q => { q with
      numbers := mput 0 q.numbers t n, lagged := mput false q.lagged t false, freezing := q.freezing ++ [x],
      unacked := q.unacked ++ [(t, n)],
      swept := if q.peerSync = 1 then mput [] q.swept t (sent ++ pages.map (fun e => e.1)) else q.swept,
      globalSent := q.globalSent || isG, exchTasks := q.exchTasks.filter (fun u => u != t),
      pubSeen := slots.foldl (fun p k => mput 0 p k (rdn s (Reg.PRISM_SLOT_PUB k))) q.pubSeen }))

/-- Sets are formed: ROLE is ACTIVE and the link is up with the peer in STANDBY (R356). -/
def copying (s : State) : Bool := role s == 4 && linkUp s && s.mirror.peerRole == 2 && mirrorRuns s

/-- The commit of task `t` (R356, R359). (DESIGN CHOICE, log entry 66; DEDUCED, log entry 69.) -/
def commitSet (s : State) (t : Nat) : Bool × State :=
  if !(copying s) then (false, s)
  else if s.mirror.unacked.any (fun u => u.1 == t) then (false, lagSet s t)
  else buildSet s t

/-- The commit copy ends, and the sets of the tasks whose commit instant has come are formed (R95, R356); true where one of
them does not fit (R358). -/
def commitAll (s0 : State) : Bool × State :=
  let s := commitInstant s0
  s.mirror.commits.foldl (fun st t => let q := commitSet st.2 t; (st.1 || q.1, q.2))
    (false, setMirror s (fun m => { m with commits := [] }))

/-- COMMIT_INSTANT (R94, R95, R97-R99, R101, R102, R116, R356, R358, R359, R481, R483). -/
def execCommitInstant (s : State) : Result := check (errIf (commitAll s).1 358) (settle s (commitAll s).2)

/-! ### Sending (R354, R358) -/

/-- The frames of a set. -/
def sendSet (s : State) (x : MirrorSet) : State :=
  let s := mirrorSend s 2 (if x.exch then 256 else 0) x.task (some x.number) (leBytes 8 x.image ++ leBytes 8 x.mono)
  let s := x.items.foldl (fun s i => mirrorSend s 3 0 x.task none (leBytes 2 i.1 ++ leBytes 2 0 ++ leBytes 4 i.2.1 ++ i.2.2)) s
  mirrorSend s 4 0 x.task none []

/-- The next frozen set goes onto the link. -/
def sendNext (s : State) : State :=
  match s.mirror.sending, s.mirror.ready with
  | none, x :: xs => sendSet (setMirror s (fun m => { m with sending := some { x with frozenAt := s.now }, ready := xs })) x
  | _, _ => s

/-- The freeze that ends first. -/
def firstFreeze (xs : List MirrorSet) : Option MirrorSet :=
  xs.foldl (fun b x => match b with | some y => if x.frozenAt < y.frozenAt then some x else some y | none => some x) none

/-- FREEZE_END (R358). -/
def execFreezeEnd (s : State) : Result :=
  match firstFreeze s.mirror.freezing with
  | some x => whenDue (decide (x.frozenAt ≤ s.now) && mirrorRuns s) s
      (sendNext (setMirror s (fun m => { m with freezing := m.freezing.erase x, ready := m.ready ++ [x] })))
  | none => .next s

/-- The time of a set on the link, VCO cycles: 25/3 a byte at 600 MB/s (R353, R358). -/
def linkTime (x : MirrorSet) : Nat := (25 * (setBytes x + 28 * x.items.length + 56) + 2) / 3

/-- SET_SENT (R358). -/
def execSetSent (s : State) : Result :=
  match s.mirror.sending with
  | some x => whenDue (decide (x.frozenAt + linkTime x ≤ s.now) && mirrorRuns s) s
      (sendNext (setMirror s (fun m => { m with sending := none })))
  | none => .next s

/-- The Boot ROM takes its image from the peer (R63, R369). -/
def bootFromPeer (s : State) : Bool :=
  fld s Reg.STRAP_LATCH F.STRAP_LATCH_BOOT == 2 && (match s.boot.step with | .headers _ => true | .sections _ _ _ => true | _ => false)

/-- The link works (R353): MIRROR is enabled, or the Boot ROM uses it. (DESIGN CHOICE, log entry 67.) -/
def linkRuns (s : State) : Bool := mirrorRuns s || (domainUp s 5 && bootFromPeer s)

/-- The STATUS payload (R354). -/
def statusFrame (s : State) : List Byte :=
  linkFrame s 1 0 (Config.freeWord s.free).toNat 0
    (leBytes 8 (imageId s) ++ leBytes 1 (fld s Reg.MIRROR_STAT F.MIRROR_STAT_GIVEUP_CAUSE) ++ List.replicate 7 0)

/-- STATUS_SEND (R353): the newest STATUS frame stands for the ones before it. -/
def execStatusSend (s : State) : Result :=
  whenDue (linkRuns s && decide (s.mirror.lastSent + 10 * vcoUs ≤ s.now)) s
    (setMirror { s with free := s.free + 1 } (fun m => { m with
      sent := m.sent.filter (fun f => leNat (f.take 1) != 1) ++ [statusFrame s], lastSent := s.now }))

/-! ### Receiving frames (R353, R354) -/

def lkF (f : List Byte) (off n : Nat) : Nat := leNat ((f.drop off).take n)
def lkTask (f : List Byte) : Nat := lkF f 8 1 % 16
def lkPayload (f : List Byte) : List Byte := (f.drop 16).take (lkF f 12 4)

/-- A frame is whole and its CRC matches. -/
def lkValid (f : List Byte) : Bool :=
  f.length == 20 + lkF f 12 4 && lkF f (f.length - 4) 4 == crc32c (f.take (f.length - 4))

/-- A frame is discarded for its CRC. -/
def linkBad (s : State) : State :=
  setMirror (satFld s Reg.MIRROR_LINK_ERR ⟨0, 32⟩ 1) (fun m => { m with validRun := 0 })

/-- LINK_FRAME_BAD_CRC (R353). -/
def execLinkFrameBadCrc (s : State) : Result := whenDue (linkRuns s) s (linkBad s)

/-- SYNC moves to SYNCING (R362). -/
def beginSync (s : State) : State :=
  setMirror (setSync s 1) (fun m => { m with got := [], firstSeen := [], sweepDone := [], further := [] })

/-- What a valid frame's header tells, and the link comes up after three (R353, R354). -/
def headerSeen (s : State) (f : List Byte) : State :=
  let fl := lkF f 2 2
  let was := s.mirror.peerSync
  let s := setMirror s (fun m => { m with
    lastValid := s.now, peerRole := fl % 8, peerSync := fl / 16 % 4, validRun := m.validRun + 1,
    swept := if fl / 16 % 4 = 1 ∧ was ≠ 1 then [] else m.swept,
    globalSent := if fl / 16 % 4 = 1 ∧ was ≠ 1 then false else m.globalSent })
  let s := if !(linkUp s) && decide (3 ≤ s.mirror.validRun) then raise (setMirrorFlag s F.MIRROR_STAT_LINK_UP true) 0xB0 3 else s
  let s := setMirrorFlag s F.MIRROR_STAT_PEER_ACTIVE (linkUp s && (fl % 8 == 3 || fl % 8 == 4))
  pairCheck (if mirrorRuns s then roleCheck s else s)

/-- Sequence numbers modulo 2³². -/
def seqNext32 (n : Nat) : Nat := (n + 1) % 0x100000000
def seqAhead (a b : Nat) : Bool := decide ((a + 0x100000000 - b) % 0x100000000 < 0x80000000)

/-- A frame of `kind` arrives: a bad one is counted; a numbered one out of its place is answered with NAK, or dropped. -/
def receiveLink (kind : Nat) (numbered : Bool) (f : List Byte) (s0 : State) (k : State → State) : Result :=
  let s := s0
  if !(linkRuns s) then .next s
  else if !(lkValid f) then .next (linkBad s)
  else if lkF f 0 1 != kind then .next s
  else
    let s := headerSeen s f
    if !numbered then settle s0 (k s)
    else if lkF f 4 4 == s.mirror.rxSeq then settle s0 (k (setMirror s (fun m => { m with rxSeq := seqNext32 m.rxSeq })))
    else if seqAhead (lkF f 4 4) s.mirror.rxSeq then .next (mirrorSend s 6 0 0 (some s.mirror.rxSeq) [])
    else .next s

/-- LINK_DOWN (R353, R360, R361): 100 µs without a valid frame. (DESIGN CHOICE, log entry 67.) -/
def execLinkDown (s : State) : Result :=
  whenDue (linkUp s && decide (s.mirror.lastValid + 100 * vcoUs ≤ s.now)) s
    (let s := raise (setMirrorFlag (setMirrorFlag s F.MIRROR_STAT_LINK_UP false) F.MIRROR_STAT_PEER_ACTIVE false) 0xB0 3
     let s := setMirror s (fun m => { m with
       validRun := 0, peerRole := 0, peerSync := 0, receiving := none, freezing := [], ready := [], sending := none, unacked := [],
       sent := [], txSeq := 0, rxSeq := 0 })
     roleCheck (pairCheck s))

/-- STATUS_RECEIVE (R353-R355, R362). -/
def execStatusReceive (f : List Byte) (s : State) : Result :=
  receiveLink 1 false f s (fun s =>
    let s := setMirror s (fun m => { m with peerImage := lkF f 16 8 })
    if role s == 2 && syncOf s == 0 && linkUp s && s.mirror.peerRole == 4 && s.mirror.peerImage == imageId s then beginSync s else s)

/-- A set begins to arrive (R361, R362, R368). (DESIGN CHOICE, log entry 66.) -/
def setBegin (s : State) (f : List Byte) : State :=
  let t := lkTask f
  let n := lkF f 4 4
  let s := setMirror s (fun m => { m with receiving := none })
  if role s != 2 || syncOf s == 0 then s
  else
    let last := match (s.mirror.journal.filter (fun x => x.task == t)).getLast? with
      | some x => x.number
      | none => rdn s (Reg.MIRROR_TSEQ t)
    let next := if (last + 1) % 2 ^ 32 = 0 then 1 else (last + 1) % 2 ^ 32
    let first := syncOf s == 1 && !(s.mirror.firstSeen.contains t)
    if lkF f 16 8 != imageId s || (!first && n != next) then setSync s 0
    else
      let s := if first then wrn s (Reg.MIRROR_TSEQ t) n else s
      setMirror s (fun m => { m with
        firstSeen := if first then m.firstSeen ++ [t] else m.firstSeen,
        receiving := some {
          task := t, number := n, exch := (lkF f 2 2).testBit 8, image := lkF f 16 8, mono := lkF f 24 8, starts := m.axisStarts.length } })

/-- SET_BEGIN_RECEIVE. -/
def execSetBeginReceive (f : List Byte) (s : State) : Result := receiveLink 2 false f s (fun s => setBegin s f)

/-- SET_DATA_RECEIVE (R354, R361). -/
def execSetDataReceive (f : List Byte) (s : State) : Result :=
  receiveLink 3 true f s (fun s =>
    match s.mirror.receiving with
    | some x =>
      if role s = 2 ∧ x.task = lkTask f then
        setMirror s (fun m => { m with
          receiving := some { x with items := x.items ++ [(lkF f 16 2, lkF f 20 4, (lkPayload f).drop 8)] } })
      else s
    | none => s)

/-- SET_END_RECEIVE (R359, R361): a whole set enters the journal and is acknowledged. -/
def execSetEndReceive (f : List Byte) (s : State) : Result :=
  receiveLink 4 true f s (fun s =>
    match s.mirror.receiving with
    | some x =>
      if role s = 2 ∧ x.task = lkTask f then
        let s := noteSet (scribble s (rdn s Reg.MIRROR_JRNL) (setBytes x)) (setBytes x)
        let g := x.task == fld s Reg.MIRROR_CFG F.MIRROR_CFG_GTASK
        let s := setMirror s (fun m => { m with
          receiving := none, journal := m.journal ++ [{ x with frozenAt := s.now }],
          axisStarts := if g then m.axisStarts.drop x.starts else m.axisStarts })
        mirrorSend s 5 0 x.task none []
      else s
    | none => s)

/-! ### Applying a set (R356, R361, R362, R368, R483) -/

/-- The bytes of an item that its fragments make up. -/
def joined (x : MirrorSet) (code unit k : Nat) : List Byte :=
  (x.items.filter (fun i => i.1 == code && i.2.1 / unit == k)).flatMap (fun i => i.2.2)

/-- A fragment of an item with a place of its own. -/
def applyItem (t : Nat) (s : State) (i : Nat × Nat × List Byte) : State :=
  let bs := i.2.2
  match i.1 with
  | 1 =>
    let s := wrn s (Reg.TCYCLES t) (leNat (bs.take 4))
    let s := setFld s (Reg.TSTAT t) F.TSTAT_OVR_RUN (leNat ((bs.drop 4).take 4))
    let s := wr64 s (Reg.TT0_LO t) (Reg.TT0_HI t) (leNat ((bs.drop 8).take 8))
    setTask s t (fun k => { k with t0Mono := leNat ((bs.drop 8).take 8), t0Ptp := leNat ((bs.drop 16).take 8) })
  | 2 =>
    let s := store s 10 i.2.1 bs
    let m := outMap s t
    if i.2.1 = mapBuf m false then setFlag s (Reg.TSTAT t) F.TSTAT_OUTBUF false
    else if i.2.1 = mapBuf m true then setFlag s (Reg.TSTAT t) F.TSTAT_OUTBUF true
    else s
  | 3 => store (store s 10 i.2.1 bs) 10 (i.2.1 - retLen s) bs
  | 4 => store s 10 i.2.1 bs
  | 5 => bs.zipIdx.foldl (fun s b =>
      let o := i.2.1 + b.2
      if o < 81920 then { s with cleRam := mput 0 s.cleRam (cleItemAt o) b.1 }
      else
        let r := if o < 82944 then Reg.LCTL ((o - 81920) / 4) else Reg.LPIN ((o - 82944) / 4)
        setFld s r ⟨8 * (o % 4), 8⟩ b.1.toNat) s
  | 6 => (List.range 16).foldl (fun s a =>
      setMirror s (fun m => { m with axes := mput [] m.axes a ((bs.drop (64 * a)).take 64) })) s
  | _ => s

/-- A session's copied state. -/
def applySession (s : State) (x : Nat) (b : List Byte) : State :=
  let n (off k : Nat) : Nat := leNat ((b.drop off).take k)
  if rxeDisabled s x then s
  else
    let s := setFld (setFld s (Reg.SSTAT x) F.SSTAT_STATE (n 0 1)) (Reg.SSTAT x) F.SSTAT_QUAL (stateQual (n 0 1))
    let s := wrn (wrn (wrn s (Reg.SRX_SEQ x) (n 4 4)) (Reg.STX_SEQ x) (n 8 4)) (Reg.SGEN x) (n 32 4)
    let s := setSess s x (fun k => { k with
      published := if n 1 1 = 0 then none else some (n 1 1 - 1), outGen := n 12 4, ebRxSeq := n 16 4, ebConsumed := n 20 4,
      ebHeld := n 24 1, ebCredit := n 25 1, ebTxSeq := n 28 4, ageRef := n 40 8 * ptpUnit })
    if n 1 1 = 0 then s else writePlaced s (rxeCtx s) (xInBuf s x + (n 1 1 - 1) * xInSize s x) (b.drop 64)

/-- A slot's copied result: the buffer, then PUB (R227). -/
def applySlot (s : State) (k : Nat) (b : List Byte) : State :=
  let pub := leNat (b.drop (b.length - 8))
  let buf := b.take (b.length - 8)
  let s := writePlaced s (outCtx s k) (outVa s k + 0x40 + (if pub.testBit 32 then buf.length else 0)) buf
  let s := writePlaced s (outCtx s k) (outVa s k) (leBytes 8 pub)
  setPslot (wrn s (Reg.PRISM_SLOT_PUB k) (pub % 2 ^ 32)) k (fun p => { p with pubB := pub.testBit 32 })

/-- Step 4 of R130 on the standby, from its own copy of the incoming descriptor (R368): CYC_XDESC names it, or CYC_XPREV where
CYC_XACT is already the one CYC_XDESC names. (DEDUCED, log entry 69.) -/
def applyExch (s : State) : State :=
  let out := rdn s Reg.CYC_XACT
  let din := if rdn s Reg.CYC_XDESC = out then rdn s Reg.CYC_XPREV else rdn s Reg.CYC_XDESC
  let s := (exchGroup s).foldl (fun s t =>
    let was := taskState s t
    setTaskState (loadTask din s t) t was) s
  let s := wrn (wrn s Reg.CYC_RET_BASE (dRetBase s din)) Reg.CYC_RET_LEN (dRetLen s din)
  let s := wr64 s Reg.CYC_RET_SIG_LO Reg.CYC_RET_SIG_HI (dRetSig s din)
  beginSync (wrn (wrn s Reg.CYC_XACT din) Reg.CYC_XPREV out)

/-- The mirrored tasks. -/
def mirrored (s : State) : List Nat := allTasks.filter (mirrorTask s)

/-- Progress of SYNCING after a set has been applied (R362). -/
def syncProgress (s : State) (x : MirrorSet) : State :=
  if syncOf s != 1 then s
  else
    let t := x.task
    let got := (mget [] s.mirror.got t ++ (x.items.filter (fun i => i.1 == 4)).map (fun i => i.2.1)).eraseDups
    let done := (mirrorLeaves s t).all (fun e => got.contains (leafPage e.2.2))
    let s := setMirror s (fun m => { m with
      got := mput [] m.got t got,
      further := if m.sweepDone.contains t then m.further ++ [t] else m.further,
      sweepDone := if done && !(m.sweepDone.contains t) then m.sweepDone ++ [t] else m.sweepDone })
    if (mirrored s).all (fun t => s.mirror.further.contains t) then roleCheck (setSync s 2) else s

/-- The items whose bytes lie before byte `n` of a set's place in the journal. (DEDUCED, log entry 68.) -/
def itemsBefore (n : Nat) : List (Nat × Nat × List Byte) → List (Nat × Nat × List Byte)
  | [] => []
  | i :: is => if i.2.2.length ≤ n then i :: itemsBefore (n - i.2.2.length) is else []

/-- The items of a set in table order (R361). -/
def applyItems (s : State) (x : MirrorSet) : State :=
  let s := x.items.foldl (applyItem x.task) s
  let s := (List.range 1024).foldl (fun s k => let b := joined x 7 65536 k; if b.isEmpty then s else applySession s k b) s
  (List.range 8).foldl (fun s k => let b := joined x 8 (2 ^ 28) k; if b.isEmpty then s else applySlot s k b) s

/-- Apply a whole set; an uncorrectable error in the journal discards the rest of it (R483). (DEDUCED, log entry 68.) -/
def applySet (s : State) (x : MirrorSet) : State :=
  let s := setMirror s (fun m => { m with journal := m.journal.tail, applied := if m.journal.tail.isEmpty then some s.now else m.applied })
  let r := readScan s 10 (rdn s Reg.MIRROR_JRNL) (setBytes x)
  let y := { x with items := itemsBefore (match r.1 with | some w => w - rdn s Reg.MIRROR_JRNL | none => setBytes x) x.items }
  let s := if x.exch then applyExch r.2 else r.2
  let s := (loadMaps s x.task).2
  let s := applyItems s y
  if r.1.isSome then setSync s 0
  else
    let s := (distEntries s x.task ((mapEntries (outMap s x.task)).filter (fun e => mapKind e == 1))).2
    syncProgress (wrn s (Reg.MIRROR_TSEQ x.task) x.number) x

/-- SET_APPLY (R361-R363, R368, R483). (DEDUCED, log entry 69.) -/
def execSetApply (s : State) : Result :=
  match s.mirror.journal with
  | x :: _ => settleDue (mirrorRuns s && (role s == 2 || role s == 3) && decide (x.frozenAt + (setBytes x + 1) / 2 ≤ s.now)) s (applySet s x)
  | [] => .next s

/-! ### Acknowledgements (R359, R360) and planned swaps (R367) -/

/-- No set is frozen, waits, is sent or unacknowledged. -/
def allAcked (s : State) : Bool := s.mirror.unacked.isEmpty && s.mirror.freezing.isEmpty && s.mirror.ready.isEmpty && s.mirror.sending.isNone

/-- SWAP_RES changes. -/
def swapResult (s : State) (r : Nat) : State :=
  let s := setMirrorFlag s F.MIRROR_STAT_SWAP_BUSY false
  if fld s Reg.MIRROR_STAT F.MIRROR_STAT_SWAP_RES = r then s else raise (setFld s Reg.MIRROR_STAT F.MIRROR_STAT_SWAP_RES r) 0xB0 5

/-- Steps 3 and 4 of R367, once every final set has been acknowledged. (DEDUCED, log entry 69.) -/
def swapEnd (s : State) : State :=
  if s.mirror.swapping && role s == 4 && allAcked s then
    let s := aglEvent (mirrorSend s 12 0 0 none []) (.add 10 4 4 1)
    swapResult (enterStandby (pairCheck s) 2) 1
  else s

/-- Frames that have arrived need not be sent again: all up to the SET_END of the task. -/
def trimSent (t : Nat) : List (List Byte) → List (List Byte)
  | [] => []
  | f :: fs => if leNat (f.take 1) = 4 ∧ lkTask f = t then fs else trimSent t fs

/-- MIRROR_ACK_RECEIVE (R359, R360, R367). -/
def execMirrorAckReceive (f : List Byte) (s : State) : Result :=
  receiveLink 5 true f s (fun s =>
    let t := lkTask f
    let waiting := s.mirror.freezing ++ s.mirror.ready ++ s.mirror.sending.toList
    match s.mirror.unacked.find? (fun u => u.1 == t) with
    | some u =>
      if waiting.any (fun x => x.task == t && x.number == u.2) then s
      else
        let s := wrn s (Reg.MIRROR_TSEQ t) u.2
        let rel := s.mirror.held.filter (fun h => h.1 == t && h.2.2 == u.2)
        let s := rel.foldl (fun s h => rxeRelease s h.2.1) s
        swapEnd (setMirror s (fun m => { m with
          unacked := m.unacked.erase u, held := m.held.filter (fun h => !(rel.contains h)), sent := trimSent t m.sent }))
    | none => s)

/-- NAK_RECEIVE (R354): the frames from the expected one are sent again. -/
def execNakReceive (f : List Byte) (s : State) : Result :=
  receiveLink 6 false f s (fun s =>
    let again := s.mirror.sent.dropWhile (fun g =>
      leNat (g.take 1) == 1 || leNat (g.take 1) == 2 || leNat (g.take 1) == 6 || lkF g 4 4 != lkF f 4 4)
    setMirror s (fun m => { m with sent := m.sent ++ again, lastSent := if again.isEmpty then m.lastSent else s.now }))

/-- PLANNED_SWAP (R367). (DEDUCED, log entry 69.) -/
def execPlannedSwap (ini : Fin 16) (tmo : BitVec 16) (s : State) : Result :=
  mirrorCommand ini (errIf (tmo == 0) 38) s (fun s =>
    if pairSynced s then
      setMirror (setMirrorFlag s F.MIRROR_STAT_SWAP_BUSY true) (fun m => { m with swapBy := monoNs s + tmo.toNat * 1000000 })
    else swapResult s 2)

/-- The swap waits for its instant. -/
def swapWaits (s : State) : Bool := mirrorFlag s F.MIRROR_STAT_SWAP_BUSY && !s.mirror.swapping && role s == 4

/-- The swap instant (R367): control is released and a final set of every mirrored task is formed from the maps and the
release the tasks ended with; whether one exceeds the transmit staging. -/
def swapSets (s : State) : Bool × State :=
  let ks := (mirrored s).map (fun t => (t, task s t))
  let s := release (setMirrorFlag (setMirror s (fun m => { m with swapping := true })) F.MIRROR_STAT_ACT_OK false)
  let s := ks.foldl (fun s m => setTask s m.1 (fun k => { k with omap := m.2.omap, t0Mono := m.2.t0Mono, t0Ptp := m.2.t0Ptp })) s
  (mirrored s).foldl (fun st t => let q := buildSet st.2 t; (st.1 || q.1, q.2)) (false, s)

/-- SWAP_INSTANT (R367): the releases are suspended and the acknowledgements are in. -/
def execSwapInstant (s : State) : Result :=
  if swapWaits s && (mirrored s).all (betweenCycles s) && allAcked s then
    check (errIf (swapSets s).1 358) (settle s (swapEnd (swapSets s).2))
  else .next s

/-- SWAP_TIMEOUT (R367). -/
def execSwapTimeout (s : State) : Result := whenDue (swapWaits s && decide (s.mirror.swapBy ≤ monoNs s)) s (swapResult s 2)

/-! ### The other kinds of frame (R351, R352, R364, R367, R369) -/

/-- GIVEUP_RECEIVE. -/
def execGiveupReceive (f : List Byte) (s : State) : Result := receiveLink 7 true f s (fun s => raise s 0xB0 6)

/-- PEER_RESET_RECEIVE (R352). -/
def execPeerResetReceive (f : List Byte) (s : State) : Result :=
  receiveLink 8 true f s (fun s => if role s = 2 ∨ role s = 5 then innerReset s 5 else s)

/-- AXIS_START_RECEIVE (R364). (DEDUCED, log entry 68.) -/
def execAxisStartReceive (f : List Byte) (s : State) : Result :=
  receiveLink 9 true f s (fun s =>
    if role s = 2 then setMirror s (fun m => { m with axisStarts := m.axisStarts ++ [lkTask f] }) else s)

/-- SWAP_RECEIVE (R367): the peer has released control; nothing else follows until the grant. -/
def execSwapReceive (f : List Byte) (s : State) : Result := receiveLink 12 true f s id

/-- BOOT_REQ_RECEIVE (R369): the image in BOOT_DATA frames; a request that comes while they are on the link is not answered. -/
def execBootReqReceive (f : List Byte) (s : State) : Result :=
  receiveLink 10 true f s (fun s =>
    let n := rdn s Reg.MIRROR_BOOT_LEN
    if role s = 4 ∧ n ≠ 0 ∧ s.mirror.bootUntil ≤ s.now then
      let frames := fragments 11 0 (rdBytes s (rdn s Reg.MIRROR_BOOT_SRC) n)
      let s := (readScan s 10 (rdn s Reg.MIRROR_BOOT_SRC) n).2
      let s := frames.foldl (fun s i => mirrorSend s 11 0 0 none i.2.2) s
      setMirror s (fun m => { m with bootUntil := s.now + (25 * (n + 20 * frames.length) + 2) / 3 })
    else s)

/-- BOOT_REQ_SEND (R369): every 100 ms while no image has come. -/
def execBootReqSend (s : State) : Result :=
  whenDue (linkRuns s && bootFromPeer s && s.boot.image.isEmpty && decide (s.mirror.bootReqAt = 0 ∨ s.mirror.bootReqAt + 100000000 ≤ monoNs s + 1)) s
    (mirrorSend { setMirror s (fun m => { m with bootReqAt := monoNs s + 1 }) with boot := { s.boot with requested := true } } 10 0 0 none [])

/-- BOOT_DATA_RECEIVE (R63, R369). -/
def execBootDataReceive (f : List Byte) (s : State) : Result :=
  receiveLink 11 true f s (fun s =>
    if bootFromPeer s then { s with boot := { s.boot with image := s.boot.image ++ lkPayload f } } else s)

end Sys2Proof.Machine
end

