-- ==== Sys2Proof/Machine/Pages.lean ====
section
/-!
DEFINITION. The register page (R19-R27), clock gating and domain reset (R15-R17), and the semaphores (R35).
-/

namespace Sys2Proof.Machine

/-! ### PKEY (R25, R26) -/

/-- The page's key state. -/
def setPageKey (s : State) (pg : Nat) (k : PageKey) : State :=
  setFlag { s with pkey := mput {} s.pkey pg k } (Reg.PSTAT pg) F.PSTAT_UNLOCKED k.closeAt.isSome

/-- A value written to PKEY: the sequence advances, starts again or is cancelled, and the window opens for 1,024 CLK_FAB
cycles or closes. A locked page ignores it (R27). -/
def pkeyWrite (s : State) (pg : Nat) (v : Word) : State :=
  let k : PageKey := mget {} s.pkey pg
  if flag s (Reg.PCTL pg) F.PCTL_LOCK then s
  else if v = 0xA5C3#32 then setPageKey s pg { k with half := true }
  else if v = 0x3C5A#32 ∧ k.half = true then setPageKey s pg { half := false, closeAt := some (s.now / 8 * 8 + 1024 * 8) }
  else setPageKey s pg {}

/-- A write to page `pg` that the safety pair's protection may turn away (R308). -/
def pageWrite (ini : Fin 16) (pg off : Nat) (extra : Option Nat) (s : State) (f : State → State) : Result :=
  safeWrite ini pg off extra s f

/-- The same, for a write that makes a block access memory. -/
def pageSettle (ini : Fin 16) (pg off : Nat) (extra : Option Nat) (s : State) (f : State → State) : Result :=
  if foreignPage s ini pg && (pageErr s pg off).isNone then .next (safeForeign (granted s ini))
  else settleWrite ini pg off extra s f

/-- PKEY_WRITE (R25-R27). -/
def execPkeyWrite (ini : Fin 16) (page : Fin 4096) (value : Word) (s : State) : Result :=
  pageWrite ini page.val 0x1C (errIf (value &&& 0xFFFF0000#32 != 0) 37) s (fun s => pkeyWrite s page.val value)

/-- UNLOCK_WINDOW_CLOSE (R26). -/
def execUnlockWindowClose (page : Fin 4096) (s : State) : Result :=
  let k : PageKey := mget {} s.pkey page.val
  match k.closeAt with
  | some t => whenDue (decide (t ≤ s.now)) s (setPageKey s page.val { k with closeAt := none })
  | none => .next s

/-! ### PCTL (R22, R23, R27) -/

/-- Page `pg` is a CAN channel's, and which. -/
def canOfPage (pg : Nat) : Option Nat := if 0xE1 ≤ pg ∧ pg ≤ 0xE8 then some (pg - 0xE1) else none

/-- Setting or clearing EN of a page is a host error now: R77, R238-R258, R270, R311, R415, R419, R505. -/
def enErr (s : State) (pg : Nat) (en : Bool) : Option Nat :=
  if en == pageEn s pg then none
  else if en then
    (if pg = 0x90 then mtrCfgErr s
     else if pg = 0xD0 ∨ pg = 0xD3 then
       errIf (redMode s != 0 && fld s (Reg.ETH_CFG 0) F.ETH_CFG_SPEED != fld s (Reg.ETH_CFG 1) F.ETH_CFG_SPEED) 415
     else if pg = 0xE0 then
       errIf ((List.range 8).any (fun c => pageEn s (canPage c) && canRateBad s c)) 419
     else match canOfPage pg with
       | some c => errIf (pageEn s 0xE0 && canRateBad s c) 419
       | none => none)
  else if pg = 0x40 then errIf (machine s == machRunning || machine s == machStopping) 77
  else if pg = 0x80 then errIf (mxeBusy s) 270
  else if pg = 0xA0 then errIf (safeBusy s) 311
  else if pg = 0x100 then errIf (lanState s != lsOff) 505
  else none

/-- A block starts or stops with EN of its page (R22); PSTAT.ENABLED follows at its stop point. Pages whose EN has no
function, or whose block asks PCTL.EN wherever it acts, need no more than ENABLED. RXE starts again only after SRST (R164), but where EN was
cleared in its reset state. (DEDUCED, log entry 43.) -/
def enableBlock (s : State) (pg : Nat) (en : Bool) : State :=
  let t := setFlag s (Reg.PSTAT pg) F.PSTAT_ENABLED en
  if pg = 0x50 then (if en then setFlag s (Reg.PSTAT pg) F.PSTAT_ENABLED (!s.rxe.stopped) else if s.rxe = {} then t else rxeStop s)
  else if pg = 0x60 then prismEnable (if en then t else s) en
  else if pg = 0x70 then cleEnable t en
  else if pg = 0x80 then
    setMxe t (fun m => { m with
      ticks := monoNs s / 20000, grids := monoNs s / 50000, signals := (monoNs s + 50000) / 100000 })
  else if pg = 0x90 then (if en then mtrStart t else mtrStop s)
  else if pg = 0xA0 then safeSync t
  else if pg = 0xB0 then mirrorEnable t en
  else if 0xD0 ≤ pg ∧ pg ≤ 0xDB ∧ (pg - 0xD0) % 3 = 0 then
    (if en then portStart t ((pg - 0xD0) / 3) else portHalt s ((pg - 0xD0) / 3))
  else if pg = 0x110 then (if en || s.agl.copying.isNone then t else s)
  else if pg = 0xE0 then (List.range 8).foldl (if en then canSettle else canHalt) t
  else match canOfPage pg with
    | some c => if en then canSettle t c else canHalt t c
    | none => t

/-- EN of a page takes a value. (DEDUCED, log entry 43.) -/
def setEn (s : State) (pg : Nat) (en : Bool) : State :=
  if en == pageEn s pg then s else enableBlock (setFlag s (Reg.PCTL pg) F.PCTL_EN en) pg en

/-- A soft reset begins (R23). -/
def beginSrst (s : State) (pg : Nat) : State :=
  setFlag (setFlag (softReset pg s) (Reg.PCTL pg) F.PCTL_SRST true) (Reg.PSTAT pg) F.PSTAT_SRST_BUSY true

/-- PCTL_EN (R22, R77, R142, R174, R201, R238, R270, R311, R349, R400, R420, R505, R522, R543). -/
def execPctlEn (ini : Fin 16) (page : Fin 4096) (en : Bool) (s : State) : Result :=
  pageSettle ini page.val 4 ((lockErr s page.val).orElse (fun _ => enErr s page.val en)) s (fun s => setEn s page.val en)

/-- SRST (R23). -/
def execSrst (ini : Fin 16) (page : Fin 4096) (s : State) : Result :=
  pageSettle ini page.val 4 (lockErr s page.val) s (fun s => beginSrst s page.val)

/-- SOFT_RESET_DONE (R23). -/
def execSoftResetDone (page : Fin 4096) (s : State) : Result :=
  whenDue (flag s (Reg.PSTAT page.val) F.PSTAT_SRST_BUSY) s
    (setFlag (setFlag s (Reg.PSTAT page.val) F.PSTAT_SRST_BUSY false) (Reg.PCTL page.val) F.PCTL_SRST false)

/-- LOCK is set; an open window stays open until its 1,024 cycles have passed (R26), and the page ignores PKEY from now on
(R27). (DEDUCED, log entry 92.) -/
def lockPage (s : State) (pg : Nat) : State := setFlag s (Reg.PCTL pg) F.PCTL_LOCK true

/-- LOCK (R27). -/
def execPageLock (ini : Fin 16) (page : Fin 4096) (s : State) : Result :=
  pageWrite ini page.val 4 (lockErr s page.val) s (fun s => lockPage s page.val)

/-! ### Interrupt bits of the header (R21, R24) -/

/-- INT_RAW bits a page uses, as a mask; the others are reserved. (DEDUCED, log entry 18.) -/
def intUsed (pg : Nat) : Nat :=
  ((intdTable.filter (fun r => r.1 == pg)).map (fun r => (2 ^ r.2.2.1 - 1) * 2 ^ r.2.1)).foldl (· ||| ·) 0

def intErr (pg : Nat) (v : Word) : Option Nat := errIf (v.toNat &&& (2 ^ 32 - 1 - intUsed pg) != 0) 37

/-- INT_SET (R24). -/
def execIntSet (ini : Fin 16) (page : Fin 4096) (value : Word) (s : State) : Result :=
  pageWrite ini page.val 0x18 (intErr page.val value) s (fun s => orReg s (Reg.INT_RAW page.val) value)

/-! ### Clock domains (R15-R17) -/

/-- Bits of CLK_RUN and CLK_DRST that software sets: domains 2, 4, 5 and 7-10. -/
def gateable : Word := 0x7B4#32

/-- Every page of a domain is stopped (R16). -/
def domainStopped (s : State) (d : Nat) : Bool :=
  (domainPages d).all (fun pg => !(pageEn s pg) && !(flag s (Reg.PSTAT pg) F.PSTAT_ENABLED))

/-- A released core's last jump went to the OSPI execute window, through its translation where it translates (R464).
(DESIGN CHOICE, log entry 26.) -/
def fetchesOspi (s : State) (c : Nat) : Bool :=
  coreRuns s c && (match (coreWord s c (coreOf s c).pc).1 with
    | some a => decide (0x10000000 ≤ a) && decide (a ≤ 0x1FFFFFFF)
    | none => false)

/-- Domains `ds` may not be gated or held in reset now (R16). -/
def gateErr (s : State) (ds : Word) : Option Nat :=
  errIf ((List.range 11).any (fun d => bitAt ds d && (!(domainStopped s d) || (d == 8 && (List.range 7).any (fetchesOspi s))))) 16

/-- CLK_RUN_WRITE (R15, R16): bits 0, 1, 3 and 6 are read-only. -/
def execClkRunWrite (ini : Fin 16) (value : Word) (s : State) : Result :=
  let old := rd s Reg.CLK_RUN
  softWrite ini 1 0x40
    ((errIf (value &&& 0xFFFFF800#32 != 0) 37).orElse (fun _ => (lockErr s 1).orElse (fun _ =>
      gateErr s (old &&& gateable &&& ~~~value)))) s
    (fun s =>
      let v := (value &&& gateable) ||| (old &&& ~~~gateable)
      setFld (wr s Reg.CLK_RUN v) Reg.CLK_STAT F.CLK_STAT_RUNNING v.toNat)

/-- CLK_DRST_WRITE (R16, R17): a domain leaves reset with the registers of its pages at their reset values. -/
def execClkDrstWrite (ini : Fin 16) (value : Word) (s : State) : Result :=
  let old := rd s Reg.CLK_DRST
  settleWrite ini 1 0x44
    ((errIf (value &&& 0xFFFFF800#32 != 0) 37).orElse (fun _ => (lockErr s 1).orElse (fun _ =>
      gateErr s (value &&& gateable &&& ~~~old)))) s
    (fun s =>
      let v := value &&& gateable
      ((List.range 11).filter (fun d => bitAt old d && !(bitAt v d))).foldl (fun s d => domainReset d s) (wr s Reg.CLK_DRST v))

/-! ### Semaphores (R35) -/

/-- SEMAPHORE_REQUEST: of the cores that ask in one cycle, the lowest gets a free semaphore. What the requests read is
recorded as the mask of the core granted. (DEDUCED, log entry 21.) -/
def execSemaphoreRequest (n : Fin 64) (requesters : BitVec 7) (s : State) : Result :=
  let free := mget 0 s.sem n.val == 0
  match (List.range 7).find? (fun c => requesters.getLsbD c) with
  | some c =>
    .next (if free then answer { s with sem := mput 0 s.sem n.val (c + 1) } [1#32 <<< c] else answer s [0])
  | none => .next s

end Sys2Proof.Machine
end

