-- ==== Sys2Proof/Machine/RegLimits.lean ====
section
/-!
DEFINITION. What a value written to a register must be (R37, R38): the stated ranges, alignments and reserved encodings
of the register tables, and the times at which a chapter forbids the write.
-/

namespace Sys2Proof.Machine

/-- A rule about a field of a register: its row, the field, its least and greatest value, what it is a multiple of, and the
rule a value that breaks it breaks. -/
structure RegLimit where
  page : Nat
  pages : Nat := 1
  pageStep : Nat := 1
  off : Nat
  step1 : Nat := 0
  n1 : Nat := 1
  lo : Nat := 0
  width : Nat := 32
  least : Nat := 0
  most : Nat := 0xFFFFFFFF
  unit : Nat := 1
  rule : Nat := 38
  deriving DecidableEq, Repr

/-- Start addresses, interrupt routes, tasks, retention, forcing and exchange (R31, R52, R78, R80, R83, R110, R114, R123, R473). -/
def limitsCore : List RegLimit :=
  [{ page := 0, off := 0x50, step1 := 4, n1 := 7, unit := 4 },
   { page := 5, pages := 4, off := 0x40, step1 := 4, n1 := 128, lo := 0, width := 4, most := 6, rule := 37 },
   { page := 0x16, off := 0x40, most := 0, rule := 37 },
   { page := 0x10, pages := 7, off := 0x44, unit := 64 },
   { page := 0x10, pages := 7, off := 0x48, unit := 64 },
   { page := 0x41, pages := 4, off := 0x44, step1 := 0x40, n1 := 4, least := 4, most := 40000 },
   { page := 0x41, pages := 4, off := 0x50, step1 := 0x40, n1 := 4, unit := 4 },
   { page := 0x41, pages := 4, off := 0x58, step1 := 0x40, n1 := 4, unit := 16 },
   { page := 0x41, pages := 4, off := 0x5C, step1 := 0x40, n1 := 4, unit := 16 },
   { page := 0x45, off := 0x70, unit := 16 },
   { page := 0x45, off := 0x40, unit := 64 },
   { page := 0x45, off := 0x44, most := 262080, unit := 64 },
   { page := 0x40, off := 0x80, width := 16, least := 1 },
   { page := 0x40, off := 0x84, unit := 64 },
   { page := 0x40, off := 0x88, unit := 64 },
   { page := 0x40, off := 0x90, unit := 64 },
   { page := 0x40, off := 0x94, most := 262144 }]

/-- RXE, CLE and Prism (R142-R144, R168, R197, R202, R215). -/
def limitsEngines : List RegLimit :=
  [{ page := 0x50, off := 0x44, unit := 64 }, { page := 0x50, off := 0x48, unit := 16 }, { page := 0x50, off := 0x4C, most := 8192 },
   { page := 0x50, off := 0x50, unit := 4096 }, { page := 0x50, off := 0x58, unit := 4096 }, { page := 0x50, off := 0x60, unit := 4096 },
   { page := 0x50, off := 0x68, unit := 4096 }, { page := 0x50, off := 0xA4, width := 16, least := 1 },
   { page := 0x70, off := 0x5C, width := 18, unit := 4 },
   { page := 0x71, off := 0x48, most := 8388608 }, { page := 0x71, off := 0x58, lo := 16, width := 16, most := 0, rule := 37 },
   { page := 0x71, off := 0x5C, most := 0, rule := 37 },
   { page := 0x60, off := 0x44, unit := 4096 }, { page := 0x60, off := 0x4C, unit := 4096 },
   { page := 0x62, pages := 8, off := 0x44, unit := 64 }, { page := 0x62, pages := 8, off := 0x50, unit := 64 },
   { page := 0x62, pages := 8, off := 0x4C, width := 8, most := 239 },
   { page := 0x62, pages := 8, off := 0x4C, lo := 16, width := 8, least := 1, most := 240 }]

/-- Metering and axes (R239, R262, R266, R273, R285-R291). -/
def limitsField : List RegLimit :=
  [{ page := 0x90, off := 0x40, unit := 64 }, { page := 0x90, off := 0x48, lo := 16, width := 6, least := 1, most := 60 },
   { page := 0x90, off := 0x4C, unit := 128 }, { page := 0x90, off := 0x50, least := 20 }, { page := 0x90, off := 0x58, unit := 4096 },
   { page := 0x80, off := 0x44, most := 16 },
   { page := 0x81, pages := 8, off := 0x44, step1 := 0x100, n1 := 2, lo := 0, width := 4, most := 8 },
   { page := 0x81, pages := 8, off := 0x44, step1 := 0x100, n1 := 2, lo := 8, width := 4, most := 8 },
   { page := 0x81, pages := 8, off := 0x74, step1 := 0x100, n1 := 2, least := 1 },
   { page := 0x81, pages := 8, off := 0x84, step1 := 0x100, n1 := 2, least := 1 },
   { page := 0x81, pages := 8, off := 0xBC, step1 := 0x100, n1 := 2, least := 1 }]

/-- MIRROR, time and the calendar (R347, R355, R360, R369, R375-R380, R396). -/
def limitsPair : List RegLimit :=
  [{ page := 0xB0, off := 0x40, lo := 8, width := 8, least := 1 }, { page := 0xB0, off := 0x40, lo := 16, width := 8, least := 1 },
   { page := 0xB0, off := 0x44, unit := 4096 }, { page := 0xB0, off := 0x48, unit := 4096 },
   { page := 0xB0, off := 0x4C, lo := 0, width := 12, least := 1, most := 2048 }, { page := 0xB0, off := 0x68, most := 8388608 },
   { page := 0xC0, off := 0x68, least := 1, most := 1000 }, { page := 0xC0, off := 0x80, most := 999999999 },
   { page := 0xC0, off := 0x88, least := 1 }, { page := 0xC0, off := 0x98, lo := 0, width := 16, least := 1 },
   { page := 0xC0, off := 0x98, lo := 16, width := 16, least := 1 },
   { page := 0xC3, pages := 2, off := 0x64, lo := 16, width := 1, most := 0, rule := 385 },
   { page := 0xC5, off := 0x84, lo := 24, width := 3, most := 6 }, { page := 0xC5, off := 0x8C, lo := 24, width := 3, most := 6 }]

/-- Ports and CAN (R398, R402, R406, R415, R416, R421, R422, R430, R431). -/
def limitsPorts : List RegLimit :=
  [{ page := 0xD1, pages := 4, pageStep := 3, off := 0x40, step1 := 0x20, n1 := 8, unit := 64 },
   { page := 0xD1, pages := 4, pageStep := 3, off := 0x44, step1 := 0x20, n1 := 8, width := 4, least := 4, most := 10 },
   { page := 0xD1, pages := 4, pageStep := 3, off := 0x140, step1 := 0x10, n1 := 8, unit := 64 },
   { page := 0xD1, pages := 4, pageStep := 3, off := 0x144, step1 := 0x10, n1 := 8, width := 4, least := 4, most := 10 },
   { page := 0xD2, pages := 4, pageStep := 3, off := 0x40, lo := 16, width := 9, most := 255 },
   { page := 0xD2, pages := 4, pageStep := 3, off := 0x44, least := 1000, most := 1000000000 },
   { page := 0xD2, pages := 4, pageStep := 3, off := 0x48, most := 999999999 },
   { page := 0xD2, pages := 4, pageStep := 3, off := 0x400, step1 := 4, n1 := 512, lo := 8, width := 24, least := 1 },
   { page := 0xD0, off := 0x9C, width := 2, most := 2, rule := 37 },
   { page := 0xD0, off := 0x9C, lo := 16, width := 12, least := 1 },
   { page := 0xD3, pages := 3, pageStep := 3, off := 0x9C, most := 0, rule := 37 },
   { page := 0xD0, pages := 2, pageStep := 3, off := 0x94, most := 0, rule := 37 },
   { page := 0xD0, pages := 2, pageStep := 3, off := 0x98, most := 0, rule := 37 },
   { page := 0xD0, pages := 2, pageStep := 3, off := 0x40, width := 2, most := 1, rule := 37 },
   { page := 0xD0, pages := 4, pageStep := 3, off := 0xA0, lo := 1, width := 2, most := 2, rule := 37 },
   { page := 0xE1, pages := 8, off := 0x44, lo := 8, width := 8, least := 1 },
   { page := 0xE1, pages := 8, off := 0x44, lo := 16, width := 7, least := 1 },
   { page := 0xE1, pages := 8, off := 0x40, lo := 2, width := 2, most := 2, rule := 37 },
   { page := 0xE1, pages := 6, off := 0x40, lo := 1, width := 1, most := 0, rule := 37 },
   { page := 0xE1, pages := 8, off := 0x7C, width := 14, unit := 4 }]

/-- Memory and panel (R450, R454, R457, R465, R507-R511). -/
def limitsMemory : List RegLimit :=
  [{ page := 0x20, pages := 3, off := 0x40, least := 2, most := 255 }, { page := 0x20, pages := 3, off := 0x44, least := 1, most := 86400 },
   { page := 0x20, pages := 2, off := 0x68, step1 := 4, n1 := 2, most := 0, rule := 37 },
   { page := 0x20, pages := 2, off := 0x70, lo := 8, width := 24, most := 0, rule := 37 },
   { page := 0x24, off := 0x48, most := 159 },
   { page := 0x17, off := 0x44, step1 := 8, n1 := 64, least := 1, most := 16384 },
   { page := 0x100, off := 0x40, lo := 5, width := 2, most := 2, rule := 37 },
   { page := 0x100, off := 0x40, lo := 16, width := 8, least := 1 },
   { page := 0x100, off := 0x4C, lo := 0, width := 8, least := 1 }, { page := 0x100, off := 0x4C, lo := 8, width := 8, least := 1 },
   { page := 0x100, off := 0x4C, lo := 16, width := 8, least := 1 }, { page := 0x100, off := 0x4C, lo := 24, width := 8, least := 1 },
   { page := 0x100, off := 0x144, step1 := 0x40, n1 := 4, least := 1, most := 1000 }]

def regLimits : List RegLimit := limitsCore ++ limitsEngines ++ limitsField ++ limitsPair ++ limitsPorts ++ limitsMemory

/-- The limit is one of the register at offset `off` of page `pg`. -/
def limitAt (r : RegLimit) (pg off : Nat) : Bool :=
  let k := pg - r.page
  let d := off - r.off
  decide (r.page ≤ pg) && decide (k % r.pageStep = 0) && decide (k / r.pageStep < r.pages) && decide (r.off ≤ off) &&
    (if r.n1 ≤ 1 then decide (d = 0) else decide (d % r.step1 = 0) && decide (d / r.step1 < r.n1))

/-- A value keeps a limit. -/
def limitOk (r : RegLimit) (v : Word) : Bool :=
  let x := fieldGet ⟨r.lo, r.width⟩ v
  decide (r.least ≤ x) && decide (x ≤ r.most) && x % r.unit == 0

/-- The rule of the first stated limit that a value breaks. (DESIGN CHOICE, log entry 83.) -/
def limitErr (pg off : Nat) (v : Word) : Option Nat :=
  (regLimits.find? (fun r => limitAt r pg off && !(limitOk r v))).map (fun r => r.rule)

/-! ### Rules over several fields or registers -/

/-- The axis a register of pages 0x081-0x088 belongs to, and its offset in the axis's block. -/
def axisOf (pg off : Nat) : Nat := 2 * (pg - 0x81) + (off - 0x40) / 0x100
def axisOff (off : Nat) : Nat := (off - 0x40) % 0x100

/-- Field values that depend on one another (R142, R197, R241, R262, R273, R374, R385, R398, R402, R406, R419). (DESIGN CHOICE, log entry 83.) -/
def fieldsErr (s : State) (pg off : Nat) (v : Word) : Option Nat :=
  if pg = 0x50 ∧ off = 0x70 then errIf (decide (fieldGet F.RXE_POOL_WM_LWM v < fieldGet F.RXE_POOL_WM_CYC_RES v)) 38
  else if 0x62 ≤ pg ∧ pg ≤ 0x69 ∧ off = 0x4C then
    errIf (decide (240 < fieldGet F.PRISM_SLOT_MEM_BASE v + fieldGet F.PRISM_SLOT_MEM_LEN v)) 197
  else if pg = 0x90 ∧ off = 0x48 then
    errIf (!([1, 2, 3, 4, 5, 6, 10, 12, 15, 20, 30, 60].contains (fieldGet F.MTR_IVAL_MIN v))) 38
  else if pg = 0x80 ∧ off = 0x40 then errIf ((List.range 4).any (fun e => fieldGet ⟨8 * e, 2⟩ v == 3)) 37
  else if 0x81 ≤ pg ∧ pg ≤ 0x88 ∧ axisOff off = 0 ∧ bitAt v 31 = true then
    errIf (fieldGet ⟨0, 2⟩ v == 0 || fieldGet ⟨0, 2⟩ v == 3) 37
      |>.orElse (fun _ => errIf (bitAt v 2 && fieldGet ⟨0, 2⟩ v == 2) 38)
  else if pg = 0xC0 ∧ off = 0x60 then
    (errIf (decide (1024000000 < (signed 32 v.toNat).natAbs)) 374).orElse (fun _ =>
      errIf (flag s Reg.PTP_SERVO_CFG F.PTP_SERVO_CFG_EN) 374)
  else if 0xD0 ≤ pg ∧ pg ≤ 0xD9 ∧ (pg - 0xD0) % 3 = 0 ∧ off = 0x40 then
    (errIf (decide (0xD6 ≤ pg) && fieldGet ⟨0, 2⟩ v == 1) 37).orElse (fun _ =>
      errIf (bitAt v 4 && (decide (0xD6 ≤ pg) || fieldGet ⟨0, 2⟩ v != 0)) 38)
  else if 0xD1 ≤ pg ∧ pg ≤ 0xDA ∧ (pg - 0xD1) % 3 = 0 ∧ 0x50 ≤ off ∧ off ≤ 0x130 ∧ off % 0x20 = 0x10 then
    let k := (pg - 0xD1) / 3
    let sp := fld s (Reg.ETH_CFG k) F.ETH_CFG_SPEED
    let rate := if k < 2 then (if sp = 1 then 2500000 else 1000000) else if sp = 2 then 100000 else if sp = 3 then 10000 else 1000000
    errIf (decide (rate < v.toNat)) 38
  else if (pg = 0xC1 ∨ pg = 0xC2) ∧ off = 0x64 then errIf (bitAt v 16 && redMode s != 1) 385
  else if pg = 0xD0 ∧ off = 0x9C then
    errIf (fieldGet F.ETH_RED_CFG_MODE v != 1 && [0, 1].any (fun k => flag s (Reg.PTP_PORT_CFG k) F.PTP_PORT_CFG_TC)) 385
  else if 0xD2 ≤ pg ∧ pg ≤ 0xDB ∧ (pg - 0xD2) % 3 = 0 ∧ off = 0x40 then
    let k := (pg - 0xD2) / 3
    errIf (bitAt v 0 && !(gateEn s k) && gateUnset s k) 38
  else if 0xE1 ≤ pg ∧ pg ≤ 0xE8 ∧ off = 0x40 then
    errIf (fieldGet F.CAN_CFG_WAKE v == 1 && fieldGet F.CAN_CFG_WAKE_FILT v == 0) 38
  else if 0xE1 ≤ pg ∧ pg ≤ 0xE8 ∧ off = 0x44 then
    errIf (decide (fieldGet F.CAN_NBT_TSEG2 v < fieldGet F.CAN_NBT_SJW v)) 38
  else if 0xE1 ≤ pg ∧ pg ≤ 0xE8 ∧ off = 0x48 then
    errIf (decide (fieldGet F.CAN_DBT_TSEG2 v < fieldGet F.CAN_DBT_SJW v)) 38
  else none

/-- A write to a register of a block at a time at which a chapter forbids it. (DESIGN CHOICE, log entry 83; DEDUCED, log entry 89.) -/
def busyErr (s : State) (pg off : Nat) (rwl : Bool) : Option Nat :=
  if 0x41 ≤ pg ∧ pg ≤ 0x44 ∧ off < 0x140 then
    let t := 4 * (pg - 0x41) + (off - 0x40) / 0x40
    errIf (flag s (Reg.TCFG t) F.TCFG_EN && (machine s == machRunning || machine s == machStopping)) 77
  else if pg = 0x40 ∧ 0x80 ≤ off ∧ off ≤ 0x94 then errIf (xState s != xIdle) 123
  else if pg = 0x50 then errIf (rwl && pageEn s 0x50) 142
  else if 0x60 ≤ pg ∧ pg ≤ 0x69 ∧ rwl = true then errIf (prismEn s) 202
  else if 0x62 ≤ pg ∧ pg ≤ 0x69 ∧ 0x4C ≤ off ∧ off ≤ 0x54 then
    errIf (fld s (Reg.PRISM_SLOT_STAT (pg - 0x62)) F.PRISM_SLOT_STAT_STATE != slotEmpty) 202
  else if pg = 0x71 ∧ 0x40 ≤ off ∧ off ≤ 0x5C then errIf (flag s Reg.CLE_GSTAT F.CLE_GSTAT_BUSY) 193
  else if pg = 0xB0 then errIf (rwl && pageEn s 0xB0) 370
  else if pg = 0xC5 ∧ 0x60 ≤ off ∧ off ≤ 0x78 then errIf (flag s Reg.RTC_STAT F.RTC_STAT_SET_PEND) 394
  else if 0xD0 ≤ pg ∧ pg ≤ 0xDB then
    let k := (pg - 0xD0) / 3
    if (pg - 0xD0) % 3 = 2 then
      let inOper := (decide (0x400 ≤ off) && decide (off < 0x800) && gateOper s k == 0) || (decide (0x800 ≤ off) && gateOper s k == 1)
      errIf ((decide (0x400 ≤ off) && inOper && (port s k).oper.isSome) || (gatePend s k && !(decide (0x400 ≤ off) && inOper))) 407
    else if rwl = true then
      errIf (pageEn s (portPage k) || (k == 0 && off == 0x9C && pageEn s (portPage 1))) 400
    else errIf ((pg - 0xD0) % 3 == 0 && off == 0x98 && flag s (Reg.ETH_MDIO_DATA k) F.ETH_MDIO_DATA_BUSY) 38
  else match canOfPage pg with
    | some c => errIf (rwl && canEn s c) 420
    | none =>
      if pg = 0x17 ∧ 0x244 ≤ off then errIf (flag s Reg.MMU_INVAL_STAT F.MMU_INVAL_STAT_BUSY) 465
      else if 0x31 ≤ pg ∧ pg ≤ 0x34 then
        let ch := 8 * (pg - 0x31) + (off - 0x40) / 0x40
        errIf (fld s (Reg.DMA_STAT ch) F.DMA_STAT_STATE != 0) 479
      else if pg = 0xF0 ∧ 0x48 ≤ off ∧ off ≤ 0x7C then errIf (flag s Reg.KEYS_STAT F.KEYS_STAT_BUSY) 38
      else if pg = 0x100 then
        if rwl = true then errIf (lanState s != lsOff) 505
        else errIf (decide (0x140 ≤ off) && decide (off < 0x240) && lanBusy s ((off - 0x140) / 0x40)) 505
      else none

end Sys2Proof.Machine
end

