-- ==== Sys2Proof/Machine/Bus.lean ====
section
/-!
DEFINITION. REGISTER_WRITE: a write to any register of the register space (R3, R4, R19-R29). A register with a row of its
own in the table of commands does what that row's command does.
-/

namespace Sys2Proof.Machine

/-! ### Registers whose writes are commands of their own -/

/-- A code of a command register that names no command (R37). (DEDUCED, log entry 19.) -/
def noCode : Result := .fault (.hostError 37)

/-- Pages 0x000 to 0x04F. (DEDUCED, log entry 19.) -/
def routeLow (ini : Fin 16) (pg off : Nat) (v : Word) (s : State) : Option Result :=
  if pg = 0 then
    if off = 0x48 then some (execSwReset ini v s)
    else if off = 0x4C then some (execCoreRelease ini v s)
    else if off = 0x6C then some (execWatchdogEnable ini v s)
    else if off = 0x70 then some (execWatchdogKick ini v s)
    else none
  else if pg = 1 then
    if off = 0x40 then some (execClkRunWrite ini v s) else if off = 0x44 then some (execClkDrstWrite ini v s) else none
  else if pg = 0x17 ∧ off = 0x240 then
    let c : Fin 64 := Fin.ofNat 64 (fieldGet F.MMU_INVAL_CTX v)
    some (if v &&& 0xFFFFC0FC#32 != 0 then noCode else match fieldGet F.MMU_INVAL_KIND v with
      | 1 => execInvalAll ini s
      | 2 => execInvalContext ini c s
      | 3 => execInvalPage ini c s
      | _ => noCode)
  else if 0x10 ≤ pg ∧ pg ≤ 0x16 ∧ off = 0x68 then some (execCoreEoiWrite ini (Fin.ofNat 7 (pg - 0x10)) s)
  else if 0x20 ≤ pg ∧ pg ≤ 0x22 ∧ off = 0x5C then some (execFlipArm ini (Fin.ofNat 3 (pg - 0x20)) v s)
  else if pg = 0x24 ∧ off = 0x40 then some (execRepairMap ini v s)
  else if 0x31 ≤ pg ∧ pg ≤ 0x34 ∧ 0x40 ≤ off ∧ off % 0x40 = 0x0C ∧ off < 0x240 then
    let ch : Fin 32 := Fin.ofNat 32 (8 * (pg - 0x31) + (off - 0x40) / 0x40)
    some (if v &&& 0xFFFFFFF8#32 != 0 then noCode else dmaControl ini ch (bitAt v 0) (bitAt v 1) (bitAt v 2) s)
  else if pg = 0x40 then
    if off = 0x40 then some (execCycModesetWrite ini v s)
    else if off = 0x44 then
      let t : Fin 16 := Fin.ofNat 16 (fieldGet F.CYC_CMD_TASK v)
      some (if v &&& 0xFFF0FFF0#32 != 0 then noCode else match fieldGet F.CYC_CMD_CMD v with
        | 1 => execStartCold ini s
        | 2 => execStartWarm ini s
        | 3 => execCycStop ini s
        | 4 => execTaskHold ini t s
        | 5 => execTaskResume ini t s
        | 6 => execRetCommit ini s
        | 7 => execFaultClear ini t s
        | _ => noCode)
    else if off = 0x54 then some (if ini.val < 4 then execCycEnd (Fin.ofNat 4 ini.val) v s else .fault (.hostError 94))
    else if off = 0x98 then
      some (match v.toNat with
        | 1 => execExch ini s
        | 2 => execExchRevert ini s
        | 3 => execExchAbort ini s
        | 4 => execExchDiscard ini s
        | _ => noCode)
    else none
  else if pg = 0x45 ∧ off = 0x74 then some (execForceEnableWrite ini true v s)
  else if pg = 0x45 ∧ off = 0x78 then some (execForceEnableWrite ini false v s)
  else none

/-- Pages 0x050 to 0x09F. (DEDUCED, log entry 19.) -/
def routeMid (ini : Fin 16) (pg off : Nat) (v : Word) (s : State) : Option Result :=
  if pg = 0x50 then
    if off = 0x78 then some (execRxeCqHeadWrite ini v s)
    else if off = 0x80 then some (execRxeTxqTailWrite ini v s)
    else if off = 0x88 then some (execRxeFreeRetWrite ini v s)
    else if off = 0x8C then
      let x : Fin 1024 := Fin.ofNat 1024 (fieldGet F.RXE_SCMD_SESSION v)
      some (if v &&& 0xFFF0FC00#32 != 0 then noCode else match fieldGet F.RXE_SCMD_CMD v with
        | 1 => execSessionEnable ini x s
        | 2 => execSessionDisable ini x s
        | 3 => execSessionResume ini x s
        | 4 => execResync ini x s
        | _ => noCode)
    else none
  else if pg = 0x61 then
    if off = 0x40 then some (execPrismJobqDoorWrite ini v s)
    else if off = 0x48 then some (execPrismCqHeadWrite ini v s)
    else if off = 0x50 then some (execPrismCancel ini v s)
    else none
  else if 0x62 ≤ pg ∧ pg ≤ 0x69 ∧ off = 0x40 then
    let k : Fin 8 := Fin.ofNat 8 (pg - 0x62)
    some (if v &&& 0xFFFFC0FC#32 != 0 then noCode else match fieldGet F.PRISM_SLOT_CMD_CMD v with
      | 1 => execPrismLoad ini k (Fin.ofNat 64 (fieldGet F.PRISM_SLOT_CMD_CTX v)) s
      | 2 => execPrismUnload ini k s
      | _ => noCode)
  else if pg = 0x70 then
    if off = 0x60 then some (execCleRamDataAccess ini (some v) s)
    else if off = 0x64 then some (execCleGcmd ini v s)
    else none
  else if 0x72 ≤ pg ∧ pg ≤ 0x75 ∧ 0x40 ≤ off ∧ off < 0x440 ∧ off % 0x10 = 0 then
    some (execLctlWrite ini (Fin.ofNat 256 (64 * (pg - 0x72) + (off - 0x40) / 0x10)) v s)
  else if 0x78 ≤ pg ∧ pg ≤ 0x7F ∧ 0x40 ≤ off ∧ off < 0x840 ∧ off % 4 = 0 then
    some (execSignalWindowWrite ini (Fin.ofNat 4096 (512 * (pg - 0x78) + (off - 0x40) / 4)) v s)
  else if pg = 0x90 ∧ off = 0x64 then
    some (match v.toNat with
      | 1 => execMtrRestore ini s
      | 2 => execCkptNow ini s
      | _ => noCode)
  else if 0x81 ≤ pg ∧ pg ≤ 0x88 ∧ 0x40 ≤ off ∧ off < 0x240 ∧ axisOff off = 0x58 then
    let a : Fin 16 := Fin.ofNat 16 (axisOf pg off)
    some (match v.toNat with
      | 1 => execMove ini a s
      | 2 => execAxisStop ini a s
      | 3 => execHome ini a s
      | 4 => execGear ini a s
      | 5 => execRatio ini a s
      | 6 => execFollow ini a s
      | 7 => execPowerDown ini a s
      | 8 => execPowerUp ini a s
      | 9 => execSetPos ini a s
      | 10 => execClear ini a s
      | _ => noCode)
  else none

/-- Pages 0x0A0 to 0x0C5. (DEDUCED, log entry 19.) -/
def routeHigh (ini : Fin 16) (pg off : Nat) (v : Word) (s : State) : Option Result :=
  if pg = 0xA0 then
    if off = 0x40 then
      some (match fieldGet F.SAFE_CMD_CMD v with
        | 1 => execSafeLoad ini s
        | 2 => execSafestate ini s
        | 3 => execPenAck ini v s
        | 4 => execIscRestart ini v s
        | _ => noCode)
    else if off = 0x48 then some (execSafeCycleEnd ini v s)
    else none
  else if pg = 0xA3 ∧ off = 0x44 then
    some (if v = 1#32 then execRxPut ini s else if v = 2#32 then execTxGet ini s else mbCommand ini v s)
  else if pg = 0xB0 then
    if off = 0x6C then
      some (if v &&& 0x0000FFF0#32 != 0 then noCode else match fieldGet F.MIRROR_CMD_CMD v with
        | 1 => execPlannedSwap ini (BitVec.ofNat 16 (fieldGet F.MIRROR_CMD_TMO v)) s
        | 2 => execMirrorGiveup ini s
        | 3 => execForceActive ini s
        | 4 => execPeerReset ini s
        | _ => noCode)
    else if off = 0x70 then some (execMirrorHbKick ini v s)
    else none
  else if pg = 0xC0 then
    if off = 0x64 then some (execPtpSlewWrite ini v s)
    else if off = 0x84 then
      some (if v &&& 0xFFFFFEF0#32 != 0 then noCode else match fieldGet F.PTP_CMD_CMD v with
        | 1 => execPtpStep ini (bitAt v 8) s
        | 2 => execPtpSet ini (bitAt v 8) s
        | 3 => execForceNext ini s
        | _ => noCode)
    else if off = 0x8C then some (execServoEnable ini v s)
    else if off = 0xA4 then some (execOffsetSampleSubmit ini v s)
    else none
  else if pg = 0xC5 ∧ off = 0x7C then
    some (match v.toNat with
      | 1 => execRtcSet ini s
      | 2 => execRtcSetDefer ini s
      | 3 => execRtcCancel ini s
      | _ => noCode)
  else none

/-- Pages 0x0D0 to 0x127. (DEDUCED, log entry 19.) -/
def routeTop (ini : Fin 16) (pg off : Nat) (v : Word) (s : State) : Option Result :=
  if 0xD0 ≤ pg ∧ pg ≤ 0xDB then
    let k : Fin 4 := Fin.ofNat 4 ((pg - 0xD0) / 3)
    if (pg - 0xD0) % 3 = 0 then (if off = 0x94 ∧ 2 ≤ k.val then some (execMdioCommand ini k v s) else none)
    else if (pg - 0xD0) % 3 = 1 then
      if 0x40 ≤ off ∧ off < 0x140 ∧ off % 0x20 = 0x08 then
        some (execEthTqTailWrite ini k (Fin.ofNat 8 ((off - 0x40) / 0x20)) v s)
      else if 0x140 ≤ off ∧ off < 0x1C0 ∧ off % 0x10 = 0x08 then
        some (execEthRqTailWrite ini k (Fin.ofNat 8 ((off - 0x140) / 0x10)) v s)
      else none
    else if off = 0x54 then some (if v = 1#32 then execGateSwitch ini k s
        else pageWrite ini pg off (errIf (v != 0) 37) s (fun s => s))
    else none
  else if 0xE1 ≤ pg ∧ pg ≤ 0xE8 then
    let c : Fin 8 := Fin.ofNat 8 (pg - 0xE1)
    if off = 0x4C then
      some (match v.toNat with
        | 1 => execCanRestart ini c s
        | 2 => execCanSleep ini c s
        | 3 => execCanWake ini c s
        | _ => noCode)
    else if off = 0x54 then some (execCanTxreqWrite ini c v s)
    else if off = 0x58 then some (execCanTxcancelWrite ini c v s)
    else if off = 0x6C then some (execCanRxgrabWrite ini c v s)
    else if off = 0x70 then some (execCanRxrelWrite ini c v s)
    else if off = 0x74 then some (execCanFifoHeadWrite ini c v s)
    else if off = 0x80 then some (execCanRamDataAccess ini c (some v) s)
    else none
  else if pg = 0xF0 then
    if off = 0x40 then
      some (match fieldGet F.KEYS_CMD_CMD v with
        | 1 => execKeyImport ini v s
        | 2 => execKeyDerive ini v s
        | 3 => execKeyStore ini v s
        | 4 => execKeyErase ini v s
        | 5 => execKeysClear ini v s
        | 6 => execKeyEnroll ini v s
        | 7 => execKeySecure ini v s
        | 8 => execKeyDecommission ini v s
        | 9 => execGcmStart ini v s
        | 10 => execGcmFinal ini v s
        | _ => noCode)
    else if off = 0xF8 then some (execGcmDinWrite ini v s)
    else none
  else if pg = 0x100 ∧ off = 0x44 then
    some (if v &&& 0xFFFFFCF0#32 != 0 then noCode else match fieldGet F.LANTERN_CMD_CMD v with
      | 1 => execLanternOn ini s
      | 2 => execLanternOff ini s
      | 3 => execRectSubmit ini (Fin.ofNat 4 (fieldGet F.LANTERN_CMD_SLOT v)) s
      | _ => noCode)
  else if pg = 0x110 ∧ off = 0x4C then
    some (match fieldGet F.AGL_SW_CMD_OP v with
      | 1 => execAglAdd ini v s
      | 2 => execAglHist ini v s
      | 3 => execAglClear ini v s
      | _ => noCode)
  else none

/-- The command a write to a register is, where the table of commands has a row for it. (DESIGN CHOICE, log entry 20.) -/
def busRoute (ini : Fin 16) (pg off : Nat) (v : Word) (s : State) : Option Result :=
  if pg < 0x50 then routeLow ini pg off v s
  else if pg < 0xA0 then routeMid ini pg off v s
  else if pg < 0xD0 then routeHigh ini pg off v s
  else routeTop ini pg off v s

/-! ### The header (R21-R27) -/

/-- A write of PCTL: LOCK, EN and SRST take effect together (R21-R23, R27). -/
def pctlWrite (s : State) (pg : Nat) (v : Word) : State :=
  let s := setEn s pg (bitAt v 0)
  let s := if bitAt v 1 then beginSrst s pg else s
  if bitAt v 2 then lockPage s pg else s

/-- A write below offset 0x040. `hw` holds the INT_RAW bits that hardware sets in the same cycle (R4). (DEDUCED, log entry 25.) -/
def headerWrite (ini : Fin 16) (pg off : Nat) (v hw : Word) (s : State) : Result :=
  if off = 0x04 then
    pageSettle ini pg off ((errIf (value_reserved v) 37).orElse (fun _ => (lockErr s pg).orElse (fun _ => enErr s pg (bitAt v 0)))) s
      (fun s => pctlWrite s pg v)
  else if off = 0x0C then
    pageWrite ini pg off (intErr pg v) s (fun s => wr s (Reg.INT_RAW pg) ((rd s (Reg.INT_RAW pg) &&& ~~~v) ||| hw))
  else if off = 0x10 then pageWrite ini pg off (intErr pg v) s (fun s => wr s (Reg.INT_EN pg) v)
  else if off = 0x18 then pageWrite ini pg off (intErr pg v) s (fun s => orReg s (Reg.INT_RAW pg) v)
  else if off = 0x1C then pageWrite ini pg off (errIf (v &&& 0xFFFF0000#32 != 0) 37) s (fun s => pkeyWrite s pg v)
  else if off = 0x08 then pageWrite ini pg off (errIf (value_reserved v) 37) s (fun s => s)
  else if off = 0x14 then pageWrite ini pg off (intErr pg v) s (fun s => s)
  else pageWrite ini pg off (if 0x20 ≤ off then errIf (v != 0) 37 else none) s (fun s => s)
where
  /-- PCTL bits [31:3] and PSTAT bits [31:3] are reserved. -/
  value_reserved (v : Word) : Bool := v &&& 0xFFFFFFF8#32 != 0

/-! ### Registers at 0x040 and above -/

/-- What a write leaves in a register (R3, R4): bits it sets, bits a 1 clears unless hardware sets them now, bits a 1
sets. (DEDUCED, log entry 25.) -/
def writtenValue (r : RegRow) (old v hw : Word) : Word :=
  let m := fun (n : Nat) => BitVec.ofNat 32 n
  let c := m r.w1c
  match r.acc with
  | .ro => old
  | .rc => old
  | .wo => v
  | _ => (old &&& ~~~(m r.rw) &&& ~~~(v &&& c)) ||| (v &&& m r.rw) ||| (v &&& m r.w1s) ||| (hw &&& c)

/-- What a write does beside its register: `old` is the state before it. -/
def busWritten (old s : State) (pg off : Nat) (v : Word) : State :=
  let a := pg * 0x1000 + off
  if 0x10 ≤ pg ∧ pg ≤ 0x16 ∧ off = 0x40 then coreSync (setCore s (pg - 0x10) (fun k => { k with trapped := false })) (pg - 0x10)
  else if 0x20 ≤ pg ∧ pg ≤ 0x22 ∧ off = 0x78 then trkSync s (pg - 0x20)
  else if pg = 0x23 ∧ off = 0x40 then glintCfg old v
  else if pg = 0x24 ∧ off = 0x48 then repairSync s
  else if 0x81 ≤ pg ∧ pg ≤ 0x88 then
    if axisOff off = 0 then axCfgWritten s (axisOf pg off) (flag old (Reg.ACFG (axisOf pg off)) F.ACFG_EN)
    else if axisOff off = 0x60 then axEventsRefresh s (axisOf pg off)
    else s
  else if pg = 0xA4 ∧ off = 0x40 then iscWindow s
  else if pg = 0xA4 ∧ 0x88 ≤ off then iscTxWritten s
  else if pg = 0xC5 ∧ 0x84 ≤ off then alarmWrite old a v
  else if pg = 0xF0 ∧ off = 0xC0 then slotInfo s
  else if 0xD2 ≤ pg ∧ pg ≤ 0xDB ∧ (pg - 0xD2) % 3 = 0 ∧ off = 0x40 then
    let k := (pg - 0xD2) / 3
    let t := creditSync old k
    let t := wr t a v
    if !(gateEn old k) && bitAt v 0 then gateArm t k else t
  else s

/-- A write to a register at 0x040 or above that has no row of its own. (DEDUCED, log entries 18, 19.) -/
def plainWrite (ini : Fin 16) (pg off : Nat) (v hw : Word) (s : State) : Result :=
  let a := pg * 0x1000 + off
  match regRows.find? (fun r => rowAt r pg off) with
  | none => pageWrite ini pg off (errIf (v != 0) 37) s (fun s => s)
  | some r =>
    let rwl := r.acc == .rwl
    let n := writtenValue r (rd s a) v hw
    let e := (errIf (v.toNat &&& (2 ^ 32 - 1 - r.used) != 0) 37).orElse (fun _ =>
      if r.acc == .ro || r.acc == .rc then (if 0x41 ≤ pg ∧ pg ≤ 0x44 then busyErr s pg off rwl else none)
      else (if rwl then lockErr s pg else none).orElse (fun _ => (busyErr s pg off rwl).orElse (fun _ =>
        (limitErr pg off v).orElse (fun _ => (fieldsErr s pg off v).orElse (fun _ =>
          if 0x81 ≤ pg ∧ pg ≤ 0x88 ∧ rwl = true then axCfgErr s (axisOf pg off) (axisOff off) v else none)))))
    pageWrite ini pg off e s (fun s =>
      if r.acc == .ro || r.acc == .rc then s else busWritten s (wr s a n) pg off v)

/-- A write of a word to a register, whatever its page: the header, a register whose write is a command of its own, or any
other one (R3, R4, R21-R27). (DESIGN CHOICE, log entry 91.) -/
def writeRegister (ini : Fin 16) (pg off : Nat) (value hwSet : Word) (s : State) : Result :=
  if off < 0x40 then headerWrite ini pg off value hwSet s
  else match busRoute ini pg off value s with
    | some r => r
    | none => plainWrite ini pg off value hwSet s

end Sys2Proof.Machine
end

