-- ==== Sys2Proof/Machine/BusRead.lean ====
section
/-!
DEFINITION. REGISTER_WRITE: an access of a word of register space (R3, R4, R17-R29), a write or a read. A read does what the
row of its register does where the table of commands has one, clears an RC register, and has no effect elsewhere.
-/

namespace Sys2Proof.Machine

/-- Word of a signal window (R171): its home is CLE RAM. -/
def signalWord (s : State) (g : Nat) : Word :=
  BitVec.ofNat 32 (sigValue s g + 65536 * sigQual s g + 1048576 * sigMask s g)

/-- What a header register shows (R21, R24, R26): UNLOCKED while the window is open, INT_PEND as INT_RAW and INT_EN; INT_SET
and PKEY read 0. -/
def headerWord (s : State) (pg off : Nat) : Word :=
  if off = 0x08 then putBit (rd s (Reg.PSTAT pg)) 2 (unlocked s pg)
  else if off = 0x14 then intPend s pg
  else if off = 0x18 ∨ off = 0x1C then 0
  else rd s (pg * 0x1000 + off)

/-- The row of a register's table. -/
def rowOfReg (pg off : Nat) : Option RegRow := regRows.find? (fun r => rowAt r pg off)

/-- A value that changes as time passes: MISSED of SSTAT counts the whole periods of the session's age (R145, R146). -/
def liveWord (s : State) (pg off : Nat) (w : Word) : Word :=
  let x := 128 * (pg - 0x51) + (off - 0x40) / 16
  if 0x51 ≤ pg ∧ pg ≤ 0x58 ∧ off % 16 = 0 ∧ rxeDisabled s x = false then fieldPut F.SSTAT_MISSED w (min 255 (missedPeriods s x))
  else w

/-- What a register shows, before any effect of a read: a WO register and a reserved offset read 0 (R3, R37). (DESIGN CHOICE, log entry 91.) -/
def registerWord (s : State) (pg off : Nat) : Word :=
  if off < 0x40 then headerWord s pg off
  else if 0x78 ≤ pg ∧ pg ≤ 0x7F ∧ off < 0x840 then signalWord s (512 * (pg - 0x78) + (off - 0x40) / 4)
  else match rowOfReg pg off with
    | none => 0
    | some r => if r.acc == .wo then 0 else liveWord s pg off (rd s (pg * 0x1000 + off))

/-- Registers brought up to date before they are read: SAFE_PEN_NEXT counts down as MONO goes on (R339), and HB_RUN reads 0
as soon as ARB_HB may not toggle (R347). -/
def refreshed (s : State) (pg off : Nat) : State :=
  if pg = 0xA0 ∧ off = 0x64 then penShow s
  else if pg = 0xB0 ∧ off = 0x74 then setMirrorFlag s F.MIRROR_STAT_HB_RUN (mirrorFlag s F.MIRROR_STAT_HB_RUN && hbOk s)
  else s

/-- What a read leaves in a register: an RC register returns to its reset value (R3), with what an event of the same cycle
sets in it (R4). (DESIGN CHOICE, log entry 91.) -/
def readCleared (s : State) (pg off : Nat) (hw : Word) : State :=
  match rowOfReg pg off with
  | some r => if r.acc == .rc then wr s (pg * 0x1000 + off) (BitVec.ofNat 32 r.reset ||| hw) else s
  | none => s

/-- The command a read is, where the table of commands has a row for it. (DESIGN CHOICE, log entry 91.) -/
def readRoute (ini : Fin 16) (pg off : Nat) (s : State) : Option Result :=
  if pg = 0xC0 ∧ off = 0x40 then some (execPtpNowNsRead s)
  else if pg = 0xC0 ∧ off = 0x58 then some (execMonoLoRead s)
  else if 0xC1 ≤ pg ∧ pg ≤ 0xC4 ∧ off = 0x48 then some (execPtpEchoTagRead (Fin.ofNat 4 (pg - 0xC1)) s)
  else if pg = 0xC5 ∧ 0x40 ≤ off ∧ off ≤ 0x5C ∧ off % 4 = 0 then some (execRtcCountRead (Fin.ofNat 8 ((off - 0x40) / 4)) s)
  else if 0x10 ≤ pg ∧ pg ≤ 0x16 ∧ off = 0x64 then some (execCoreIackRead (Fin.ofNat 7 (pg - 0x10)) ini s)
  else if pg = 0x70 ∧ off = 0x60 then some (execCleRamDataAccess ini none s)
  else if 0xE1 ≤ pg ∧ pg ≤ 0xE8 ∧ off = 0x80 then some (execCanRamDataAccess ini (Fin.ofNat 8 (pg - 0xE1)) none s)
  else if pg = 0x92 ∧ 0x40 ≤ off ∧ off < 0xC40 ∧ off % 0x10 = 0 then some (execAccumulatorLoRead (Fin.ofNat 304 ((off - 0x40) / 0x10)) s)
  else if pg = 0x93 ∧ 0x240 ≤ off ∧ off < 0x940 ∧ off % 0x10 = 0 then
    some (execAccumulatorLoRead (Fin.ofNat 304 (192 + (off - 0x240) / 0x10)) s)
  else if 0x81 ≤ pg ∧ pg ≤ 0x88 ∧ 0x40 ≤ off ∧ off < 0x240 ∧ axisOff off = 0x64 then
    some (execAposLoRead (Fin.ofNat 16 (axisOf pg off)) false s)
  else if 0x81 ≤ pg ∧ pg ≤ 0x88 ∧ 0x40 ≤ off ∧ off < 0x240 ∧ axisOff off = 0x70 then
    some (execAposLoRead (Fin.ofNat 16 (axisOf pg off)) true s)
  else none

/-- A read of a word of register space by an initiator: the access checks, what the read returns (in `State.rdata`), and what
it leaves; `hwSet` holds what an event of the same cycle sets in an RC register (R3, R4, R17, R23, R29). (DESIGN CHOICE, log entry 91.) -/
def readRegister (ini : Fin 16) (pg off : Nat) (hwSet : Word) (s : State) : Result :=
  match readRoute ini pg off s with
  | some r => r
  | none =>
    if 0x78 ≤ pg ∧ pg ≤ 0x7F ∧ 0x40 ≤ off ∧ off < 0x840 then
      check (pageErr s pg off) (let r := cleReadPage (granted s ini) (16 * (512 * (pg - 0x78) + (off - 0x40) / 4))
        .next (answer r.2 [r.1 &&& 0x00F3FFFF#32]))
    else check (pageErr s pg off) (let t := refreshed (granted s ini) pg off
      .next (answer (readCleared t pg off hwSet) [registerWord t pg off]))

/-- REGISTER_WRITE (R3, R4, R18, R19): a write of `value` to an address, or with no value a read of it (the two columns of
R3's table). `hwSet` holds the W1C bits that hardware sets in the same cycle, or what an event of that cycle sets in the RC
register read. (DESIGN CHOICE, log entry 91; DEDUCED, log entry 25.) -/
def execRegisterWrite (ini : Fin 16) (addr : Word) (value : Option Word) (hwSet : Word) (s : State) : Result :=
  let x := addr.toNat
  let pg := (x - 0xF0000000) / 0x1000
  let off := x % 0x1000
  if x < 0xF0000000 ∨ 0xF0FFFFFF < x then .fault (.hostError 18)
  else if x % 4 ≠ 0 then .fault (.hostError 19)
  else match value with
    | some v => writeRegister ini pg off v hwSet s
    | none => readRegister ini pg off hwSet s

end Sys2Proof.Machine
end

