-- ==== Sys2Proof/Machine/Dispatch.lean ====
section
/-!
DEFINITION. One arm per command of the table, each one call of its meaning.
-/

namespace Sys2Proof.Machine

def exec (i : Instr) (s : State) : Host.Outcome State Fault Refusal :=
  match i with
  | .registerWrite ini addr value hwSet => Sys2Proof.Machine.execRegisterWrite ini addr value hwSet s
  | .pkeyWrite ini page value => Sys2Proof.Machine.execPkeyWrite ini page value s
  | .unlockWindowClose page => Sys2Proof.Machine.execUnlockWindowClose page s
  | .pctlEn ini page en => Sys2Proof.Machine.execPctlEn ini page en s
  | .srst ini page => Sys2Proof.Machine.execSrst ini page s
  | .softResetDone page => Sys2Proof.Machine.execSoftResetDone page s
  | .pageLock ini page => Sys2Proof.Machine.execPageLock ini page s
  | .intSet ini page value => Sys2Proof.Machine.execIntSet ini page value s
  | .clkRunWrite ini value => Sys2Proof.Machine.execClkRunWrite ini value s
  | .clkDrstWrite ini value => Sys2Proof.Machine.execClkDrstWrite ini value s
  | .semaphoreRequest sem requesters => Sys2Proof.Machine.execSemaphoreRequest sem requesters s
  | .signalWindowWrite ini signal value => Sys2Proof.Machine.execSignalWindowWrite ini signal value s
  | .porRelease boot sealLevel puf => Sys2Proof.Machine.execPorRelease boot sealLevel puf s
  | .pllLock => Sys2Proof.Machine.execPllLock s
  | .powerDomainEnable k => Sys2Proof.Machine.execPowerDomainEnable k s
  | .bankFillStart bank reads => Sys2Proof.Machine.execBankFillStart bank reads s
  | .bankFillDone bank => Sys2Proof.Machine.execBankFillDone bank s
  | .fillComplete => Sys2Proof.Machine.execFillComplete s
  | .sv0Release => Sys2Proof.Machine.execSv0Release s
  | .pinReset => Sys2Proof.Machine.execPinReset s
  | .swReset ini key => Sys2Proof.Machine.execSwReset ini key s
  | .watchdogEnable ini value => Sys2Proof.Machine.execWatchdogEnable ini value s
  | .watchdogKick ini key => Sys2Proof.Machine.execWatchdogKick ini key s
  | .watchdogExpiry => Sys2Proof.Machine.execWatchdogExpiry s
  | .coreRelease ini value => Sys2Proof.Machine.execCoreRelease ini value s
  | .rootKeyRegeneration => Sys2Proof.Machine.execRootKeyRegeneration s
  | .bootHeaderCheck slot => Sys2Proof.Machine.execBootHeaderCheck slot s
  | .bootSectionLoad => Sys2Proof.Machine.execBootSectionLoad s
  | .bootDone => Sys2Proof.Machine.execBootDone s
  | .bootFail => Sys2Proof.Machine.execBootFail s
  | .uartRecoveryPrompt => Sys2Proof.Machine.execUartRecoveryPrompt s
  | .uartImageByte value => Sys2Proof.Machine.execUartImageByte value s
  | .mirrorBootTimeout => Sys2Proof.Machine.execMirrorBootTimeout s
  | .pwrFailNFall => Sys2Proof.Machine.execPwrFailNFall s
  | .pwrFailQualified => Sys2Proof.Machine.execPwrFailQualified s
  | .afterglowPowerFailRecord => Sys2Proof.Machine.execAfterglowPowerFailRecord s
  | .cycModesetWrite ini value => Sys2Proof.Machine.execCycModesetWrite ini value s
  | .startCold ini => Sys2Proof.Machine.execStartCold ini s
  | .startWarm ini => Sys2Proof.Machine.execStartWarm ini s
  | .cycStop ini => Sys2Proof.Machine.execCycStop ini s
  | .taskHold ini task => Sys2Proof.Machine.execTaskHold ini task s
  | .taskResume ini task => Sys2Proof.Machine.execTaskResume ini task s
  | .retCommit ini => Sys2Proof.Machine.execRetCommit ini s
  | .faultClear ini task => Sys2Proof.Machine.execFaultClear ini task s
  | .taskRelease task => Sys2Proof.Machine.execTaskRelease task s
  | .transferOpStart => Sys2Proof.Machine.execTransferOpStart s
  | .snapshotComplete => Sys2Proof.Machine.execSnapshotComplete s
  | .cycEnd core value => Sys2Proof.Machine.execCycEnd core value s
  | .commitInstant => Sys2Proof.Machine.execCommitInstant s
  | .distributionComplete => Sys2Proof.Machine.execDistributionComplete s
  | .forceEnableWrite ini isCount value => Sys2Proof.Machine.execForceEnableWrite ini isCount value s
  | .retPeriodExpiry => Sys2Proof.Machine.execRetPeriodExpiry s
  | .freezeCopyComplete => Sys2Proof.Machine.execFreezeCopyComplete s
  | .retDataWritten => Sys2Proof.Machine.execRetDataWritten s
  | .retCommitComplete => Sys2Proof.Machine.execRetCommitComplete s
  | .exch ini => Sys2Proof.Machine.execExch ini s
  | .exchRevert ini => Sys2Proof.Machine.execExchRevert ini s
  | .exchAbort ini => Sys2Proof.Machine.execExchAbort ini s
  | .exchDiscard ini => Sys2Proof.Machine.execExchDiscard ini s
  | .exchangeInstant => Sys2Proof.Machine.execExchangeInstant s
  | .exchangeTimeout => Sys2Proof.Machine.execExchangeTimeout s
  | .gapEnd => Sys2Proof.Machine.execGapEnd s
  | .sessionEnable ini session => Sys2Proof.Machine.execSessionEnable ini session s
  | .sessionDisable ini session => Sys2Proof.Machine.execSessionDisable ini session s
  | .sessionResume ini session => Sys2Proof.Machine.execSessionResume ini session s
  | .resync ini session => Sys2Proof.Machine.execResync ini session s
  | .cycInReceive => Sys2Proof.Machine.execCycInReceive s
  | .imagePublish session => Sys2Proof.Machine.execImagePublish session s
  | .eventReceive => Sys2Proof.Machine.execEventReceive s
  | .bulkReceive => Sys2Proof.Machine.execBulkReceive s
  | .lsxAckReceive => Sys2Proof.Machine.execLsxAckReceive s
  | .sessionStale session => Sys2Proof.Machine.execSessionStale session s
  | .sessionLost session => Sys2Proof.Machine.execSessionLost session s
  | .freezePoint session => Sys2Proof.Machine.execFreezePoint session s
  | .decisionPoint session => Sys2Proof.Machine.execDecisionPoint session s
  | .rxeCqHeadWrite ini value => Sys2Proof.Machine.execRxeCqHeadWrite ini value s
  | .rxeFreeRetWrite ini value => Sys2Proof.Machine.execRxeFreeRetWrite ini value s
  | .rxeTxqTailWrite ini value => Sys2Proof.Machine.execRxeTxqTailWrite ini value s
  | .requestTake => Sys2Proof.Machine.execRequestTake s
  | .retransmissionTimeout session => Sys2Proof.Machine.execRetransmissionTimeout session s
  | .cleTick stalls => Sys2Proof.Machine.execCleTick stalls s
  | .pinExpire slot => Sys2Proof.Machine.execPinExpire slot s
  | .lctlWrite ini slot value => Sys2Proof.Machine.execLctlWrite ini slot value s
  | .cleRamDataAccess ini write => Sys2Proof.Machine.execCleRamDataAccess ini write s
  | .cleGcmd ini value => Sys2Proof.Machine.execCleGcmd ini value s
  | .gainCopyDone => Sys2Proof.Machine.execGainCopyDone s
  | .laneGroupWake => Sys2Proof.Machine.execLaneGroupWake s
  | .prismLoad ini slot ctx => Sys2Proof.Machine.execPrismLoad ini slot ctx s
  | .prismUnload ini slot => Sys2Proof.Machine.execPrismUnload ini slot s
  | .loadStep => Sys2Proof.Machine.execLoadStep s
  | .prismJobqDoorWrite ini value => Sys2Proof.Machine.execPrismJobqDoorWrite ini value s
  | .jobAccept => Sys2Proof.Machine.execJobAccept s
  | .jobStart => Sys2Proof.Machine.execJobStart s
  | .segmentBoundary => Sys2Proof.Machine.execSegmentBoundary s
  | .prismPublish => Sys2Proof.Machine.execPrismPublish s
  | .completionRecord => Sys2Proof.Machine.execCompletionRecord s
  | .prismCqHeadWrite ini value => Sys2Proof.Machine.execPrismCqHeadWrite ini value s
  | .prismCancel ini value => Sys2Proof.Machine.execPrismCancel ini value s
  | .mtrRestore ini => Sys2Proof.Machine.execMtrRestore ini s
  | .ckptNow ini => Sys2Proof.Machine.execCkptNow ini s
  | .blockEnd dir => Sys2Proof.Machine.execBlockEnd dir s
  | .blockCommit bits => Sys2Proof.Machine.execBlockCommit bits s
  | .intervalRecordsWritten => Sys2Proof.Machine.execIntervalRecordsWritten s
  | .checkpointComplete => Sys2Proof.Machine.execCheckpointComplete s
  | .bitstreamStuck channel bits => Sys2Proof.Machine.execBitstreamStuck channel bits s
  | .bandChange channel bits => Sys2Proof.Machine.execBandChange channel bits s
  | .heatFlowEdge channel level => Sys2Proof.Machine.execHeatFlowEdge channel level s
  | .flowTimeout channel => Sys2Proof.Machine.execFlowTimeout channel s
  | .rtdRead input status code => Sys2Proof.Machine.execRtdRead input status code s
  | .pulseStart k => Sys2Proof.Machine.execPulseStart k s
  | .pulseEnd k => Sys2Proof.Machine.execPulseEnd k s
  | .accumulatorLoRead index => Sys2Proof.Machine.execAccumulatorLoRead index s
  | .axisMove ini axis => Sys2Proof.Machine.execMove ini axis s
  | .axisStop ini axis => Sys2Proof.Machine.execAxisStop ini axis s
  | .axisHome ini axis => Sys2Proof.Machine.execHome ini axis s
  | .axisGear ini axis => Sys2Proof.Machine.execGear ini axis s
  | .axisRatio ini axis => Sys2Proof.Machine.execRatio ini axis s
  | .axisFollow ini axis => Sys2Proof.Machine.execFollow ini axis s
  | .powerDown ini axis => Sys2Proof.Machine.execPowerDown ini axis s
  | .powerUp ini axis => Sys2Proof.Machine.execPowerUp ini axis s
  | .setPos ini axis => Sys2Proof.Machine.execSetPos ini axis s
  | .axisClear ini axis => Sys2Proof.Machine.execClear ini axis s
  | .profileTick => Sys2Proof.Machine.execProfileTick s
  | .startGridPoint => Sys2Proof.Machine.execStartGridPoint s
  | .stepIssue axis => Sys2Proof.Machine.execStepIssue axis s
  | .classPPulse axis => Sys2Proof.Machine.execClassPPulse axis s
  | .encoderEdge encoder a b => Sys2Proof.Machine.execEncoderEdge encoder a b s
  | .hardLimit axis positive level => Sys2Proof.Machine.execHardLimit axis positive level s
  | .homeEdge axis level => Sys2Proof.Machine.execHomeEdge axis level s
  | .homingUnstable axis => Sys2Proof.Machine.execHomingUnstable axis s
  | .ratioApply axis => Sys2Proof.Machine.execRatioApply axis s
  | .blendEnd axis => Sys2Proof.Machine.execBlendEnd axis s
  | .legacyTimeout axis => Sys2Proof.Machine.execLegacyTimeout axis s
  | .adlFrame words => Sys2Proof.Machine.execAdlFrame words s
  | .driverSupplyLoss axis => Sys2Proof.Machine.execDriverSupplyLoss axis s
  | .powerUpTimeout axis => Sys2Proof.Machine.execPowerUpTimeout axis s
  | .axisSignalWrite => Sys2Proof.Machine.execAxisSignalWrite s
  | .aposLoRead axis latch => Sys2Proof.Machine.execAposLoRead axis latch s
  | .safeLoad ini => Sys2Proof.Machine.execSafeLoad ini s
  | .safestate ini => Sys2Proof.Machine.execSafestate ini s
  | .penAck ini value => Sys2Proof.Machine.execPenAck ini value s
  | .iscRestart ini value => Sys2Proof.Machine.execIscRestart ini value s
  | .safetyCycleStart => Sys2Proof.Machine.execSafetyCycleStart s
  | .safeCycleEnd ini value => Sys2Proof.Machine.execSafeCycleEnd ini value s
  | .applicationInstant => Sys2Proof.Machine.execApplicationInstant s
  | .fatalFault cause => Sys2Proof.Machine.execFatalFault cause s
  | .clockMonitorWindow count => Sys2Proof.Machine.execClockMonitorWindow count s
  | .safeResetRequest => Sys2Proof.Machine.execSafeResetRequest s
  | .sealRead sealLevel => Sys2Proof.Machine.execSealRead sealLevel s
  | .safetyInputSample levels => Sys2Proof.Machine.execSafetyInputSample levels s
  | .testPulseStart k => Sys2Proof.Machine.execTestPulseStart k s
  | .testPulseEnd k => Sys2Proof.Machine.execTestPulseEnd k s
  | .discrepancyExpiry pair => Sys2Proof.Machine.execDiscrepancyExpiry pair s
  | .darkTestStart output => Sys2Proof.Machine.execDarkTestStart output s
  | .darkTestEnd output lowSeen => Sys2Proof.Machine.execDarkTestEnd output lowSeen s
  | .readbackTimeout output channelB => Sys2Proof.Machine.execReadbackTimeout output channelB s
  | .iscPduAccept => Sys2Proof.Machine.execIscPduAccept s
  | .iscWatchdog conn => Sys2Proof.Machine.execIscWatchdog conn s
  | .rxPut ini => Sys2Proof.Machine.execRxPut ini s
  | .txGet ini => Sys2Proof.Machine.execTxGet ini s
  | .penumbraExpire element => Sys2Proof.Machine.execPenumbraExpire element s
  | .plannedSwap ini tmo => Sys2Proof.Machine.execPlannedSwap ini tmo s
  | .swapInstant => Sys2Proof.Machine.execSwapInstant s
  | .swapTimeout => Sys2Proof.Machine.execSwapTimeout s
  | .mirrorGiveup ini => Sys2Proof.Machine.execMirrorGiveup ini s
  | .forceActive ini => Sys2Proof.Machine.execForceActive ini s
  | .peerReset ini => Sys2Proof.Machine.execPeerReset ini s
  | .mirrorHbKick ini value => Sys2Proof.Machine.execMirrorHbKick ini value s
  | .heartbeatToggle => Sys2Proof.Machine.execHeartbeatToggle s
  | .arbGrantQualified level => Sys2Proof.Machine.execArbGrantQualified level s
  | .initGrantLow => Sys2Proof.Machine.execInitGrantLow s
  | .pllLockLoss => Sys2Proof.Machine.execPllLockLoss s
  | .linkDown => Sys2Proof.Machine.execLinkDown s
  | .statusSend => Sys2Proof.Machine.execStatusSend s
  | .statusReceive frame => Sys2Proof.Machine.execStatusReceive frame s
  | .setBeginReceive frame => Sys2Proof.Machine.execSetBeginReceive frame s
  | .setDataReceive frame => Sys2Proof.Machine.execSetDataReceive frame s
  | .setEndReceive frame => Sys2Proof.Machine.execSetEndReceive frame s
  | .mirrorAckReceive frame => Sys2Proof.Machine.execMirrorAckReceive frame s
  | .nakReceive frame => Sys2Proof.Machine.execNakReceive frame s
  | .giveupReceive frame => Sys2Proof.Machine.execGiveupReceive frame s
  | .peerResetReceive frame => Sys2Proof.Machine.execPeerResetReceive frame s
  | .axisStartReceive frame => Sys2Proof.Machine.execAxisStartReceive frame s
  | .bootReqReceive frame => Sys2Proof.Machine.execBootReqReceive frame s
  | .bootReqSend => Sys2Proof.Machine.execBootReqSend s
  | .bootDataReceive frame => Sys2Proof.Machine.execBootDataReceive frame s
  | .swapReceive frame => Sys2Proof.Machine.execSwapReceive frame s
  | .freezeEnd => Sys2Proof.Machine.execFreezeEnd s
  | .setApply => Sys2Proof.Machine.execSetApply s
  | .takeoverComplete => Sys2Proof.Machine.execTakeoverComplete s
  | .ptpStep ini force => Sys2Proof.Machine.execPtpStep ini force s
  | .ptpSet ini force => Sys2Proof.Machine.execPtpSet ini force s
  | .forceNext ini => Sys2Proof.Machine.execForceNext ini s
  | .ptpSlewWrite ini value => Sys2Proof.Machine.execPtpSlewWrite ini value s
  | .slewDone => Sys2Proof.Machine.execSlewDone s
  | .servoEnable ini value => Sys2Proof.Machine.execServoEnable ini value s
  | .offsetSampleSubmit ini value => Sys2Proof.Machine.execOffsetSampleSubmit ini value s
  | .holdoverTimeout => Sys2Proof.Machine.execHoldoverTimeout s
  | .ptpNowNsRead => Sys2Proof.Machine.execPtpNowNsRead s
  | .monoLoRead => Sys2Proof.Machine.execMonoLoRead s
  | .ptpEchoTagRead port => Sys2Proof.Machine.execPtpEchoTagRead port s
  | .rtcCountRead fieldIx => Sys2Proof.Machine.execRtcCountRead fieldIx s
  | .shadowExpired => Sys2Proof.Machine.execShadowExpired s
  | .rtcSet ini => Sys2Proof.Machine.execRtcSet ini s
  | .rtcSetDefer ini => Sys2Proof.Machine.execRtcSetDefer ini s
  | .rtcCancel ini => Sys2Proof.Machine.execRtcCancel ini s
  | .rtcCommit => Sys2Proof.Machine.execRtcCommit s
  | .rtcSecond => Sys2Proof.Machine.execRtcSecond s
  | .backupPowerLoss => Sys2Proof.Machine.execBackupPowerLoss s
  | .ethTqTailWrite ini port queue value => Sys2Proof.Machine.execEthTqTailWrite ini port queue value s
  | .frameTxStart port => Sys2Proof.Machine.execFrameTxStart port s
  | .frameTxEnd port => Sys2Proof.Machine.execFrameTxEnd port s
  | .launchTimeReached port queue => Sys2Proof.Machine.execLaunchTimeReached port queue s
  | .frameReceive port bytes fcsOk => Sys2Proof.Machine.execFrameReceive port bytes fcsOk s
  | .ethRqTailWrite ini port ring value => Sys2Proof.Machine.execEthRqTailWrite ini port ring value s
  | .linkChange port up an => Sys2Proof.Machine.execLinkChange port up an s
  | .gateEntryChange port => Sys2Proof.Machine.execGateEntryChange port s
  | .gateSwitch ini port => Sys2Proof.Machine.execGateSwitch ini port s
  | .gateChangeInstant port => Sys2Proof.Machine.execGateChangeInstant port s
  | .mdioCommand ini port value => Sys2Proof.Machine.execMdioCommand ini port value s
  | .mdioComplete port data => Sys2Proof.Machine.execMdioComplete port data s
  | .canRestart ini channel => Sys2Proof.Machine.execCanRestart ini channel s
  | .canSleep ini channel => Sys2Proof.Machine.execCanSleep ini channel s
  | .canWake ini channel => Sys2Proof.Machine.execCanWake ini channel s
  | .canTxreqWrite ini channel value => Sys2Proof.Machine.execCanTxreqWrite ini channel value s
  | .canTxcancelWrite ini channel value => Sys2Proof.Machine.execCanTxcancelWrite ini channel value s
  | .canFrameStart channel => Sys2Proof.Machine.execCanFrameStart channel s
  | .canAttemptEnd channel outcome => Sys2Proof.Machine.execCanAttemptEnd channel outcome s
  | .recoveryComplete channel => Sys2Proof.Machine.execRecoveryComplete channel s
  | .canFrameReceive channel id dlc flags start data => Sys2Proof.Machine.execCanFrameReceive channel id dlc flags start data s
  | .canRxgrabWrite ini channel value => Sys2Proof.Machine.execCanRxgrabWrite ini channel value s
  | .canRxrelWrite ini channel value => Sys2Proof.Machine.execCanRxrelWrite ini channel value s
  | .canFifoHeadWrite ini channel value => Sys2Proof.Machine.execCanFifoHeadWrite ini channel value s
  | .canRamDataAccess ini channel write => Sys2Proof.Machine.execCanRamDataAccess ini channel write s
  | .wakeEdge channel => Sys2Proof.Machine.execWakeEdge channel s
  | .wakeFrame channel id data => Sys2Proof.Machine.execWakeFrame channel id data s
  | .mergeFlush index => Sys2Proof.Machine.execMergeFlush index s
  | .glintRead lane flips => Sys2Proof.Machine.execGlintRead lane flips s
  | .glintWriteBack lane => Sys2Proof.Machine.execGlintWriteBack lane s
  | .trackerWindowExpiry region entry => Sys2Proof.Machine.execTrackerWindowExpiry region entry s
  | .rowRemap => Sys2Proof.Machine.execRowRemap s
  | .repairMap ini value => Sys2Proof.Machine.execRepairMap ini value s
  | .flipArm ini region value => Sys2Proof.Machine.execFlipArm ini region value s
  | .invalAll ini => Sys2Proof.Machine.execInvalAll ini s
  | .invalContext ini ctx => Sys2Proof.Machine.execInvalContext ini ctx s
  | .invalPage ini ctx => Sys2Proof.Machine.execInvalPage ini ctx s
  | .invalDone => Sys2Proof.Machine.execInvalDone s
  | .fence core l1 => Sys2Proof.Machine.execFence core l1 s
  | .ifence core => Sys2Proof.Machine.execIfence core s
  | .fbcall core inst itype target ret l1 => Sys2Proof.Machine.execFbcall core inst itype target ret l1 s
  | .fbret core => Sys2Proof.Machine.execFbret core s
  | .trap core code pc va l1 => Sys2Proof.Machine.execTrap core code pc va l1 s
  | .breakTrap core pc => Sys2Proof.Machine.execBreak core pc s
  | .interruptEntry core => Sys2Proof.Machine.execInterruptEntry core s
  | .coreIackRead core reader => Sys2Proof.Machine.execCoreIackRead core reader s
  | .coreEoiWrite ini core => Sys2Proof.Machine.execCoreEoiWrite ini core s
  | .dmaStart ini channel => Sys2Proof.Machine.execDmaStart ini channel s
  | .dmaResume ini channel => Sys2Proof.Machine.execDmaResume ini channel s
  | .dmaAbort ini channel => Sys2Proof.Machine.execDmaAbort ini channel s
  | .dmaBurstComplete channel burst => Sys2Proof.Machine.execDmaBurstComplete channel burst s
  | .dmaDescriptorComplete channel => Sys2Proof.Machine.execDmaDescriptorComplete channel s
  | .keyImport ini value => Sys2Proof.Machine.execKeyImport ini value s
  | .keyDerive ini value => Sys2Proof.Machine.execKeyDerive ini value s
  | .keyStore ini value => Sys2Proof.Machine.execKeyStore ini value s
  | .keyErase ini value => Sys2Proof.Machine.execKeyErase ini value s
  | .keysClear ini value => Sys2Proof.Machine.execKeysClear ini value s
  | .keyEnroll ini value => Sys2Proof.Machine.execKeyEnroll ini value s
  | .keySecure ini value => Sys2Proof.Machine.execKeySecure ini value s
  | .keyDecommission ini value => Sys2Proof.Machine.execKeyDecommission ini value s
  | .gcmStart ini value => Sys2Proof.Machine.execGcmStart ini value s
  | .gcmFinal ini value => Sys2Proof.Machine.execGcmFinal ini value s
  | .keysCommandDone => Sys2Proof.Machine.execKeysCommandDone s
  | .gcmDinWrite ini value => Sys2Proof.Machine.execGcmDinWrite ini value s
  | .keyStoreLoad => Sys2Proof.Machine.execKeyStoreLoad s
  | .lanternOn ini => Sys2Proof.Machine.execLanternOn ini s
  | .lanternOff ini => Sys2Proof.Machine.execLanternOff ini s
  | .rectSubmit ini rect => Sys2Proof.Machine.execRectSubmit ini rect s
  | .railStep => Sys2Proof.Machine.execRailStep s
  | .framePairStart => Sys2Proof.Machine.execFramePairStart s
  | .journalWriteDone => Sys2Proof.Machine.execJournalWriteDone s
  | .chainLoadLatch => Sys2Proof.Machine.execChainLoadLatch s
  | .drivePulseEnd rect => Sys2Proof.Machine.execDrivePulseEnd rect s
  | .rectangleComplete rect => Sys2Proof.Machine.execRectangleComplete rect s
  | .aglAdd ini value => Sys2Proof.Machine.execAglAdd ini value s
  | .aglHist ini value => Sys2Proof.Machine.execAglHist ini value s
  | .aglClear ini value => Sys2Proof.Machine.execAglClear ini value s
  | .aglLoad => Sys2Proof.Machine.execAglLoad s
  | .aglRecordWrite record => Sys2Proof.Machine.execAglRecordWrite record s
  | .aglSecond temp supplies => Sys2Proof.Machine.execAglSecond temp supplies s
  | .pwrFailNRise => Sys2Proof.Machine.execPwrFailNRise s
  | .canReceiveError channel dominant => Sys2Proof.Machine.execCanReceiveError channel dominant s
  | .debugResume core => Sys2Proof.Machine.execDebugResume core s
  | .driverReady axis => Sys2Proof.Machine.execDriverReady axis s
  | .setSent => Sys2Proof.Machine.execSetSent s
  | .linkFrameBadCrc => Sys2Proof.Machine.execLinkFrameBadCrc s

end Sys2Proof.Machine
end

