-- ==== Sys2Proof/Machine/Step.lean ====
section
/-!
DEFINITION. One step: the command at the front of the queue takes effect on the rest; with no command waiting, one cycle of
the VCO passes (R15), in which the ports of the signal table and the DMA engine go on, and in a unit of a pair that gives up
the release takes place.
-/

namespace Sys2Proof.Machine

/-- No command waits: time passes by one VCO cycle, and each port of the signal table issues its oldest waiting write when
a CLK_CLE cycle begins, the DMA engine a burst when a CLK_FAB cycle begins (log entries 5, 42, 94). -/
def tick (s : State) : State := settleRelease (cleDrain (dmaCycle (passCycle s)))

/-- Take the command at the front of the queue; with none, time passes, unless an engine meets a host error then. (DESIGN CHOICE, log entries 5, 8; DEDUCED, log entry 84.) -/
def step (s : State) : Host.Outcome State Fault Refusal :=
  match s.pending with
  | [] => settle s (tick s)
  | c :: rest => exec c { s with pending := rest }

/-- `s` with the command a table word spells at the front of its queue: the table gives its rows no bits, so no word spells
one. (DESIGN CHOICE, log entry 8.) -/
def State.withFetchWord (s : State) (nbits w : Nat) : State :=
  match Sys2Proof.decodeTableWord nbits w with
  | some c => { s with pending := c :: s.pending }
  | none => s

end Sys2Proof.Machine
end

