-- ==== Sys2Proof/Safety.lean ====
section
/-!
DEFINITION. What a safe run is, and the terms the statements use: a command completes, and what a step keeps.
-/

namespace Sys2Proof

/-- `n` steps from `s` end in no host error and in no refusal. R38 calls the result of a host error unpredictable; every
other command of the table has the effect the spec gives it. -/
def SafeRun (n : Nat) (s : Machine.State) : Prop := ∃ t, core.run n s = .next t

namespace Machine

/-- The command answers a next state, of which `P` holds. -/
def Completes (c : Instr) (s : State) (P : State → Prop) : Prop := ∃ t, exec c s = .next t ∧ P t

/-- Every register but those listed reads as before. -/
def KeepsRegs (l : List Nat) (s t : State) : Prop := ∀ a, a ∉ l → rd t a = rd s a

/-- Address `a` is that of a register of one of the blocks whose first pages are listed (R28). -/
def InBlocks (l : List Nat) (a : Nat) : Prop := ∃ r ∈ pageTable, r.1 ∈ l ∧ r.1 ≤ a / 0x1000 ∧ a / 0x1000 ≤ r.2.1

/-- Every register outside the blocks whose first pages are listed reads as before. -/
def KeepsBlocks (l : List Nat) (s t : State) : Prop := ∀ a, ¬ InBlocks l a → rd t a = rd s a

/-- Every byte of memory outside `a` to `a + n - 1` reads as before. -/
def KeepsMemBut (a n : Nat) (s t : State) : Prop := ∀ b, b < a ∨ a + n ≤ b → mget 0 t.mem b = mget 0 s.mem b

/-- A register of page `pg` at offset `off` takes an access of initiator `ini`: the page is assigned, its clock domain runs,
it is not in soft reset (R17, R23, R29), and the protection of the safety pages does not turn the write away (R308). -/
abbrev Reachable (s : State) (ini : Fin 16) (pg off : Nat) : Prop := pageErr s pg off = none ∧ foreignPage s ini pg = false

/-- The engines of a command that runs from `s` and would leave `t` meet no host error of their own on the way (R38). -/
abbrev Permitted (s t : State) : Prop := t.hostErr = s.hostErr

/-- A RWL register of page `pg` takes a write: the page is not locked and its unlock window is open (R3, R27). -/
abbrev Unlocked (s : State) (pg : Nat) : Prop := lockErr s pg = none

end Machine

end Sys2Proof
end

