-- ==== Sys2Proof/Certificates/Slice0/Obligations.lean ====
section
/-!
DEFINITION. The statements about the model, each read from rules of the spec. A hypothesis speaks of the state and the
operands alone; what a command leaves as it was is said of registers by address, of memory byte by byte, and of the
rest of the state by an equation that names the components that may change.
-/

open Sys2Proof Sys2Proof.Machine

/-- A write of 0x0000_A5C3 to PKEY starts the sequence and leaves an open window as it is; a write of 0x0000_3C5A right after it opens the window until 1,024 CLK_FAB cycles (8,192 VCO cycles) after the present CLK_FAB cycle; any other value below 0x1_0000 cancels the sequence and closes the window; a locked page ignores every value; UNLOCK_WINDOW_CLOSE closes a window whose time has come. Other pages, memory and every other component keep what they held. (R25, R26, R27) -/
def Obligations.PkeySequenceOpensAndClosesWindow : Prop :=
  (∀ (ini : Fin 16) (page : Fin 4096) (s : State),
      Reachable s ini page.val 0x1C →
      flag s (Reg.PCTL page.val) F.PCTL_LOCK = false →
      Completes (.pkeyWrite ini page 0xA5C3#32) s (fun t =>
        mget ({} : PageKey) t.pkey page.val = { mget ({} : PageKey) s.pkey page.val with half := true } ∧
        flag t (Reg.PSTAT page.val) F.PSTAT_UNLOCKED = (mget ({} : PageKey) s.pkey page.val).closeAt.isSome ∧
        KeepsRegs [Reg.PSTAT page.val] s t ∧
        (∀ q, q ≠ page.val → mget ({} : PageKey) t.pkey q = mget {} s.pkey q) ∧
        t = { s with regs := t.regs, pkey := t.pkey, arb := t.arb })) ∧
  (∀ (ini : Fin 16) (page : Fin 4096) (s : State),
      Reachable s ini page.val 0x1C →
      flag s (Reg.PCTL page.val) F.PCTL_LOCK = false →
      (mget ({} : PageKey) s.pkey page.val).half = true →
      Completes (.pkeyWrite ini page 0x3C5A#32) s (fun t =>
        mget ({} : PageKey) t.pkey page.val = { half := false, closeAt := some (s.now / 8 * 8 + 8192) } ∧
        flag t (Reg.PSTAT page.val) F.PSTAT_UNLOCKED = true ∧
        KeepsRegs [Reg.PSTAT page.val] s t ∧
        (∀ q, q ≠ page.val → mget ({} : PageKey) t.pkey q = mget {} s.pkey q) ∧
        t = { s with regs := t.regs, pkey := t.pkey, arb := t.arb })) ∧
  (∀ (ini : Fin 16) (page : Fin 4096) (value : Word) (s : State),
      Reachable s ini page.val 0x1C →
      flag s (Reg.PCTL page.val) F.PCTL_LOCK = false →
      value &&& 0xFFFF0000#32 = 0 →
      value ≠ 0xA5C3#32 →
      value ≠ 0x3C5A#32 ∨ (mget ({} : PageKey) s.pkey page.val).half = false →
      Completes (.pkeyWrite ini page value) s (fun t =>
        mget ({} : PageKey) t.pkey page.val = {} ∧
        flag t (Reg.PSTAT page.val) F.PSTAT_UNLOCKED = false ∧
        KeepsRegs [Reg.PSTAT page.val] s t ∧
        (∀ q, q ≠ page.val → mget ({} : PageKey) t.pkey q = mget {} s.pkey q) ∧
        t = { s with regs := t.regs, pkey := t.pkey, arb := t.arb })) ∧
  (∀ (ini : Fin 16) (page : Fin 4096) (value : Word) (s : State),
      Reachable s ini page.val 0x1C →
      flag s (Reg.PCTL page.val) F.PCTL_LOCK = true →
      value &&& 0xFFFF0000#32 = 0 →
      Completes (.pkeyWrite ini page value) s (fun t => t = { s with arb := t.arb })) ∧
  (∀ (page : Fin 4096) (at0 : Nat) (s : State),
      (mget ({} : PageKey) s.pkey page.val).closeAt = some at0 →
      at0 ≤ s.now →
      Completes (.unlockWindowClose page) s (fun t =>
        mget ({} : PageKey) t.pkey page.val = { mget ({} : PageKey) s.pkey page.val with closeAt := none } ∧
        flag t (Reg.PSTAT page.val) F.PSTAT_UNLOCKED = false ∧
        KeepsRegs [Reg.PSTAT page.val] s t ∧
        (∀ q, q ≠ page.val → mget ({} : PageKey) t.pkey q = mget {} s.pkey q) ∧
        t = { s with regs := t.regs, pkey := t.pkey }))

/-- A write of PCTL.EN, SRST or LOCK to a page that is reachable and unlocked, at no forbidden moment, completes where no memory access it makes is a host error. EN takes the value, and a write of the value it has changes nothing but the arbiter; outside the blocks named in the first clause, where EN changes, PSTAT.ENABLED takes the value and no register but PCTL and PSTAT of the page changes. SRST and SRST_BUSY read 1, with EN, LOCK and the PKEY states as they were; in the pages listed in the fifth clause every register at 0x040 and above, INT_RAW and INT_EN then read their reset values and no other page changes. LOCK reads 1, PCTL can be written no more (the lock check answers R27), the PKEY states stay, so an open window stays open (log entry 92), and no other register changes. SOFT_RESET_DONE clears SRST_BUSY and SRST and changes nothing else. INT_SET sets the INT_RAW bits written and no other register. (R22, R23, R24, R27) -/
def Obligations.PageControlWrites : Prop :=
  (∀ (ini : Fin 16) (page : Fin 4096) (en : Bool) (s : State),
      Reachable s ini page.val 4 →
      Unlocked s page.val →
      enErr s page.val en = none →
      Permitted s (setEn (granted s ini) page.val en) →
      page.val ≠ 0x50 ∧ page.val ≠ 0x60 ∧ page.val ≠ 0x70 ∧ page.val ≠ 0x80 ∧ page.val ≠ 0x90 ∧ page.val ≠ 0xA0 ∧ page.val ≠ 0xB0 →
      page.val < 0xD0 ∨ (0xF0 ≤ page.val ∧ page.val ≠ 0x110) →
      Completes (.pctlEn ini page en) s (fun t =>
        pageEn t page.val = en ∧ (pageEn s page.val = !en → flag t (Reg.PSTAT page.val) F.PSTAT_ENABLED = en) ∧
        KeepsRegs [Reg.PCTL page.val, Reg.PSTAT page.val] s t ∧ t = { s with regs := t.regs, arb := t.arb })) ∧
  (∀ (ini : Fin 16) (page : Fin 4096) (en : Bool) (s : State),
      Reachable s ini page.val 4 →
      Unlocked s page.val →
      enErr s page.val en = none →
      Permitted s (setEn (granted s ini) page.val en) →
      Completes (.pctlEn ini page en) s (fun t => pageEn t page.val = en ∧ (pageEn s page.val = en → t = { s with arb := t.arb }))) ∧
  (∀ (ini : Fin 16) (page : Fin 4096) (s : State),
      Reachable s ini page.val 4 →
      Unlocked s page.val →
      Completes (.pageLock ini page) s (fun t =>
        flag t (Reg.PCTL page.val) F.PCTL_LOCK = true ∧ pageEn t page.val = pageEn s page.val ∧
        lockErr t page.val = some 27 ∧ KeepsRegs [Reg.PCTL page.val] s t ∧ t = { s with regs := t.regs, arb := t.arb })) ∧
  (∀ (ini : Fin 16) (page : Fin 4096) (s : State),
      Reachable s ini page.val 4 →
      Unlocked s page.val →
      Permitted s (beginSrst (granted s ini) page.val) →
      Completes (.srst ini page) s (fun t =>
        flag t (Reg.PCTL page.val) F.PCTL_SRST = true ∧ flag t (Reg.PSTAT page.val) F.PSTAT_SRST_BUSY = true ∧ pageEn t page.val = pageEn s page.val ∧ flag t (Reg.PCTL page.val) F.PCTL_LOCK = flag s (Reg.PCTL page.val) F.PCTL_LOCK ∧ t.pkey = s.pkey)) ∧
  (∀ (ini : Fin 16) (page : Fin 4096) (s : State),
      Reachable s ini page.val 4 →
      Unlocked s page.val →
      Permitted s (beginSrst (granted s ini) page.val) →
      page.val ∈ [0x17, 0x23, 0x30, 0xF0, 0x100, 0x110] →
      Completes (.srst ini page) s (fun t =>
        (∀ a, a / 0x1000 = page.val → 0x40 ≤ a % 0x1000 → rd t a = regReset a) ∧ rd t (Reg.INT_RAW page.val) = 0 ∧ rd t (Reg.INT_EN page.val) = 0 ∧ (∀ a, a / 0x1000 ≠ page.val → rd t a = rd s a) ∧ t.mem = s.mem)) ∧
  (∀ (page : Fin 4096) (s : State),
      flag s (Reg.PSTAT page.val) F.PSTAT_SRST_BUSY = true →
      Completes (.softResetDone page) s (fun t =>
        flag t (Reg.PSTAT page.val) F.PSTAT_SRST_BUSY = false ∧ flag t (Reg.PCTL page.val) F.PCTL_SRST = false ∧
        KeepsRegs [Reg.PSTAT page.val, Reg.PCTL page.val] s t ∧ t = { s with regs := t.regs })) ∧
  (∀ (ini : Fin 16) (page : Fin 4096) (value : Word) (s : State),
      Reachable s ini page.val 0x18 →
      intErr page.val value = none →
      Completes (.intSet ini page value) s (fun t =>
        rd t (Reg.INT_RAW page.val) = rd s (Reg.INT_RAW page.val) ||| value ∧
        KeepsRegs [Reg.INT_RAW page.val] s t ∧ t = { s with regs := t.regs, arb := t.arb }))

/-- A write of CLK_RUN that R16 permits, to the unlocked page, sets the bits of the gateable domains (2, 4, 5, 7 to 10), leaves bits 0, 1, 3 and 6, shows the result in CLK_STAT.RUNNING and changes no other register; such a write of CLK_DRST that releases no domain sets the bits of the gateable domains and changes nothing else. A write of CLK_DRST that releases domains completes where no memory access it makes is a host error, CLK_DRST holds the bits written, and in the pages of each released domain PCTL, INT_EN and the PKEY state are as after reset. (R15, R16, R17) -/
def Obligations.ClockDomainCommands : Prop :=
  (∀ (ini : Fin 16) (value : Word) (s : State),
      Reachable s ini 1 0x40 →
      Unlocked s 1 →
      value &&& 0xFFFFF800#32 = 0 →
      gateErr s (rd s Reg.CLK_RUN &&& gateable &&& ~~~value) = none →
      Completes (.clkRunWrite ini value) s (fun t =>
        rd t Reg.CLK_RUN = (value &&& 0x7B4#32) ||| (rd s Reg.CLK_RUN &&& ~~~0x7B4#32) ∧
        fld t Reg.CLK_STAT F.CLK_STAT_RUNNING = (rd t Reg.CLK_RUN).toNat % 2048 ∧
        KeepsRegs [Reg.CLK_RUN, Reg.CLK_STAT] s t ∧ t = { s with regs := t.regs, arb := t.arb })) ∧
  (∀ (ini : Fin 16) (value : Word) (s : State),
      Reachable s ini 1 0x44 →
      Unlocked s 1 →
      value &&& 0xFFFFF800#32 = 0 →
      gateErr s (value &&& gateable &&& ~~~rd s Reg.CLK_DRST) = none →
      rd s Reg.CLK_DRST &&& ~~~(value &&& 0x7B4#32) = 0 →
      Completes (.clkDrstWrite ini value) s (fun t =>
        rd t Reg.CLK_DRST = value &&& 0x7B4#32 ∧ KeepsRegs [Reg.CLK_DRST] s t ∧ t = { s with regs := t.regs, arb := t.arb })) ∧
  (∀ (ini : Fin 16) (value : Word) (s : State),
      Reachable s ini 1 0x44 →
      Unlocked s 1 →
      value &&& 0xFFFFF800#32 = 0 →
      gateErr s (value &&& gateable &&& ~~~rd s Reg.CLK_DRST) = none →
      rd s Reg.CLK_DRST &&& ~~~0x7B4#32 = 0 →
      Permitted s (((List.range 11).filter (fun d => bitAt (rd s Reg.CLK_DRST) d && !(bitAt (value &&& 0x7B4#32) d))).foldl (fun u d => domainReset d u) (wr (granted s ini) Reg.CLK_DRST (value &&& 0x7B4#32))) →
      Completes (.clkDrstWrite ini value) s (fun t =>
        rd t Reg.CLK_DRST = value &&& 0x7B4#32 ∧ (∀ d < 11, bitAt (rd s Reg.CLK_DRST) d = true → bitAt (value &&& 0x7B4#32) d = false → ∀ pg ∈ domainPages d, rd t (Reg.PCTL pg) = regReset (Reg.PCTL pg) ∧ rd t (Reg.INT_EN pg) = 0 ∧ mget ({} : PageKey) t.pkey pg = {})))

/-- When cores request a free semaphore in one cycle, the requesting core with the lowest number owns it and the read records its bit; a semaphore that is taken stays with its owner and the read records no grant; other semaphores, the registers and the rest of the state are as before. (R35) -/
def Obligations.SemaphoreGoesToLowestCore : Prop :=
  (∀ (n : Fin 64) (requesters : BitVec 7) (c : Nat) (s : State),
      c < 7 →
      requesters.getLsbD c = true →
      (∀ j < c, requesters.getLsbD j = false) →
      mget 0 s.sem n.val = 0 →
      Completes (.semaphoreRequest n requesters) s (fun t =>
        mget 0 t.sem n.val = c + 1 ∧ t.rdata = [1#32 <<< c] ∧ (∀ m, m ≠ n.val → mget 0 t.sem m = mget 0 s.sem m) ∧
        t = { s with sem := t.sem, rdata := t.rdata })) ∧
  (∀ (n : Fin 64) (requesters : BitVec 7) (s : State),
      requesters ≠ 0 →
      mget 0 s.sem n.val ≠ 0 →
      Completes (.semaphoreRequest n requesters) s (fun t => t = { s with rdata := [0] }))

/-- POR_RELEASE latches the straps and the life cycle of the next POR, sets SYS_RSTCAUSE to 1, starts the PLL and leaves eFuse (but for that life cycle), the backup domain and, unless it cuts the data of a retentive commit, memory as they were, every register but SYS_RSTCAUSE, STRAP_LATCH, CLK_STAT, PWR_STAT and BOOT_STAT outside the backup domain at its reset value. PLL_LOCK starts MONO from 0; where a reset has begun the fill before it, the fill keeps its start. Power domain PD_k comes on no earlier than 20 us x k after the lock, in ascending order. The fill of bank i starts no earlier than 22.9376 us x i after the first one and lasts at least 52.4288 us; at its end every byte of the bank reads 0, and DEBUG reads that waited for the bank have read 0. FILL_COMPLETE follows the last bank and leaves the core-local window, CLE RAM and CAN RAM reading 0. SV0 leaves reset after it while PWR_FAIL_N is high. (R41, R43, R44, R46, R49, R51, R54, R75) -/
def Obligations.StartSequenceCommands : Prop :=
  (∀ (boot : BitVec 3) (sealLevel : BitVec 8) (puf : Bool) (s : State),
      Completes (.porRelease boot sealLevel puf) s (fun t =>
        rd t Reg.SYS_RSTCAUSE = 1 ∧ rdn t Reg.STRAP_LATCH = boot.toNat + 256 * sealLevel.toNat ∧
        flag t Reg.CLK_STAT F.CLK_STAT_PLL_LOCK = false ∧ fld t Reg.PWR_STAT F.PWR_STAT_DOM_ON = 0 ∧
        fld t Reg.BOOT_STAT F.BOOT_STAT_LC = s.efuse.nextCycle.toNat ∧
        (∀ a, a ∉ [Reg.SYS_RSTCAUSE, Reg.STRAP_LATCH, Reg.CLK_STAT, Reg.PWR_STAT, Reg.BOOT_STAT] → backupReg a = false → rd t a = regReset a) ∧
        (∀ a, backupReg a = true → rd t a = rd s a) ∧
        (s.cyc.ret.phase ≠ .data → t.mem = s.mem) ∧ t.efuse = { s.efuse with lifeCycle := s.efuse.nextCycle } ∧ t.start.step = .pllWait ∧ t.clock = {} ∧
        t.pending = s.pending ∧ t.now = s.now)) ∧
  (∀ (s : State),
      s.start.step = .pllWait →
      Completes .pllLock s (fun t =>
        flag t Reg.CLK_STAT F.CLK_STAT_PLL_LOCK = true ∧ t.clock.running = true ∧ t.clock.mono = 0 ∧ t.start.step = .filling ∧
        t.start.lockAt = s.now ∧ t.start.fillAt = s.now + 160 * 5000 ∧
        KeepsRegs [Reg.CLK_STAT] s t ∧ t = { s with regs := t.regs, clock := t.clock, start := t.start })) ∧
  (∀ (s : State),
      s.start.step = .filling →
      s.clock.running = false →
      Completes .pllLock s (fun t =>
        flag t Reg.CLK_STAT F.CLK_STAT_PLL_LOCK = true ∧ t.clock.running = true ∧ t.clock.mono = 0 ∧
        t.start = { s.start with lockAt := s.now } ∧
        KeepsRegs [Reg.CLK_STAT] s t ∧ t = { s with regs := t.regs, clock := t.clock, start := t.start })) ∧
  (∀ (k : Fin 8) (s : State),
      s.start.step = .filling →
      s.clock.running = true →
      s.start.domains = k.val →
      s.start.lockAt + 20 * 5000 * k.val ≤ s.now →
      Completes (.powerDomainEnable k) s (fun t =>
        bitAt (rd t Reg.PWR_STAT) k.val = true ∧ t.start = { s.start with domains := k.val + 1 } ∧
        KeepsRegs [Reg.PWR_STAT] s t ∧ t = { s with regs := t.regs, start := t.start })) ∧
  (∀ (i : Fin 160) (reads : List Nat) (s : State),
      s.start.step = .filling →
      s.start.domains = 8 →
      s.start.banksStarted = i.val →
      s.start.fillAt + 14336 * 8 * i.val ≤ s.now →
      Completes (.bankFillStart i reads) s (fun t =>
        t = { s with start := { s.start with banksStarted := i.val + 1, debugStalled := s.start.debugStalled ++ reads.filter (inBank i.val) } })) ∧
  (∀ (i : Fin 160) (s : State),
      s.start.step = .filling →
      s.start.banksDone = i.val →
      i.val < s.start.banksStarted →
      s.start.fillAt + 14336 * 8 * i.val + 32768 * 8 ≤ s.now →
      Completes (.bankFillDone i) s (fun t =>
        (∀ a, bankBase i.val ≤ a → a < bankBase i.val + 0x40000 → mget 0 t.mem a = 0) ∧ KeepsMemBut (bankBase i.val) 0x40000 s t ∧
        t.start = { s.start with banksDone := i.val + 1, debugStalled := s.start.debugStalled.filter (fun a => !(inBank i.val a)) } ∧
        t.rdata = (if (s.start.debugStalled.filter (inBank i.val)).isEmpty then s.rdata else (s.start.debugStalled.filter (inBank i.val)).map (fun _ => 0)) ∧
        t = { s with mem := t.mem, ecc := t.ecc, start := t.start, rdata := t.rdata, arb := t.arb })) ∧
  (∀ (s : State),
      s.start.step = .filling →
      s.start.banksDone = 160 →
      Completes .fillComplete s (fun t =>
        (∀ a, 0x50000000 ≤ a → a < 0x51000000 → mget 0 t.mem a = 0) ∧ KeepsMemBut 0x50000000 0x1000000 s t ∧ t.cleRam = [] ∧ t.canRam = [] ∧
        t.start.step = .filled)) ∧
  (∀ (s : State),
      s.start.step = .filled →
      s.power.low = false →
      shut s = false →
      Completes .sv0Release s (fun t =>
        t.start.step = .running ∧ t.boot.step = bootBegin s ∧ t.boot.startMono = monoNs s ∧
        KeepsRegs [Reg.BOOT_STAT] s t ∧ t = { s with regs := t.regs, start := t.start, boot := t.boot }))

/-- Once POR has been released, RST_N resets the device: SYS_RSTCAUSE gains PIN and, out of the shut state, AFTER_SHUT; the straps, PLL lock, power domains and eFuse are kept, as is memory where no retentive commit was writing its data, MONO is 0 and the sequence stands at the bank fill; every other register outside the backup domain but BOOT_STAT is at its reset value. The key written to SYS_SWRST resets 16 CLK_FAB cycles later with the SW bit, another value has no effect; the watchdog resets with the WDG bit when PERIOD ms of MONO have passed; the safety pair resets with the SAFE bit 1 ms after a fatal fault if its parameter set asks for it. Outside the shut state, a reset also sets the WDG bit and the SAFE bit where the watchdog or the safety pair act at that moment (R51; log entry 95). (R49, R50, R51, R53, R74, R306) -/
def Obligations.ResetsOfTheDevice : Prop :=
  (∀ (s : State),
      s.start.step ≠ .porActive →
      Completes .pinReset s (fun t =>
        rdn t Reg.SYS_RSTCAUSE = (rdn s Reg.SYS_RSTCAUSE ||| (2 ||| (if shut s then 64 else (if wdgDue s then 8 else 0) ||| (if safeResetDue s then 16 else 0)))) ∧
        rd t Reg.STRAP_LATCH = rd s Reg.STRAP_LATCH ∧
        fld t Reg.CLK_STAT F.CLK_STAT_PLL_LOCK = fld s Reg.CLK_STAT F.CLK_STAT_PLL_LOCK ∧
        fld t Reg.PWR_STAT F.PWR_STAT_DOM_ON = fld s Reg.PWR_STAT F.PWR_STAT_DOM_ON ∧
        (∀ a, a ∉ [Reg.SYS_RSTCAUSE, Reg.STRAP_LATCH, Reg.CLK_STAT, Reg.PWR_STAT, Reg.BOOT_STAT] → backupReg a = false → rd t a = regReset a) ∧
        (∀ a, backupReg a = true → rd t a = rd s a) ∧
        (s.cyc.ret.phase ≠ .data → t.mem = s.mem) ∧ t.efuse = s.efuse ∧ t.clock = { running := s.clock.running } ∧ t.start.step = .filling ∧ t.start.fillAt = s.now ∧
        t.pending = s.pending ∧ t.now = s.now)) ∧
  (∀ (ini : Fin 16) (s : State),
      Reachable s ini 0 0x48 →
      s.start.step ≠ .porActive →
      shut s = false →
      Completes (.swReset ini 0x8A21#32) s (fun t =>
        rdn t Reg.SYS_RSTCAUSE = (rdn s Reg.SYS_RSTCAUSE ||| (4 ||| ((if wdgDue (passCycles 128 (granted s ini)) then 8 else 0) ||| (if safeResetDue (passCycles 128 (granted s ini)) then 16 else 0)))) ∧
        (s.cyc.ret.phase ≠ .data → t.mem = s.mem) ∧ t.efuse = s.efuse ∧
        t.clock = { running := s.clock.running } ∧ t.start.step = .filling ∧ t.now = s.now + 128)) ∧
  (∀ (ini : Fin 16) (key : Word) (s : State),
      Reachable s ini 0 0x48 →
      key ≠ 0x8A21#32 →
      Completes (.swReset ini key) s (fun t => t = { s with arb := t.arb })) ∧
  (∀ (s : State),
      s.start.step ≠ .porActive →
      shut s = false →
      flag s Reg.SYS_WDG_CFG F.SYS_WDG_CFG_EN = true →
      s.start.wdgFrom + 1000000 * fld s Reg.SYS_WDG_CFG F.SYS_WDG_CFG_PERIOD ≤ monoNs s →
      Completes .watchdogExpiry s (fun t =>
        rdn t Reg.SYS_RSTCAUSE = (rdn s Reg.SYS_RSTCAUSE ||| (8 ||| (if safeResetDue s then 16 else 0))) ∧
        (s.cyc.ret.phase ≠ .data → t.mem = s.mem) ∧ t.efuse = s.efuse ∧ t.clock = { running := s.clock.running } ∧ t.start.step = .filling ∧ t.start.fillAt = s.now)) ∧
  (∀ (t0 : Nat) (s : State),
      s.safe.fatalAt = some t0 →
      t0 + 5000000 ≤ s.now →
      (parN s 7 1).testBit 0 = true →
      s.start.step ≠ .porActive →
      shut s = false →
      Completes .safeResetRequest s (fun t =>
        rdn t Reg.SYS_RSTCAUSE = (rdn s Reg.SYS_RSTCAUSE ||| (16 ||| (if wdgDue s then 8 else 0))) ∧
        (s.cyc.ret.phase ≠ .data → t.mem = s.mem) ∧ t.efuse = s.efuse ∧ t.clock = { running := s.clock.running } ∧ t.start.step = .filling ∧ t.start.fillAt = s.now))

/-- A write of SYS_WDG_CFG to the unlocked page, with a PERIOD other than 0, sets PERIOD; EN once set stays set, and setting it starts the count at the present MONO. The kick key restarts a running count that has not reached PERIOD; another value has no effect. A write of SYS_CORE_REL sets the bits of cores other than SV0 once the boot is done, where the engines it wakes meet no host error, and has no effect before. (R52, R53, R55) -/
def Obligations.WatchdogAndCoreRelease : Prop :=
  (∀ (ini : Fin 16) (value : Word) (s : State),
      Reachable s ini 0 0x6C →
      Unlocked s 0 →
      value &&& 0x7FFF0000#32 = 0 →
      fieldGet F.SYS_WDG_CFG_PERIOD value ≠ 0 →
      Completes (.watchdogEnable ini value) s (fun t =>
        fld t Reg.SYS_WDG_CFG F.SYS_WDG_CFG_PERIOD = fieldGet F.SYS_WDG_CFG_PERIOD value ∧
        flag t Reg.SYS_WDG_CFG F.SYS_WDG_CFG_EN = (flag s Reg.SYS_WDG_CFG F.SYS_WDG_CFG_EN || bitAt value 31) ∧
        (flag s Reg.SYS_WDG_CFG F.SYS_WDG_CFG_EN = false → bitAt value 31 = true → t.start.wdgFrom = monoNs s) ∧
        (flag s Reg.SYS_WDG_CFG F.SYS_WDG_CFG_EN = true ∨ bitAt value 31 = false → t.start = s.start) ∧
        KeepsRegs [Reg.SYS_WDG_CFG] s t ∧ t = { s with regs := t.regs, arb := t.arb, start := t.start })) ∧
  (∀ (ini : Fin 16) (s : State),
      Reachable s ini 0 0x70 →
      flag s Reg.SYS_WDG_CFG F.SYS_WDG_CFG_EN = true →
      monoNs s < s.start.wdgFrom + 1000000 * fld s Reg.SYS_WDG_CFG F.SYS_WDG_CFG_PERIOD →
      Completes (.watchdogKick ini 0x4B1D#32) s (fun t => t = { s with arb := t.arb, start := { s.start with wdgFrom := monoNs s } })) ∧
  (∀ (ini : Fin 16) (key : Word) (s : State),
      Reachable s ini 0 0x70 →
      key ≠ 0x4B1D#32 →
      Completes (.watchdogKick ini key) s (fun t => t = { s with arb := t.arb })) ∧
  (∀ (ini : Fin 16) (value : Word) (s : State),
      Reachable s ini 0 0x4C →
      value &&& 0xFFFFFF80#32 = 0 →
      s.boot.step = .done →
      Permitted s (([0, 1, 2, 3, 5, 6].filter (fun n => bitAt value n && !(bitAt (rd (granted s ini) Reg.SYS_CORE_REL) n))).foldl releaseCore (orReg (granted s ini) Reg.SYS_CORE_REL (value &&& 0x6F#32))) →
      Completes (.coreRelease ini value) s (fun t => rd t Reg.SYS_CORE_REL = rd s Reg.SYS_CORE_REL ||| (value &&& 0x6F#32))) ∧
  (∀ (ini : Fin 16) (value : Word) (s : State),
      Reachable s ini 0 0x4C →
      value &&& 0xFFFFFF80#32 = 0 →
      s.boot.step ≠ .done →
      Completes (.coreRelease ini value) s (fun t => t = { s with arb := t.arb }))

/-- While SV0 runs the Boot ROM: a header check of the next slot writes to that slot's code field the code of the first check of R60 that fails (0 if none), and the other slot's header follows where one is left. The last section done, PHASE reads 4, SLOT and BOOT_GEN name the loaded image and SV0 goes to ENTRY. A failure ends with PHASE 0xF and SV0 halted; a code below 0x20 is put in CODE_A, and for another code CODE_A stays as it is. In UART recovery a prompt goes out at once and every 100 ms until a byte has come, and bytes are appended to the image up to its last section. In Mirror-peer boot, 10 s without a byte lead to a failure with code 0x41 in CODE_A. Where no memory access is a host error, a section that keeps the rules of R60 and whose GCM tag is right is decrypted to its destination and the next one follows; one whose tag is wrong puts code 0x30 in the slot's field and the other slot follows, or the failure. The root key, regenerated, leads to the headers, and its failure to code 0x10. (R57, R60, R61, R62, R63, R64, R65) -/
def Obligations.BootRomFlow : Prop :=
  (∀ (slot : Fin 2) (left : List Nat) (s : State),
      bootRuns s = true →
      s.boot.step = .headers (slot.val :: left) →
      slotHas s 1024 = true →
      Completes (.bootHeaderCheck slot) s (fun t =>
        fld t Reg.BOOT_STAT (if slot.val = 0 then F.BOOT_STAT_CODE_A else F.BOOT_STAT_CODE_B) =
        headerCode (s.efuse.lifeCycle == 1) s.efuse.keyHash.toNat (slotHeader s slot.val) ∧
        (left ≠ [] → t.boot.step = .headers left) ∧
        KeepsRegs [Reg.BOOT_STAT] s t ∧ t = { s with regs := t.regs, boot := t.boot, arb := t.arb, hostErr := t.hostErr })) ∧
  (∀ (s : State),
      bootRuns s = true →
      s.boot.step = .puf →
      Completes .rootKeyRegeneration s (fun t =>
        (t.keys.root = none → t.boot.step = .failing 0x10) ∧
        (t.keys.root ≠ none → t.boot.step = .headers (if bootSource t = 0 then [0, 1] else [0]) ∧ fld t Reg.BOOT_STAT F.BOOT_STAT_PHASE = 2))) ∧
  (∀ (slot : Nat) (i : Nat) (others : List Nat) (s : State),
      bootRuns s = true →
      s.boot.step = .sections slot i others →
      i < hdrCount (slotHeader s slot) →
      slotHas s (sectSrc (slotHeader s slot) i + sectLen (slotHeader s slot) i) = true →
      Permitted s (loadSection s slot i others (slotHeader s slot)) →
      sectOk (slotHeader s slot) i = true →
      s.hostErr = none →
      safeReleased s = false →
      gcmTag (sectionKey (slotFetch s slot (sectSrc (slotHeader s slot) i) (sectLen (slotHeader s slot) i)) (slotHeader s slot)).1 (sectIv (slotHeader s slot) i) [] (slotBytes s slot (sectSrc (slotHeader s slot) i) (sectLen (slotHeader s slot) i)) = sectTag (slotHeader s slot) i →
      Completes .bootSectionLoad s (fun t =>
        t.boot.step = .sections slot (i + 1) others ∧
        (∀ k < sectLen (slotHeader s slot) i, mget 0 t.mem (sectDest (slotHeader s slot) i + k) =
        (gcmCrypt (sectionKey (slotFetch s slot (sectSrc (slotHeader s slot) i) (sectLen (slotHeader s slot) i)) (slotHeader s slot)).1 (sectIv (slotHeader s slot) i) 2 (slotBytes s slot (sectSrc (slotHeader s slot) i) (sectLen (slotHeader s slot) i))).getD k 0) ∧
        KeepsMemBut (sectDest (slotHeader s slot) i) (sectLen (slotHeader s slot) i) s t)) ∧
  (∀ (slot : Nat) (i : Nat) (others : List Nat) (s : State),
      bootRuns s = true →
      s.boot.step = .sections slot i others →
      i < hdrCount (slotHeader s slot) →
      slotHas s (sectSrc (slotHeader s slot) i + sectLen (slotHeader s slot) i) = true →
      Permitted s (loadSection s slot i others (slotHeader s slot)) →
      gcmTag (sectionKey (slotFetch s slot (sectSrc (slotHeader s slot) i) (sectLen (slotHeader s slot) i)) (slotHeader s slot)).1 (sectIv (slotHeader s slot) i) [] (slotBytes s slot (sectSrc (slotHeader s slot) i) (sectLen (slotHeader s slot) i)) ≠ sectTag (slotHeader s slot) i →
      Completes .bootSectionLoad s (fun t =>
        t.boot.step = (match others with | [] => BootStep.failing 0x30 | a :: rest => BootStep.sections a 0 rest) ∧
        fld t Reg.BOOT_STAT (if slot = 0 then F.BOOT_STAT_CODE_A else F.BOOT_STAT_CODE_B) = 0x30)) ∧
  (∀ (slot : Nat) (i : Nat) (others : List Nat) (s : State),
      bootRuns s = true →
      s.boot.step = .sections slot i others →
      i = hdrCount (slotHeader s slot) →
      Completes .bootDone s (fun t =>
        fld t Reg.BOOT_STAT F.BOOT_STAT_PHASE = 4 ∧ fld t Reg.BOOT_STAT F.BOOT_STAT_SLOT = slot % 2 ∧
        rdn t Reg.BOOT_GEN_LO = hdrGeneration (slotHeader s slot) % 2 ^ 32 ∧
        rdn t Reg.BOOT_GEN_HI = hdrGeneration (slotHeader s slot) / 2 ^ 32 % 2 ^ 32 ∧ t.boot.step = .done ∧
        (coreOf t 4).pc = hdrEntry (slotHeader s slot) ∧
        KeepsRegs [Reg.BOOT_STAT, Reg.BOOT_GEN_LO, Reg.BOOT_GEN_HI] s t ∧ t = { s with regs := t.regs, boot := t.boot, cores := t.cores })) ∧
  (∀ (code : Nat) (s : State),
      bootRuns s = true →
      s.boot.step = .failing code →
      Completes .bootFail s (fun t =>
        fld t Reg.BOOT_STAT F.BOOT_STAT_PHASE = 0xF ∧ flag t (Reg.CORE_STAT 4) F.CORE_STAT_HALTED = true ∧ t.boot.step = .failed ∧
        fld t Reg.BOOT_STAT F.BOOT_STAT_CODE_A = (if code < 0x20 then code else fld s Reg.BOOT_STAT F.BOOT_STAT_CODE_A) ∧
        KeepsRegs [Reg.BOOT_STAT, Reg.CORE_STAT 4] s t ∧ t = { s with regs := t.regs, boot := t.boot })) ∧
  (∀ (s : State),
      bootRuns s = true →
      bootSource s = 1 →
      bootLoads s = true →
      s.boot.image = [] →
      s.boot.promptMono = none →
      Completes .uartRecoveryPrompt s (fun t => t = { s with boot := { s.boot with prompts := s.boot.prompts + 1, promptMono := some (monoNs s) } })) ∧
  (∀ (m : Nat) (s : State),
      bootRuns s = true →
      bootSource s = 1 →
      bootLoads s = true →
      s.boot.image = [] →
      s.boot.promptMono = some m →
      m + 100000000 ≤ monoNs s →
      Completes .uartRecoveryPrompt s (fun t => t = { s with boot := { s.boot with prompts := s.boot.prompts + 1, promptMono := some (monoNs s) } })) ∧
  (∀ (value : Byte) (s : State),
      bootRuns s = true →
      bootSource s = 1 →
      bootLoads s = true →
      s.boot.image.length < 1024 ∨ s.boot.image.length < imageEnd (slotHeader s 0) →
      Completes (.uartImageByte value) s (fun t => t = { s with boot := { s.boot with image := s.boot.image ++ [value] } })) ∧
  (∀ (s : State),
      bootRuns s = true →
      bootSource s = 2 →
      bootLoads s = true →
      s.boot.image = [] →
      s.boot.startMono + 10000000000 ≤ monoNs s →
      Completes .mirrorBootTimeout s (fun t =>
        t.boot.step = .failing 0x41 ∧ fld t Reg.BOOT_STAT F.BOOT_STAT_CODE_A = 0x41 ∧
        KeepsRegs [Reg.BOOT_STAT] s t ∧ t = { s with regs := t.regs, boot := t.boot }))

/-- A fall of PWR_FAIL_N sets PFAIL_LVL and marks its time, a rise clears it and forgets the fall; neither changes another register. Low for 2 us, it is qualified: PFAIL reads 1 and the PWR page's INT_RAW bit 0 is set. When a retentive commit and a journal write begun have ended, at the earliest 4 us after qualification and after the last of them, and no access of Afterglow is a host error, the shut state is entered: SHUT reads 1, and where Afterglow has loaded its records POWER.ORDERLY has been incremented, saturating, and T_SHUT is the PTP time. (R71, R73, R523) -/
def Obligations.PowerFailAndShutdown : Prop :=
  (∀ (s : State),
      s.power.low = false →
      Completes .pwrFailNFall s (fun t =>
        flag t Reg.PWR_STAT F.PWR_STAT_PFAIL_LVL = true ∧ t.power = { s.power with low := true, fellAt := some s.now } ∧
        KeepsRegs [Reg.PWR_STAT] s t ∧ t = { s with regs := t.regs, power := t.power })) ∧
  (∀ (s : State),
      Completes .pwrFailNRise s (fun t =>
        flag t Reg.PWR_STAT F.PWR_STAT_PFAIL_LVL = false ∧ t.power = { s.power with low := false, fellAt := none } ∧
        KeepsRegs [Reg.PWR_STAT] s t ∧ t = { s with regs := t.regs, power := t.power })) ∧
  (∀ (t0 : Nat) (s : State),
      s.power.low = true →
      s.power.fellAt = some t0 →
      s.power.qualifiedAt = none →
      t0 + 10000 ≤ s.now →
      s.start.step ≠ .porActive →
      Completes .pwrFailQualified s (fun t => flag t Reg.PWR_STAT F.PWR_STAT_PFAIL = true ∧ bitAt (rd t (Reg.INT_RAW 2)) 0 = true ∧ t.power.qualifiedAt = some s.now)) ∧
  (∀ (t0 : Nat) (s : State),
      s.power.qualifiedAt = some t0 →
      s.cyc.ret.phase = .idle →
      lanternWriting s = false →
      shut s = false →
      max t0 s.power.writeEnd + 20000 ≤ s.now →
      Permitted s (enterShut (shutRecord s)) →
      Completes .afterglowPowerFailRecord s (fun t => shut t = true ∧
        (aglLoaded s = true → aglGet t 0 4 4 = min (aglGet s 0 4 4 + 1) 0xFFFFFFFF ∧ aglGet t 0 16 8 = aglTime s)))

/-- The first non-zero SET is taken and the machine becomes STOPPED; a later write has no effect. START in an enabled machine in UNSET or STOPPED whose program the start check passes makes it RUNNING, where no memory access it makes is a host error, with LAST_START cold, warm, or cold with WARM_FALLBACK where no set can be taken; with a program that the check refuses START is a host error. HOLD of a task in WAIT puts it in HELD; in ACTIVE it waits for the end of the cycle. RESUME between cycles puts a HELD task in WAIT from the next grid point on. FAULT_CLEAR puts a FAULT task in WAIT while the machine runs. RET_COMMIT starts a retentive commit when none is in progress, and sets PEND while one is. (R79, R80, R84, R98, R102, R116, R118) -/
def Obligations.CyclicMachineCommands : Prop :=
  (∀ (ini : Fin 16) (value : Word) (s : State),
      Reachable s ini 0x40 0x40 →
      value.toNat < 4 →
      value ≠ 0 →
      modeSet s = 0 →
      flag s Reg.CYC_FORCE_EN F.CYC_FORCE_EN_EN = false →
      flag s Reg.CYC_STAT F.CYC_STAT_FORCE_IND = false →
      Completes (.cycModesetWrite ini value) s (fun t =>
        modeSet t = value.toNat ∧ machine t = 1 ∧
        KeepsRegs [Reg.CYC_MODESET, Reg.CYC_STAT] s t ∧ t = { s with regs := t.regs, arb := t.arb })) ∧
  (∀ (ini : Fin 16) (value : Word) (s : State),
      Reachable s ini 0x40 0x40 →
      value.toNat < 4 →
      modeSet s ≠ 0 →
      forcing s = flag s Reg.CYC_STAT F.CYC_STAT_FORCE_IND →
      Completes (.cycModesetWrite ini value) s (fun t => t = { s with arb := t.arb })) ∧
  (∀ (ini : Fin 16) (s : State),
      Reachable s ini 0x40 0x44 →
      modeSet s ≠ 0 →
      machine s = 0 ∨ machine s = 1 →
      pageEn s 0x40 = true →
      programErr s = none →
      Permitted s (coldStart (granted s ini)) →
      Completes (.startCold ini) s (fun t =>
        machine t = 2 ∧ fld t Reg.CYC_STAT F.CYC_STAT_LAST_START = 1 ∧ flag t Reg.CYC_STAT F.CYC_STAT_WARM_FALLBACK = false ∧
        KeepsBlocks [0x20, 0x23, 0x40, 0xa0, 0xb0, 0x110] s t ∧
        t = { s with free := t.free, regs := t.regs, mem := t.mem, cleRam := t.cleRam, canRam := t.canRam, arb := t.arb, cyc := t.cyc, ecc := t.ecc, memSys := t.memSys, rxe := t.rxe, mirror := t.mirror, agl := t.agl })) ∧
  (∀ (ini : Fin 16) (n : Nat) (s : State),
      Reachable s ini 0x40 0x44 →
      modeSet s ≠ 0 →
      machine s = 0 ∨ machine s = 1 →
      pageEn s 0x40 = true →
      programErr s = some n →
      exec (.startCold ini) s = .fault (.hostError n) ∧ exec (.startWarm ini) s = .fault (.hostError n)) ∧
  (∀ (ini : Fin 16) (s : State),
      Reachable s ini 0x40 0x44 →
      modeSet s ≠ 0 →
      machine s = 0 ∨ machine s = 1 →
      pageEn s 0x40 = true →
      programErr s = none →
      Permitted s (warmStart (granted s ini)) →
      Completes (.startWarm ini) s (fun t =>
        machine t = 2 ∧ fld t Reg.CYC_STAT F.CYC_STAT_LAST_START = (if (warmSet s).isSome then 2 else 1) ∧
        flag t Reg.CYC_STAT F.CYC_STAT_WARM_FALLBACK = (warmSet s).isNone ∧
        KeepsBlocks [0x20, 0x23, 0x40, 0xa0, 0xb0, 0x110] s t ∧
        t = { s with free := t.free, regs := t.regs, mem := t.mem, cleRam := t.cleRam, canRam := t.canRam, arb := t.arb, cyc := t.cyc, ecc := t.ecc, memSys := t.memSys, rxe := t.rxe, mirror := t.mirror, agl := t.agl })) ∧
  (∀ (ini : Fin 16) (k : Fin 16) (s : State),
      Reachable s ini 0x40 0x44 →
      modeSet s = 1 ∨ modeSet s = 3 →
      taskState s k.val = 1 →
      Completes (.taskHold ini k) s (fun t =>
        taskState t k.val = 3 ∧ bitAt (rd t Reg.CYC_HELD) k.val = true ∧ bitAt (rd t (Reg.INT_RAW 0x40)) 2 = true ∧
        KeepsRegs [Reg.TSTAT k.val, Reg.CYC_HELD, Reg.CYC_FAULTED, Reg.INT_RAW 0x40] s t ∧ t = { s with regs := t.regs, arb := t.arb })) ∧
  (∀ (ini : Fin 16) (k : Fin 16) (s : State),
      Reachable s ini 0x40 0x44 →
      modeSet s = 1 ∨ modeSet s = 3 →
      taskState s k.val = 2 →
      Completes (.taskHold ini k) s (fun t => (task t k.val).holdPending = true ∧ t = { s with arb := t.arb, cyc := t.cyc })) ∧
  (∀ (ini : Fin 16) (k : Fin 16) (s : State),
      Reachable s ini 0x40 0x44 →
      modeSet s = 1 ∨ modeSet s = 3 →
      taskState s k.val = 3 →
      (task s k.val).saved = false →
      Completes (.taskResume ini k) s (fun t =>
        taskState t k.val = 1 ∧ baseNs s (taskPtp s k.val) ≤ (task t k.val).gridFrom ∧ bitAt (rd t Reg.CYC_HELD) k.val = false ∧
        KeepsRegs [Reg.TSTAT k.val, Reg.CYC_HELD, Reg.CYC_FAULTED] s t ∧ t = { s with regs := t.regs, arb := t.arb, cyc := t.cyc })) ∧
  (∀ (ini : Fin 16) (k : Fin 16) (s : State),
      Reachable s ini 0x40 0x44 →
      modeSet s ≠ 0 →
      machine s = 2 →
      taskState s k.val = 4 →
      Completes (.faultClear ini k) s (fun t =>
        taskState t k.val = 1 ∧ baseNs s (taskPtp s k.val) ≤ (task t k.val).gridFrom ∧ bitAt (rd t Reg.CYC_FAULTED) k.val = false ∧
        KeepsRegs [Reg.TSTAT k.val, Reg.CYC_HELD, Reg.CYC_FAULTED] s t ∧ t = { s with regs := t.regs, arb := t.arb, cyc := t.cyc })) ∧
  (∀ (ini : Fin 16) (s : State),
      Reachable s ini 0x40 0x44 →
      modeSet s ≠ 0 →
      flag s Reg.CYC_RET_STAT F.CYC_RET_STAT_BUSY = false →
      fld s Reg.CYC_XSTAT F.CYC_XSTAT_STATE ≠ 2 →
      s.cyc.ret.blockedBy = none →
      held s = false →
      Completes (.retCommit ini) s (fun t =>
        flag t Reg.CYC_RET_STAT F.CYC_RET_STAT_BUSY = true ∧ t.cyc.ret.phase = .freeze ∧ t.cyc.waiting = s.cyc.waiting ++ [.freeze] ∧
        KeepsRegs [Reg.CYC_RET_STAT, Reg.CYC_STAT] s t ∧ t = { s with regs := t.regs, arb := t.arb, cyc := t.cyc })) ∧
  (∀ (ini : Fin 16) (s : State),
      Reachable s ini 0x40 0x44 →
      modeSet s ≠ 0 →
      flag s Reg.CYC_RET_STAT F.CYC_RET_STAT_BUSY = true →
      Completes (.retCommit ini) s (fun t =>
        flag t Reg.CYC_RET_STAT F.CYC_RET_STAT_PEND = true ∧ KeepsRegs [Reg.CYC_RET_STAT] s t ∧ t = { s with regs := t.regs, arb := t.arb }))

/-- Where no memory access made is a host error: at a due grid point a WAIT task becomes ACTIVE with its T0 at the present MONO and its snapshot queued; an ACTIVE task without an overrun limit overruns, its count saturating; the next grid point counts from there. The free engine takes the waiting operation of the best rank. A snapshot that has run its time ends and the engine is free; CYC_END of the running task from its own context queues its commit; a commit, or the commit of a stop, that has run its time ends and the engine is free, and a distribution ends likewise. (R82, R85, R91, R92, R93, R94, R95, R97, R99, R124) -/
def Obligations.TaskReleaseAndTransferEngine : Prop :=
  (∀ (k : Fin 16) (s : State),
      releaseDue s k.val = true →
      taskState s k.val = 1 →
      Permitted s (mirrorGap (releaseTask (setTask s k.val (fun q => { q with gridFrom := nextGrid s k.val + 1 })) k.val) k.val) →
      Completes (.taskRelease k) s (fun t =>
        taskState t k.val = 2 ∧ XferOp.snapshot k.val ∈ t.cyc.waiting ∧ (task t k.val).t0Mono = monoNs s ∧ (task t k.val).gridFrom = nextGrid s k.val + 1 ∧
        KeepsBlocks [0x20, 0x23, 0x40, 0xa0, 0xb0, 0x110] s t ∧
        t = { s with free := t.free, regs := t.regs, mem := t.mem, cleRam := t.cleRam, canRam := t.canRam, arb := t.arb, cyc := t.cyc, ecc := t.ecc, memSys := t.memSys, rxe := t.rxe, mirror := t.mirror, agl := t.agl })) ∧
  (∀ (k : Fin 16) (s : State),
      releaseDue s k.val = true →
      taskState s k.val = 2 →
      fld s (Reg.TCFG k.val) F.TCFG_OVR_LIMIT = 0 →
      Completes (.taskRelease k) s (fun t =>
        fld t (Reg.TOVR_CNT k.val) F.TOVR_CNT_COUNT = min (fld s (Reg.TOVR_CNT k.val) F.TOVR_CNT_COUNT + 1) (2 ^ F.TOVR_CNT_COUNT.width - 1) ∧
        bitAt (rd t (Reg.INT_RAW 0x40)) 0 = true ∧ (task t k.val).gridFrom = nextGrid s k.val + 1 ∧
        KeepsRegs [Reg.TOVR_CNT k.val, Reg.TSTAT k.val, Reg.INT_RAW 0x40, Reg.INT_RAW (taskPage k.val)] s t ∧ t = { s with regs := t.regs, cyc := t.cyc })) ∧
  (∀ (o : XferOp) (s : State),
      s.cyc.current = none →
      xferBest s (s.cyc.waiting.filter (fun o => !(frozen s o))) = some o →
      held s = false →
      Completes .transferOpStart s (fun t =>
        t.cyc.current = some o ∧ t.cyc.currentSince = s.now ∧ t.cyc.waiting = s.cyc.waiting.erase o ∧ t.cyc.tasks = s.cyc.tasks ∧ t = { s with cyc := t.cyc })) ∧
  (∀ (k : Nat) (s : State),
      s.cyc.current = some (.snapshot k) →
      xferRan s (.snapshot k) = true →
      forceErr s k 0 (mapImgLen (inMap s k)) = false →
      Permitted s (snapshotDone s k) →
      Completes .snapshotComplete s (fun t => t.cyc.current = none ∧
        KeepsBlocks [0x10, 0x16, 0x17, 0x20, 0x23, 0x30, 0x35, 0x40, 0x70, 0xa0, 0xb0, 0x110] s t ∧
        t = { s with free := t.free, regs := t.regs, mem := t.mem, cleRam := t.cleRam, canRam := t.canRam, arb := t.arb, cyc := t.cyc, ecc := t.ecc, memSys := t.memSys, mmu := t.mmu, dma := t.dma, dmaIssue := t.dmaIssue, cores := t.cores, rxe := t.rxe, mirror := t.mirror, agl := t.agl })) ∧
  (∀ (core : Fin 4) (value : Word) (s : State),
      pageErr s 0x40 0x54 = none →
      value.toNat < 16 →
      runningOn s core.val = some value.toNat →
      held (flushFor (granted s (Fin.ofNat 16 core.val)) core.val) = false →
      inContext (flushFor (granted s (Fin.ofNat 16 core.val)) core.val) core.val value.toNat = true →
      Permitted s (endCycle (granted s (Fin.ofNat 16 core.val)) core.val value.toNat) →
      Completes (.cycEnd core value) s (fun t => (.commit value.toNat) ∈ t.cyc.waiting ∧
        KeepsBlocks [0x10, 0x16, 0x17, 0x20, 0x23, 0x30, 0x35, 0x40, 0xa0, 0xb0, 0x110] s t ∧
        t = { s with free := t.free, regs := t.regs, mem := t.mem, cleRam := t.cleRam, canRam := t.canRam, arb := t.arb, cyc := t.cyc, ecc := t.ecc, memSys := t.memSys, mmu := t.mmu, dma := t.dma, dmaIssue := t.dmaIssue, cores := t.cores, rxe := t.rxe, mirror := t.mirror, agl := t.agl })) ∧
  (∀ (k : Nat) (img : List Byte) (s : State),
      s.cyc.current = some (.stopCommit k img) →
      xferRan s (.stopCommit k img) = true →
      (readScan s 13 (mapImg (outMap s k)) (mapImgLen (outMap s k))).1 = none →
      (commitAll s).1 = false →
      Permitted s (commitAll s).2 →
      Completes .commitInstant s (fun t => t.cyc.current = none ∧ (.distribution k) ∈ t.cyc.waiting ∧
        KeepsBlocks [0x10, 0x16, 0x17, 0x20, 0x23, 0x30, 0x35, 0x40, 0x60, 0xa0, 0xb0, 0x110] s t ∧
        t = { s with free := t.free, regs := t.regs, mem := t.mem, cleRam := t.cleRam, canRam := t.canRam, arb := t.arb, cyc := t.cyc, ecc := t.ecc, memSys := t.memSys, mmu := t.mmu, dma := t.dma, dmaIssue := t.dmaIssue, cores := t.cores, rxe := t.rxe, mirror := t.mirror, agl := t.agl })) ∧
  (∀ (k : Nat) (s : State),
      s.cyc.current = some (.commit k) →
      xferRan s (.commit k) = true →
      dmaTaskQuiet s k = true →
      (commitAll s).1 = false →
      Permitted s (commitAll s).2 →
      Completes .commitInstant s (fun t => t.cyc.current = none ∧
        KeepsBlocks [0x10, 0x16, 0x17, 0x20, 0x23, 0x30, 0x35, 0x40, 0x60, 0xa0, 0xb0, 0x110] s t ∧
        t = { s with free := t.free, regs := t.regs, mem := t.mem, cleRam := t.cleRam, canRam := t.canRam, arb := t.arb, cyc := t.cyc, ecc := t.ecc, memSys := t.memSys, mmu := t.mmu, dma := t.dma, dmaIssue := t.dmaIssue, cores := t.cores, rxe := t.rxe, mirror := t.mirror, agl := t.agl })) ∧
  (∀ (k : Nat) (s : State),
      s.cyc.current = some (.distribution k) →
      xferRan s (.distribution k) = true →
      forceErr s k 1 (mapImgLen (outMap s k)) = false →
      beyondOut s k = false →
      Permitted s (distDone s k) →
      Completes .distributionComplete s (fun t => t.cyc.current = none ∧
        KeepsBlocks [0x10, 0x16, 0x17, 0x20, 0x23, 0x30, 0x35, 0x40, 0x70, 0xa0, 0xb0, 0x110] s t ∧
        t = { s with free := t.free, regs := t.regs, mem := t.mem, cleRam := t.cleRam, canRam := t.canRam, arb := t.arb, cyc := t.cyc, cle := t.cle, ecc := t.ecc, memSys := t.memSys, mmu := t.mmu, dma := t.dma, dmaIssue := t.dmaIssue, cores := t.cores, rxe := t.rxe, mirror := t.mirror, agl := t.agl }))

/-- CYC_FORCE_EN takes the value written in a set that allows forcing and ignores it in the others; CYC_FORCE_CNT takes a count up to 1,024 in an unlocked page; either way FORCE_IND then reads the forcing condition. A deferred retentive request arises once CYC_RET_PERIOD has passed. Where no memory access made is a host error: the freeze copy ends after its time and frees the engine; the data step ends after its MRAM time and leads to the header step, or, where the copy of the data holds an uncorrectable word, ends the commit; the header step ends the commit: where no request was kept its phase is idle, INT_RAW bit 4 is set and CYC_RET_CNT counts it. (R112, R113, R116, R117) -/
def Obligations.ForcingAndRetentiveCommits : Prop :=
  (∀ (ini : Fin 16) (value : Word) (s : State),
      Reachable s ini 0x45 0x78 →
      value.toNat < 2 →
      modeSet s = 2 ∨ modeSet s = 3 →
      Completes (.forceEnableWrite ini false value) s (fun t =>
        rd t Reg.CYC_FORCE_EN = value ∧ flag t Reg.CYC_STAT F.CYC_STAT_FORCE_IND = forcing (wr s Reg.CYC_FORCE_EN value) ∧
        KeepsBlocks [0x40, 0x100, 0x110] s t ∧
        t = { s with regs := t.regs, arb := t.arb, agl := t.agl, lantern := t.lantern })) ∧
  (∀ (ini : Fin 16) (value : Word) (s : State),
      Reachable s ini 0x45 0x78 →
      value.toNat < 2 →
      modeSet s = 0 ∨ modeSet s = 1 →
      Completes (.forceEnableWrite ini false value) s (fun t => t = { s with arb := t.arb })) ∧
  (∀ (ini : Fin 16) (value : Word) (s : State),
      Reachable s ini 0x45 0x74 →
      Unlocked s 0x45 →
      value.toNat ≤ 1024 →
      Completes (.forceEnableWrite ini true value) s (fun t =>
        rd t Reg.CYC_FORCE_CNT = value ∧ flag t Reg.CYC_STAT F.CYC_STAT_FORCE_IND = forcing (wr s Reg.CYC_FORCE_CNT value) ∧
        KeepsBlocks [0x40, 0x100, 0x110] s t ∧
        t = { s with regs := t.regs, arb := t.arb, agl := t.agl, lantern := t.lantern })) ∧
  (∀ (s : State),
      s.cyc.ret.deferred = true →
      retPeriodEnd s ≤ monoNs s →
      held s = false →
      flag s Reg.CYC_RET_STAT F.CYC_RET_STAT_BUSY = false →
      fld s Reg.CYC_XSTAT F.CYC_XSTAT_STATE ≠ 2 →
      s.cyc.ret.blockedBy = none →
      Completes .retPeriodExpiry s (fun t =>
        flag t Reg.CYC_RET_STAT F.CYC_RET_STAT_BUSY = true ∧ t.cyc.ret.phase = .freeze ∧ t.cyc.ret.deferred = false ∧ t.cyc.waiting = s.cyc.waiting ++ [.freeze] ∧
        KeepsRegs [Reg.CYC_RET_STAT, Reg.CYC_STAT] s t ∧ t = { s with regs := t.regs, cyc := t.cyc })) ∧
  (∀ (s : State),
      s.cyc.current = some .freeze →
      s.cyc.currentSince + xferTime s .freeze ≤ s.now →
      held s = false →
      Permitted s (freezeDone s) →
      Completes .freezeCopyComplete s (fun t => t.cyc.current = none ∧
        KeepsBlocks [0x20, 0x23, 0x40, 0xa0, 0xb0, 0x110] s t ∧
        t = { s with free := t.free, regs := t.regs, mem := t.mem, cleRam := t.cleRam, canRam := t.canRam, arb := t.arb, cyc := t.cyc, ecc := t.ecc, memSys := t.memSys, rxe := t.rxe, mirror := t.mirror, agl := t.agl })) ∧
  (∀ (s : State),
      s.cyc.ret.phase = .data →
      s.cyc.ret.since + 20 * retLen s ≤ s.now →
      Permitted s (retDataDone s) →
      (readScan s 13 (rdn s Reg.CYC_RET_BASE + 2 * retLen s) (retLen s)).1 = none →
      Completes .retDataWritten s (fun t => t.cyc.ret.phase = .header ∧ t.cyc.ret.since = s.now ∧
        KeepsBlocks [0x20, 0x23, 0x40, 0xb0, 0x110] s t ∧
        t = { s with free := t.free, regs := t.regs, mem := t.mem, cleRam := t.cleRam, canRam := t.canRam, arb := t.arb, cyc := t.cyc, ecc := t.ecc, memSys := t.memSys, rxe := t.rxe, mirror := t.mirror, agl := t.agl })) ∧
  (∀ (s : State),
      s.cyc.ret.phase = .data →
      s.cyc.ret.since + 20 * retLen s ≤ s.now →
      Permitted s (retDataDone s) →
      (readScan s 13 (rdn s Reg.CYC_RET_BASE + 2 * retLen s) (retLen s)).1 ≠ none →
      flag s Reg.CYC_RET_STAT F.CYC_RET_STAT_PEND = false →
      Completes .retDataWritten s (fun t => t.cyc.ret.phase = .idle ∧ flag t Reg.CYC_RET_STAT F.CYC_RET_STAT_BUSY = false ∧
        KeepsBlocks [0x20, 0x23, 0x40, 0xb0, 0x110] s t ∧
        t = { s with free := t.free, regs := t.regs, mem := t.mem, cleRam := t.cleRam, canRam := t.canRam, arb := t.arb, cyc := t.cyc, ecc := t.ecc, memSys := t.memSys, rxe := t.rxe, mirror := t.mirror, agl := t.agl })) ∧
  (∀ (s : State),
      s.cyc.ret.phase = .header →
      s.cyc.ret.since + 20 * 64 ≤ s.now →
      flag s Reg.CYC_RET_STAT F.CYC_RET_STAT_PEND = false →
      Permitted s (writeEnds (retComplete s)) →
      Completes .retCommitComplete s (fun t =>
        t.cyc.ret.phase = .idle ∧ flag t Reg.CYC_RET_STAT F.CYC_RET_STAT_BUSY = false ∧ bitAt (rd t (Reg.INT_RAW 0x40)) 4 = true ∧
        rdn t Reg.CYC_RET_CNT = (rdn s Reg.CYC_RET_CNT + 1) % 2 ^ 32 ∧
        KeepsBlocks [0x20, 0x23, 0x40, 0xb0, 0x110] s t ∧
        t = { s with free := t.free, regs := t.regs, mem := t.mem, cleRam := t.cleRam, canRam := t.canRam, arb := t.arb, power := t.power, cyc := t.cyc, ecc := t.ecc, memSys := t.memSys, rxe := t.rxe, mirror := t.mirror, agl := t.agl }))

/-- EXCH and REVERT of a running machine with an idle exchange, for a program that keeps what is outside the group, lead to WAITING. Where no memory access made is a host error: ABORT in WAITING ends it with result aborted and has no effect elsewhere; DISCARD clears REVERT_OK and CYC_XPREV; STOP in the gap waits for its end, elsewhere the machine is STOPPING or STOPPED and the tasks in WAIT, HELD and FAULT are OFF. The instant leads to GAP in a CLK_FAB cycle after the acceptance, once every task of the group is between cycles and no retentive commit is busy or pending, before EXCH_TMO has expired; a wait that has lasted EXCH_TMO ms and whose instant has not come ends with result refused. The gap ends after its time, with the engine free, in IDLE, where the two images keep the rules of their formats or a table of theirs cannot be read; an exchange of others is a host error. (R102, R123, R124, R125, R130, R134) -/
def Obligations.ExchangeCommands : Prop :=
  (∀ (ini : Fin 16) (s : State),
      Reachable s ini 0x40 0x98 →
      role s ≠ 2 →
      machine s = 2 →
      xState s = 0 →
      groupOk s (rdn s Reg.CYC_XDESC) = true →
      Completes (.exch ini) s (fun t => xState t = 1 ∧ t.cyc.exch.revert = false ∧ t.cyc.exch.acceptedMono = monoNs s ∧ t.cyc.exch.acceptedAt = s.now ∧
        KeepsBlocks [0x40] s t ∧
        t = { s with regs := t.regs, arb := t.arb, cyc := t.cyc })) ∧
  (∀ (ini : Fin 16) (s : State),
      Reachable s ini 0x40 0x98 →
      role s ≠ 2 →
      machine s = 2 →
      xState s = 0 →
      flag s Reg.CYC_XSTAT F.CYC_XSTAT_REVERT_OK = true →
      groupOk s (rdn s Reg.CYC_XPREV) = true →
      Completes (.exchRevert ini) s (fun t => xState t = 1 ∧ t.cyc.exch.revert = true ∧ t.cyc.exch.acceptedMono = monoNs s ∧ t.cyc.exch.acceptedAt = s.now ∧
        KeepsBlocks [0x40] s t ∧
        t = { s with regs := t.regs, arb := t.arb, cyc := t.cyc })) ∧
  (∀ (ini : Fin 16) (s : State),
      Reachable s ini 0x40 0x98 →
      xState s = 1 →
      Permitted s (endWait (granted s ini) 3) →
      Completes (.exchAbort ini) s (fun t => xState t = 0 ∧ fld t Reg.CYC_XSTAT F.CYC_XSTAT_RESULT = 3 ∧
        KeepsBlocks [0x20, 0x23, 0x40, 0xa0, 0xb0, 0x110] s t ∧
        t = { s with free := t.free, regs := t.regs, mem := t.mem, cleRam := t.cleRam, canRam := t.canRam, arb := t.arb, ecc := t.ecc, memSys := t.memSys, rxe := t.rxe, mirror := t.mirror, agl := t.agl })) ∧
  (∀ (ini : Fin 16) (s : State),
      Reachable s ini 0x40 0x98 →
      xState s ≠ 1 →
      Completes (.exchAbort ini) s (fun t => t = { s with arb := t.arb })) ∧
  (∀ (ini : Fin 16) (s : State),
      Reachable s ini 0x40 0x98 →
      Completes (.exchDiscard ini) s (fun t =>
        flag t Reg.CYC_XSTAT F.CYC_XSTAT_REVERT_OK = false ∧ rd t Reg.CYC_XPREV = 0 ∧
        KeepsRegs [Reg.CYC_XSTAT, Reg.CYC_XPREV] s t ∧ t = { s with regs := t.regs, arb := t.arb })) ∧
  (∀ (ini : Fin 16) (s : State),
      Reachable s ini 0x40 0x44 →
      modeSet s ≠ 0 →
      xState s = 2 →
      Completes (.cycStop ini) s (fun t => t.cyc.exch.stopPending = true ∧ t = { s with arb := t.arb, cyc := t.cyc })) ∧
  (∀ (ini : Fin 16) (s : State),
      Reachable s ini 0x40 0x44 →
      modeSet s ≠ 0 →
      xState s ≠ 2 →
      Permitted s (stopMachine (if xState s == xWaiting then endWait (granted s ini) 3 else granted s ini)) →
      Completes (.cycStop ini) s (fun t => (machine t = 1 ∨ machine t = 3) ∧
        (∀ k < 16, taskState s k = 1 ∨ taskState s k = 3 ∨ taskState s k = 4 → taskState t k = 0) ∧
        KeepsBlocks [0x20, 0x23, 0x40, 0xa0, 0xb0, 0x110] s t ∧
        t = { s with free := t.free, regs := t.regs, mem := t.mem, cleRam := t.cleRam, canRam := t.canRam, arb := t.arb, cyc := t.cyc, ecc := t.ecc, memSys := t.memSys, rxe := t.rxe, mirror := t.mirror, agl := t.agl })) ∧
  (∀ (s : State),
      instantReady s = true →
      exchExpired s (monoBefore s) = false →
      held s = false →
      Completes .exchangeInstant s (fun t =>
        xState t = 2 ∧ t.cyc.exch.instantMono = monoNs s ∧ t.cyc.exch.instantAt = s.now ∧ t.cyc.exch.engineTime = 0 ∧
        KeepsRegs [Reg.CYC_XSTAT] s t ∧ t = { s with regs := t.regs, cyc := t.cyc })) ∧
  (∀ (s : State),
      xState s = 1 →
      instantReady s = false ∨ exchExpired s (monoBefore s) = true →
      Permitted s (endWait s 2) →
      s.cyc.exch.acceptedMono + fld s Reg.CYC_XCFG F.CYC_XCFG_EXCH_TMO * 1000000 ≤ monoNs s →
      Completes .exchangeTimeout s (fun t => xState t = 0 ∧ fld t Reg.CYC_XSTAT F.CYC_XSTAT_RESULT = 2 ∧
        KeepsBlocks [0x20, 0x23, 0x40, 0xa0, 0xb0, 0x110] s t ∧
        t = { s with free := t.free, regs := t.regs, mem := t.mem, cleRam := t.cleRam, canRam := t.canRam, arb := t.arb, ecc := t.ecc, memSys := t.memSys, rxe := t.rxe, mirror := t.mirror, agl := t.agl })) ∧
  (∀ (n : Nat) (s : State),
      xState s = 2 →
      held s = false →
      s.cyc.current = none →
      s.cyc.exch.instantAt + gapTime s ≤ s.now →
      (tablesScan s (xIn s) (xOut s)).1 = false →
      exchErr s (xIn s) (xOut s) = some n →
      exec .gapEnd s = .fault (.hostError n)) ∧
  (∀ (s : State),
      xState s = 2 →
      held s = false →
      s.cyc.current = none →
      s.cyc.exch.instantAt + gapTime s ≤ s.now →
      (tablesScan s (xIn s) (xOut s)).1 = true ∨ exchErr s (xIn s) (xOut s) = none →
      Permitted s (gapEnd s) →
      Completes .gapEnd s (fun t => xState t = 0 ∧
        KeepsBlocks [0x20, 0x23, 0x40, 0xa0, 0xb0, 0x110] s t ∧
        t = { s with free := t.free, regs := t.regs, mem := t.mem, cleRam := t.cleRam, canRam := t.canRam, arb := t.arb, cyc := t.cyc, ecc := t.ecc, memSys := t.memSys, l1 := t.l1, cores := t.cores, rxe := t.rxe, mirror := t.mirror, agl := t.agl }))

/-- While RXE runs and no memory access made is a host error: ENABLE of a DISABLED session whose descriptor reads without error and keeps the rules takes the descriptor, the present time as its age reference and a new E/B run, and the session is LOST (or SUSPENDED where a scaling entry cannot be read); ENABLE of a session in another state has no effect, and with a descriptor that breaks the rules it is a host error. DISABLE leaves a session DISABLED, bad in quality, without a published, waiting or assembled image; of a DISABLED one it has no effect. SESSION_RESUME takes a SUSPENDED session to LOST (or back to SUSPENDED on a fault) and has no effect on others. RESYNC in LOST, STALE or GOOD completes, and where the session is not authenticated, RXE sends, and the newest output buffer reads without fault it counts STX_SEQ up by one; in DISABLED or SUSPENDED it has no effect. (R144, R146, R150, R156, R164) -/
def Obligations.SessionCommands : Prop :=
  (∀ (ini : Fin 16) (x : Fin 1024) (s : State),
      Reachable s ini 0x50 0x8C →
      rxeRuns s = true →
      sState s x.val = 0 →
      sessionErr s x.val = none →
      (readScan (granted s ini) 8 (stabAt s x.val) 64).1 = none →
      Permitted s (enableSession (granted s ini) x.val) →
      Completes (.sessionEnable ini x) s (fun t =>
        (sState t x.val = 1 ∨ sState t x.val = 4) ∧ (sess t x.val).desc = rdBytes (readScan (granted s ini) 8 (stabAt s x.val) 64).2 (stabAt s x.val) 64 ∧
        (sess t x.val).ageRef = s.clock.ptp ∧ (sess t x.val).ebRun = (sess s x.val).ebRun + 1 ∧ (sess t x.val).ebHeld = (sess s x.val).ebHeld ∧
        KeepsBlocks [0x17, 0x20, 0x23, 0x35, 0x50, 0x70, 0xa0, 0xb0, 0x110] s t ∧
        t = { s with free := t.free, regs := t.regs, mem := t.mem, cleRam := t.cleRam, canRam := t.canRam, arb := t.arb, cle := t.cle, ecc := t.ecc, memSys := t.memSys, mmu := t.mmu, rxe := t.rxe, mirror := t.mirror, agl := t.agl })) ∧
  (∀ (ini : Fin 16) (x : Fin 1024) (n : Nat) (s : State),
      Reachable s ini 0x50 0x8C →
      rxeRuns s = true →
      sState s x.val = 0 →
      sessionErr s x.val = some n →
      exec (.sessionEnable ini x) s = .fault (.hostError n)) ∧
  (∀ (ini : Fin 16) (x : Fin 1024) (s : State),
      Reachable s ini 0x50 0x8C →
      sState s x.val ≠ 0 →
      Completes (.sessionEnable ini x) s (fun t => t = { s with arb := t.arb })) ∧
  (∀ (ini : Fin 16) (x : Fin 1024) (s : State),
      Reachable s ini 0x50 0x8C →
      rxeRuns s = true →
      sState s x.val ≠ 0 →
      Permitted s (disableSession (granted s ini) x.val) →
      Completes (.sessionDisable ini x) s (fun t => sState t x.val = 0 ∧ fld t (Reg.SSTAT x.val) F.SSTAT_QUAL = 2 ∧ (sess t x.val).published = none ∧ (sess t x.val).waiting = none ∧ (sess t x.val).assembling = none ∧
        KeepsBlocks [0x17, 0x20, 0x23, 0x35, 0x50, 0x70, 0xa0, 0xb0, 0x110] s t ∧
        t = { s with free := t.free, regs := t.regs, mem := t.mem, cleRam := t.cleRam, canRam := t.canRam, arb := t.arb, cle := t.cle, ecc := t.ecc, memSys := t.memSys, mmu := t.mmu, rxe := t.rxe, mirror := t.mirror, agl := t.agl })) ∧
  (∀ (ini : Fin 16) (x : Fin 1024) (s : State),
      Reachable s ini 0x50 0x8C →
      rxeRuns s = true →
      sState s x.val = 0 →
      Completes (.sessionDisable ini x) s (fun t => t = { s with arb := t.arb })) ∧
  (∀ (ini : Fin 16) (x : Fin 1024) (s : State),
      Reachable s ini 0x50 0x8C →
      rxeRuns s = true →
      sState s x.val = 4 →
      Permitted s (changeState (setSess (granted s ini) x.val (fun k => { k with freezeFrom := max k.freezeFrom (ptpNs s) })) x.val 1) →
      Completes (.sessionResume ini x) s (fun t => (sState t x.val = 1 ∨ sState t x.val = 4) ∧ (sess t x.val).freezeFrom = max (sess s x.val).freezeFrom (ptpNs s) ∧
        KeepsBlocks [0x17, 0x20, 0x23, 0x35, 0x50, 0x70, 0xa0, 0xb0, 0x110] s t ∧
        t = { s with free := t.free, regs := t.regs, mem := t.mem, cleRam := t.cleRam, canRam := t.canRam, arb := t.arb, cle := t.cle, ecc := t.ecc, memSys := t.memSys, mmu := t.mmu, rxe := t.rxe, mirror := t.mirror, agl := t.agl })) ∧
  (∀ (ini : Fin 16) (x : Fin 1024) (s : State),
      Reachable s ini 0x50 0x8C →
      sState s x.val ≠ 4 →
      Completes (.sessionResume ini x) s (fun t => t = { s with arb := t.arb })) ∧
  (∀ (ini : Fin 16) (x : Fin 1024) (s : State),
      Reachable s ini 0x50 0x8C →
      rxeRuns s = true →
      sState s x.val = 1 ∨ sState s x.val = 2 ∨ sState s x.val = 3 →
      Permitted s (prepareResync (granted s ini) x.val) →
      Completes (.resync ini x) s (fun t =>
        KeepsBlocks [0x17, 0x20, 0x23, 0x35, 0x50, 0x70, 0xa0, 0xb0, 0xf0, 0x110] s t ∧
        t = { s with free := t.free, regs := t.regs, mem := t.mem, cleRam := t.cleRam, canRam := t.canRam, arb := t.arb, cle := t.cle, ecc := t.ecc, memSys := t.memSys, mmu := t.mmu, rxe := t.rxe, mirror := t.mirror, agl := t.agl, keys := t.keys })) ∧
  (∀ (ini : Fin 16) (x : Fin 1024) (s : State) (img : List Byte),
      Reachable s ini 0x50 0x8C →
      rxeSends s = true →
      sState s x.val = 1 ∨ sState s x.val = 2 ∨ sState s x.val = 3 →
      Permitted s (prepareResync (granted s ini) x.val) →
      xCmac s x.val = false →
      (vread (granted s ini) 1 (rxeCtx s) 0 (xOutBuf s x.val + newestBuf s x.val * xOutSize s x.val) (xOutLen s x.val)).1 = .inr img →
      Completes (.resync ini x) s (fun t => rdn t (Reg.STX_SEQ x.val) = (rdn s (Reg.STX_SEQ x.val) + 1) % 2 ^ 32)) ∧
  (∀ (ini : Fin 16) (x : Fin 1024) (s : State),
      Reachable s ini 0x50 0x8C →
      sState s x.val = 0 ∨ sState s x.val = 4 →
      Completes (.resync ini x) s (fun t => t = { s with arb := t.arb }))

/-- Where RXE receives: a datagram at the head of the inbox that fails the form check is dropped and counted in RXE_CNT[0]; one of a session that does not exist, is DISABLED or is SUSPENDED is dropped and counted in RXE_CNT[1], whatever its type. A CYC_IN, EVENT, BULK or ACK datagram completes where no memory access made is a host error. A complete image that waits while its session is not SUSPENDED, and a free buffer exists, is dropped and counted in RXE_CNT[4] where it is no longer current; where it is current and the scaling entries keep their rules it is published: it waits no more, the session is GOOD or SUSPENDED, and where it is GOOD, SRX_SEQ, SGEN and the published buffer are those of the image. (R153, R154, R155, R158) -/
def Obligations.StationReception : Prop :=
  (∀ (d : RxDatagram) (rest : List RxDatagram) (s : State),
      rxeReceives s = true →
      s.rxe.inbox = d :: rest →
      rxForm d = false →
      Completes .cycInReceive s (fun t =>
        t.rxe = { s.rxe with inbox := rest } ∧ rdn t (Reg.RXE_CNT 0) = min (rdn s (Reg.RXE_CNT 0) + 1) 0xFFFFFFFF ∧
        KeepsRegs [Reg.RXE_CNT 0] s t ∧ t = { s with regs := t.regs, rxe := t.rxe })) ∧
  (∀ (d : RxDatagram) (rest : List RxDatagram) (s : State),
      rxeReceives s = true →
      s.rxe.inbox = d :: rest →
      rxForm d = true →
      rxType d = 1 →
      1024 ≤ rxSession d ∨ sState s (rxSession d) = 0 ∨ sState s (rxSession d) = 4 →
      Completes .cycInReceive s (fun t =>
        t.rxe = { s.rxe with inbox := rest } ∧ rdn t (Reg.RXE_CNT 1) = min (rdn s (Reg.RXE_CNT 1) + 1) 0xFFFFFFFF ∧
        KeepsRegs [Reg.RXE_CNT 1] s t ∧ t = { s with regs := t.regs, rxe := t.rxe })) ∧
  (∀ (d : RxDatagram) (rest : List RxDatagram) (s : State),
      rxeReceives s = true →
      s.rxe.inbox = d :: rest →
      rxForm d = true →
      rxType d = 3 →
      1024 ≤ rxSession d ∨ sState s (rxSession d) = 0 ∨ sState s (rxSession d) = 4 →
      Completes .eventReceive s (fun t =>
        t.rxe = { s.rxe with inbox := rest } ∧ rdn t (Reg.RXE_CNT 1) = min (rdn s (Reg.RXE_CNT 1) + 1) 0xFFFFFFFF ∧
        KeepsRegs [Reg.RXE_CNT 1] s t ∧ t = { s with regs := t.regs, rxe := t.rxe })) ∧
  (∀ (d : RxDatagram) (rest : List RxDatagram) (s : State),
      rxeReceives s = true →
      s.rxe.inbox = d :: rest →
      rxForm d = true →
      rxType d = 4 →
      1024 ≤ rxSession d ∨ sState s (rxSession d) = 0 ∨ sState s (rxSession d) = 4 →
      Completes .bulkReceive s (fun t =>
        t.rxe = { s.rxe with inbox := rest } ∧ rdn t (Reg.RXE_CNT 1) = min (rdn s (Reg.RXE_CNT 1) + 1) 0xFFFFFFFF ∧
        KeepsRegs [Reg.RXE_CNT 1] s t ∧ t = { s with regs := t.regs, rxe := t.rxe })) ∧
  (∀ (d : RxDatagram) (rest : List RxDatagram) (s : State),
      rxeReceives s = true →
      s.rxe.inbox = d :: rest →
      rxForm d = true →
      rxType d = 6 →
      1024 ≤ rxSession d ∨ sState s (rxSession d) = 0 ∨ sState s (rxSession d) = 4 →
      Completes .lsxAckReceive s (fun t =>
        t.rxe = { s.rxe with inbox := rest } ∧ rdn t (Reg.RXE_CNT 1) = min (rdn s (Reg.RXE_CNT 1) + 1) 0xFFFFFFFF ∧
        KeepsRegs [Reg.RXE_CNT 1] s t ∧ t = { s with regs := t.regs, rxe := t.rxe })) ∧
  (∀ (d : RxDatagram) (rest : List RxDatagram) (s : State),
      rxeReceives s = true →
      s.rxe.inbox = d :: rest →
      rxForm d = true →
      rxType d = 1 →
      Permitted s (takeDatagram s d receiveCycIn) →
      Completes .cycInReceive s (fun t =>
        KeepsBlocks [0x17, 0x20, 0x23, 0x35, 0x50, 0xa0, 0xb0, 0xf0, 0x110] s t ∧
        t = { s with free := t.free, regs := t.regs, mem := t.mem, cleRam := t.cleRam, canRam := t.canRam, arb := t.arb, ecc := t.ecc, memSys := t.memSys, mmu := t.mmu, rxe := t.rxe, mirror := t.mirror, agl := t.agl, keys := t.keys })) ∧
  (∀ (d : RxDatagram) (rest : List RxDatagram) (s : State),
      rxeReceives s = true →
      s.rxe.inbox = d :: rest →
      rxForm d = true →
      rxType d = 3 →
      Permitted s (takeDatagram s d (fun s d => receiveEb s d false)) →
      Completes .eventReceive s (fun t =>
        KeepsBlocks [0x17, 0x20, 0x23, 0x35, 0x50, 0xa0, 0xb0, 0xf0, 0x110] s t ∧
        t = { s with free := t.free, regs := t.regs, mem := t.mem, cleRam := t.cleRam, canRam := t.canRam, arb := t.arb, ecc := t.ecc, memSys := t.memSys, mmu := t.mmu, rxe := t.rxe, mirror := t.mirror, agl := t.agl, keys := t.keys })) ∧
  (∀ (d : RxDatagram) (rest : List RxDatagram) (s : State),
      rxeReceives s = true →
      s.rxe.inbox = d :: rest →
      rxForm d = true →
      rxType d = 4 →
      Permitted s (takeDatagram s d (fun s d => receiveEb s d true)) →
      Completes .bulkReceive s (fun t =>
        KeepsBlocks [0x17, 0x20, 0x23, 0x35, 0x50, 0xa0, 0xb0, 0xf0, 0x110] s t ∧
        t = { s with free := t.free, regs := t.regs, mem := t.mem, cleRam := t.cleRam, canRam := t.canRam, arb := t.arb, ecc := t.ecc, memSys := t.memSys, mmu := t.mmu, rxe := t.rxe, mirror := t.mirror, agl := t.agl, keys := t.keys })) ∧
  (∀ (d : RxDatagram) (rest : List RxDatagram) (s : State),
      rxeReceives s = true →
      s.rxe.inbox = d :: rest →
      rxForm d = true →
      rxType d = 6 →
      Permitted s (takeDatagram s d receiveAck) →
      Completes .lsxAckReceive s (fun t =>
        KeepsBlocks [0x17, 0x20, 0x23, 0x35, 0x50, 0xa0, 0xb0, 0xf0, 0x110] s t ∧
        t = { s with free := t.free, regs := t.regs, mem := t.mem, cleRam := t.cleRam, canRam := t.canRam, arb := t.arb, ecc := t.ecc, memSys := t.memSys, mmu := t.mmu, rxe := t.rxe, mirror := t.mirror, agl := t.agl, keys := t.keys })) ∧
  (∀ (x : Fin 1024) (im : InImage) (k : Nat) (s : State),
      rxeReceives s = true →
      (sess s x.val).waiting = some im →
      inFree s x.val = some k →
      sState s x.val ≠ 4 →
      imageCurrent s x.val im = false →
      Completes (.imagePublish x) s (fun t => (sess t x.val).waiting = none ∧ (sess t x.val).published = (sess s x.val).published ∧
        rdn t (Reg.RXE_CNT 4) = min (rdn s (Reg.RXE_CNT 4) + 1) 0xFFFFFFFF)) ∧
  (∀ (x : Fin 1024) (im : InImage) (k : Nat) (s : State),
      rxeReceives s = true →
      (sess s x.val).waiting = some im →
      inFree s x.val = some k →
      sState s x.val ≠ 4 →
      imageCurrent s x.val im = true →
      scaleErr s x.val = false →
      Permitted s (publishInput s x.val k im) →
      Completes (.imagePublish x) s (fun t => (sess t x.val).waiting = none ∧ (sState t x.val = 3 ∨ sState t x.val = 4) ∧
        (sState t x.val = 3 → (sess t x.val).published = some k ∧ rdn t (Reg.SRX_SEQ x.val) = im.seq % 2 ^ 32 ∧ rdn t (Reg.SGEN x.val) = im.generation % 2 ^ 32) ∧
        KeepsBlocks [0x17, 0x20, 0x23, 0x35, 0x50, 0x70, 0xa0, 0xb0, 0xf0, 0x110] s t ∧
        t = { s with free := t.free, regs := t.regs, mem := t.mem, cleRam := t.cleRam, canRam := t.canRam, arb := t.arb, cle := t.cle, ecc := t.ecc, memSys := t.memSys, mmu := t.mmu, rxe := t.rxe, safe := t.safe, mirror := t.mirror, agl := t.agl, keys := t.keys }))

/-- Where no memory access made is a host error: a GOOD session whose age exceeds its period becomes STALE and a STALE one LOST after its time-out with INT_RAW bit 1, each SUSPENDED instead where its scaling table cannot be read. The freeze point due first moves the mark of its session past it. The frame decided next leaves the prepared frames, and then those that wait are served: of a SUSPENDED or DISABLED session nothing else happens; a late one counts in RXE_CNT[9] and sets INT_RAW bit 6, with OUT_HELD where its session is LOST; one of a LOST session that is in time sets OUT_HELD; one in time of a GOOD or STALE session goes to the transmit queue of its port, or is discarded with its slot freed where the port is not enabled. RXE_CQ_HEAD, RXE_TXQ_TAIL and RXE_FREE_RET take valid indices; a returned buffer that firmware holds is free again. REQUEST_TAKE moves the head of the ring on (or RXE stops), does nothing where the ring is empty and nothing waits, and a retransmission time-out completes. (R146, R148, R149, R151, R160, R162, R163) -/
def Obligations.StationTimingAndRequests : Prop :=
  (∀ (x : Fin 1024) (s : State),
      freezeFirst s x.val = true →
      Permitted s (rxeServe (showMissed (prepareOut (setSess s x.val (fun k => { k with freezeFrom := nextLaunch s x.val - tickNs + 1 })) x.val 2 (nextLaunch s x.val)) x.val)) →
      Completes (.freezePoint x) s (fun t => (sess t x.val).freezeFrom = nextLaunch s x.val - tickNs + 1 ∧
        KeepsBlocks [0x17, 0x20, 0x23, 0x35, 0x50, 0x70, 0xa0, 0xb0, 0xf0, 0x110] s t ∧
        t = { s with free := t.free, regs := t.regs, mem := t.mem, cleRam := t.cleRam, canRam := t.canRam, arb := t.arb, cle := t.cle, ecc := t.ecc, memSys := t.memSys, mmu := t.mmu, rxe := t.rxe, mirror := t.mirror, agl := t.agl, keys := t.keys })) ∧
  (∀ (x : Fin 1024) (f : OutFrame) (s : State),
      rxeSends s = true →
      decisionFrame s = some f →
      f.session = x.val →
      sState s x.val = 0 ∨ sState s x.val = 4 →
      Permitted s (rxeServe (dropFrames s (fun g => g == f))) →
      Completes (.decisionPoint x) s (fun t => t = rxeServe (dropFrames s (fun g => g == f)))) ∧
  (∀ (x : Fin 1024) (f : OutFrame) (s : State),
      rxeSends s = true →
      decisionFrame s = some f →
      f.session = x.val →
      f.late = true →
      sState s x.val = 1 ∨ sState s x.val = 2 ∨ sState s x.val = 3 →
      Permitted s (rxeServe (decideFrame s f)) →
      Completes (.decisionPoint x) s (fun t => ∃ u, t = rxeServe u ∧
        u.rxe = (dropFrames s (fun g => g == f)).rxe ∧ rdn u (Reg.RXE_CNT 9) = min (rdn s (Reg.RXE_CNT 9) + 1) 0xFFFFFFFF ∧ bitAt (rd u (Reg.INT_RAW 0x50)) 6 = true ∧
        (sState s x.val = 1 → flag u (Reg.SSTAT x.val) F.SSTAT_OUT_HELD = true) ∧
        KeepsRegs [Reg.RXE_CNT 9, Reg.INT_RAW 0x50, Reg.SSTAT x.val] s u ∧ u = { s with regs := u.regs, rxe := u.rxe })) ∧
  (∀ (x : Fin 1024) (f : OutFrame) (s : State),
      rxeSends s = true →
      decisionFrame s = some f →
      f.session = x.val →
      f.late = false →
      sState s x.val = 1 →
      Permitted s (rxeServe (decideFrame s f)) →
      Completes (.decisionPoint x) s (fun t => ∃ u, t = rxeServe u ∧
        u.rxe = (dropFrames s (fun g => g == f)).rxe ∧ flag u (Reg.SSTAT x.val) F.SSTAT_OUT_HELD = true ∧
        KeepsRegs [Reg.SSTAT x.val] s u ∧ u = { s with regs := u.regs, rxe := u.rxe })) ∧
  (∀ (x : Fin 1024) (f : OutFrame) (s : State),
      rxeSends s = true →
      decisionFrame s = some f →
      f.session = x.val →
      f.late = false →
      sState s x.val = 2 ∨ sState s x.val = 3 →
      pageEn s (portPage (xPort s x.val)) = true →
      Permitted s (rxeServe (decideFrame s f)) →
      Completes (.decisionPoint x) s (fun t => ∃ u, t = rxeServe u ∧ f ∉ u.rxe.prepared ∧ f.slot ∈ u.rxe.busySlots ∧ (∃ g ∈ queueOf u (xPort s x.val) (xQueue s x.val), g.slot = some f.slot ∧ g.bytes = f.bytes ∧ g.launch = some f.launch) ∧
        KeepsBlocks [0x17, 0x20, 0x23, 0x35, 0x50, 0xa0, 0xb0, 0xd0, 0xf0, 0x110] s t ∧
        t = { s with free := t.free, regs := t.regs, mem := t.mem, cleRam := t.cleRam, canRam := t.canRam, arb := t.arb, ecc := t.ecc, memSys := t.memSys, mmu := t.mmu, rxe := t.rxe, mirror := t.mirror, agl := t.agl, keys := t.keys, eth := t.eth, handed := t.handed })) ∧
  (∀ (x : Fin 1024) (f : OutFrame) (s : State),
      rxeSends s = true →
      decisionFrame s = some f →
      f.session = x.val →
      f.late = false →
      sState s x.val = 2 ∨ sState s x.val = 3 →
      pageEn s (portPage (xPort s x.val)) = false →
      Permitted s (rxeServe (decideFrame s f)) →
      Completes (.decisionPoint x) s (fun t => ∃ u, t = rxeServe u ∧ f ∉ u.rxe.prepared ∧ u.rxe.busySlots = (s.rxe.busySlots ++ [f.slot]).erase f.slot ∧ u.handed = s.handed ∧
        KeepsBlocks [0x17, 0x20, 0x23, 0x35, 0x50, 0xa0, 0xb0, 0xd0, 0xf0, 0x110] s t ∧
        t = { s with free := t.free, regs := t.regs, mem := t.mem, cleRam := t.cleRam, canRam := t.canRam, arb := t.arb, ecc := t.ecc, memSys := t.memSys, mmu := t.mmu, rxe := t.rxe, mirror := t.mirror, agl := t.agl, keys := t.keys, eth := t.eth, handed := t.handed })) ∧
  (∀ (x : Fin 1024) (s : State),
      rxeReceives s = true →
      sState s x.val = 3 →
      ageExceeds s x.val (xPeriod s x.val) = true →
      Permitted s (showMissed (changeState s x.val 2) x.val) →
      Completes (.sessionStale x) s (fun t => (sState t x.val = 2 ∨ sState t x.val = 4) ∧
        KeepsBlocks [0x17, 0x20, 0x23, 0x35, 0x50, 0x70, 0xa0, 0xb0, 0x110] s t ∧
        t = { s with free := t.free, regs := t.regs, mem := t.mem, cleRam := t.cleRam, canRam := t.canRam, arb := t.arb, cle := t.cle, ecc := t.ecc, memSys := t.memSys, mmu := t.mmu, rxe := t.rxe, mirror := t.mirror, agl := t.agl })) ∧
  (∀ (x : Fin 1024) (s : State),
      rxeReceives s = true →
      sState s x.val = 2 →
      ageExceeds s x.val (xTmo s x.val * xPeriod s x.val) = true →
      Permitted s (showMissed (raise (changeState s x.val 1) 0x50 1) x.val) →
      Completes (.sessionLost x) s (fun t => (sState t x.val = 1 ∨ sState t x.val = 4) ∧ bitAt (rd t (Reg.INT_RAW 0x50)) 1 = true ∧
        KeepsBlocks [0x17, 0x20, 0x23, 0x35, 0x50, 0x70, 0xa0, 0xb0, 0x110] s t ∧
        t = { s with free := t.free, regs := t.regs, mem := t.mem, cleRam := t.cleRam, canRam := t.canRam, arb := t.arb, cle := t.cle, ecc := t.ecc, memSys := t.memSys, mmu := t.mmu, rxe := t.rxe, mirror := t.mirror, agl := t.agl })) ∧
  (∀ (ini : Fin 16) (value : Word) (s : State),
      Reachable s ini 0x50 0x78 →
      value.toNat < 4096 →
      (value.toNat + 4096 - cqHead s) % 4096 ≤ cqUsed s →
      Permitted s (cqConsume (granted s ini) value) →
      Completes (.rxeCqHeadWrite ini value) s (fun t => rd t Reg.RXE_CQ_HEAD = value ∧
        KeepsBlocks [0x17, 0x20, 0x23, 0x35, 0x50, 0xa0, 0xb0, 0xf0, 0x110] s t ∧
        t = { s with free := t.free, regs := t.regs, mem := t.mem, cleRam := t.cleRam, canRam := t.canRam, arb := t.arb, ecc := t.ecc, memSys := t.memSys, mmu := t.mmu, rxe := t.rxe, mirror := t.mirror, agl := t.agl, keys := t.keys })) ∧
  (∀ (ini : Fin 16) (value : Word) (s : State),
      Reachable s ini 0x50 0x88 →
      value.toNat < 2048 →
      poolOwner s value.toNat = 3 ∨ poolOwner s value.toNat = 4 →
      Completes (.rxeFreeRetWrite ini value) s (fun t => poolOwner t value.toNat = 0 ∧ (∀ i, i ≠ value.toNat → poolOwner t i = poolOwner s i) ∧
        KeepsRegs [Reg.RXE_POOL_FREE] s t ∧ t = { s with regs := t.regs, arb := t.arb, rxe := t.rxe })) ∧
  (∀ (ini : Fin 16) (value : Word) (s : State),
      Reachable s ini 0x50 0x80 →
      value.toNat < 512 →
      (value.toNat + 512 - txqHead s) % 512 ≤ 256 →
      Completes (.rxeTxqTailWrite ini value) s (fun t => rd t Reg.RXE_TXQ_TAIL = value ∧ KeepsRegs [Reg.RXE_TXQ_TAIL] s t ∧ t = { s with regs := t.regs, arb := t.arb })) ∧
  (∀ (s : State),
      rxeSends s = true →
      txqHead s = txqTail s →
      s.rxe.requests = [] →
      s.rxe.drafts = [] →
      Completes .requestTake s (fun t => t = s)) ∧
  (∀ (s : State),
      rxeSends s = true →
      txqHead s ≠ txqTail s →
      s.rxe.requests.length < 64 →
      requestErr s = false →
      Permitted s (takeRequest s) →
      Completes .requestTake s (fun t =>
        (fld t Reg.RXE_TXQ_HEAD F.RXE_TXQ_HEAD_IDX = (txqHead s + 1) % 512 ∨ t.rxe.stopped = true) ∧
        KeepsBlocks [0x17, 0x20, 0x23, 0x35, 0x50, 0xa0, 0xb0, 0xf0, 0x110] s t ∧
        t = { s with free := t.free, regs := t.regs, mem := t.mem, cleRam := t.cleRam, canRam := t.canRam, arb := t.arb, ecc := t.ecc, memSys := t.memSys, mmu := t.mmu, rxe := t.rxe, mirror := t.mirror, agl := t.agl, keys := t.keys })) ∧
  (∀ (x : Fin 1024) (s : State),
      rxeSends s = true →
      retryDue s x.val = true →
      Permitted s (retry s x.val) →
      Completes (.retransmissionTimeout x) s (fun t =>
        KeepsBlocks [0x17, 0x20, 0x23, 0x35, 0x50, 0xa0, 0xb0, 0xf0, 0x110] s t ∧
        t = { s with free := t.free, regs := t.regs, mem := t.mem, cleRam := t.cleRam, canRam := t.canRam, arb := t.arb, ecc := t.ecc, memSys := t.memSys, mmu := t.mmu, rxe := t.rxe, mirror := t.mirror, agl := t.agl, keys := t.keys }))

/-- While the port of the cores is free in the present CLK_CLE cycle: a write of a signal-window word whose writer bit is 0 is discarded and increments the denied-write counter, and CLE RAM and the writes of the cycle, which settle the tie of R36, are as before; a permitted one sets VALUE and QUAL of the signal and its last-write time to the present MONO, provided no other class wrote the signal in the same cycle. A write that finds its port taken waits in the queue of the table. In the operation that each of the four classes goes through for a write, and where a waiting write leaves the queue, a write whose bit is 0 is discarded and counted alike. Writing QUAL 0b11 is a host error. (R11) -/
def Obligations.SignalTableWrites : Prop :=
  (∀ (ini : Fin 16) (g : Fin 4096) (value : Word) (s : State),
      Reachable s ini (0x78 + g.val / 512) (0x40 + 4 * (g.val % 512)) →
      fieldGet F.CLE_SIG_QUAL value ≠ 3 →
      value &&& 0xFF0C0000#32 = 0 →
      portUsed s 0 = false →
      (∀ q ∈ s.cle.queued, q.cls ≠ 0) →
      (sigMask s g.val).testBit 0 = false →
      Completes (.signalWindowWrite ini g value) s (fun t =>
        fld t Reg.CLE_DENIED F.CLE_DENIED_COUNT = min (fld s Reg.CLE_DENIED F.CLE_DENIED_COUNT + 1) (2 ^ F.CLE_DENIED_COUNT.width - 1) ∧
        bitAt (rd t (Reg.INT_RAW 0x70)) 1 = true ∧ sigWritesNow t = sigWritesNow s ∧ KeepsRegs [Reg.CLE_DENIED, Reg.INT_RAW 0x70] s t ∧ t = { s with regs := t.regs, arb := t.arb, cle := t.cle })) ∧
  (∀ (ini : Fin 16) (g : Fin 4096) (value : Word) (s : State),
      Reachable s ini (0x78 + g.val / 512) (0x40 + 4 * (g.val % 512)) →
      fieldGet F.CLE_SIG_QUAL value ≠ 3 →
      value &&& 0xFF0C0000#32 = 0 →
      portUsed s 0 = false →
      (∀ q ∈ s.cle.queued, q.cls ≠ 0) →
      (sigMask s g.val).testBit 0 = true →
      (∀ w ∈ sigWritesNow s, w.signal ≠ g.val) →
      Completes (.signalWindowWrite ini g value) s (fun t =>
        sigValue t g.val = fieldGet F.CLE_SIG_VALUE value ∧ sigQual t g.val = fieldGet F.CLE_SIG_QUAL value ∧ sigMask t g.val = sigMask s g.val ∧
        sigTime t g.val = monoNs s % 2 ^ 64 ∧
        KeepsBlocks [0x20, 0x23, 0x70, 0x110] s t ∧
        t = { s with regs := t.regs, cleRam := t.cleRam, arb := t.arb, cle := t.cle, ecc := t.ecc, memSys := t.memSys, agl := t.agl })) ∧
  (∀ (ini : Fin 16) (g : Fin 4096) (value : Word) (s : State),
      Reachable s ini (0x78 + g.val / 512) (0x40 + 4 * (g.val % 512)) →
      fieldGet F.CLE_SIG_QUAL value ≠ 3 →
      value &&& 0xFF0C0000#32 = 0 →
      (portUsed s 0 = true ∨ ∃ q ∈ s.cle.queued, q.cls = 0) →
      Completes (.signalWindowWrite ini g value) s (fun t =>
        t = { s with arb := t.arb, cle := { s.cle with queued := s.cle.queued ++ [{ cls := 0, signal := g.val, value := some (fieldGet F.CLE_SIG_VALUE value), qual := fieldGet F.CLE_SIG_QUAL value }] } })) ∧
  (∀ (cls : Nat) (g : Nat) (value : Option Nat) (q : Nat) (s : State),
      cls < 4 →
      (sigMask s g).testBit cls = false →
      fld (sigIssue s cls g value q) Reg.CLE_DENIED F.CLE_DENIED_COUNT = min (fld s Reg.CLE_DENIED F.CLE_DENIED_COUNT + 1) (2 ^ F.CLE_DENIED_COUNT.width - 1) ∧ (sigIssue s cls g value q).cleRam = s.cleRam ∧ sigWritesNow (sigIssue s cls g value q) = sigWritesNow s ∧ KeepsRegs [Reg.CLE_DENIED, Reg.INT_RAW 0x70] s (sigIssue s cls g value q)) ∧
  (∀ (cls : Nat) (q : SigRequest) (s : State),
      cls < 4 →
      s.cle.queued.find? (fun q => q.cls == cls) = some q →
      (sigMask s q.signal).testBit cls = false →
      fld (portDrain s cls) Reg.CLE_DENIED F.CLE_DENIED_COUNT = min (fld s Reg.CLE_DENIED F.CLE_DENIED_COUNT + 1) (2 ^ F.CLE_DENIED_COUNT.width - 1) ∧ (portDrain s cls).cleRam = s.cleRam ∧ sigWritesNow (portDrain s cls) = sigWritesNow s ∧ (portDrain s cls).cle.queued = s.cle.queued.erase q ∧ KeepsRegs [Reg.CLE_DENIED, Reg.INT_RAW 0x70] s (portDrain s cls)) ∧
  (∀ (ini : Fin 16) (g : Fin 4096) (value : Word) (s : State),
      Reachable s ini (0x78 + g.val / 512) (0x40 + 4 * (g.val % 512)) →
      fieldGet F.CLE_SIG_QUAL value = 3 →
      exec (.signalWindowWrite ini g value) s = .fault (.hostError 12))

/-- A tick that is due, in which no loop's descriptor breaks its rules, writes its number to CLE_TICK and schedules the next one 100 us later; with such a descriptor it is a host error. A pin without samples left expires: PIN_ACT and SCHED_DISAGREE clear, INT_RAW bit 4 is set, and PIN_EN clears too unless software wrote LCTL in the same cycle. LCTL takes a permitted value, after an expiry that was due. A read of CLE RAM answers the 32-bit word at ADDR where that holds no error, and sets INT_RAW bit 5 where the error is uncorrectable; a permitted write of a legal word stores it; ADDR advances by 4 under INC. CLE_GCMD makes GSTAT busy, and the copy puts the staged words and the command into the pending slot of the loop and clears BUSY. (R167, R168, R169, R174, R176, R182, R191, R193) -/
def Obligations.LoopEngineCommands : Prop :=
  (∀ (t0 : Nat) (stalls : List Nat) (s : State),
      s.cle.nextTick = some t0 →
      t0 ≤ monoNs s →
      held s = false →
      domainUp s 4 = true →
      tickErr s (t0 / 100000) = none →
      Completes (.cleTick stalls) s (fun t =>
        t.cle.nextTick = some ((t0 / 100000 + 1) * 100000) ∧ rd64 t Reg.CLE_TICK_LO Reg.CLE_TICK_HI = t0 / 100000 % 2 ^ 64 ∧
        KeepsBlocks [0x10, 0x20, 0x23, 0x70, 0x80, 0xb0, 0x110] s t ∧
        t = { s with free := t.free, regs := t.regs, mem := t.mem, cleRam := t.cleRam, canRam := t.canRam, start := t.start, cle := t.cle, ecc := t.ecc, memSys := t.memSys, mxe := t.mxe, rxe := t.rxe, mirror := t.mirror, agl := t.agl })) ∧
  (∀ (t0 : Nat) (n : Nat) (stalls : List Nat) (s : State),
      s.cle.nextTick = some t0 →
      t0 ≤ monoNs s →
      held s = false →
      domainUp s 4 = true →
      tickErr s (t0 / 100000) = some n →
      exec (.cleTick stalls) s = .fault (.hostError n)) ∧
  (∀ (l : Fin 256) (s : State),
      pinExpired s l.val = true →
      domainUp s 4 = true →
      Completes (.pinExpire l) s (fun t =>
        (swWritten s (Reg.LCTL l.val) = none → flag t (Reg.LCTL l.val) F.LCTL_PIN_EN = false) ∧ (swWritten s (Reg.LCTL l.val) ≠ none → rd t (Reg.LCTL l.val) = rd s (Reg.LCTL l.val)) ∧
        flag t (Reg.LSTAT l.val) F.LSTAT_PIN_ACT = false ∧ flag t (Reg.LSTAT l.val) F.LSTAT_SCHED_DISAGREE = false ∧ bitAt (rd t (Reg.INT_RAW 0x70)) 4 = true ∧ pinExpired t l.val = false ∧
        KeepsRegs [Reg.LCTL l.val, Reg.LSTAT l.val, Reg.INT_RAW 0x70] s t ∧ t = { s with regs := t.regs, cle := t.cle })) ∧
  (∀ (ini : Fin 16) (l : Fin 256) (value : Word) (s : State),
      Reachable s ini (0x72 + l.val / 64) (0x40 + 16 * (l.val % 64)) →
      value &&& 0x0000F8EC#32 = 0 →
      fieldGet F.LCTL_MODE value ≠ 3 →
      fieldGet F.LCTL_PIN_REG value < dRegions s l.val →
      Completes (.lctlWrite ini l value) s (fun t =>
        rd t (Reg.LCTL l.val) = value ∧ (fieldGet F.LCTL_MODE value ≠ 0 → l.val ∉ t.cle.ueHold) ∧ (fieldGet F.LCTL_MODE value = 0 → t.cle.ueHold = s.cle.ueHold) ∧
        pinExpired t l.val = false ∧ (pinExpired s l.val = false → KeepsRegs [Reg.LCTL l.val] s t) ∧
        KeepsRegs [Reg.LCTL l.val, Reg.LSTAT l.val, Reg.INT_RAW 0x70] s t ∧ t = { s with regs := t.regs, arb := t.arb, swWrites := t.swWrites, cle := t.cle })) ∧
  (∀ (ini : Fin 16) (s : State),
      Reachable s ini 0x70 0x60 →
      eccFind s (cleEcc + fld s Reg.CLE_RAM_ADDR F.CLE_RAM_ADDR_ADDR / 8 * 8) = .clean →
      Completes (.cleRamDataAccess ini none) s (fun t =>
        t.rdata = [BitVec.ofNat 32 (cleRd s (fld s Reg.CLE_RAM_ADDR F.CLE_RAM_ADDR_ADDR) 4)] ∧
        fld t Reg.CLE_RAM_ADDR F.CLE_RAM_ADDR_ADDR = (fld s Reg.CLE_RAM_ADDR F.CLE_RAM_ADDR_ADDR + (if flag s Reg.CLE_RAM_ADDR F.CLE_RAM_ADDR_INC then 4 else 0)) % 2 ^ F.CLE_RAM_ADDR_ADDR.width ∧
        KeepsRegs [Reg.CLE_RAM_ADDR] s t ∧ t = { s with regs := t.regs, arb := t.arb, rdata := t.rdata })) ∧
  (∀ (ini : Fin 16) (s : State),
      Reachable s ini 0x70 0x60 →
      eccFind s (cleEcc + fld s Reg.CLE_RAM_ADDR F.CLE_RAM_ADDR_ADDR / 8 * 8) = .uncorrectable →
      Completes (.cleRamDataAccess ini none) s (fun t =>
        t.rdata.length = 1 ∧ bitAt (rd t (Reg.INT_RAW 0x70)) 5 = true ∧ t.cleRam = s.cleRam ∧ t.cle = s.cle)) ∧
  (∀ (ini : Fin 16) (w : Word) (s : State),
      Reachable s ini 0x70 0x60 →
      cleRamWritable s (fld s Reg.CLE_RAM_ADDR F.CLE_RAM_ADDR_ADDR) = true →
      cleWordErr (fld s Reg.CLE_RAM_ADDR F.CLE_RAM_ADDR_ADDR) w = none →
      Completes (.cleRamDataAccess ini (some w)) s (fun t =>
        cleRd t (fld s Reg.CLE_RAM_ADDR F.CLE_RAM_ADDR_ADDR) 4 = w.toNat ∧ (∀ a, a < fld s Reg.CLE_RAM_ADDR F.CLE_RAM_ADDR_ADDR ∨ fld s Reg.CLE_RAM_ADDR F.CLE_RAM_ADDR_ADDR + 4 ≤ a → mget 0 t.cleRam a = mget 0 s.cleRam a) ∧
        KeepsBlocks [0x20, 0x23, 0x70, 0xb0, 0x110] s t ∧
        t = { s with free := t.free, rdata := t.rdata, regs := t.regs, mem := t.mem, cleRam := t.cleRam, canRam := t.canRam, arb := t.arb, ecc := t.ecc, memSys := t.memSys, rxe := t.rxe, mirror := t.mirror, agl := t.agl })) ∧
  (∀ (ini : Fin 16) (value : Word) (s : State),
      Reachable s ini 0x70 0x64 →
      value &&& 0xFFFFE800#32 = 0 →
      flag s Reg.CLE_GSTAT F.CLE_GSTAT_BUSY = false →
      Completes (.cleGcmd ini value) s (fun t =>
        flag t Reg.CLE_GSTAT F.CLE_GSTAT_BUSY = true ∧ t.cle = { s.cle with copying := some value } ∧
        KeepsRegs [Reg.CLE_GSTAT] s t ∧ t = { s with regs := t.regs, arb := t.arb, cle := t.cle })) ∧
  (∀ (cmd : Word) (s : State),
      s.cle.copying = some cmd →
      domainUp s 4 = true →
      Completes .gainCopyDone s (fun t =>
        flag t Reg.CLE_GSTAT F.CLE_GSTAT_BUSY = false ∧ t.cle.copying = none ∧ pendingGain t (fieldGet F.CLE_GCMD_LOOP cmd) = some (fieldGet F.CLE_GCMD_REGION cmd, fieldGet F.CLE_GCMD_BUMPLESS cmd == 1) ∧
        (∀ k, k < 7 → cleRd t (pndA (fieldGet F.CLE_GCMD_LOOP cmd) + 4 * k) 4 = rdn s (Reg.CLE_GSTAGE k)) ∧
        KeepsBlocks [0x20, 0x23, 0x70, 0x110] s t ∧
        t = { s with regs := t.regs, cleRam := t.cleRam, cle := t.cle, ecc := t.ecc, memSys := t.memSys, agl := t.agl }))

/-- An enabled Prism wakes its next lane group 10 us after the one before, the fourth setting INT_RAW bit 4. LOAD of an EMPTY slot whose area keeps the rules makes it LOADING; UNLOAD of a READY or FAILED slot without queued jobs makes it EMPTY. JOBQ_DOOR takes an index where no new entry's warm start is its slot's own published buffer with a job of the slot before it; CQ_HEAD takes one and the jobs whose records it passes leave the queue. CANCEL without GO has no effect, and with it marks the running or suspended jobs of the slot. Where no memory access made is a host error: a ring entry whose read faults halts Prism with INT_RAW bit 1; one that keeps R214 is held and JOBQ_HEAD advances; the record of a lone ended job is written, the job leaves the list, CQ_TAIL and JOBS_DONE advance and INT_RAW bit 0 is set, or Prism halts on a fault. (R45, R201, R206, R214, R215, R227, R231, R232) -/
def Obligations.PrismSlotsAndQueue : Prop :=
  (∀ (s : State),
      prismEn s = true →
      domainUp s 2 = true →
      fld s Reg.PRISM_STAT F.PRISM_STAT_AWAKE < 4 →
      s.prism.wakeAt ≤ s.now →
      Completes .laneGroupWake s (fun t =>
        fld t Reg.PRISM_STAT F.PRISM_STAT_AWAKE = fld s Reg.PRISM_STAT F.PRISM_STAT_AWAKE + 1 ∧ t.prism = { s.prism with wakeAt := s.now + 50000 } ∧
        (fld s Reg.PRISM_STAT F.PRISM_STAT_AWAKE = 3 → bitAt (rd t (Reg.INT_RAW 0x60)) 4 = true) ∧
        KeepsRegs [Reg.PRISM_STAT, Reg.INT_RAW 0x60] s t ∧ t = { s with regs := t.regs, prism := t.prism })) ∧
  (∀ (ini : Fin 16) (slot : Fin 8) (ctx : Fin 64) (s : State),
      Reachable s ini (0x62 + slot.val) 0x40 →
      slotState s slot.val = 0 →
      areaOk s slot.val = true →
      Completes (.prismLoad ini slot ctx) s (fun t =>
        slotState t slot.val = 1 ∧ flag t (Reg.PRISM_SLOT_STAT slot.val) F.PRISM_SLOT_STAT_HAS_FACTOR = false ∧ fld t (Reg.PRISM_SLOT_STAT slot.val) F.PRISM_SLOT_STAT_LOAD_ERR = 0 ∧
        pslot t slot.val = { load := some 1, loadCtx := ctx.val, named := [(rdn s (Reg.PRISM_SLOT_DESC_LO slot.val) + 2 ^ 32 * (rdn s (Reg.PRISM_SLOT_DESC_HI slot.val) % 256), 256)] } ∧ KeepsRegs [Reg.PRISM_SLOT_STAT slot.val] s t ∧ t = { s with regs := t.regs, arb := t.arb, prism := t.prism })) ∧
  (∀ (ini : Fin 16) (slot : Fin 8) (s : State),
      Reachable s ini (0x62 + slot.val) 0x40 →
      slotState s slot.val = 2 ∨ slotState s slot.val = 3 →
      fld s (Reg.PRISM_SLOT_STAT slot.val) F.PRISM_SLOT_STAT_QUEUED = 0 →
      Completes (.prismUnload ini slot) s (fun t =>
        slotState t slot.val = 0 ∧ flag t (Reg.PRISM_SLOT_STAT slot.val) F.PRISM_SLOT_STAT_HAS_FACTOR = false ∧ pslot t slot.val = {} ∧
        KeepsRegs [Reg.PRISM_SLOT_STAT slot.val, Reg.PRISM_FNZ_USED] s t ∧ t = { s with regs := t.regs, arb := t.arb, prism := t.prism })) ∧
  (∀ (ini : Fin 16) (value : Word) (s : State),
      Reachable s ini 0x61 0x40 →
      value.toNat < 128 →
      ownBufferErr s value.toNat = false →
      Completes (.prismJobqDoorWrite ini value) s (fun t => rd t Reg.PRISM_JOBQ_DOOR = value ∧ KeepsRegs [Reg.PRISM_JOBQ_DOOR] s t ∧ t = { s with regs := t.regs, arb := t.arb })) ∧
  (∀ (ini : Fin 16) (value : Word) (s : State),
      Reachable s ini 0x61 0x48 →
      value.toNat < 128 →
      Completes (.prismCqHeadWrite ini value) s (fun t =>
        rd t Reg.PRISM_CQ_HEAD = value ∧ t.prism = { s.prism with unread := s.prism.unread.drop ((value.toNat + 128 - fld s Reg.PRISM_CQ_HEAD F.PRISM_CQ_HEAD_IDX) % 128) } ∧
        KeepsRegs [Reg.PRISM_CQ_HEAD, Reg.PRISM_STAT, Reg.PRISM_SLOT_STAT 0, Reg.PRISM_SLOT_STAT 1, Reg.PRISM_SLOT_STAT 2, Reg.PRISM_SLOT_STAT 3, Reg.PRISM_SLOT_STAT 4, Reg.PRISM_SLOT_STAT 5, Reg.PRISM_SLOT_STAT 6, Reg.PRISM_SLOT_STAT 7] s t ∧ t = { s with regs := t.regs, arb := t.arb, prism := t.prism })) ∧
  (∀ (ini : Fin 16) (value : Word) (s : State),
      Reachable s ini 0x61 0x50 →
      value &&& 0xFFFFFEF8#32 = 0 →
      fieldGet F.PRISM_CANCEL_GO value = 0 →
      Completes (.prismCancel ini value) s (fun t => t = { s with arb := t.arb })) ∧
  (∀ (ini : Fin 16) (value : Word) (s : State),
      Reachable s ini 0x61 0x50 →
      value &&& 0xFFFFFEF8#32 = 0 →
      fieldGet F.PRISM_CANCEL_GO value = 1 →
      Completes (.prismCancel ini value) s (fun t =>
        (∀ j ∈ t.prism.jobs, j.slot = fieldGet F.PRISM_CANCEL_SLOT value → j.state = .running ∨ j.state = .suspended → j.cancel = true) ∧
        KeepsBlocks [0x60] s t ∧
        t = { s with regs := t.regs, arb := t.arb, prism := t.prism })) ∧
  (∀ (f : AccFault) (s : State),
      prismEn s = true →
      psqRuns s = true →
      fld s Reg.PRISM_JOBQ_HEAD F.PRISM_JOBQ_HEAD_IDX ≠ fld s Reg.PRISM_JOBQ_DOOR F.PRISM_JOBQ_DOOR_IDX →
      (heldJobs s).length < 64 →
      (vread s 2 (fld s Reg.PRISM_CFG F.PRISM_CFG_CTX) 0 (ringVa s (fld s Reg.PRISM_JOBQ_HEAD F.PRISM_JOBQ_HEAD_IDX)) 128).1 = .inl f →
      Permitted s (vread s 2 (fld s Reg.PRISM_CFG F.PRISM_CFG_CTX) 0 (ringVa s (fld s Reg.PRISM_JOBQ_HEAD F.PRISM_JOBQ_HEAD_IDX)) 128).2 →
      Completes .jobAccept s (fun t => prismHalted t = true ∧ t.prism = s.prism ∧ bitAt (rd t (Reg.INT_RAW 0x60)) 1 = true ∧
        KeepsBlocks [0x17, 0x20, 0x23, 0x35, 0x60, 0xa0, 0xb0, 0x110] s t ∧
        t = { s with free := t.free, regs := t.regs, mem := t.mem, cleRam := t.cleRam, canRam := t.canRam, arb := t.arb, ecc := t.ecc, memSys := t.memSys, mmu := t.mmu, prism := t.prism, rxe := t.rxe, mirror := t.mirror, agl := t.agl })) ∧
  (∀ (d : List Byte) (s : State),
      prismEn s = true →
      psqRuns s = true →
      fld s Reg.PRISM_JOBQ_HEAD F.PRISM_JOBQ_HEAD_IDX ≠ fld s Reg.PRISM_JOBQ_DOOR F.PRISM_JOBQ_DOOR_IDX →
      (heldJobs s).length < 64 →
      (vread s 2 (fld s Reg.PRISM_CFG F.PRISM_CFG_CTX) 0 (ringVa s (fld s Reg.PRISM_JOBQ_HEAD F.PRISM_JOBQ_HEAD_IDX)) 128).1 = .inr d →
      jobErr s d (jobOf d s.prism.nextSeq s.now) = false →
      Permitted s (vread s 2 (fld s Reg.PRISM_CFG F.PRISM_CFG_CTX) 0 (ringVa s (fld s Reg.PRISM_JOBQ_HEAD F.PRISM_JOBQ_HEAD_IDX)) 128).2 →
      Completes .jobAccept s (fun t => t.prism.jobs = s.prism.jobs ++ [jobOf d s.prism.nextSeq s.now] ∧ t.prism.nextSeq = s.prism.nextSeq + 1 ∧
        fld t Reg.PRISM_JOBQ_HEAD F.PRISM_JOBQ_HEAD_IDX = (fld s Reg.PRISM_JOBQ_HEAD F.PRISM_JOBQ_HEAD_IDX + 1) % 2 ^ F.PRISM_JOBQ_HEAD_IDX.width ∧
        KeepsBlocks [0x17, 0x20, 0x23, 0x35, 0x60, 0xa0, 0xb0, 0x110] s t ∧
        t = { s with free := t.free, regs := t.regs, mem := t.mem, cleRam := t.cleRam, canRam := t.canRam, arb := t.arb, ecc := t.ecc, memSys := t.memSys, mmu := t.mmu, prism := t.prism, rxe := t.rxe, mirror := t.mirror, agl := t.agl })) ∧
  (∀ (j : PrismJob) (status : Nat) (cause : Nat) (gen : Nat) (s : State),
      psqRuns s = true →
      held s = false →
      s.prism.jobs = [j] →
      j.state = .ended status cause gen →
      Permitted s (completeJob s j status cause gen) →
      Completes .completionRecord s (fun t =>
        (prismHalted t = true ∧ t.prism = s.prism ∨ t.prism = { s.prism with jobs := [], unread := s.prism.unread ++ [(j.slot, j.cls)] } ∧ bitAt (rd t (Reg.INT_RAW 0x60)) 0 = true ∧
        fld t Reg.PRISM_CQ_TAIL F.PRISM_CQ_TAIL_IDX = (fld s Reg.PRISM_CQ_TAIL F.PRISM_CQ_TAIL_IDX + 1) % 2 ^ F.PRISM_CQ_TAIL_IDX.width ∧
        rdn t Reg.PRISM_JOBS_DONE = min (rdn s Reg.PRISM_JOBS_DONE + 1) (2 ^ 32 - 1)) ∧
        KeepsBlocks [0x17, 0x20, 0x23, 0x35, 0x60, 0xa0, 0xb0, 0x110] s t ∧
        t = { s with free := t.free, regs := t.regs, mem := t.mem, cleRam := t.cleRam, canRam := t.canRam, arb := t.arb, ecc := t.ecc, memSys := t.memSys, mmu := t.mmu, prism := t.prism, rxe := t.rxe, mirror := t.mirror, agl := t.agl }))

/-- Where no memory access made is a host error: a load step of a slot that meets no PrismRAM error completes while PSQ is free and no job can start. The job chosen by R216 starts or resumes when PSQ is free and all four lane groups are awake: it runs, or has ended with a fault of its imports. The running job's segment boundary completes where its data keep R212, R213 and R219; a job with a cancel pending has then ended CANCELLED, outside the export and the write of the best iterate; and in its power-fail state Prism drops the job there. An export that meets no PrismRAM error ends the job. (R204, R216, R217, R218, R226, R231, R233) -/
def Obligations.PrismJobsRun : Prop :=
  (∀ (k : Nat) (n : Nat) (s : State),
      nextLoad s = some (k, n) →
      psqFree s = true →
      candidates s = [] →
      n ≠ 3 ∨ modelErr (pslot s k).desc (pslot s k).model = none →
      (prismRamHit s k).1 = none →
      Permitted s (loadStepAt (prismRamHit s k).2 k n) →
      Completes .loadStep s (fun t =>
        KeepsBlocks [0x17, 0x20, 0x23, 0x35, 0x60, 0xa0, 0xb0, 0x110] s t ∧
        t = { s with free := t.free, regs := t.regs, mem := t.mem, cleRam := t.cleRam, canRam := t.canRam, arb := t.arb, ecc := t.ecc, memSys := t.memSys, mmu := t.mmu, prism := t.prism, rxe := t.rxe, mirror := t.mirror, agl := t.agl })) ∧
  (∀ (j : PrismJob) (s : State),
      choose s (fun _ => true) = some j →
      psqFree s = true →
      fld s Reg.PRISM_STAT F.PRISM_STAT_AWAKE = 4 →
      j.state = .suspended →
      (∀ i ∈ s.prism.jobs, i.seq = j.seq → i = j) →
      Completes .jobStart s (fun t =>
        (∃ i ∈ t.prism.jobs, i.seq = j.seq ∧ i.state = .running ∧ i.run.phase = j.run.phase) ∧
        KeepsRegs [Reg.PRISM_STAT, Reg.PRISM_SLOT_STAT 0, Reg.PRISM_SLOT_STAT 1, Reg.PRISM_SLOT_STAT 2, Reg.PRISM_SLOT_STAT 3, Reg.PRISM_SLOT_STAT 4, Reg.PRISM_SLOT_STAT 5, Reg.PRISM_SLOT_STAT 6, Reg.PRISM_SLOT_STAT 7] s t ∧ t = { s with regs := t.regs, prism := t.prism })) ∧
  (∀ (j : PrismJob) (s : State),
      choose s (fun _ => true) = some j →
      psqFree s = true →
      fld s Reg.PRISM_STAT F.PRISM_STAT_AWAKE = 4 →
      j.state = .waiting →
      (∀ i ∈ s.prism.jobs, i.seq = j.seq → i = j) →
      Permitted s (startJob s j) →
      Completes .jobStart s (fun t =>
        (∃ i ∈ t.prism.jobs, i.seq = j.seq ∧ (i.state = .running ∨ ∃ c, i.state = .ended 3 c 0)) ∧
        KeepsBlocks [0x60] s t ∧
        t = { s with regs := t.regs, prism := t.prism })) ∧
  (∀ (j : PrismJob) (s : State),
      runningJob s = some j →
      j.run.phase ≠ .exporting →
      psqRuns s = true →
      held s = true →
      Completes .segmentBoundary s (fun t => (∀ i ∈ t.prism.jobs, i.seq ≠ j.seq) ∧
        KeepsBlocks [0x17, 0x20, 0x23, 0x35, 0x60, 0xa0, 0xb0, 0x110] s t ∧
        t = { s with free := t.free, regs := t.regs, mem := t.mem, cleRam := t.cleRam, canRam := t.canRam, arb := t.arb, ecc := t.ecc, memSys := t.memSys, mmu := t.mmu, prism := t.prism, rxe := t.rxe, mirror := t.mirror, agl := t.agl })) ∧
  (∀ (j : PrismJob) (s : State),
      runningJob s = some j →
      j.run.phase ≠ .exporting →
      psqRuns s = true →
      held s = false →
      j.cancel = false →
      (prismRamHit (noteSegment s j.run) j.slot).1 = none →
      boundaryErr (prismRamHit (noteSegment s j.run) j.slot).2 j = none →
      Permitted s (phaseEnd (prismRamHit (noteSegment s j.run) j.slot).2 j) →
      Completes .segmentBoundary s (fun t =>
        KeepsBlocks [0x17, 0x20, 0x23, 0x35, 0x60, 0xa0, 0xb0, 0x110] s t ∧
        t = { s with free := t.free, regs := t.regs, mem := t.mem, cleRam := t.cleRam, canRam := t.canRam, arb := t.arb, ecc := t.ecc, memSys := t.memSys, mmu := t.mmu, prism := t.prism, rxe := t.rxe, mirror := t.mirror, agl := t.agl })) ∧
  (∀ (j : PrismJob) (s : State),
      runningJob s = some j →
      j.run.phase ≠ .exporting →
      j.run.phase ≠ .bestWrite →
      psqRuns s = true →
      held s = false →
      j.cancel = true →
      (prismRamHit (noteSegment s j.run) j.slot).1 = none →
      boundaryErr (prismRamHit (noteSegment s j.run) j.slot).2 j = none →
      Completes .segmentBoundary s (fun t => (∃ i ∈ t.prism.jobs, i.seq = j.seq ∧ i.state = .ended 4 0 0) ∧
        KeepsBlocks [0x17, 0x20, 0x23, 0x35, 0x60, 0xa0, 0xb0, 0x110] s t ∧
        t = { s with free := t.free, regs := t.regs, mem := t.mem, cleRam := t.cleRam, canRam := t.canRam, arb := t.arb, ecc := t.ecc, memSys := t.memSys, mmu := t.mmu, prism := t.prism, rxe := t.rxe, mirror := t.mirror, agl := t.agl })) ∧
  (∀ (j : PrismJob) (s : State),
      runningJob s = some j →
      j.run.phase = .exporting →
      psqRuns s = true →
      held s = false →
      (prismRamHit (noteSegment s j.run) j.slot).1 = none →
      Permitted s (prismQuiet (publishJob (prismRamHit (noteSegment s j.run) j.slot).2 j)) →
      Completes .prismPublish s (fun t => (∃ i ∈ t.prism.jobs, i.seq = j.seq ∧ ∃ e c g, i.state = .ended e c g) ∧
        KeepsBlocks [0x17, 0x20, 0x23, 0x35, 0x60, 0xa0, 0xb0, 0x110] s t ∧
        t = { s with free := t.free, regs := t.regs, mem := t.mem, cleRam := t.cleRam, canRam := t.canRam, arb := t.arb, ecc := t.ecc, memSys := t.memSys, mmu := t.mmu, prism := t.prism, rxe := t.rxe, mirror := t.mirror, agl := t.agl }))

/-- A read of an accumulator's LO register answers it and latches the two upper words of the accumulator into MID and HI. Where no memory access made is a host error, a checkpoint in writing that completes ends BUSY and sets INT_RAW bit 1. CKPT_NOW leaves a checkpoint due at the next commit and nothing else. RESTORE with EN 0 and no valid set leaves every accumulator 0 and sets RESTORE_FAIL; with a valid set it sets RESTORED. (R251, R266, R267) -/
def Obligations.MeteringCheckpointCommands : Prop :=
  (∀ (i : Fin 304) (s : State),
      pageErr s (if i.val < 192 then 0x92 else 0x93) (accLoReg i.val % 0x1000) = none →
      Completes (.accumulatorLoRead i) s (fun t =>
        t.rdata = [rd s (accLoReg i.val)] ∧ rd t (accLoReg i.val) = rd s (accLoReg i.val) ∧ rd t (accMidReg i.val) = BitVec.ofNat 32 (accOf s i.val / 2 ^ 64) ∧ rd t (accHiReg i.val) = BitVec.ofNat 32 (accOf s i.val / 2 ^ 96) ∧
        KeepsRegs [accMidReg i.val, accHiReg i.val] s t ∧ t = { s with regs := t.regs, rdata := t.rdata })) ∧
  (∀ (a : Nat) (h : List Byte) (s : State),
      s.mtr.ckpt = some (a, h) →
      mtrLive s = true →
      Permitted s (ckptEnd s a h) →
      Completes .checkpointComplete s (fun t =>
        t.mtr = { s.mtr with ckpt := none } ∧ flag t Reg.MTR_CKPT_STAT F.MTR_CKPT_STAT_BUSY = false ∧ bitAt (rd t (Reg.INT_RAW 0x90)) 1 = true ∧
        KeepsBlocks [0x20, 0x23, 0x90, 0xa0, 0xb0, 0x110] s t ∧
        t = { s with free := t.free, regs := t.regs, mem := t.mem, cleRam := t.cleRam, canRam := t.canRam, arb := t.arb, ecc := t.ecc, memSys := t.memSys, mtr := t.mtr, rxe := t.rxe, mirror := t.mirror, agl := t.agl })) ∧
  (∀ (ini : Fin 16) (s : State),
      Reachable s ini 0x90 0x64 →
      Completes (.ckptNow ini) s (fun t => t.mtr = { s.mtr with ckptNow := true } ∧ t = { s with arb := t.arb, mtr := t.mtr })) ∧
  (∀ (ini : Fin 16) (s : State),
      Reachable s ini 0x90 0x64 →
      mtrEn s = false →
      ckptNewest s = none →
      Permitted s (ckptRestore (granted s ini)) →
      Completes (.mtrRestore ini) s (fun t =>
        (∀ i < 304, accOf t i = 0) ∧ flag t Reg.MTR_STAT F.MTR_STAT_RESTORED = false ∧ flag t Reg.MTR_STAT F.MTR_STAT_RESTORE_FAIL = true ∧
        KeepsBlocks [0x90] s t ∧
        t = { s with regs := t.regs, arb := t.arb, mtr := t.mtr })) ∧
  (∀ (ini : Fin 16) (k : Nat) (s : State),
      Reachable s ini 0x90 0x64 →
      mtrEn s = false →
      ckptNewest s = some k →
      Permitted s (ckptRestore (granted s ini)) →
      Completes (.mtrRestore ini) s (fun t =>
        (∀ i < 304, accOf t i = rdLE s (ckptAt s k + 0x40 + 12 * i) 12 * 2 ^ 32) ∧ (∀ i < 8, pulseDebt t i = rdLE s (ckptAt s k + 0xE80 + 4 * i) 2) ∧
        flag t Reg.MTR_STAT F.MTR_STAT_RESTORED = true ∧ flag t Reg.MTR_STAT F.MTR_STAT_RESTORE_FAIL = false ∧
        KeepsBlocks [0x90] s t ∧
        t = { s with regs := t.regs, arb := t.arb, mtr := t.mtr }))

/-- With MTR enabled and not running, the first block boundary that is due starts RUN. A block end that is due numbers the next block, keeps the ended one for its commit with the level of each direction input, and clears RUN where it was the last; while an ended block waits, or before its instant, nothing happens. Where no memory access made is a host error, the commit takes the ended block once the given modulator periods have passed and hold its samples, and after the last block ENABLED follows EN; records that wait are written and INT_RAW bit 0 is set. (R238, R242, R243, R256, R262) -/
def Obligations.MeteringBlocksAndRecords : Prop :=
  (∀ (dir : BitVec 16) (s : State),
      mtrLive s = true →
      s.mtr.ended = none →
      mtrRuns s = false →
      mtrEn s = true →
      flag s (Reg.PSTAT 0x90) F.PSTAT_ENABLED = true →
      s.mtr.blockEnd ≤ ptpNs s →
      Completes (.blockEnd dir) s (fun t =>
        mtrRuns t = true ∧ t.mtr.block = s.mtr.block + 1 ∧ t.mtr.acc = s.mtr.acc ∧ t.mtr.ended = none ∧ t.mtr.blockEnd = nextMultiple blockLen s.mtr.blockEnd ∧
        KeepsBlocks [0x90] s t ∧
        t = { s with free := t.free, regs := t.regs, mtr := t.mtr })) ∧
  (∀ (dir : BitVec 16) (s : State),
      mtrLive s = true →
      s.mtr.ended = none →
      mtrRuns s = true →
      s.mtr.stepped = true ∨ s.mtr.blockEnd ≤ ptpNs s →
      Completes (.blockEnd dir) s (fun t =>
        (∃ b, t.mtr.ended = some b ∧ b.last = s.mtr.stopping) ∧ t.mtr.block = s.mtr.block + 1 ∧ t.mtr.acc = s.mtr.acc ∧ t.mtr.stepped = false ∧ mtrRuns t = !s.mtr.stopping ∧
        (∀ h < 16, (mflow t h).dirRevEnded = dirReverse s h (dir.getLsbD h) ∧ (mflow t h).fwdEnded = (mflow s h).fwd ∧ (mflow t h).revEnded = (mflow s h).rev) ∧
        KeepsRegs [Reg.MTR_STAT] s t ∧ t = { s with regs := t.regs, mtr := t.mtr })) ∧
  (∀ (dir : BitVec 16) (s : State),
      s.mtr.ended ≠ none ∨ (mtrRuns s = true ∧ s.mtr.stepped = false ∧ ptpNs s < s.mtr.blockEnd) →
      Completes (.blockEnd dir) s (fun t => t = s)) ∧
  (∀ (bits : List (BitVec 28)) (b : MtrBlock) (s : State),
      s.mtr.ended = some b →
      mtrLive s = true →
      periodsDue s bits = true →
      b.samples ≤ (mtrFeed s bits).mtr.rows.length →
      Permitted s (commitBlock (mtrFeed s bits) b) →
      Completes (.blockCommit bits) s (fun t =>
        t.mtr.ended = none ∧ (b.last = true → flag t (Reg.PSTAT 0x90) F.PSTAT_ENABLED = mtrEn s) ∧
        KeepsBlocks [0x20, 0x23, 0x70, 0x90, 0xa0, 0xb0, 0x110] s t ∧
        t = { s with free := t.free, regs := t.regs, mem := t.mem, cleRam := t.cleRam, canRam := t.canRam, arb := t.arb, cle := t.cle, ecc := t.ecc, memSys := t.memSys, mtr := t.mtr, rxe := t.rxe, mirror := t.mirror, agl := t.agl })) ∧
  (∀ (s : State),
      s.mtr.records ≠ [] →
      mtrLive s = true →
      Permitted s (recordsOut s) →
      Completes .intervalRecordsWritten s (fun t =>
        t.mtr = { s.mtr with records := [], seq := t.mtr.seq } ∧ bitAt (rd t (Reg.INT_RAW 0x90)) 0 = true ∧
        KeepsBlocks [0x20, 0x23, 0x90, 0xa0, 0xb0, 0x110] s t ∧
        t = { s with free := t.free, regs := t.regs, mem := t.mem, cleRam := t.cleRam, canRam := t.canRam, arb := t.arb, ecc := t.ecc, memSys := t.memSys, mtr := t.mtr, rxe := t.rxe, mirror := t.mirror, agl := t.agl }))

/-- While MTR runs: of modulator periods that have passed, the 64th without a transition of an enabled feeder's channel sets its STUCK bit and INT_RAW bit 6; periods that bring a pending band change to its point leave the channel in that band, with MTR_FBAND as it was; a flow edge of an enabled heat channel at least 40 us after the one before counts by the direction of the level; after 10 s without an edge the flow times out; the one read per block of an RTD in use keeps its code, or on bit 6 keeps the last one and counts it stale, and shows the converter and the five bytes sent. A pulse that is due starts and takes one from the debt, and ends after the width it started with. (R241, R247, R256, R257, R265) -/
def Obligations.MeteringInputsAndPulses : Prop :=
  (∀ (c : Fin 28) (bits : List (BitVec 28)) (s : State),
      mtrLive s = true →
      mtrRuns s = true →
      feedOn s (c.val / 7) = true →
      periodsDue s bits = true →
      bits ≠ [] →
      (mchan (mtrFeed s bits) c.val).held = 64 →
      Completes (.bitstreamStuck c bits) s (fun t =>
        (fld t (Reg.MTR_FSTAT (c.val / 7)) F.MTR_FSTAT_STUCK).testBit (c.val % 7) = true ∧ bitAt (rd t (Reg.INT_RAW 0x90)) 6 = true ∧ t.mtr.period = s.mtr.period + bits.length ∧
        KeepsRegs [Reg.MTR_FSTAT 0, Reg.MTR_FSTAT 1, Reg.MTR_FSTAT 2, Reg.MTR_FSTAT 3, Reg.INT_RAW 0x90] s t ∧ t = { s with regs := t.regs, mtr := t.mtr })) ∧
  (∀ (c : Fin 28) (bits : List (BitVec 28)) (b : Nat) (s : State),
      mtrLive s = true →
      mtrRuns s = true →
      periodsDue s bits = true →
      (mband s c.val).pending = some b →
      (mband (mtrFeed s bits) c.val).pending = none →
      Completes (.bandChange c bits) s (fun t =>
        (mband t c.val).band = b ∧ (mband t c.val).pending = none ∧ t.mtr.period = s.mtr.period + bits.length ∧
        KeepsRegs [Reg.MTR_FSTAT 0, Reg.MTR_FSTAT 1, Reg.MTR_FSTAT 2, Reg.MTR_FSTAT 3, Reg.INT_RAW 0x90] s t ∧ t = { s with regs := t.regs, mtr := t.mtr })) ∧
  (∀ (h : Fin 16) (level : Bool) (s : State),
      mtrRuns s = true →
      heatOn s h.val = true →
      mtrLive s = true →
      (∀ n ∈ (mflow s h.val).edgeAt, n + 40 * vcoUs ≤ s.now) →
      dirReverse s h.val level = true →
      Completes (.heatFlowEdge h level) s (fun t =>
        (mflow t h.val).rev = (mflow s h.val).rev + 1 ∧ (mflow t h.val).fwd = (mflow s h.val).fwd ∧ (mflow t h.val).dirRev = true ∧ (mflow t h.val).timedOut = false ∧ (mflow t h.val).edgeAt = some s.now ∧
        (∀ k, k ≠ h.val → mflow t k = mflow s k) ∧ t = { s with mtr := t.mtr })) ∧
  (∀ (h : Fin 16) (level : Bool) (s : State),
      mtrRuns s = true →
      heatOn s h.val = true →
      mtrLive s = true →
      (∀ n ∈ (mflow s h.val).edgeAt, n + 40 * vcoUs ≤ s.now) →
      dirReverse s h.val level = false →
      Completes (.heatFlowEdge h level) s (fun t =>
        (mflow t h.val).fwd = (mflow s h.val).fwd + 1 ∧ (mflow t h.val).rev = (mflow s h.val).rev ∧ (mflow t h.val).dirRev = false ∧ (mflow t h.val).timedOut = false ∧ (mflow t h.val).edgeAt = some s.now ∧
        (∀ k, k ≠ h.val → mflow t k = mflow s k) ∧ t = { s with mtr := t.mtr })) ∧
  (∀ (h : Fin 16) (e : Nat) (es : List Nat) (s : State),
      mtrRuns s = true →
      mtrLive s = true →
      (mflow s h.val).edges = e :: es →
      e + 10 * 10 ^ 9 ≤ monoNs s →
      Completes (.flowTimeout h) s (fun t =>
        mflow t h.val = { mflow s h.val with timedOut := true, edges := [] } ∧ (∀ k, k ≠ h.val → mflow t k = mflow s k) ∧ t = { s with mtr := t.mtr })) ∧
  (∀ (i : Fin 32) (status : Byte) (code : BitVec 24) (h : Fin 16) (s : State),
      mtrLive s = true →
      flag s (Reg.PSTAT 0x90) F.PSTAT_ENABLED = true →
      heatOn s h.val = true →
      cfgN s (heatAt h.val + 8) 1 = i.val ∨ cfgN s (heatAt h.val + 9) 1 = i.val →
      (mrtd s i.val).read = false ∨ (mrtd s i.val).block ≠ s.mtr.block →
      status.getLsbD 6 = false →
      Completes (.rtdRead i status code) s (fun t =>
        mrtd t i.val = { read := true, code := code.toNat, stale := 0, fault := status.getLsbD 7, block := s.mtr.block } ∧ (∀ k, k ≠ i.val → mrtd t k = mrtd s k) ∧
        t.mtr.rtdSel = some (i.val / 4) ∧ t.mtr.rtdSent = [BitVec.ofNat 8 (0x40 + i.val % 4), 0, 0, 0, 0] ∧ t = { s with mtr := t.mtr })) ∧
  (∀ (i : Fin 32) (status : Byte) (code : BitVec 24) (h : Fin 16) (s : State),
      mtrLive s = true →
      flag s (Reg.PSTAT 0x90) F.PSTAT_ENABLED = true →
      heatOn s h.val = true →
      cfgN s (heatAt h.val + 8) 1 = i.val ∨ cfgN s (heatAt h.val + 9) 1 = i.val →
      (mrtd s i.val).read = false ∨ (mrtd s i.val).block ≠ s.mtr.block →
      status.getLsbD 6 = true →
      Completes (.rtdRead i status code) s (fun t =>
        mrtd t i.val = { read := true, code := (mrtd s i.val).code, stale := min 3 ((mrtd s i.val).stale + 1), fault := status.getLsbD 7, block := s.mtr.block } ∧ (∀ k, k ≠ i.val → mrtd t k = mrtd s k) ∧
        t.mtr.rtdSel = some (i.val / 4) ∧ t.mtr.rtdSent = [BitVec.ofNat 8 (0x40 + i.val % 4), 0, 0, 0, 0] ∧ t = { s with mtr := t.mtr })) ∧
  (∀ (k : Fin 8) (s : State),
      mtrRuns s = true →
      pulseOn s k.val = true →
      mtrLive s = true →
      (mpulse s k.val).active = false →
      1 ≤ pulseDebt s k.val →
      (∀ n ∈ (mpulse s k.val).lastStart, n + 2 * fld s (Reg.MTR_PDEBT k.val) F.MTR_PDEBT_WIDTH * tenthMs ≤ s.now) →
      Completes (.pulseStart k) s (fun t =>
        mpulse t k.val = { mpulse s k.val with active := true, lastStart := some s.now, width := fld s (Reg.MTR_PDEBT k.val) F.MTR_PDEBT_WIDTH } ∧ pulseDebt t k.val = pulseDebt s k.val - 1 ∧
        (∀ j, j ≠ k.val → mpulse t j = mpulse s j) ∧ KeepsRegs [Reg.MTR_PDEBT k.val] s t ∧ t = { s with regs := t.regs, mtr := t.mtr })) ∧
  (∀ (k : Fin 8) (n : Nat) (s : State),
      domainUp s 9 = true →
      (mpulse s k.val).active = true →
      (mpulse s k.val).lastStart = some n →
      n + (mpulse s k.val).width * tenthMs ≤ s.now →
      Completes (.pulseEnd k) s (fun t =>
        mpulse t k.val = { mpulse s k.val with active := false } ∧ (∀ j, j ≠ k.val → mpulse t j = mpulse s j) ∧ t = { s with mtr := t.mtr }))

/-- From standstill with the source they need, HOMED where they need it and no SAFE_STOP, MOVE, HOME, GEAR and FOLLOW give the axis its new STATE and wait for a start grid point with START_PEND set; MOVE keeps the target and GEAR and RATIO queue the gear ratio read from the registers with RATIO_PEND set. STOP in DISCRETE, HOMING or SYNC makes STATE STOPPING with ADEC as deceleration to take up and drops what waited. No other axis and no other register changes. (R273, R279, R281, R282, R287, R290) -/
def Obligations.AxisMotionCommandsAccepted : Prop :=
  (∀ (ini : Fin 16) (a : Fin 16) (s : State),
      Reachable s ini (0x81 + a.val / 2) (0x98 + 0x100 * (a.val % 2)) →
      axState s a.val = 2 →
      axSrc s a.val = 0 ∨ axSrc s a.val = 1 →
      targetRefusal s a.val (axTarget s a.val) = none →
      Completes (.axisMove ini a) s (fun t =>
        axState t a.val = 3 ∧ axFlag t a.val F.ASTAT_START_PEND = true ∧ (axis t a.val).target = axTarget s a.val ∧ (axis t a.val).start = some .move ∧
        KeepsRegs [Reg.ASTAT a.val, Reg.MXE_START_PEND] s t ∧ (∀ b, b ≠ a.val → axis t b = axis s b) ∧ t = { s with regs := t.regs, arb := t.arb, mxe := t.mxe })) ∧
  (∀ (ini : Fin 16) (a : Fin 16) (s : State),
      Reachable s ini (0x81 + a.val / 2) (0x98 + 0x100 * (a.val % 2)) →
      axState s a.val = 3 ∨ axState s a.val = 5 ∨ axState s a.val = 6 →
      Completes (.axisStop ini a) s (fun t =>
        axState t a.val = 4 ∧ (axis t a.val).stop = some (rdn s (Reg.ADEC a.val)) ∧ (axis t a.val).start = none ∧ (axis t a.val).newTarget = none ∧ (axis t a.val).queued = none ∧
        KeepsRegs [Reg.ASTAT a.val, Reg.MXE_START_PEND, Reg.AEVT a.val, Reg.MXE_EVT_AXES, Reg.INT_RAW 0x80] s t ∧ (∀ b, b ≠ a.val → axis t b = axis s b) ∧ t = { s with regs := t.regs, arb := t.arb, mxe := t.mxe })) ∧
  (∀ (ini : Fin 16) (a : Fin 16) (s : State),
      Reachable s ini (0x81 + a.val / 2) (0x98 + 0x100 * (a.val % 2)) →
      axState s a.val = 2 →
      axFlag s a.val F.ASTAT_SAFE_STOP = false →
      Completes (.axisHome ini a) s (fun t =>
        axState t a.val = 5 ∧ axFlag t a.val F.ASTAT_START_PEND = true ∧ (axis t a.val).start = some .home ∧
        KeepsRegs [Reg.ASTAT a.val, Reg.MXE_START_PEND] s t ∧ (∀ b, b ≠ a.val → axis t b = axis s b) ∧ t = { s with regs := t.regs, arb := t.arb, mxe := t.mxe })) ∧
  (∀ (ini : Fin 16) (a : Fin 16) (s : State),
      Reachable s ini (0x81 + a.val / 2) (0x98 + 0x100 * (a.val % 2)) →
      axState s a.val = 2 →
      axSrc s a.val = 2 →
      axFlag s a.val F.ASTAT_SAFE_STOP = false →
      axFlag s a.val F.ASTAT_HOMED = true →
      Completes (.axisGear ini a) s (fun t =>
        axState t a.val = 6 ∧ axFlag t a.val F.ASTAT_START_PEND = true ∧ axFlag t a.val F.ASTAT_RATIO_PEND = true ∧ (axis t a.val).start = some .gear ∧
        (∃ r, (axis t a.val).queued = some r ∧ r.num = signed 32 (rdn s (Reg.AGEAR_NUM a.val)) ∧ r.den = rdn s (Reg.AGEAR_DEN a.val) ∧ r.blend = rdn s (Reg.AGEAR_BLEND a.val)) ∧
        KeepsRegs [Reg.ASTAT a.val, Reg.MXE_START_PEND] s t ∧ (∀ b, b ≠ a.val → axis t b = axis s b) ∧ t = { s with regs := t.regs, arb := t.arb, mxe := t.mxe })) ∧
  (∀ (ini : Fin 16) (a : Fin 16) (s : State),
      Reachable s ini (0x81 + a.val / 2) (0x98 + 0x100 * (a.val % 2)) →
      axState s a.val = 6 →
      Completes (.axisRatio ini a) s (fun t =>
        axState t a.val = 6 ∧ axFlag t a.val F.ASTAT_RATIO_PEND = true ∧
        (∃ r, (axis t a.val).queued = some r ∧ r.num = signed 32 (rdn s (Reg.AGEAR_NUM a.val)) ∧ r.den = rdn s (Reg.AGEAR_DEN a.val) ∧ r.blend = rdn s (Reg.AGEAR_BLEND a.val)) ∧
        KeepsRegs [Reg.ASTAT a.val] s t ∧ (∀ b, b ≠ a.val → axis t b = axis s b) ∧ t = { s with regs := t.regs, arb := t.arb, mxe := t.mxe })) ∧
  (∀ (ini : Fin 16) (a : Fin 16) (s : State),
      Reachable s ini (0x81 + a.val / 2) (0x98 + 0x100 * (a.val % 2)) →
      axState s a.val = 2 →
      axSrc s a.val = 1 ∨ axSrc s a.val = 3 →
      axFlag s a.val F.ASTAT_SAFE_STOP = false →
      axFlag s a.val F.ASTAT_HOMED = true →
      Completes (.axisFollow ini a) s (fun t =>
        axState t a.val = 6 ∧ axFlag t a.val F.ASTAT_START_PEND = true ∧ (axis t a.val).start = some .follow ∧
        KeepsRegs [Reg.ASTAT a.val, Reg.MXE_START_PEND] s t ∧ (∀ b, b ≠ a.val → axis t b = axis s b) ∧ t = { s with regs := t.regs, arb := t.arb, mxe := t.mxe }))

/-- A MOVE whose target is refused, and HOME outside standstill, leave STATE as it was, write the cause and raise event 1. POWER_DOWN takes the axis to DOWN and takes the driver's energy; without RETAIN the reference is lost. POWER_UP energises it: standstill at once where nothing is awaited, else it waits. SET_POS moves the position to the target registers and marks it HOMED. CLEAR of a FAULT with the driver ready gives standstill. (R272, R273, R280, R294, R295) -/
def Obligations.AxisCommandsRefusedAndPower : Prop :=
  (∀ (ini : Fin 16) (a : Fin 16) (c : Nat) (s : State),
      Reachable s ini (0x81 + a.val / 2) (0x98 + 0x100 * (a.val % 2)) →
      axState s a.val = 2 →
      axSrc s a.val = 0 ∨ axSrc s a.val = 1 →
      targetRefusal s a.val (axTarget s a.val) = some c →
      Completes (.axisMove ini a) s (fun t =>
        axState t a.val = 2 ∧ fld t (Reg.ASTAT a.val) F.ASTAT_REJ_CAUSE = c ∧ bitAt (rd t (Reg.AEVT a.val)) 1 = true ∧ bitAt (rd t (Reg.INT_RAW 0x80)) 1 = true ∧ t.mxe = s.mxe ∧
        KeepsRegs [Reg.ASTAT a.val, Reg.AEVT a.val, Reg.MXE_EVT_AXES, Reg.INT_RAW 0x80] s t ∧ (∀ b, b ≠ a.val → axis t b = axis s b) ∧ t = { s with regs := t.regs, arb := t.arb, mxe := t.mxe })) ∧
  (∀ (ini : Fin 16) (a : Fin 16) (s : State),
      Reachable s ini (0x81 + a.val / 2) (0x98 + 0x100 * (a.val % 2)) →
      axState s a.val ≠ 0 →
      axState s a.val ≠ 2 →
      Completes (.axisHome ini a) s (fun t =>
        axState t a.val = axState s a.val ∧ fld t (Reg.ASTAT a.val) F.ASTAT_REJ_CAUSE = 5 ∧ bitAt (rd t (Reg.AEVT a.val)) 1 = true ∧ t.mxe = s.mxe ∧
        KeepsRegs [Reg.ASTAT a.val, Reg.AEVT a.val, Reg.MXE_EVT_AXES, Reg.INT_RAW 0x80] s t ∧ (∀ b, b ≠ a.val → axis t b = axis s b) ∧ t = { s with regs := t.regs, arb := t.arb, mxe := t.mxe })) ∧
  (∀ (ini : Fin 16) (a : Fin 16) (s : State),
      Reachable s ini (0x81 + a.val / 2) (0x98 + 0x100 * (a.val % 2)) →
      axState s a.val = 2 ∨ axState s a.val = 7 →
      Completes (.powerDown ini a) s (fun t =>
        axState t a.val = 1 ∧ (axis t a.val).energised = false ∧ (axis t a.val).v = 0 ∧
        (flag s (Reg.ACFG a.val) F.ACFG_RETAIN = false → axFlag t a.val F.ASTAT_HOMED = false ∧ axFlag t a.val F.ASTAT_POS_LOST = true) ∧
        KeepsRegs [Reg.ASTAT a.val, Reg.AEVT a.val, Reg.MXE_EVT_AXES, Reg.INT_RAW 0x80] s t ∧ (∀ b, b ≠ a.val → axis t b = axis s b) ∧ t = { s with regs := t.regs, arb := t.arb, mxe := t.mxe })) ∧
  (∀ (ini : Fin 16) (a : Fin 16) (s : State),
      Reachable s ini (0x81 + a.val / 2) (0x98 + 0x100 * (a.val % 2)) →
      axState s a.val = 1 ∨ axState s a.val = 7 →
      axAdl s a.val = false →
      flag s (Reg.ACFG a.val) F.ACFG_DRDY_USE = false ∨ (axis s a.val).ready = true →
      Completes (.powerUp ini a) s (fun t =>
        axState t a.val = 2 ∧ (axis t a.val).energised = true ∧ (axis t a.val).powerAt = none ∧ axFlag t a.val F.ASTAT_ADL_ERR = false ∧
        KeepsRegs [Reg.ASTAT a.val] s t ∧ (∀ b, b ≠ a.val → axis t b = axis s b) ∧ t = { s with regs := t.regs, arb := t.arb, mxe := t.mxe })) ∧
  (∀ (ini : Fin 16) (a : Fin 16) (s : State),
      Reachable s ini (0x81 + a.val / 2) (0x98 + 0x100 * (a.val % 2)) →
      axState s a.val = 1 ∨ axState s a.val = 7 →
      axAdl s a.val = true →
      Completes (.powerUp ini a) s (fun t =>
        axState t a.val = axState s a.val ∧ (axis t a.val).energised = true ∧ (axis t a.val).powerAt = some s.now ∧
        KeepsRegs [Reg.ASTAT a.val] s t ∧ (∀ b, b ≠ a.val → axis t b = axis s b) ∧ t = { s with regs := t.regs, arb := t.arb, mxe := t.mxe })) ∧
  (∀ (ini : Fin 16) (a : Fin 16) (s : State),
      Reachable s ini (0x81 + a.val / 2) (0x98 + 0x100 * (a.val % 2)) →
      axState s a.val = 1 ∨ axState s a.val = 2 →
      Completes (.setPos ini a) s (fun t =>
        axState t a.val = axState s a.val ∧ (axis t a.val).p = (axTarget s a.val : Rat) ∧ axFlag t a.val F.ASTAT_HOMED = true ∧ axFlag t a.val F.ASTAT_POS_LOST = false ∧
        rd t (Reg.APOS_LO a.val) = BitVec.ofNat 32 (unsignedOf 32 (axTarget s a.val * 65536)) ∧
        KeepsRegs [Reg.ASTAT a.val, Reg.APOS_LO a.val, Reg.AVEL a.val] s t ∧ (∀ b, b ≠ a.val → axis t b = axis s b) ∧ t = { s with regs := t.regs, arb := t.arb, mxe := t.mxe, free := t.free })) ∧
  (∀ (ini : Fin 16) (a : Fin 16) (s : State),
      Reachable s ini (0x81 + a.val / 2) (0x98 + 0x100 * (a.val % 2)) →
      axState s a.val = 7 →
      driverReady s a.val = true →
      Completes (.axisClear ini a) s (fun t =>
        axState t a.val = 2 ∧ axFlag t a.val F.ASTAT_ADL_ERR = false ∧ t.mxe = s.mxe ∧
        KeepsRegs [Reg.ASTAT a.val] s t ∧ (∀ b, b ≠ a.val → axis t b = axis s b) ∧ t = { s with regs := t.regs, arb := t.arb, mxe := t.mxe }))

/-- A due profile tick takes its number; axes that are not enabled keep everything. A due start grid point starts the first waiting axis and clears its START_PEND. A due axis-signal update takes its number, and changes nothing else where no axis writes signals. An expired step timer, with the gaps kept, in the present direction moves the step position by one step size and notes its instant; in the other direction only the direction pin changes. A due pulse of class P counts. A read of APOS_LO or of the latch answers it and latches the upper word. (R274, R275, R276, R277, R279, R298) -/
def Obligations.AxisProfileStartsAndSteps : Prop :=
  (∀ (s : State),
      mxeRuns s = true →
      held s = false →
      s.mxe.ticks < monoNs s / 20000 →
      Completes .profileTick s (fun t =>
        t.mxe.ticks = monoNs s / 20000 ∧ (∀ b, axOn s b = false → axis t b = axis s b) ∧
        KeepsBlocks [0x80] s t ∧
        t = { s with free := t.free, regs := t.regs, mxe := t.mxe })) ∧
  (∀ (a : Fin 16) (s : State),
      mxeRuns s = true →
      held s = false →
      s.mxe.grids < monoNs s / 50000 →
      (axis s a.val).start ≠ none →
      (∀ b, b < a.val → (axis s b).start = none) →
      Completes .startGridPoint s (fun t =>
        t.mxe.grids = monoNs s / 50000 ∧ (axis t a.val).start = none ∧ axFlag t a.val F.ASTAT_START_PEND = false ∧ (∀ b, b ≠ a.val → axis t b = axis s b) ∧
        KeepsRegs [Reg.ASTAT a.val, Reg.MXE_START_PEND] s t ∧ t = { s with regs := t.regs, mxe := t.mxe, mirror := t.mirror })) ∧
  (∀ (s : State),
      mxeRuns s = true →
      held s = false →
      s.mxe.grids < monoNs s / 50000 →
      (∀ b, b < 16 → (axis s b).start = none) →
      Completes .startGridPoint s (fun t => t = { s with mxe := { s.mxe with grids := monoNs s / 50000 } })) ∧
  (∀ (a : Fin 16) (c : Nat) (s : State),
      mxeRuns s = true →
      held s = false →
      axOn s a.val = true →
      axClass s a.val = 1 →
      (axis s a.val).energised = true →
      axState s a.val ≠ 6 →
      axAdl s a.val = false →
      (axis s a.val).timer = some c →
      c ≤ s.now / 25 →
      (∀ n ∈ (axis s a.val).stepAt, n + 2 * vcoUs ≤ s.now) →
      (axis s a.val).dirNeg = decide ((axNow s a.val).p < ((axis s a.val).stepPos : Rat)) →
      (∀ n ∈ (axis s a.val).dirAt, n + vcoUs ≤ s.now) →
      Completes (.stepIssue a) s (fun t =>
        (axis t a.val).stepPos = (axis s a.val).stepPos + (if (axis s a.val).dirNeg then -(axStep s a.val : Int) else (axStep s a.val : Int)) ∧ (axis t a.val).stepAt = some s.now ∧ (axis t a.val).dirNeg = (axis s a.val).dirNeg ∧
        (∀ b, b ≠ a.val → axis t b = axis s b) ∧ t = { s with mxe := t.mxe })) ∧
  (∀ (a : Fin 16) (c : Nat) (s : State),
      mxeRuns s = true →
      held s = false →
      axOn s a.val = true →
      axClass s a.val = 1 →
      (axis s a.val).energised = true →
      axState s a.val ≠ 6 →
      axAdl s a.val = false →
      (axis s a.val).timer = some c →
      c ≤ s.now / 25 →
      (∀ n ∈ (axis s a.val).stepAt, n + 2 * vcoUs ≤ s.now) →
      (axis s a.val).dirNeg ≠ decide ((axNow s a.val).p < ((axis s a.val).stepPos : Rat)) →
      Completes (.stepIssue a) s (fun t =>
        axis t a.val = { axis s a.val with dirNeg := !(axis s a.val).dirNeg, dirAt := some s.now } ∧
        (∀ b, b ≠ a.val → axis t b = axis s b) ∧ t = { s with mxe := t.mxe })) ∧
  (∀ (a : Fin 16) (s : State),
      mxeRuns s = true →
      held s = false →
      axOn s a.val = true →
      axClass s a.val = 2 →
      (axis s a.val).energised = true →
      (axis s a.val).pulses < ((axis s a.val).phase + (axis s a.val).inc * (s.now / 25 - (axis s a.val).phaseAt)) / 2 ^ 48 →
      (axis s a.val).v < 0 →
      (axis s a.val).dirNeg = true →
      (∀ n ∈ (axis s a.val).dirAt, n + vcoUs / 5 ≤ s.now) →
      Completes (.classPPulse a) s (fun t =>
        (axis t a.val).pulses = (axis s a.val).pulses + 1 ∧ (axis t a.val).stepPos = (axis s a.val).stepPos - (axStep s a.val : Int) ∧ (axis t a.val).stepAt = some s.now ∧
        (∀ b, b ≠ a.val → axis t b = axis s b) ∧ t = { s with mxe := t.mxe })) ∧
  (∀ (s : State),
      mxeRuns s = true →
      s.mxe.signals < (monoNs s + 50000) / 100000 →
      (∀ b, b < 16 → flag s (Reg.ASIG b) F.ASIG_SIG_EN = false) →
      Completes .axisSignalWrite s (fun t => t = { s with mxe := { s.mxe with signals := (monoNs s + 50000) / 100000 } })) ∧
  (∀ (s : State),
      mxeRuns s = true →
      s.mxe.signals < (monoNs s + 50000) / 100000 →
      Completes .axisSignalWrite s (fun t => t.mxe = { s.mxe with signals := (monoNs s + 50000) / 100000 } ∧
        KeepsBlocks [0x20, 0x23, 0x70, 0x80, 0x110] s t ∧
        t = { s with free := t.free, regs := t.regs, cleRam := t.cleRam, cle := t.cle, ecc := t.ecc, memSys := t.memSys, mxe := t.mxe, agl := t.agl })) ∧
  (∀ (a : Fin 16) (s : State),
      pageErr s (0x81 + a.val / 2) (Reg.APOS_LO a.val % 0x1000) = none →
      Completes (.aposLoRead a false) s (fun t =>
        t.rdata = [rd s (Reg.APOS_LO a.val)] ∧ rd t (Reg.APOS_HI a.val) = BitVec.ofNat 32 (unsignedOf 64 (fix16 (axis s a.val).p) / 2 ^ 32) ∧
        KeepsRegs [Reg.APOS_HI a.val] s t ∧ t = { s with regs := t.regs, rdata := t.rdata })) ∧
  (∀ (a : Fin 16) (s : State),
      pageErr s (0x81 + a.val / 2) (Reg.AHLATCH_LO a.val % 0x1000) = none →
      Completes (.aposLoRead a true) s (fun t =>
        t.rdata = [rd s (Reg.AHLATCH_LO a.val)] ∧ rd t (Reg.AHLATCH_HI a.val) = BitVec.ofNat 32 (unsignedOf 64 (axis s a.val).latch / 2 ^ 32) ∧
        KeepsRegs [Reg.AHLATCH_HI a.val] s t ∧ t = { s with regs := t.regs, rdata := t.rdata }))

/-- An encoder edge that counts moves the count by one step of its decoding, shown modulo 2^32, and notes the direction; one that does not count keeps the accepted levels only, and one within the filter time of its input does nothing. A queued ratio whose master position was reached is applied without a jump: at once with event 7, or as a blend with BLENDING set; a blend ends past its distance with the new ratio and event 7. A following axis without edges for more than 100 ms completes at AVMAX. (R271, R287, R288, R289) -/
def Obligations.AxisGearingAndEncoders : Prop :=
  (∀ (e : Fin 4) (x : Bool) (y : Bool) (s : State),
      mxeRuns s = true →
      encFiltered s e.val x y = true →
      encDelta s e.val x y ≠ 0 →
      Completes (.encoderEdge e x y) s (fun t =>
        mget 0 t.mxe.counts e.val = mget 0 s.mxe.counts e.val + encDelta s e.val x y ∧ mget 0 t.mxe.dirs e.val = encDelta s e.val x y ∧ mget (false, false) t.mxe.levels e.val = (x, y) ∧
        rd t (Reg.MXE_ENC_POS e.val) = BitVec.ofNat 32 (unsignedOf 32 (mget 0 s.mxe.counts e.val + encDelta s e.val x y)) ∧ (∀ b, axState s b ≠ 6 → axis t b = axis s b) ∧
        KeepsRegs [Reg.MXE_ENC_POS e.val] s t ∧ t = { s with regs := t.regs, mxe := t.mxe })) ∧
  (∀ (e : Fin 4) (x : Bool) (y : Bool) (s : State),
      mxeRuns s = false ∨ encFiltered s e.val x y = false →
      Completes (.encoderEdge e x y) s (fun t => t = s)) ∧
  (∀ (e : Fin 4) (x : Bool) (y : Bool) (s : State),
      mxeRuns s = true →
      encFiltered s e.val x y = true →
      encDelta s e.val x y = 0 →
      Completes (.encoderEdge e x y) s (fun t =>
        mget (false, false) t.mxe.levels e.val = (x, y) ∧ t = { s with mxe := { s.mxe with levels := t.mxe.levels, edgeAt := t.mxe.edgeAt } })) ∧
  (∀ (a : Fin 16) (r : AxisRatio) (s : State),
      mxeRuns s = true →
      axState s a.val = 6 →
      (axis s a.val).queued = some r →
      r.reached = true →
      r.late = false →
      (axis s a.val).blend = none →
      (axis s a.val).start = none →
      r.blend = 0 →
      Completes (.ratioApply a) s (fun t =>
        (axis t a.val).ratio = (r.num : Rat) / (r.den : Rat) ∧ (axis t a.val).m0 = r.at0 ∧ (axis t a.val).p0 = gearPos (axis s a.val) r.at0 ∧ (axis t a.val).queued = none ∧
        axFlag t a.val F.ASTAT_RATIO_PEND = false ∧ bitAt (rd t (Reg.AEVT a.val)) 7 = true ∧
        KeepsRegs [Reg.ASTAT a.val, Reg.AEVT a.val, Reg.MXE_EVT_AXES, Reg.INT_RAW 0x80] s t ∧ (∀ b, b ≠ a.val → axis t b = axis s b) ∧ t = { s with regs := t.regs, mxe := t.mxe })) ∧
  (∀ (a : Fin 16) (r : AxisRatio) (s : State),
      mxeRuns s = true →
      axState s a.val = 6 →
      (axis s a.val).queued = some r →
      r.reached = true →
      r.late = false →
      (axis s a.val).blend = none →
      (axis s a.val).start = none →
      r.blend ≠ 0 →
      Completes (.ratioApply a) s (fun t =>
        (∃ b, (axis t a.val).blend = some b ∧ b.p = r.at0 ∧ b.dist = r.blend ∧ b.r1 = (axis s a.val).ratio ∧ b.r2 = (r.num : Rat) / (r.den : Rat)) ∧ (axis t a.val).queued = none ∧
        axFlag t a.val F.ASTAT_RATIO_PEND = false ∧ axFlag t a.val F.ASTAT_BLENDING = true ∧
        KeepsRegs [Reg.ASTAT a.val] s t ∧ (∀ b, b ≠ a.val → axis t b = axis s b) ∧ t = { s with regs := t.regs, mxe := t.mxe })) ∧
  (∀ (a : Fin 16) (b : AxisBlend) (s : State),
      mxeRuns s = true →
      axState s a.val = 6 →
      (axis s a.val).blend = some b →
      (b.dist : Int) ≤ b.dir * (masterOf s a.val - b.p) →
      Completes (.blendEnd a) s (fun t =>
        (axis t a.val).blend = none ∧ (axis t a.val).ratio = b.r2 ∧ (axis t a.val).m0 = b.p + b.dir * (b.dist : Int) ∧ axFlag t a.val F.ASTAT_BLENDING = false ∧ bitAt (rd t (Reg.AEVT a.val)) 7 = true ∧
        KeepsRegs [Reg.ASTAT a.val, Reg.AEVT a.val, Reg.MXE_EVT_AXES, Reg.INT_RAW 0x80] s t ∧ (∀ b, b ≠ a.val → axis t b = axis s b) ∧ t = { s with regs := t.regs, mxe := t.mxe })) ∧
  (∀ (a : Fin 16) (n : Nat) (l : List Nat) (s : State),
      mxeRuns s = true →
      axFollows s a.val = true →
      axSrc s a.val = 3 →
      (axis s a.val).edges = n :: l →
      n + 100 * vcoMs < s.now →
      Completes (.legacyTimeout a) s (fun t => axis t a.val = { axis s a.val with hurry := true } ∧
        (∀ b, b ≠ a.val → axis t b = axis s b) ∧ t = { s with mxe := t.mxe }))

/-- While the engine runs and the input has been settled for its filter time: on an enabled axis a limit input shows in its flag, and one that turns inactive, or active while the axis stands, changes nothing else but the instant of the change; active while a move runs towards it, it stops the axis at ALIMDEC with event 4. A reference edge shows in HOME_IN, and the active edge of the search latches the position. Standstill in homing that stays active for 100 ms fails with cause 4 and stops. An ADL frame that is due is noted. Loss of the driver's supply clears ready; with DRDY_USE an axis that is not OFF or DOWN loses its reference and goes to FAULT with event 6, or to DOWN where it stands in SAFE_STOP; the driver ready ends a waiting POWER_UP, and 100 ms without it end in FAULT with event 6. (R284, R290, R291, R292, R293, R294, R295) -/
def Obligations.AxisLimitsHomingAndDrivers : Prop :=
  (∀ (a : Fin 16) (positive : Bool) (level : Bool) (s : State),
      mxeRuns s = true →
      axOn s a.val = true →
      settled s (if positive then (axis s a.val).limPAt else (axis s a.val).limNAt) 4 = true →
      level = flag s (Reg.ACFG a.val) F.ACFG_LIM_POL ∨ (axState s a.val < 3 ∧ (axis s a.val).start = none) →
      Completes (.hardLimit a positive level) s (fun t =>
        axFlag t a.val (if positive then F.ASTAT_LIM_P else F.ASTAT_LIM_N) = xor level (flag s (Reg.ACFG a.val) F.ACFG_LIM_POL) ∧ axState t a.val = axState s a.val ∧
        axis t a.val = { axis s a.val with limPAt := (if positive then some s.now else (axis s a.val).limPAt), limNAt := (if positive then (axis s a.val).limNAt else some s.now) } ∧
        KeepsRegs [Reg.ASTAT a.val] s t ∧ (∀ b, b ≠ a.val → axis t b = axis s b) ∧ t = { s with regs := t.regs, mxe := t.mxe })) ∧
  (∀ (a : Fin 16) (positive : Bool) (s : State),
      mxeRuns s = true →
      axOn s a.val = true →
      settled s (if positive then (axis s a.val).limPAt else (axis s a.val).limNAt) 4 = true →
      axState s a.val = 3 →
      (axis s a.val).start = none →
      if positive then 0 < (axNow s a.val).v else (axNow s a.val).v < 0 →
      Completes (.hardLimit a positive (!flag s (Reg.ACFG a.val) F.ACFG_LIM_POL)) s (fun t =>
        axFlag t a.val (if positive then F.ASTAT_LIM_P else F.ASTAT_LIM_N) = true ∧ axState t a.val = 4 ∧ (axis t a.val).stop = some (rdn s (Reg.ALIMDEC a.val)) ∧ bitAt (rd t (Reg.AEVT a.val)) 4 = true ∧
        KeepsRegs [Reg.ASTAT a.val, Reg.MXE_START_PEND, Reg.AEVT a.val, Reg.MXE_EVT_AXES, Reg.INT_RAW 0x80] s t ∧ (∀ b, b ≠ a.val → axis t b = axis s b) ∧ t = { s with regs := t.regs, mxe := t.mxe })) ∧
  (∀ (a : Fin 16) (level : Bool) (s : State),
      mxeRuns s = true →
      axOn s a.val = true →
      settled s (axis s a.val).refAt (fld s (Reg.AHOME a.val) F.AHOME_HFILT) = true →
      flag s (Reg.AHOME a.val) F.AHOME_HSRC = false →
      axState s a.val ≠ 5 ∨ (axis s a.val).hstep ≠ 2 →
      Completes (.homeEdge a level) s (fun t =>
        axFlag t a.val F.ASTAT_HOME_IN = xor level (flag s (Reg.ACFG a.val) F.ACFG_HOME_POL) ∧ axis t a.val = { axis s a.val with ref := xor level (flag s (Reg.ACFG a.val) F.ACFG_HOME_POL), refAt := some s.now } ∧
        KeepsRegs [Reg.ASTAT a.val] s t ∧ (∀ b, b ≠ a.val → axis t b = axis s b) ∧ t = { s with regs := t.regs, mxe := t.mxe })) ∧
  (∀ (a : Fin 16) (s : State),
      mxeRuns s = true →
      axOn s a.val = true →
      settled s (axis s a.val).refAt (fld s (Reg.AHOME a.val) F.AHOME_HFILT) = true →
      flag s (Reg.AHOME a.val) F.AHOME_HSRC = false →
      axState s a.val = 5 →
      (axis s a.val).hstep = 2 →
      Completes (.homeEdge a (!flag s (Reg.ACFG a.val) F.ACFG_HOME_POL)) s (fun t =>
        (axis t a.val).hstep = 3 ∧ (axis t a.val).ref = true ∧ rd t (Reg.AHLATCH_LO a.val) = BitVec.ofNat 32 (unsignedOf 32 (axis t a.val).latch) ∧
        KeepsRegs [Reg.ASTAT a.val, Reg.AHLATCH_LO a.val] s t ∧ (∀ b, b ≠ a.val → axis t b = axis s b) ∧ t = { s with regs := t.regs, mxe := t.mxe })) ∧
  (∀ (a : Fin 16) (s : State),
      mxeRuns s = true →
      axState s a.val = 5 →
      (axis s a.val).hstep = 5 →
      (axis s a.val).standAt + 100 * vcoMs ≤ s.now →
      Completes (.homingUnstable a) s (fun t =>
        axState t a.val = 4 ∧ axFlag t a.val F.ASTAT_HOMED = false ∧ fld t (Reg.ASTAT a.val) F.ASTAT_HFAIL_CAUSE = 4 ∧ bitAt (rd t (Reg.AEVT a.val)) 3 = true ∧ (axis t a.val).stop = some (rdn s (Reg.ADEC a.val)) ∧
        KeepsRegs [Reg.ASTAT a.val, Reg.MXE_START_PEND, Reg.AEVT a.val, Reg.MXE_EVT_AXES, Reg.INT_RAW 0x80] s t ∧ (∀ b, b ≠ a.val → axis t b = axis s b) ∧ t = { s with regs := t.regs, mxe := t.mxe })) ∧
  (∀ (words : List Word) (s : State),
      mxeRuns s = true →
      fld s Reg.MXE_ADL_CFG F.MXE_ADL_CFG_SLOTS ≠ 0 →
      s.mxe.frames < monoNs s / 20000 →
      Completes (.adlFrame words) s (fun t =>
        t.mxe.frames = monoNs s / 20000 ∧ t.mxe.adlOut.length = fld s Reg.MXE_ADL_CFG F.MXE_ADL_CFG_SLOTS ∧
        KeepsBlocks [0x80] s t ∧
        t = { s with free := t.free, regs := t.regs, mxe := t.mxe })) ∧
  (∀ (a : Fin 16) (s : State),
      mxeRuns s = true →
      axOn s a.val = true →
      axAdl s a.val = false →
      settled s (axis s a.val).drdyAt 4 = true →
      flag s (Reg.ACFG a.val) F.ACFG_DRDY_USE = false →
      Completes (.driverSupplyLoss a) s (fun t =>
        axis t a.val = { axis s a.val with ready := false, drdyAt := some s.now } ∧ fld t (Reg.ADRV a.val) F.ADRV_STATUS = 0 ∧ axState t a.val = axState s a.val ∧
        KeepsRegs [Reg.ADRV a.val] s t ∧ (∀ b, b ≠ a.val → axis t b = axis s b) ∧ t = { s with regs := t.regs, mxe := t.mxe })) ∧
  (∀ (a : Fin 16) (s : State),
      mxeRuns s = true →
      axOn s a.val = true →
      axAdl s a.val = false →
      settled s (axis s a.val).drdyAt 4 = true →
      flag s (Reg.ACFG a.val) F.ACFG_DRDY_USE = true →
      axState s a.val < 2 →
      Completes (.driverSupplyLoss a) s (fun t =>
        axis t a.val = { axNow s a.val with ready := false, drdyAt := some s.now } ∧ fld t (Reg.ADRV a.val) F.ADRV_STATUS = 0 ∧ axState t a.val = axState s a.val ∧
        KeepsRegs [Reg.ADRV a.val] s t ∧ (∀ b, b ≠ a.val → axis t b = axis s b) ∧ t = { s with regs := t.regs, mxe := t.mxe })) ∧
  (∀ (a : Fin 16) (s : State),
      mxeRuns s = true →
      axOn s a.val = true →
      axAdl s a.val = false →
      settled s (axis s a.val).drdyAt 4 = true →
      flag s (Reg.ACFG a.val) F.ACFG_DRDY_USE = true →
      2 ≤ axState s a.val →
      axState s a.val ≠ 7 →
      ¬ (axFlag s a.val F.ASTAT_SAFE_STOP = true ∧ (axNow s a.val).v = 0 ∧ (axNow s a.val).segs = []) →
      Completes (.driverSupplyLoss a) s (fun t =>
        axState t a.val = 7 ∧ (axis t a.val).ready = false ∧ (axis t a.val).v = 0 ∧ axFlag t a.val F.ASTAT_HOMED = false ∧ axFlag t a.val F.ASTAT_POS_LOST = true ∧ bitAt (rd t (Reg.AEVT a.val)) 6 = true ∧
        KeepsRegs [Reg.ASTAT a.val, Reg.ADRV a.val, Reg.APOS_LO a.val, Reg.AVEL a.val, Reg.MXE_START_PEND, Reg.AEVT a.val, Reg.MXE_EVT_AXES, Reg.INT_RAW 0x80] s t ∧ (∀ b, b ≠ a.val → axis t b = axis s b) ∧ t = { s with regs := t.regs, mxe := t.mxe, free := t.free })) ∧
  (∀ (a : Fin 16) (s : State),
      mxeRuns s = true →
      axOn s a.val = true →
      axAdl s a.val = false →
      settled s (axis s a.val).drdyAt 4 = true →
      flag s (Reg.ACFG a.val) F.ACFG_DRDY_USE = true →
      2 ≤ axState s a.val →
      (axFlag s a.val F.ASTAT_SAFE_STOP = true ∧ (axNow s a.val).v = 0 ∧ (axNow s a.val).segs = []) →
      Completes (.driverSupplyLoss a) s (fun t =>
        axState t a.val = 1 ∧ (axis t a.val).ready = false ∧ (axis t a.val).energised = false ∧
        KeepsRegs [Reg.ASTAT a.val, Reg.ADRV a.val, Reg.MXE_START_PEND, Reg.AEVT a.val, Reg.MXE_EVT_AXES, Reg.INT_RAW 0x80] s t ∧ (∀ b, b ≠ a.val → axis t b = axis s b) ∧ t = { s with regs := t.regs, mxe := t.mxe })) ∧
  (∀ (a : Fin 16) (s : State),
      mxeRuns s = true →
      axOn s a.val = true →
      axAdl s a.val = false →
      (axis s a.val).powerAt ≠ none →
      Completes (.driverReady a) s (fun t =>
        axState t a.val = 2 ∧ axis t a.val = { axis s a.val with ready := true, drdyAt := some s.now, powerAt := none } ∧ fld t (Reg.ADRV a.val) F.ADRV_STATUS = 1 ∧
        KeepsRegs [Reg.ASTAT a.val, Reg.ADRV a.val] s t ∧ (∀ b, b ≠ a.val → axis t b = axis s b) ∧ t = { s with regs := t.regs, mxe := t.mxe })) ∧
  (∀ (a : Fin 16) (s : State),
      mxeRuns s = true →
      axOn s a.val = true →
      axAdl s a.val = false →
      (axis s a.val).powerAt = none →
      Completes (.driverReady a) s (fun t =>
        axis t a.val = { axis s a.val with ready := true, drdyAt := some s.now } ∧ fld t (Reg.ADRV a.val) F.ADRV_STATUS = 1 ∧
        KeepsRegs [Reg.ADRV a.val] s t ∧ (∀ b, b ≠ a.val → axis t b = axis s b) ∧ t = { s with regs := t.regs, mxe := t.mxe })) ∧
  (∀ (a : Fin 16) (n : Nat) (s : State),
      mxeRuns s = true →
      (axis s a.val).powerAt = some n →
      n + 100 * vcoMs ≤ s.now →
      Completes (.powerUpTimeout a) s (fun t =>
        axState t a.val = 7 ∧ axis t a.val = { axis s a.val with powerAt := none } ∧ bitAt (rd t (Reg.AEVT a.val)) 6 = true ∧ bitAt (rd t (Reg.INT_RAW 0x80)) 6 = true ∧
        KeepsRegs [Reg.ASTAT a.val, Reg.AEVT a.val, Reg.MXE_EVT_AXES, Reg.INT_RAW 0x80] s t ∧ (∀ b, b ≠ a.val → axis t b = axis s b) ∧ t = { s with regs := t.regs, mxe := t.mxe }))

/-- LOAD in INIT with a valid seal, header, set and TCM goes to RUN with the set of the strap loaded, and otherwise to SAFESTATE with the cause found. SAFESTATE enters that state with cause 0x0A; it has no effect there. A write by another initiator after the release of SV0 is not carried out: it counts in SAFE_FOREIGN and sets INT_RAW bit 6. A SEAL reading equal to the latch only shows; another enters SAFESTATE with cause 6. A fatal fault, of which the overrun of the sequencer counts once a cycle has no start for two cycle times, or a 2 ms clock window outside its range, also halts the pair; a window in range is only noted. (R301, R305, R306, R307, R308, R310, R311, R312) -/
def Obligations.SafetyStateCommands : Prop :=
  (∀ (ini : Fin 16) (s : State),
      Reachable s ini 0xA0 0x40 →
      safeState s = 0 →
      loadCause s (rdBytes s (0x40194000 + 0x3000 * (fld s Reg.STRAP_LATCH F.STRAP_LATCH_SEAL % 16)) 0x3000) (readScan s 6 (0x40194000 + 0x3000 * (fld s Reg.STRAP_LATCH F.STRAP_LATCH_SEAL % 16)) 0x3000).1.isSome = none →
      setBad (setSafe s (fun z => { z with params := rdBytes s (0x40194000 + 0x3000 * (fld s Reg.STRAP_LATCH F.STRAP_LATCH_SEAL % 16)) 0x3000 })) = false →
      Completes (.safeLoad ini) s (fun t =>
        safeState t = 1 ∧ fld t Reg.SAFE_STAT F.SAFE_STAT_SET = fld s Reg.STRAP_LATCH F.STRAP_LATCH_SEAL % 16 ∧ t.safe.params = rdBytes s (0x40194000 + 0x3000 * (fld s Reg.STRAP_LATCH F.STRAP_LATCH_SEAL % 16)) 0x3000 ∧
        KeepsBlocks [0x3, 0x20, 0x23, 0x70, 0x80, 0xa0, 0xb0, 0x110] s t ∧
        t = { s with free := t.free, regs := t.regs, mem := t.mem, cleRam := t.cleRam, canRam := t.canRam, arb := t.arb, cle := t.cle, ecc := t.ecc, memSys := t.memSys, mxe := t.mxe, rxe := t.rxe, safe := t.safe, mirror := t.mirror, agl := t.agl })) ∧
  (∀ (ini : Fin 16) (c : Nat) (s : State),
      Reachable s ini 0xA0 0x40 →
      safeState s = 0 →
      loadCause s (rdBytes s (0x40194000 + 0x3000 * (fld s Reg.STRAP_LATCH F.STRAP_LATCH_SEAL % 16)) 0x3000) (readScan s 6 (0x40194000 + 0x3000 * (fld s Reg.STRAP_LATCH F.STRAP_LATCH_SEAL % 16)) 0x3000).1.isSome = some c →
      Completes (.safeLoad ini) s (fun t =>
        safeState t = 2 ∧ fld t Reg.SAFE_STAT F.SAFE_STAT_CAUSE = c ∧ bitAt (rd t (Reg.INT_RAW 0xA0)) 0 = true ∧ t.safe.params = s.safe.params ∧
        KeepsBlocks [0x3, 0x20, 0x23, 0x70, 0x80, 0xa0, 0xb0, 0x110] s t ∧
        t = { s with free := t.free, regs := t.regs, mem := t.mem, cleRam := t.cleRam, canRam := t.canRam, arb := t.arb, cle := t.cle, ecc := t.ecc, memSys := t.memSys, mxe := t.mxe, rxe := t.rxe, safe := t.safe, mirror := t.mirror, agl := t.agl })) ∧
  (∀ (ini : Fin 16) (s : State),
      Reachable s ini 0xA0 0x40 →
      safeState s ≠ 2 →
      Completes (.safestate ini) s (fun t =>
        safeState t = 2 ∧ fld t Reg.SAFE_STAT F.SAFE_STAT_CAUSE = 0x0A ∧ bitAt (rd t (Reg.INT_RAW 0xA0)) 0 = true ∧
        KeepsBlocks [0x20, 0x23, 0x70, 0x80, 0xa0, 0x110] s t ∧
        t = { s with regs := t.regs, cleRam := t.cleRam, arb := t.arb, cle := t.cle, ecc := t.ecc, memSys := t.memSys, mxe := t.mxe, safe := t.safe, agl := t.agl })) ∧
  (∀ (ini : Fin 16) (s : State),
      Reachable s ini 0xA0 0x40 →
      safeState s = 2 →
      Completes (.safestate ini) s (fun t => t = { s with arb := t.arb })) ∧
  (∀ (ini : Fin 16) (s : State),
      pageErr s 0xA0 0x40 = none →
      foreignPage s ini 0xA0 = true →
      Completes (.safestate ini) s (fun t =>
        rdn t Reg.SAFE_FOREIGN = min (rdn s Reg.SAFE_FOREIGN + 1) 0xFFFFFFFF ∧ bitAt (rd t (Reg.INT_RAW 0xA0)) 6 = true ∧
        KeepsRegs [Reg.SAFE_FOREIGN, Reg.INT_RAW 0xA0] s t ∧ t = { s with regs := t.regs, arb := t.arb })) ∧
  (∀ (level : BitVec 8) (s : State),
      safeState s ≠ 0 →
      heldAll s = false →
      s.safe.seals < monoNs s / 10000000 →
      level.toNat = fld s Reg.STRAP_LATCH F.STRAP_LATCH_SEAL →
      Completes (.sealRead level) s (fun t =>
        rdn t Reg.SAFE_SEAL_LIVE = level.toNat ∧ t.safe = { s.safe with seals := monoNs s / 10000000 } ∧ KeepsRegs [Reg.SAFE_SEAL_LIVE] s t ∧ t = { s with regs := t.regs, safe := t.safe })) ∧
  (∀ (level : BitVec 8) (s : State),
      safeState s = 1 →
      heldAll s = false →
      s.safe.seals < monoNs s / 10000000 →
      level.toNat ≠ fld s Reg.STRAP_LATCH F.STRAP_LATCH_SEAL →
      Completes (.sealRead level) s (fun t =>
        rdn t Reg.SAFE_SEAL_LIVE = level.toNat ∧ safeState t = 2 ∧ fld t Reg.SAFE_STAT F.SAFE_STAT_CAUSE = 6 ∧
        KeepsBlocks [0x3, 0x20, 0x23, 0x70, 0x80, 0xa0, 0x110] s t ∧
        t = { s with regs := t.regs, cleRam := t.cleRam, cle := t.cle, ecc := t.ecc, memSys := t.memSys, mxe := t.mxe, safe := t.safe, agl := t.agl })) ∧
  (∀ (cause : Fin 4) (s : State),
      safeState s ≠ 2 →
      cause.val = 2 → cycleOverdue s = true →
      Completes (.fatalFault cause) s (fun t =>
        safeState t = 2 ∧ fld t Reg.SAFE_STAT F.SAFE_STAT_CAUSE = (if cause.val = 3 then 5 else cause.val + 1) ∧ flag t Reg.SAFE_STAT F.SAFE_STAT_HALTED = true ∧ flag t (Reg.CORE_STAT 6) F.CORE_STAT_HALTED = true ∧ t.safe.fatalAt ≠ none ∧
        KeepsBlocks [0x10, 0x16, 0x20, 0x23, 0x30, 0x70, 0x80, 0xa0, 0xb0, 0x110] s t ∧
        t = { s with regs := t.regs, cleRam := t.cleRam, cle := t.cle, ecc := t.ecc, memSys := t.memSys, dma := t.dma, mxe := t.mxe, rxe := t.rxe, safe := t.safe, mirror := t.mirror, agl := t.agl })) ∧
  (∀ (count : Nat) (s : State),
      s.safe.windowAt + refTime 2000 ≤ s.now →
      50000 ≤ count →
      count ≤ 75000 →
      Completes (.clockMonitorWindow count) s (fun t => t = { s with safe := { s.safe with windowAt := s.now } })) ∧
  (∀ (count : Nat) (s : State),
      s.safe.windowAt + refTime 2000 ≤ s.now →
      count < 50000 ∨ 75000 < count →
      safeState s ≠ 2 →
      Completes (.clockMonitorWindow count) s (fun t =>
        safeState t = 2 ∧ fld t Reg.SAFE_STAT F.SAFE_STAT_CAUSE = 3 ∧ flag t Reg.SAFE_STAT F.SAFE_STAT_HALTED = true ∧
        KeepsBlocks [0x10, 0x16, 0x20, 0x23, 0x30, 0x70, 0x80, 0xa0, 0xb0, 0x110] s t ∧
        t = { s with regs := t.regs, cleRam := t.cleRam, cle := t.cle, ecc := t.ecc, memSys := t.memSys, dma := t.dma, mxe := t.mxe, rxe := t.rxe, safe := t.safe, mirror := t.mirror, agl := t.agl }))

/-- A due cycle start numbers the cycle, latches the input values, counts the cycle and sets INT_RAW bit 7; after a cycle the program did not end, the state is SAFESTATE. The first SAFE_CYCLE_END of a cycle stages what the program wrote, a second one nothing. The application instant puts the staged demands in force. A due input sample shows the filtered levels. Test pulses drive their source low for 200 us. A pair that disagrees longer than its time sets its discrepancy bit and INT_RAW bit 3. (R313, R314, R315, R316, R317, R318, R319) -/
def Obligations.SafetyCycleCommands : Prop :=
  (∀ (s : State),
      safeState s ≠ 0 →
      heldAll s = false →
      s.safe.params ≠ [] →
      s.safe.cycle < cycleIndex s →
      s.safe.firstCycle ≤ cycleIndex s →
      s.safe.ended = true →
      Completes .safetyCycleStart s (fun t =>
        t.safe.cycle = cycleIndex s ∧ t.safe.ended = false ∧ safeState t = safeState s ∧ rdn t Reg.SAFE_IN_VAL = bitsOf 16 (inValue s) ∧ rd t Reg.SAFE_CYCLE_CNT = rd s Reg.SAFE_CYCLE_CNT + 1 ∧ bitAt (rd t (Reg.INT_RAW 0xA0)) 7 = true ∧
        KeepsBlocks [0xA0] s t ∧ t = { s with regs := t.regs, safe := t.safe, free := t.free })) ∧
  (∀ (s : State),
      safeState s ≠ 0 →
      heldAll s = false →
      s.safe.params ≠ [] →
      s.safe.cycle < cycleIndex s →
      s.safe.firstCycle ≤ cycleIndex s →
      s.safe.ended = false →
      Completes .safetyCycleStart s (fun t =>
        t.safe.ended = false ∧ safeState t = 2 ∧ (safeState s = 1 → fld t Reg.SAFE_STAT F.SAFE_STAT_CAUSE = 4) ∧ bitAt (rd t (Reg.INT_RAW 0xA0)) 7 = true ∧
        KeepsBlocks [0x20, 0x23, 0x70, 0x80, 0xa0, 0x110] s t ∧
        t = { s with free := t.free, regs := t.regs, cleRam := t.cleRam, cle := t.cle, ecc := t.ecc, memSys := t.memSys, mxe := t.mxe, safe := t.safe, agl := t.agl })) ∧
  (∀ (ini : Fin 16) (v : Word) (s : State),
      Reachable s ini 0xA0 0x48 →
      s.safe.ended = false →
      Completes (.safeCycleEnd ini v) s (fun t =>
        (∃ g, t.safe = { s.safe with ended := true, staged := some g } ∧ g.outs = rdn s Reg.SAFE_OUT_SET ∧ g.act = rd64 s Reg.SAFE_OVR_ACT0 Reg.SAFE_OVR_ACT1 ∧ g.axes = fld s Reg.SAFE_AXSTOP F.SAFE_AXSTOP_AXES ∧ g.at0 = s.now) ∧ t = { s with arb := t.arb, safe := t.safe })) ∧
  (∀ (ini : Fin 16) (v : Word) (s : State),
      Reachable s ini 0xA0 0x48 →
      s.safe.ended = true →
      Completes (.safeCycleEnd ini v) s (fun t => t = { s with arb := t.arb })) ∧
  (∀ (g : SafeStage) (s : State),
      s.safe.staged = some g →
      heldAll s = false →
      Completes .applicationInstant s (fun t =>
        t.safe.staged = none ∧ t.safe.outSet = g.outs ∧ t.safe.ovrAct = g.act ∧ t.safe.axStop = g.axes ∧
        KeepsBlocks [0x20, 0x23, 0x70, 0x80, 0xa0, 0x110] s t ∧
        t = { s with regs := t.regs, cleRam := t.cleRam, cle := t.cle, ecc := t.ecc, memSys := t.memSys, mxe := t.mxe, safe := t.safe, agl := t.agl })) ∧
  (∀ (levels : BitVec 16) (s : State),
      safeState s ≠ 0 →
      heldAll s = false →
      s.safe.params ≠ [] →
      s.safe.samples < monoNs s / 100000 →
      Completes (.safetyInputSample levels) s (fun t =>
        t.safe.samples = monoNs s / 100000 ∧ rdn t Reg.SAFE_IN_LVL = bitsOf 16 (fun i => (sin t i).lvl) ∧ (∀ i, inMode s i = 0 → sin t i = sin s i) ∧
        KeepsBlocks [0xa0, 0x110] s t ∧
        t = { s with free := t.free, regs := t.regs, safe := t.safe, agl := t.agl })) ∧
  (∀ (k : Fin 4) (s : State),
      heldAll s = false →
      mget 0 s.safe.pulses k.val < pulseIndex s k.val →
      pulsePhase (monoNs s) k.val < 200000 →
      Completes (.testPulseStart k) s (fun t =>
        t.safe.pulsing.testBit k.val = true ∧ mget 0 t.safe.pulses k.val = pulseIndex s k.val ∧ (∀ j, j ≠ k.val → t.safe.pulsing.testBit j = s.safe.pulsing.testBit j) ∧
        t = { s with safe := { s.safe with pulsing := t.safe.pulsing, pulses := t.safe.pulses } })) ∧
  (∀ (k : Fin 4) (s : State),
      s.safe.pulsing.testBit k.val = true →
      200000 ≤ pulsePhase (monoNs s) k.val →
      Completes (.testPulseEnd k) s (fun t =>
        t.safe.pulsing.testBit k.val = false ∧ (∀ j, j ≠ k.val → t.safe.pulsing.testBit j = s.safe.pulsing.testBit j) ∧ t = { s with safe := { s.safe with pulsing := t.safe.pulsing } })) ∧
  (∀ (j : Fin 8) (n : Nat) (s : State),
      mget none s.safe.discFrom j.val = some n →
      n + pairDisc s j.val < monoNs s →
      bitAt (rd s Reg.SAFE_IN_DISC) j.val = false →
      Completes (.discrepancyExpiry j) s (fun t =>
        rd t Reg.SAFE_IN_DISC = putBit (rd s Reg.SAFE_IN_DISC) j.val true ∧ bitAt (rd t (Reg.INT_RAW 0xA0)) 3 = true ∧ KeepsRegs [Reg.SAFE_IN_DISC, Reg.INT_RAW 0xA0] s t ∧ t = { s with regs := t.regs }))

/-- A due dark test of an output that is on, with none in progress, starts on the channel in turn and the other channel is next. A test that saw the low readback waits for its channel to read on again, and has passed once the readback time for that is over. A readback that does not follow its level in time fails that channel of the output. Penumbra that lasted its time expires: the pair or output goes to its safe value, its EXP bit and INT_RAW bit 2 are set. PEN_ACK of a pair, or of an output, in Penumbra whose failed channels passed three tests ends it and clears their failure bits; for an element not in Penumbra it has no effect beyond crediting a dark test that is over; another ARG is a host error. (R320, R321, R322, R323, R337, R338, R339, R340) -/
def Obligations.SafetyOutputsAndPenumbra : Prop :=
  (∀ (k : Fin 8) (s : State),
      outOn s k.val = true →
      (∀ j, j < 8 → (sout s j).dark = none) →
      (sout s k.val).testFrom + outTestS s k.val ≤ monoNs s →
      Completes (.darkTestStart k) s (fun t =>
        (sout t k.val).dark = some (monoNs s, (sout s k.val).nextB) ∧ (sout t k.val).nextB = !(sout s k.val).nextB ∧ (sout t k.val).testFrom = monoNs s ∧ bitAt (rd t Reg.SAFE_OUT_RB) (k.val + if (sout s k.val).nextB then 8 else 0) = false ∧
        (∀ j, j ≠ k.val → sout t j = sout s j) ∧ KeepsRegs [Reg.SAFE_OUT_RB] s t ∧ t = { s with regs := t.regs, safe := t.safe })) ∧
  (∀ (k : Fin 8) (n : Nat) (b : Bool) (s : State),
      (sout s k.val).dark = some (n, b) →
      n + outTestUs s k.val * 1000 ≤ monoNs s →
      Completes (.darkTestEnd k true) s (fun t =>
        (sout t k.val).dark = none ∧ (sout t k.val).onAgain = some b ∧ bitAt (rd t Reg.SAFE_OUT_RB) (k.val + if b then 8 else 0) = true ∧
        (∀ j, j ≠ k.val → sout t j = sout s j) ∧ KeepsRegs [Reg.SAFE_OUT_RB] s t ∧ t = { s with regs := t.regs, safe := t.safe })) ∧
  (∀ (k : Fin 8) (b : Bool) (s : State),
      (sout s k.val).onAgain = some b →
      (∀ n ∈ (if b then (sout s k.val).chkB else (sout s k.val).chkA), n + outRbUs s k.val * vcoUs ≤ s.now) →
      (sout (creditTest s k.val) k.val).onAgain = none ∧ (if b then (sout (creditTest s k.val) k.val).passedB = true else (sout (creditTest s k.val) k.val).passedA = true) ∧
        (sout (creditTest s k.val) k.val).runs = (sout s k.val).runs + (if outFailed s k.val b then 1 else 0) ∧ (∀ j, j ≠ k.val → sout (creditTest s k.val) j = sout s j) ∧ creditTest s k.val = { s with safe := { s.safe with outs := (creditTest s k.val).safe.outs } }) ∧
  (∀ (k : Fin 8) (n : Nat) (s : State),
      (sout s k.val).dark = some (n, false) →
      n + outTestUs s k.val * 1000 ≤ monoNs s →
      outFailed s k.val false = false →
      Completes (.darkTestEnd k false) s (fun t =>
        (sout t k.val).dark = none ∧ outFailed t k.val false = true ∧ bitAt (rd t (Reg.INT_RAW 0xA0)) 4 = true ∧
        KeepsBlocks [0x20, 0x23, 0x70, 0x80, 0xa0, 0x110] s t ∧
        t = { s with free := t.free, regs := t.regs, cleRam := t.cleRam, cle := t.cle, ecc := t.ecc, memSys := t.memSys, mxe := t.mxe, safe := t.safe, agl := t.agl })) ∧
  (∀ (k : Fin 8) (b : Bool) (n : Nat) (s : State),
      (if b then (sout s k.val).chkB else (sout s k.val).chkA) = some n →
      n + outRbUs s k.val * vcoUs ≤ s.now →
      outFailed s k.val b = false →
      Completes (.readbackTimeout k b) s (fun t =>
        outFailed t k.val b = true ∧ bitAt (rd t (Reg.INT_RAW 0xA0)) 4 = true ∧
        KeepsBlocks [0x20, 0x23, 0x70, 0x80, 0xa0, 0x110] s t ∧
        t = { s with free := t.free, regs := t.regs, cleRam := t.cleRam, cle := t.cle, ecc := t.ecc, memSys := t.memSys, mxe := t.mxe, safe := t.safe, agl := t.agl })) ∧
  (∀ (e : Fin 272) (s : State),
      e.val < 8 →
      mget 0 s.safe.penAt e.val ≠ 0 →
      mget 0 s.safe.penAt e.val - 1 + penMax s ≤ monoNs s →
      Completes (.penumbraExpire e) s (fun t =>
        mget 0 t.safe.penAt e.val = 0 ∧ t.safe.safePairs.testBit e.val = true ∧ bitAt (rd t Reg.SAFE_PEN_IN) e.val = false ∧ bitAt (rd t Reg.SAFE_PEN_IN) (e.val + 8) = true ∧ bitAt (rd t (Reg.INT_RAW 0xA0)) 2 = true ∧
        KeepsBlocks [0xa0, 0x110] s t ∧
        t = { s with free := t.free, regs := t.regs, safe := t.safe, agl := t.agl })) ∧
  (∀ (e : Fin 272) (s : State),
      8 ≤ e.val →
      e.val < 16 →
      mget 0 s.safe.penAt e.val ≠ 0 →
      mget 0 s.safe.penAt e.val - 1 + penMax s ≤ monoNs s →
      Completes (.penumbraExpire e) s (fun t =>
        mget 0 t.safe.penAt e.val = 0 ∧ (sout t (e.val - 8)).safe = true ∧ outOn t (e.val - 8) = false ∧ bitAt (rd t Reg.SAFE_PEN_OUT) e.val = true ∧ bitAt (rd t (Reg.INT_RAW 0xA0)) 2 = true ∧
        KeepsBlocks [0xa0, 0x110] s t ∧
        t = { s with free := t.free, regs := t.regs, safe := t.safe, agl := t.agl })) ∧
  (∀ (ini : Fin 16) (v : Word) (s : State),
      Reachable s ini 0xA0 0x40 →
      cmdBad v 3 = false →
      fieldGet F.SAFE_CMD_ARG v < 8 →
      mget 0 s.safe.penAt (fieldGet F.SAFE_CMD_ARG v) ≠ 0 →
      (∀ i, i / 2 = fieldGet F.SAFE_CMD_ARG v → inFailed s i = true → 3 ≤ (sin s i).runs) →
      Completes (.penAck ini v) s (fun t =>
        mget 0 t.safe.penAt (fieldGet F.SAFE_CMD_ARG v) = 0 ∧ (∀ i, i / 2 = fieldGet F.SAFE_CMD_ARG v → inFailed t i = false) ∧ bitAt (rd t Reg.SAFE_PEN_IN) (fieldGet F.SAFE_CMD_ARG v) = false ∧
        KeepsRegs [Reg.SAFE_IN_FAIL, Reg.SAFE_PEN_IN, Reg.SAFE_STAT, Reg.SAFE_PEN_NEXT] s t ∧ t = { s with regs := t.regs, arb := t.arb, safe := { s.safe with penAt := t.safe.penAt }, free := t.free })) ∧
  (∀ (ini : Fin 16) (v : Word) (s : State),
      Reachable s ini 0xA0 0x40 →
      cmdBad v 3 = false →
      16 ≤ fieldGet F.SAFE_CMD_ARG v →
      fieldGet F.SAFE_CMD_ARG v < 24 →
      mget 0 s.safe.penAt (fieldGet F.SAFE_CMD_ARG v - 8) ≠ 0 →
      3 ≤ (sout (creditTest s (fieldGet F.SAFE_CMD_ARG v - 16)) (fieldGet F.SAFE_CMD_ARG v - 16)).runs →
      Completes (.penAck ini v) s (fun t =>
        mget 0 t.safe.penAt (fieldGet F.SAFE_CMD_ARG v - 8) = 0 ∧ outFailed t (fieldGet F.SAFE_CMD_ARG v - 16) false = false ∧ outFailed t (fieldGet F.SAFE_CMD_ARG v - 16) true = false ∧
        KeepsRegs [Reg.SAFE_OUT_FAIL, Reg.SAFE_PEN_OUT, Reg.SAFE_STAT, Reg.SAFE_PEN_NEXT] s t ∧ t = { s with regs := t.regs, arb := t.arb, safe := { s.safe with penAt := t.safe.penAt, outs := t.safe.outs }, free := t.free })) ∧
  (∀ (ini : Fin 16) (v : Word) (s : State),
      Reachable s ini 0xA0 0x40 →
      cmdBad v 3 = false →
      8 ≤ fieldGet F.SAFE_CMD_ARG v ∧ fieldGet F.SAFE_CMD_ARG v < 16 ∨ 24 ≤ fieldGet F.SAFE_CMD_ARG v →
      exec (.penAck ini v) s = .fault (.hostError 38)) ∧
  (∀ (ini : Fin 16) (v : Word) (s : State),
      Reachable s ini 0xA0 0x40 →
      cmdBad v 3 = false →
      fieldGet F.SAFE_CMD_ARG v < 8 →
      mget 0 s.safe.penAt (fieldGet F.SAFE_CMD_ARG v) = 0 →
      Completes (.penAck ini v) s (fun t => t = { s with arb := t.arb })) ∧
  (∀ (ini : Fin 16) (v : Word) (s : State),
      Reachable s ini 0xA0 0x40 →
      cmdBad v 3 = false →
      16 ≤ fieldGet F.SAFE_CMD_ARG v →
      fieldGet F.SAFE_CMD_ARG v < 24 →
      mget 0 s.safe.penAt (fieldGet F.SAFE_CMD_ARG v - 8) = 0 →
      Completes (.penAck ini v) s (fun t => t = { s with arb := t.arb, safe := (creditTest s (fieldGet F.SAFE_CMD_ARG v - 16)).safe }))

/-- The oldest PDU handed over leaves the inbox: for a connection that is neither STARTING nor RUNNING it is dropped, one that fails its checks counts in DISCARDS, one with a wrong sequence number leaves the connection in FAULT with cause 2. A connection without an accepted PDU for its time goes to FAULT with cause 1. RX_PUT hands the mailbox bytes to the connection selected; TX_GET reads its PDU and clears TXNEW. ISC_RESTART starts a connection in FAULT again and has no effect on another. (R327, R328, R331, R332, R333, R334, R335, R336) -/
def Obligations.SafetyChannelCommands : Prop :=
  (∀ (c : Fin 256) (bs : List Byte) (rest : List (Nat × List Byte)) (s : State),
      s.safe.inbox = (c.val, bs) :: rest →
      connState s c.val = 0 ∨ connState s c.val = 3 →
      Completes .iscPduAccept s (fun t => t = { s with safe := { s.safe with inbox := rest } })) ∧
  (∀ (c : Fin 256) (bs : List Byte) (rest : List (Nat × List Byte)) (s : State),
      s.safe.inbox = (c.val, bs) :: rest →
      connState s c.val = 1 ∨ connState s c.val = 2 →
      pduGood s c.val bs = false →
      Completes .iscPduAccept s (fun t =>
        fld t (Reg.SAFE_ISC_ST c.val) F.SAFE_ISC_ST_DISCARDS = min (fld s (Reg.SAFE_ISC_ST c.val) F.SAFE_ISC_ST_DISCARDS + 1) 0xFFFF ∧ connState t c.val = connState s c.val ∧ t.safe = { s.safe with inbox := rest } ∧
        KeepsRegs [Reg.SAFE_ISC_ST c.val] s t ∧ t = { s with regs := t.regs, safe := t.safe })) ∧
  (∀ (c : Fin 256) (bs : List Byte) (rest : List (Nat × List Byte)) (s : State),
      s.safe.inbox = (c.val, bs) :: rest →
      connState s c.val = 1 ∨ connState s c.val = 2 →
      pduGood s c.val bs = true →
      seqCheck s c.val (beNat ((bs.drop 2).take 2)) = .error →
      Completes .iscPduAccept s (fun t =>
        connState t c.val = 3 ∧ fld t (Reg.SAFE_ISC_ST c.val) F.SAFE_ISC_ST_CAUSE = 2 ∧ flag t (Reg.SAFE_ISC_ST c.val) F.SAFE_ISC_ST_VALID = false ∧ bitAt (rd t (Reg.INT_RAW 0xA0)) 5 = true ∧ t.safe.inbox = rest ∧
        KeepsBlocks [0xa0, 0x110] s t ∧
        t = { s with free := t.free, regs := t.regs, safe := t.safe, agl := t.agl })) ∧
  (∀ (c : Fin 256) (bs : List Byte) (rest : List (Nat × List Byte)) (s : State),
      s.safe.inbox = (c.val, bs) :: rest →
      connState s c.val = 2 →
      pduGood s c.val bs = true →
      seqCheck s c.val (beNat ((bs.drop 2).take 2)) = .accept →
      Completes .iscPduAccept s (fun t =>
        connState t c.val = 2 ∧ (conn t c.val).last = some (beNat ((bs.drop 2).take 2)) ∧ (conn t c.val).ready = true ∧ (conn t c.val).since = monoNs s ∧ (∀ d, d ≠ c.val → conn t d = conn s d) ∧
        KeepsRegs [Reg.SAFE_ISC_ST c.val] s t ∧ t = { s with regs := t.regs, safe := t.safe })) ∧
  (∀ (c : Fin 256) (s : State),
      connState s c.val = 1 ∨ connState s c.val = 2 →
      (conn s c.val).since + connTexp s c.val * 500000 ≤ monoNs s →
      Completes (.iscWatchdog c) s (fun t =>
        connState t c.val = 3 ∧ fld t (Reg.SAFE_ISC_ST c.val) F.SAFE_ISC_ST_CAUSE = 1 ∧ flag t (Reg.SAFE_ISC_ST c.val) F.SAFE_ISC_ST_VALID = false ∧ bitAt (rd t (Reg.INT_RAW 0xA0)) 5 = true ∧ (conn t c.val).rxOk = false ∧
        KeepsBlocks [0xa0, 0x110] s t ∧
        t = { s with free := t.free, regs := t.regs, safe := t.safe, agl := t.agl })) ∧
  (∀ (ini : Fin 16) (s : State),
      Reachable s ini 0xA3 0x44 →
      connRole s (fld s Reg.SAFE_MB_SEL F.SAFE_MB_SEL_CONN) ≠ 0 →
      connLsx s (fld s Reg.SAFE_MB_SEL F.SAFE_MB_SEL_CONN) = false →
      Completes (.rxPut ini) s (fun t =>
        t.safe = { s.safe with inbox := s.safe.inbox ++ [(fld s Reg.SAFE_MB_SEL F.SAFE_MB_SEL_CONN, (List.range 20).flatMap (fun i => beBytes 4 (rdn s (Reg.SAFE_MB_DATA i))))] } ∧ t = { s with arb := t.arb, safe := t.safe })) ∧
  (∀ (ini : Fin 16) (c : Nat) (bs : List Byte) (s : State),
      Reachable s ini 0xA3 0x44 →
      c = fld s Reg.SAFE_MB_SEL F.SAFE_MB_SEL_CONN →
      safeActs s = true →
      connRole s c ≠ 0 →
      connLsx s c = false →
      iscPdu s c = some bs →
      bs.length ≤ 80 →
      Completes (.txGet ini) s (fun t =>
        (∀ i, 4 * i < bs.length → rd t (Reg.SAFE_MB_DATA i) = BitVec.ofNat 32 (beNat ((padTo 80 bs |>.drop (4 * i)).take 4))) ∧ (∀ i < 20, bs.length ≤ 4 * i → rd t (Reg.SAFE_MB_DATA i) = rd s (Reg.SAFE_MB_DATA i)) ∧ bitAt (rd t (Reg.SAFE_MB_TXNEW (c / 32))) (c % 32) = false ∧
        KeepsBlocks [0xa0] s t ∧
        t = { s with regs := t.regs, arb := t.arb })) ∧
  (∀ (ini : Fin 16) (v : Word) (s : State),
      Reachable s ini 0xA0 0x40 →
      cmdBad v 4 = false →
      connState s (fieldGet F.SAFE_CMD_ARG v) = 3 →
      Completes (.iscRestart ini v) s (fun t =>
        connState t (fieldGet F.SAFE_CMD_ARG v) = 1 ∧ (conn t (fieldGet F.SAFE_CMD_ARG v)).last = none ∧ (conn t (fieldGet F.SAFE_CMD_ARG v)).seq = 0 ∧ (conn t (fieldGet F.SAFE_CMD_ARG v)).since = monoNs s ∧ (∀ d, d ≠ fieldGet F.SAFE_CMD_ARG v → conn t d = conn s d) ∧
        KeepsBlocks [0xa0] s t ∧
        t = { s with regs := t.regs, arb := t.arb, safe := t.safe })) ∧
  (∀ (ini : Fin 16) (v : Word) (s : State),
      Reachable s ini 0xA0 0x40 →
      cmdBad v 4 = false →
      connState s (fieldGet F.SAFE_CMD_ARG v) ≠ 3 →
      Completes (.iscRestart ini v) s (fun t => t = { s with arb := t.arb }))

/-- A qualified GRANT level shows in GRANT; low, it takes the ACTIVE unit to STANDBY out of sync; high, it takes a synchronised STANDBY whose peer is not active to TAKEOVER and a unit in INIT to ACTIVE. GRANT low for 1 ms in INIT gives STANDBY. FORCE_ACTIVE needs STANDBY and GRANT. A give-up gives role GIVEUP with its cause and no heartbeat. The heartbeat toggles each millisecond while the program kicks. Where no memory access made is a host error, takeover completes in ACTIVE after 40 us. (R347, R349, R350, R351, R352, R363, R364, R366) -/
def Obligations.MirrorRoleChanges : Prop :=
  (∀ (s : State),
      domainUp s 5 = true →
      role s = 4 →
      Completes (.arbGrantQualified false) s (fun t =>
        mirrorFlag t F.MIRROR_STAT_GRANT = false ∧ role t = 2 ∧ syncOf t = 0 ∧ mirrorFlag t F.MIRROR_STAT_ACT_OK = false ∧
        KeepsBlocks [0x10, 0x16, 0x20, 0x23, 0x40, 0x70, 0x80, 0xa0, 0xb0, 0x100, 0x110] s t ∧
        t = { s with regs := t.regs, cleRam := t.cleRam, cyc := t.cyc, cle := t.cle, ecc := t.ecc, memSys := t.memSys, mtr := t.mtr, mxe := t.mxe, rxe := t.rxe, safe := t.safe, mirror := t.mirror, agl := t.agl, lantern := t.lantern, eth := t.eth, can := t.can })) ∧
  (∀ (s : State),
      domainUp s 5 = true →
      role s = 2 →
      syncOf s = 2 →
      peerActive s = false →
      Completes (.arbGrantQualified true) s (fun t =>
        mirrorFlag t F.MIRROR_STAT_GRANT = true ∧ role t = 3 ∧ t.mirror.takeAt = some s.now ∧
        KeepsBlocks [0x10, 0x16, 0x20, 0x23, 0x40, 0x70, 0x80, 0xa0, 0xb0, 0x100, 0x110] s t ∧
        t = { s with regs := t.regs, cleRam := t.cleRam, cyc := t.cyc, cle := t.cle, ecc := t.ecc, memSys := t.memSys, mtr := t.mtr, mxe := t.mxe, rxe := t.rxe, safe := t.safe, mirror := t.mirror, agl := t.agl, lantern := t.lantern, eth := t.eth, can := t.can })) ∧
  (∀ (s : State),
      domainUp s 5 = true →
      role s = 1 →
      peerActive s = false →
      Completes (.arbGrantQualified true) s (fun t =>
        mirrorFlag t F.MIRROR_STAT_GRANT = true ∧ role t = 4 ∧ mirrorFlag t F.MIRROR_STAT_ACT_OK = true ∧
        KeepsBlocks [0x10, 0x16, 0x20, 0x23, 0x40, 0x70, 0x80, 0xa0, 0xb0, 0x100, 0x110] s t ∧
        t = { s with regs := t.regs, cleRam := t.cleRam, cyc := t.cyc, cle := t.cle, ecc := t.ecc, memSys := t.memSys, mtr := t.mtr, mxe := t.mxe, rxe := t.rxe, safe := t.safe, mirror := t.mirror, agl := t.agl, lantern := t.lantern, eth := t.eth, can := t.can })) ∧
  (∀ (n : Nat) (s : State),
      s.mirror.lowFrom = some n →
      role s = 1 →
      grant s = false →
      n + 1000000 ≤ monoNs s →
      Completes .initGrantLow s (fun t => role t = 2 ∧ syncOf t = 0 ∧ t.mirror.lowFrom = none ∧
        KeepsBlocks [0x10, 0x16, 0x20, 0x23, 0x40, 0x70, 0x80, 0xa0, 0xb0, 0x100, 0x110] s t ∧
        t = { s with regs := t.regs, cleRam := t.cleRam, cyc := t.cyc, cle := t.cle, ecc := t.ecc, memSys := t.memSys, mtr := t.mtr, mxe := t.mxe, rxe := t.rxe, safe := t.safe, mirror := t.mirror, agl := t.agl, lantern := t.lantern, eth := t.eth, can := t.can })) ∧
  (∀ (ini : Fin 16) (s : State),
      Reachable s ini 0xB0 0x6C →
      role s = 2 →
      grant s = true →
      Completes (.forceActive ini) s (fun t => role t = 4 ∧ mirrorFlag t F.MIRROR_STAT_ACT_OK = true ∧ t.mirror.released = false ∧
        KeepsBlocks [0xb0] s t ∧
        t = { s with regs := t.regs, arb := t.arb, rxe := t.rxe, mirror := t.mirror })) ∧
  (∀ (ini : Fin 16) (s : State),
      Reachable s ini 0xB0 0x6C →
      role s ≠ 2 ∨ grant s = false →
      Completes (.forceActive ini) s (fun t => t = { s with arb := t.arb })) ∧
  (∀ (ini : Fin 16) (s : State),
      Reachable s ini 0xB0 0x6C →
      role s ≠ 0 →
      role s ≠ 5 →
      Completes (.mirrorGiveup ini) s (fun t =>
        role t = 5 ∧ mirrorFlag t F.MIRROR_STAT_HB_RUN = false ∧ mirrorFlag t F.MIRROR_STAT_ACT_OK = false ∧ t.mirror.released = true ∧ t.mirror.releaseDue = false ∧
        (fld s Reg.MIRROR_STAT F.MIRROR_STAT_GIVEUP_CAUSE = 0 → fld t Reg.MIRROR_STAT F.MIRROR_STAT_GIVEUP_CAUSE = 4) ∧
        KeepsBlocks [0x10, 0x16, 0x20, 0x23, 0x40, 0x70, 0x80, 0xa0, 0xb0, 0x100, 0x110] s t ∧
        t = { s with regs := t.regs, cleRam := t.cleRam, arb := t.arb, cyc := t.cyc, cle := t.cle, ecc := t.ecc, memSys := t.memSys, mtr := t.mtr, mxe := t.mxe, rxe := t.rxe, safe := t.safe, mirror := t.mirror, agl := t.agl, lantern := t.lantern, eth := t.eth, can := t.can })) ∧
  (∀ (s : State),
      flag s Reg.CLK_STAT F.CLK_STAT_PLL_LOCK = true →
      resettable s = true →
      role s ≠ 0 →
      role s ≠ 5 →
      Completes .pllLockLoss s (fun t =>
        flag t Reg.CLK_STAT F.CLK_STAT_PLL_LOCK = false ∧ role t = 5 ∧ t.mirror.released = true ∧ (fld s Reg.MIRROR_STAT F.MIRROR_STAT_GIVEUP_CAUSE = 0 → fld t Reg.MIRROR_STAT F.MIRROR_STAT_GIVEUP_CAUSE = 3) ∧
        KeepsBlocks [0x1, 0x10, 0x16, 0x20, 0x23, 0x40, 0x70, 0x80, 0xa0, 0xb0, 0x100, 0x110] s t ∧
        t = { s with regs := t.regs, cleRam := t.cleRam, cyc := t.cyc, cle := t.cle, ecc := t.ecc, memSys := t.memSys, mtr := t.mtr, mxe := t.mxe, rxe := t.rxe, safe := t.safe, mirror := t.mirror, agl := t.agl, lantern := t.lantern, eth := t.eth, can := t.can })) ∧
  (∀ (ini : Fin 16) (value : Word) (s : State),
      Reachable s ini 0xB0 0x70 →
      Completes (.mirrorHbKick ini value) s (fun t =>
        t.mirror = { s.mirror with kick := if value = 0x6B3D#32 then monoNs s + 1 else s.mirror.kick } ∧ t = { s with arb := t.arb, mirror := t.mirror })) ∧
  (∀ (s : State),
      s.mirror.hbTick < monoNs s / 1000000 →
      Completes .heartbeatToggle s (fun t =>
        t.mirror = { s.mirror with hb := xor s.mirror.hb (hbOk s), hbTick := monoNs s / 1000000 } ∧ mirrorFlag t F.MIRROR_STAT_HB_RUN = hbOk s ∧ KeepsRegs [Reg.MIRROR_STAT] s t ∧ t = { s with regs := t.regs, mirror := t.mirror })) ∧
  (∀ (n : Nat) (s : State),
      s.mirror.applied = some n →
      role s = 3 →
      s.mirror.journal = [] →
      n + takeoverTime ≤ s.now →
      Permitted s (takeoverDone s) →
      Completes .takeoverComplete s (fun t => role t = 4 ∧ t.mirror.takeAt = none ∧ t.mirror.released = false ∧
        KeepsBlocks [0x17, 0x20, 0x23, 0x35, 0x40, 0x50, 0x70, 0x80, 0xa0, 0xb0, 0xd0, 0xf0, 0x110] s t ∧
        t = { s with free := t.free, regs := t.regs, mem := t.mem, cleRam := t.cleRam, canRam := t.canRam, arb := t.arb, cyc := t.cyc, cle := t.cle, ecc := t.ecc, memSys := t.memSys, mmu := t.mmu, mxe := t.mxe, rxe := t.rxe, mirror := t.mirror, agl := t.agl, keys := t.keys, eth := t.eth, handed := t.handed }))

/-- PEER_RESET of the ACTIVE unit sends one frame of kind 8 and has no effect in another role. PLANNED_SWAP of a synchronised pair sets SWAP_BUSY with a deadline and ends at once with result 2 otherwise. The swap instant waits until every mirrored task is between cycles and every set acknowledged; it then, where no memory access made is a host error, releases control, and with no set in the way hands over: STANDBY, SYNCED, result 1. At the deadline the swap ends with result 2. (R352, R367) -/
def Obligations.MirrorSwapCommands : Prop :=
  (∀ (ini : Fin 16) (s : State),
      Reachable s ini 0xB0 0x6C →
      role s = 4 →
      Completes (.peerReset ini) s (fun t =>
        t.mirror = { s.mirror with sent := s.mirror.sent ++ [linkFrame s 8 0 s.mirror.txSeq 0 []], txSeq := (s.mirror.txSeq + 1) % 2 ^ 32, lastSent := s.now } ∧ t = { s with arb := t.arb, mirror := t.mirror })) ∧
  (∀ (ini : Fin 16) (s : State),
      Reachable s ini 0xB0 0x6C →
      role s ≠ 4 →
      Completes (.peerReset ini) s (fun t => t = { s with arb := t.arb })) ∧
  (∀ (ini : Fin 16) (tmo : BitVec 16) (s : State),
      Reachable s ini 0xB0 0x6C →
      tmo ≠ 0 →
      pairSynced s = true →
      Completes (.plannedSwap ini tmo) s (fun t =>
        mirrorFlag t F.MIRROR_STAT_SWAP_BUSY = true ∧ t.mirror = { s.mirror with swapBy := monoNs s + tmo.toNat * 1000000 } ∧ KeepsRegs [Reg.MIRROR_STAT] s t ∧ t = { s with regs := t.regs, arb := t.arb, mirror := t.mirror })) ∧
  (∀ (ini : Fin 16) (tmo : BitVec 16) (s : State),
      Reachable s ini 0xB0 0x6C →
      tmo ≠ 0 →
      pairSynced s = false →
      Completes (.plannedSwap ini tmo) s (fun t =>
        mirrorFlag t F.MIRROR_STAT_SWAP_BUSY = false ∧ fld t Reg.MIRROR_STAT F.MIRROR_STAT_SWAP_RES = 2 ∧ KeepsRegs [Reg.MIRROR_STAT, Reg.INT_RAW 0xB0] s t ∧ t = { s with regs := t.regs, arb := t.arb })) ∧
  (∀ (s : State),
      swapWaits s = true →
      s.mirror.swapBy ≤ monoNs s →
      Completes .swapTimeout s (fun t =>
        mirrorFlag t F.MIRROR_STAT_SWAP_BUSY = false ∧ fld t Reg.MIRROR_STAT F.MIRROR_STAT_SWAP_RES = 2 ∧ KeepsRegs [Reg.MIRROR_STAT, Reg.INT_RAW 0xB0] s t ∧ t = { s with regs := t.regs })) ∧
  (∀ (s : State),
      (swapWaits s = false ∨ allAcked s = false ∨ ∃ k ∈ mirrored s, betweenCycles s k = false) →
      Completes .swapInstant s (fun t => t = s)) ∧
  (∀ (s : State),
      swapWaits s = true →
      allAcked s = true →
      mirrored s = [] →
      Permitted s (swapEnd (swapSets s).2) →
      Completes .swapInstant s (fun t =>
        role t = 2 ∧ syncOf t = 2 ∧ mirrorFlag t F.MIRROR_STAT_SWAP_BUSY = false ∧ fld t Reg.MIRROR_STAT F.MIRROR_STAT_SWAP_RES = 1 ∧ mirrorFlag t F.MIRROR_STAT_ACT_OK = false ∧ t.mirror.released = true ∧
        KeepsBlocks [0x10, 0x16, 0x20, 0x23, 0x40, 0x60, 0x70, 0x80, 0xa0, 0xb0, 0x100, 0x110] s t ∧
        t = { s with free := t.free, regs := t.regs, mem := t.mem, cleRam := t.cleRam, canRam := t.canRam, arb := t.arb, cyc := t.cyc, cle := t.cle, ecc := t.ecc, memSys := t.memSys, mmu := t.mmu, mtr := t.mtr, mxe := t.mxe, rxe := t.rxe, safe := t.safe, mirror := t.mirror, agl := t.agl, lantern := t.lantern, eth := t.eth, can := t.can })) ∧
  (∀ (s : State),
      swapWaits s = true →
      allAcked s = true →
      (∀ k ∈ mirrored s, betweenCycles s k = true) →
      (swapSets s).1 = false →
      Permitted s (swapEnd (swapSets s).2) →
      Completes .swapInstant s (fun t =>
        mirrorFlag t F.MIRROR_STAT_ACT_OK = false ∧ t.mirror.released = true ∧ (∀ k ∈ mirrored s, taskState t k = tOff) ∧
        KeepsBlocks [0x10, 0x16, 0x20, 0x23, 0x40, 0x60, 0x70, 0x80, 0xa0, 0xb0, 0x100, 0x110] s t ∧
        t = { s with free := t.free, regs := t.regs, mem := t.mem, cleRam := t.cleRam, canRam := t.canRam, arb := t.arb, cyc := t.cyc, cle := t.cle, ecc := t.ecc, memSys := t.memSys, mmu := t.mmu, mtr := t.mtr, mxe := t.mxe, rxe := t.rxe, safe := t.safe, mirror := t.mirror, agl := t.agl, lantern := t.lantern, eth := t.eth, can := t.can }))

/-- A valid frame of the expected kind and number is taken: role, sync and time of the peer are noted, and the next number is expected. STATUS notes the peer's image and starts SYNCING where the images agree. SET_ACK of a sent set writes TSEQ and takes the set from those not acknowledged; NAK sends the frames from its number on again. GIVEUP sets INT_RAW bit 6. AXIS_START is kept by a standby. A frame with a bad CRC counts in LINK_ERR. The link is down 100 us after the last valid frame. A STATUS is sent each 10 us. (R348, R351, R352, R353, R354, R359, R364, R367, R369) -/
def Obligations.MirrorLinkFrames : Prop :=
  (∀ (s : State),
      linkRuns s = true →
      Completes .linkFrameBadCrc s (fun t =>
        rdn t Reg.MIRROR_LINK_ERR = min (rdn s Reg.MIRROR_LINK_ERR + 1) 0xFFFFFFFF ∧ t.mirror = { s.mirror with validRun := 0 } ∧ KeepsRegs [Reg.MIRROR_LINK_ERR] s t ∧ t = { s with regs := t.regs, mirror := t.mirror })) ∧
  (∀ (s : State),
      linkUp s = true →
      s.mirror.lastValid + 100 * vcoUs ≤ s.now →
      Completes .linkDown s (fun t =>
        linkUp t = false ∧ mirrorFlag t F.MIRROR_STAT_PEER_ACTIVE = false ∧ t.mirror.rxSeq = 0 ∧ t.mirror.txSeq = 0 ∧ t.mirror.receiving = none ∧ t.mirror.unacked = [] ∧ bitAt (rd t (Reg.INT_RAW 0xB0)) 3 = true ∧
        KeepsBlocks [0x10, 0x16, 0x20, 0x23, 0x40, 0x70, 0x80, 0xa0, 0xb0, 0x100, 0x110] s t ∧
        t = { s with regs := t.regs, cleRam := t.cleRam, cyc := t.cyc, cle := t.cle, ecc := t.ecc, memSys := t.memSys, mtr := t.mtr, mxe := t.mxe, rxe := t.rxe, safe := t.safe, mirror := t.mirror, agl := t.agl, lantern := t.lantern, eth := t.eth, can := t.can })) ∧
  (∀ (s : State),
      linkRuns s = true →
      s.mirror.lastSent + 10 * vcoUs ≤ s.now →
      Completes .statusSend s (fun t =>
        ∃ n, t = { s with free := s.free + 1, mirror := { s.mirror with lastSent := s.now, sent := s.mirror.sent.filter (fun g => leNat (g.take 1) != 1) ++
        [linkFrame s 1 0 n 0 (leBytes 8 (imageId s) ++ leBytes 1 (fld s Reg.MIRROR_STAT F.MIRROR_STAT_GIVEUP_CAUSE) ++ List.replicate 7 0)] } })) ∧
  (∀ (f : List Byte) (h : State) (s : State),
      linkRuns s = true →
      lkValid f = true →
      lkF f 0 1 = 1 →
      headerSeen s f = h →
      Permitted s h →
      role h = 2 →
      syncOf h = 0 →
      linkUp h = true →
      h.mirror.peerRole = 4 →
      lkF f 16 8 = imageId h →
      Completes (.statusReceive f) s (fun t =>
        t.mirror.lastValid = s.now ∧ t.mirror.peerRole = lkF f 2 2 % 8 ∧ t.mirror.peerSync = lkF f 2 2 / 16 % 4 ∧ t.mirror.peerImage = lkF f 16 8 ∧ syncOf t = 1 ∧
        KeepsBlocks [0x10, 0x16, 0x20, 0x23, 0x40, 0x70, 0x80, 0xa0, 0xb0, 0x100, 0x110] s t ∧
        t = { s with regs := t.regs, cleRam := t.cleRam, cyc := t.cyc, cle := t.cle, ecc := t.ecc, memSys := t.memSys, mtr := t.mtr, mxe := t.mxe, rxe := t.rxe, safe := t.safe, mirror := t.mirror, agl := t.agl, lantern := t.lantern, eth := t.eth, can := t.can })) ∧
  (∀ (f : List Byte) (h : State) (s : State),
      linkRuns s = true →
      lkValid f = true →
      lkF f 0 1 = 1 →
      headerSeen s f = h →
      Permitted s h →
      role h ≠ 2 ∨ syncOf h ≠ 0 ∨ linkUp h = false ∨ h.mirror.peerRole ≠ 4 ∨ lkF f 16 8 ≠ imageId h →
      Completes (.statusReceive f) s (fun t => t = { h with mirror := { h.mirror with peerImage := lkF f 16 8 } })) ∧
  (∀ (f : List Byte) (h : State) (u : Nat × Nat) (s : State),
      linkRuns s = true →
      lkValid f = true →
      lkF f 0 1 = 5 →
      headerSeen s f = h →
      Permitted s h →
      lkF f 4 4 = h.mirror.rxSeq →
      h.mirror.unacked.find? (fun v => v.1 == lkTask f) = some u →
      (∀ x ∈ h.mirror.freezing ++ h.mirror.ready ++ h.mirror.sending.toList, x.task = lkTask f → x.number ≠ u.2) →
      h.mirror.swapping = false →
      Completes (.mirrorAckReceive f) s (fun t =>
        t.mirror.lastValid = s.now ∧ t.mirror.peerRole = lkF f 2 2 % 8 ∧ t.mirror.peerSync = lkF f 2 2 / 16 % 4 ∧ rd t (Reg.MIRROR_TSEQ (lkTask f)) = BitVec.ofNat 32 u.2 ∧ t.mirror.unacked = h.mirror.unacked.erase u ∧ t.mirror.rxSeq = seqNext32 h.mirror.rxSeq ∧
        KeepsBlocks [0x10, 0x16, 0x20, 0x23, 0x40, 0x70, 0x80, 0xa0, 0xb0, 0x100, 0x110] s t ∧
        t = { s with regs := t.regs, cleRam := t.cleRam, cyc := t.cyc, cle := t.cle, ecc := t.ecc, memSys := t.memSys, mtr := t.mtr, mxe := t.mxe, rxe := t.rxe, safe := t.safe, mirror := t.mirror, agl := t.agl, lantern := t.lantern, eth := t.eth, can := t.can })) ∧
  (∀ (f : List Byte) (h : State) (s : State),
      linkRuns s = true →
      lkValid f = true →
      lkF f 0 1 = 5 →
      headerSeen s f = h →
      Permitted s h →
      lkF f 4 4 = h.mirror.rxSeq →
      h.mirror.unacked.find? (fun v => v.1 == lkTask f) = none →
      Completes (.mirrorAckReceive f) s (fun t => t = { h with mirror := { h.mirror with rxSeq := seqNext32 h.mirror.rxSeq } })) ∧
  (∀ (f : List Byte) (h : State) (s : State),
      linkRuns s = true →
      lkValid f = true →
      lkF f 0 1 = 6 →
      headerSeen s f = h →
      Permitted s h →
      Completes (.nakReceive f) s (fun t =>
        t.mirror.lastValid = s.now ∧ t.mirror.peerRole = lkF f 2 2 % 8 ∧ t.mirror.peerSync = lkF f 2 2 / 16 % 4 ∧ (∃ l, l <:+ h.mirror.sent ∧ t.mirror.sent = h.mirror.sent ++ l ∧ ∀ g ∈ l.head?, lkF g 4 4 = lkF f 4 4) ∧
        KeepsBlocks [0x10, 0x16, 0x20, 0x23, 0x40, 0x70, 0x80, 0xa0, 0xb0, 0x100, 0x110] s t ∧
        t = { s with regs := t.regs, cleRam := t.cleRam, cyc := t.cyc, cle := t.cle, ecc := t.ecc, memSys := t.memSys, mtr := t.mtr, mxe := t.mxe, rxe := t.rxe, safe := t.safe, mirror := t.mirror, agl := t.agl, lantern := t.lantern, eth := t.eth, can := t.can })) ∧
  (∀ (f : List Byte) (h : State) (s : State),
      linkRuns s = true →
      lkValid f = true →
      lkF f 0 1 = 7 →
      headerSeen s f = h →
      Permitted s h →
      lkF f 4 4 = h.mirror.rxSeq →
      Completes (.giveupReceive f) s (fun t =>
        t.mirror.lastValid = s.now ∧ t.mirror.peerRole = lkF f 2 2 % 8 ∧ t.mirror.peerSync = lkF f 2 2 / 16 % 4 ∧ bitAt (rd t (Reg.INT_RAW 0xB0)) 6 = true ∧ t.mirror = { h.mirror with rxSeq := seqNext32 h.mirror.rxSeq } ∧
        KeepsBlocks [0x10, 0x16, 0x20, 0x23, 0x40, 0x70, 0x80, 0xa0, 0xb0, 0x100, 0x110] s t ∧
        t = { s with regs := t.regs, cleRam := t.cleRam, cyc := t.cyc, cle := t.cle, ecc := t.ecc, memSys := t.memSys, mtr := t.mtr, mxe := t.mxe, rxe := t.rxe, safe := t.safe, mirror := t.mirror, agl := t.agl, lantern := t.lantern, eth := t.eth, can := t.can })) ∧
  (∀ (f : List Byte) (h : State) (s : State),
      linkRuns s = true →
      lkValid f = true →
      lkF f 0 1 = 8 →
      headerSeen s f = h →
      Permitted s h →
      lkF f 4 4 = h.mirror.rxSeq →
      role h ≠ 2 →
      role h ≠ 5 →
      Completes (.peerResetReceive f) s (fun t => t = { h with mirror := { h.mirror with rxSeq := seqNext32 h.mirror.rxSeq } })) ∧
  (∀ (f : List Byte) (h : State) (s : State),
      linkRuns s = true →
      lkValid f = true →
      lkF f 0 1 = 8 →
      headerSeen s f = h →
      Permitted s h →
      lkF f 4 4 = h.mirror.rxSeq →
      role h = 2 ∨ role h = 5 →
      resettable h = true →
      shut h = false →
      Completes (.peerResetReceive f) s (fun t =>
        rdn t Reg.SYS_RSTCAUSE = (rdn h Reg.SYS_RSTCAUSE ||| (32 ||| ((if wdgDue h then 8 else 0) ||| (if safeResetDue h then 16 else 0)))) ∧ (h.cyc.ret.phase ≠ .data → t.mem = h.mem) ∧ t.efuse = h.efuse ∧ t.pending = h.pending ∧ t.start.step = .filling ∧ t.clock = { running := h.clock.running } ∧ role t = 0)) ∧
  (∀ (f : List Byte) (h : State) (s : State),
      linkRuns s = true →
      lkValid f = true →
      lkF f 0 1 = 9 →
      headerSeen s f = h →
      Permitted s h →
      lkF f 4 4 = h.mirror.rxSeq →
      role h = 2 →
      Completes (.axisStartReceive f) s (fun t => t = { h with mirror := { h.mirror with axisStarts := h.mirror.axisStarts ++ [lkTask f], rxSeq := seqNext32 h.mirror.rxSeq } })) ∧
  (∀ (f : List Byte) (h : State) (s : State),
      linkRuns s = true →
      lkValid f = true →
      lkF f 0 1 = 12 →
      headerSeen s f = h →
      Permitted s h →
      lkF f 4 4 = h.mirror.rxSeq →
      Completes (.swapReceive f) s (fun t => t.mirror.lastValid = s.now ∧ t.mirror.peerRole = lkF f 2 2 % 8 ∧ t.mirror.peerSync = lkF f 2 2 / 16 % 4 ∧ t = { h with mirror := { h.mirror with rxSeq := seqNext32 h.mirror.rxSeq } })) ∧
  (∀ (f : List Byte) (h : State) (s : State),
      linkRuns s = true →
      lkValid f = true →
      lkF f 0 1 = 10 →
      headerSeen s f = h →
      Permitted s h →
      lkF f 4 4 = h.mirror.rxSeq →
      role h ≠ 4 ∨ rdn h Reg.MIRROR_BOOT_LEN = 0 ∨ s.now < h.mirror.bootUntil →
      Completes (.bootReqReceive f) s (fun t => t = { h with mirror := { h.mirror with rxSeq := seqNext32 h.mirror.rxSeq } })) ∧
  (∀ (f : List Byte) (h : State) (s : State),
      linkRuns s = true →
      lkValid f = true →
      lkF f 0 1 = 10 →
      headerSeen s f = h →
      Permitted s h →
      lkF f 4 4 = h.mirror.rxSeq →
      role h = 4 →
      rdn h Reg.MIRROR_BOOT_LEN ≠ 0 →
      h.mirror.bootUntil ≤ s.now →
      Permitted s (readScan (setMirror h (fun m => { m with rxSeq := seqNext32 m.rxSeq })) 10 (rdn h Reg.MIRROR_BOOT_SRC) (rdn h Reg.MIRROR_BOOT_LEN)).2 →
      Completes (.bootReqReceive f) s (fun t =>
        t.mirror.lastValid = s.now ∧ t.mirror.peerRole = lkF f 2 2 % 8 ∧ t.mirror.peerSync = lkF f 2 2 / 16 % 4 ∧ t.mirror.sent.length = h.mirror.sent.length + (rdn h Reg.MIRROR_BOOT_LEN + 4095) / 4096 ∧ t.mirror.rxSeq = seqNext32 h.mirror.rxSeq ∧ s.now < t.mirror.bootUntil ∧
        KeepsBlocks [0x10, 0x16, 0x20, 0x23, 0x40, 0x70, 0x80, 0xa0, 0xb0, 0x100, 0x110] s t ∧
        t = { s with free := t.free, regs := t.regs, mem := t.mem, cleRam := t.cleRam, canRam := t.canRam, arb := t.arb, cyc := t.cyc, cle := t.cle, ecc := t.ecc, memSys := t.memSys, mtr := t.mtr, mxe := t.mxe, rxe := t.rxe, safe := t.safe, mirror := t.mirror, agl := t.agl, lantern := t.lantern, eth := t.eth, can := t.can })) ∧
  (∀ (s : State),
      linkRuns s = true →
      bootFromPeer s = true →
      s.boot.image = [] →
      s.mirror.bootReqAt = 0 →
      Completes .bootReqSend s (fun t =>
        t.mirror = { s.mirror with bootReqAt := monoNs s + 1, sent := s.mirror.sent ++ [linkFrame s 10 0 s.mirror.txSeq 0 []], txSeq := (s.mirror.txSeq + 1) % 2 ^ 32, lastSent := s.now } ∧ t.boot = { s.boot with requested := true } ∧ t = { s with mirror := t.mirror, boot := t.boot })) ∧
  (∀ (f : List Byte) (h : State) (s : State),
      linkRuns s = true →
      lkValid f = true →
      lkF f 0 1 = 11 →
      headerSeen s f = h →
      Permitted s h →
      lkF f 4 4 = h.mirror.rxSeq →
      bootFromPeer h = true →
      Completes (.bootDataReceive f) s (fun t =>
        t.boot = { h.boot with image := h.boot.image ++ lkPayload f } ∧ t.mirror = { h.mirror with rxSeq := seqNext32 h.mirror.rxSeq } ∧ t = { h with boot := t.boot, mirror := t.mirror }))

/-- The set whose freeze ends first leaves the freezing sets and is sent where the link is free; a set sent leaves the link. A standby takes a SET_BEGIN that continues its task's numbers and starts to receive; with another number or image it is UNSYNCED. SET_DATA adds one item; SET_END puts the set in the journal and acknowledges it. A journalled set that is due is applied: it leaves the journal, and where the journal reads without error TSEQ takes its number, else the unit is UNSYNCED. Said where no memory access made is a host error. (R354, R356, R358, R359, R361, R362, R368) -/
def Obligations.MirrorCopySets : Prop :=
  (∀ (x : MirrorSet) (s : State),
      firstFreeze s.mirror.freezing = some x →
      x.frozenAt ≤ s.now →
      mirrorRuns s = true →
      Completes .freezeEnd s (fun t =>
        t.mirror.freezing = s.mirror.freezing.erase x ∧ (s.mirror.sending ≠ none → t.mirror = { s.mirror with freezing := s.mirror.freezing.erase x, ready := s.mirror.ready ++ [x] }) ∧
        (s.mirror.sending = none → s.mirror.ready = [] → t.mirror.sending = some { x with frozenAt := s.now } ∧ t.mirror.ready = []) ∧ t = { s with mirror := t.mirror })) ∧
  (∀ (x : MirrorSet) (s : State),
      s.mirror.sending = some x →
      x.frozenAt + linkTime x ≤ s.now →
      mirrorRuns s = true →
      Completes .setSent s (fun t =>
        (s.mirror.ready = [] → t.mirror = { s.mirror with sending := none }) ∧ (∀ y l, s.mirror.ready = y :: l → t.mirror.sending = some { y with frozenAt := s.now } ∧ t.mirror.ready = l) ∧ t = { s with mirror := t.mirror })) ∧
  (∀ (f : List Byte) (h : State) (s : State),
      linkRuns s = true →
      lkValid f = true →
      lkF f 0 1 = 2 →
      headerSeen s f = h →
      Permitted s h →
      role h = 2 →
      syncOf h = 1 →
      lkTask f ∉ h.mirror.firstSeen →
      lkF f 16 8 = imageId h →
      Completes (.setBeginReceive f) s (fun t =>
        rdn t (Reg.MIRROR_TSEQ (lkTask f)) = lkF f 4 4 ∧ t.mirror.firstSeen = h.mirror.firstSeen ++ [lkTask f] ∧ syncOf t = 1 ∧
        (∃ x, t.mirror.receiving = some x ∧ x.task = lkTask f ∧ x.number = lkF f 4 4 ∧ x.mono = lkF f 24 8 ∧ x.items = []) ∧
        KeepsBlocks [0x10, 0x16, 0x20, 0x23, 0x40, 0x70, 0x80, 0xa0, 0xb0, 0x100, 0x110] s t ∧
        t = { s with regs := t.regs, cleRam := t.cleRam, cyc := t.cyc, cle := t.cle, ecc := t.ecc, memSys := t.memSys, mtr := t.mtr, mxe := t.mxe, rxe := t.rxe, safe := t.safe, mirror := t.mirror, agl := t.agl, lantern := t.lantern, eth := t.eth, can := t.can })) ∧
  (∀ (f : List Byte) (h : State) (s : State),
      linkRuns s = true →
      lkValid f = true →
      lkF f 0 1 = 2 →
      headerSeen s f = h →
      Permitted s h →
      role h = 2 →
      syncOf h ≠ 0 →
      lkF f 16 8 ≠ imageId h →
      Completes (.setBeginReceive f) s (fun t => syncOf t = 0 ∧ t.mirror.receiving = none ∧
        KeepsBlocks [0x10, 0x16, 0x20, 0x23, 0x40, 0x70, 0x80, 0xa0, 0xb0, 0x100, 0x110] s t ∧
        t = { s with regs := t.regs, cleRam := t.cleRam, cyc := t.cyc, cle := t.cle, ecc := t.ecc, memSys := t.memSys, mtr := t.mtr, mxe := t.mxe, rxe := t.rxe, safe := t.safe, mirror := t.mirror, agl := t.agl, lantern := t.lantern, eth := t.eth, can := t.can })) ∧
  (∀ (f : List Byte) (h : State) (x : MirrorSet) (s : State),
      linkRuns s = true →
      lkValid f = true →
      lkF f 0 1 = 3 →
      headerSeen s f = h →
      Permitted s h →
      lkF f 4 4 = h.mirror.rxSeq →
      h.mirror.receiving = some x →
      role h = 2 →
      x.task = lkTask f →
      Completes (.setDataReceive f) s (fun t => t = { h with mirror := { h.mirror with receiving := some { x with items := x.items ++ [(lkF f 16 2, lkF f 20 4, (lkPayload f).drop 8)] }, rxSeq := seqNext32 h.mirror.rxSeq } })) ∧
  (∀ (f : List Byte) (h : State) (x : MirrorSet) (s : State),
      linkRuns s = true →
      lkValid f = true →
      lkF f 0 1 = 4 →
      headerSeen s f = h →
      Permitted s h →
      lkF f 4 4 = h.mirror.rxSeq →
      h.mirror.receiving = some x →
      role h = 2 →
      x.task = lkTask f →
      Permitted s (scribble (setMirror h (fun m => { m with rxSeq := seqNext32 m.rxSeq })) (rdn h Reg.MIRROR_JRNL) (setBytes x)) →
      Completes (.setEndReceive f) s (fun t =>
        t.mirror.receiving = none ∧ t.mirror.journal = h.mirror.journal ++ [{ x with frozenAt := s.now }] ∧ t.mirror.rxSeq = seqNext32 h.mirror.rxSeq ∧ t.mirror.sent.length = h.mirror.sent.length + 1 ∧
        KeepsBlocks [0x10, 0x16, 0x20, 0x23, 0x40, 0x70, 0x80, 0xa0, 0xb0, 0x100, 0x110] s t ∧
        t = { s with free := t.free, regs := t.regs, mem := t.mem, cleRam := t.cleRam, canRam := t.canRam, arb := t.arb, cyc := t.cyc, cle := t.cle, ecc := t.ecc, memSys := t.memSys, mtr := t.mtr, mxe := t.mxe, rxe := t.rxe, safe := t.safe, mirror := t.mirror, agl := t.agl, lantern := t.lantern, eth := t.eth, can := t.can })) ∧
  (∀ (x : MirrorSet) (l : List MirrorSet) (s : State),
      s.mirror.journal = x :: l →
      mirrorRuns s = true →
      role s = 2 ∨ (role s = 3 ∧ syncOf s ≠ 1 ∧ x.exch = false) →
      x.frozenAt + (setBytes x + 1) / 2 ≤ s.now →
      (readScan s 10 (rdn s Reg.MIRROR_JRNL) (setBytes x)).1 = none →
      x.task < 16 →
      Permitted s (applySet s x) →
      Completes .setApply s (fun t =>
        t.mirror.journal = l ∧ rdn t (Reg.MIRROR_TSEQ x.task) = x.number % 2 ^ 32 ∧
        KeepsBlocks [0x10, 0x16, 0x17, 0x20, 0x23, 0x35, 0x40, 0x50, 0x60, 0x70, 0x80, 0xa0, 0xb0, 0x100, 0x110] s t ∧
        t = { s with free := t.free, regs := t.regs, mem := t.mem, cleRam := t.cleRam, canRam := t.canRam, arb := t.arb, cyc := t.cyc, cle := t.cle, ecc := t.ecc, memSys := t.memSys, mmu := t.mmu, prism := t.prism, mtr := t.mtr, mxe := t.mxe, rxe := t.rxe, safe := t.safe, mirror := t.mirror, agl := t.agl, lantern := t.lantern, eth := t.eth, can := t.can })) ∧
  (∀ (x : MirrorSet) (l : List MirrorSet) (a : Nat) (s : State),
      s.mirror.journal = x :: l →
      mirrorRuns s = true →
      role s = 2 →
      x.frozenAt + (setBytes x + 1) / 2 ≤ s.now →
      (readScan s 10 (rdn s Reg.MIRROR_JRNL) (setBytes x)).1 = some a →
      Permitted s (applySet s x) →
      Completes .setApply s (fun t => t.mirror.journal = l ∧ syncOf t = 0 ∧
        KeepsBlocks [0x10, 0x16, 0x17, 0x20, 0x23, 0x35, 0x40, 0x50, 0x60, 0x70, 0x80, 0xa0, 0xb0, 0x100, 0x110] s t ∧
        t = { s with free := t.free, regs := t.regs, mem := t.mem, cleRam := t.cleRam, canRam := t.canRam, arb := t.arb, cyc := t.cyc, cle := t.cle, ecc := t.ecc, memSys := t.memSys, mmu := t.mmu, prism := t.prism, mtr := t.mtr, mxe := t.mxe, rxe := t.rxe, safe := t.safe, mirror := t.mirror, agl := t.agl, lantern := t.lantern, eth := t.eth, can := t.can }))

/-- Where no memory access made is a host error: a step within PTP_STEP_MAX, or forced, sets PTP time to its sum at once, adds one to STEP_GEN modulo 256, clears STEP_REFUSED and sets INT_RAW bit 0; SET does so with the time of its registers. A larger step is refused: time stands, STEP_REFUSED and INT_RAW bit 1 are set. FORCE_NEXT arms. A slew takes its nanoseconds with SLEW_BUSY, and one that has ended clears it and sets bit 3. Reads of PTP_NOW_NS, MONO_LO and an Echo tag answer and latch the words beside them; an Echo entry lost in the CLK_PTP cycle of the read is accepted after all. (R371, R372, R375, R376, R377, R378, R388) -/
def Obligations.PtpTimeCommands : Prop :=
  (∀ (ini : Fin 16) (force : Bool) (s : State),
      Reachable s ini 0xC0 0x84 →
      stepTooFar s (stepOffset s) = false ∨ force = true →
      0 ≤ (s.clock.ptp : Int) + stepOffset s →
      Permitted s (ptpStepBy (granted s ini) (stepOffset (granted s ini)) force) →
      Completes (.ptpStep ini force) s (fun t =>
        (t.clock.ptp : Int) = (s.clock.ptp : Int) + stepOffset s ∧ t.clock = { s.clock with ptp := t.clock.ptp } ∧ fld t Reg.PTP_STAT F.PTP_STAT_STEP_GEN = (fld s Reg.PTP_STAT F.PTP_STAT_STEP_GEN + 1) % 256 ∧ flag t Reg.PTP_STAT F.PTP_STAT_STEP_REFUSED = false ∧ bitAt (rd t (Reg.INT_RAW 0xC0)) 0 = true ∧
        KeepsBlocks [0xc0, 0xc5] s t ∧
        t = { s with free := t.free, regs := t.regs, arb := t.arb, clock := t.clock, rtc := t.rtc, cyc := t.cyc, mtr := t.mtr, rxe := t.rxe, handed := t.handed })) ∧
  (∀ (ini : Fin 16) (s : State),
      Reachable s ini 0xC0 0x84 →
      stepTooFar s (stepOffset s) = true →
      Completes (.ptpStep ini false) s (fun t =>
        t.clock = s.clock ∧ flag t Reg.PTP_STAT F.PTP_STAT_STEP_REFUSED = true ∧ fld t Reg.PTP_STAT F.PTP_STAT_STEP_GEN = fld s Reg.PTP_STAT F.PTP_STAT_STEP_GEN ∧ bitAt (rd t (Reg.INT_RAW 0xC0)) 1 = true ∧
        KeepsRegs [Reg.PTP_STAT, Reg.PTP_REFUSED_LO, Reg.PTP_REFUSED_HI, Reg.INT_RAW 0xC0] s t ∧ t = { s with regs := t.regs, arb := t.arb, free := t.free })) ∧
  (∀ (ini : Fin 16) (force : Bool) (s : State),
      Reachable s ini 0xC0 0x84 →
      stepTooFar s (setOffset s) = false ∨ force = true →
      Permitted s (ptpStepBy (granted s ini) (setOffset (granted s ini)) force) →
      Completes (.ptpSet ini force) s (fun t =>
        t.clock.ptp = ((rdn s Reg.PTP_SET_SEC_LO + 2 ^ 32 * fld s Reg.PTP_SET_SEC_HI F.PTP_SET_SEC_HI_V) * 10 ^ 9 + fld s Reg.PTP_SET_NS F.PTP_SET_NS_NS) * ptpUnit ∧ t.clock = { s.clock with ptp := t.clock.ptp } ∧
        fld t Reg.PTP_STAT F.PTP_STAT_STEP_GEN = (fld s Reg.PTP_STAT F.PTP_STAT_STEP_GEN + 1) % 256 ∧ bitAt (rd t (Reg.INT_RAW 0xC0)) 0 = true ∧
        KeepsBlocks [0xc0, 0xc5] s t ∧
        t = { s with free := t.free, regs := t.regs, arb := t.arb, clock := t.clock, rtc := t.rtc, cyc := t.cyc, mtr := t.mtr, rxe := t.rxe, handed := t.handed })) ∧
  (∀ (ini : Fin 16) (s : State),
      Reachable s ini 0xC0 0x84 →
      Completes (.forceNext ini) s (fun t => flag t Reg.PTP_STAT F.PTP_STAT_FORCE_ARMED = true ∧ KeepsRegs [Reg.PTP_STAT] s t ∧ t = { s with regs := t.regs, arb := t.arb })) ∧
  (∀ (ini : Fin 16) (value : Word) (s : State),
      Reachable s ini 0xC0 0x64 →
      servoEn s = false →
      Completes (.ptpSlewWrite ini value) s (fun t =>
        t.clock = { s.clock with slewLeft := (signed 32 value.toNat).natAbs * ptpUnit, slewNeg := decide (signed 32 value.toNat < 0) } ∧ rd t Reg.PTP_SLEW_LEFT = value ∧ flag t Reg.PTP_STAT F.PTP_STAT_SLEW_BUSY = true ∧
        KeepsRegs [Reg.PTP_SLEW_LEFT, Reg.PTP_STAT] s t ∧ t = { s with regs := t.regs, arb := t.arb, clock := t.clock })) ∧
  (∀ (s : State),
      flag s Reg.PTP_STAT F.PTP_STAT_SLEW_BUSY = true →
      s.clock.slewLeft = 0 →
      Completes .slewDone s (fun t =>
        flag t Reg.PTP_STAT F.PTP_STAT_SLEW_BUSY = false ∧ bitAt (rd t (Reg.INT_RAW 0xC0)) 3 = true ∧ KeepsRegs [Reg.PTP_STAT, Reg.INT_RAW 0xC0] s t ∧ t = { s with regs := t.regs })) ∧
  (∀ (s : State),
      pageErr s 0xC0 0x40 = none →
      Completes .ptpNowNsRead s (fun t =>
        t.rdata = [BitVec.ofNat 32 (ptpNs s % 10 ^ 9)] ∧ rdn t Reg.PTP_NOW_NS = ptpNs s % 10 ^ 9 ∧ rdn t Reg.PTP_NOW_SEC_LO = ptpNs s / 10 ^ 9 % 2 ^ 32 ∧ rdn t Reg.PTP_NOW_SEC_HI = ptpNs s / 10 ^ 9 / 2 ^ 32 % 65536 ∧
        rdn t Reg.PTP_NOW_MONO_LO = monoNs s % 2 ^ 32 ∧ rdn t Reg.PTP_NOW_MONO_HI = monoNs s / 2 ^ 32 % 2 ^ 32 ∧
        KeepsRegs [Reg.PTP_NOW_NS, Reg.PTP_NOW_SEC_LO, Reg.PTP_NOW_SEC_HI, Reg.PTP_NOW_FRAC, Reg.PTP_NOW_MONO_LO, Reg.PTP_NOW_MONO_HI] s t ∧ t = { s with regs := t.regs, rdata := t.rdata })) ∧
  (∀ (s : State),
      pageErr s 0xC0 0x58 = none →
      Completes .monoLoRead s (fun t =>
        t.rdata = [BitVec.ofNat 32 (monoNs s)] ∧ rdn t Reg.MONO_HI = monoNs s / 2 ^ 32 % 2 ^ 32 ∧ KeepsRegs [Reg.MONO_LO, Reg.MONO_HI] s t ∧ t = { s with regs := t.regs, rdata := t.rdata })) ∧
  (∀ (k : Fin 4) (s : State),
      pageErr s (0xC1 + k.val) 0x48 = none →
      echoOf s k.val = [] →
      Completes (.ptpEchoTagRead k) s (fun t =>
        t.rdata = [0] ∧ rd t (Reg.PTP_ECHO_TAG k.val) = 0 ∧ KeepsRegs [Reg.PTP_ECHO_TAG k.val, Reg.PTP_ECHO_NS k.val, Reg.PTP_ECHO_SEC_LO k.val, Reg.PTP_ECHO_SEC_HI k.val] s t ∧ t = { s with regs := t.regs, rdata := t.rdata })) ∧
  (∀ (k : Fin 4) (tag : Nat) (gen : Nat) (late : Bool) (n : Nat) (q : List (Nat × Nat × Bool × Nat)) (s : State),
      pageErr s (0xC1 + k.val) 0x48 = none →
      echoOf s k.val = (tag, gen, late, n) :: q →
      (mget {} s.clock.echoLost k.val).cycle ≠ s.now / 20 + 1 →
      Completes (.ptpEchoTagRead k) s (fun t =>
        t.rdata = [BitVec.ofNat 32 (tag + 65536 * gen + (if late then 0x1000000 else 0) + 0x80000000)] ∧ rdn t (Reg.PTP_ECHO_NS k.val) = n % 10 ^ 9 ∧ rdn t (Reg.PTP_ECHO_SEC_LO k.val) = n / 10 ^ 9 % 2 ^ 32 ∧ echoOf t k.val = q ∧ (∀ j < 4, j ≠ k.val → echoOf t j = echoOf s j) ∧
        KeepsBlocks [0xc0] s t ∧
        t = { s with rdata := t.rdata, regs := t.regs, clock := t.clock })) ∧
  (∀ (k : Fin 4) (e : Nat × Nat × Bool × Nat) (q : List (Nat × Nat × Bool × Nat)) (s : State),
      pageErr s (0xC1 + k.val) 0x48 = none →
      echoOf s k.val = e :: q →
      (mget {} s.clock.echoLost k.val).cycle = s.now / 20 + 1 →
      Completes (.ptpEchoTagRead k) s (fun t =>
        echoOf t k.val = q ++ [(mget {} s.clock.echoLost k.val).entry] ∧ rdn t (Reg.PTP_ECHO_DROP k.val) = (mget {} s.clock.echoLost k.val).drops % 2 ^ 32 ∧ (∀ j < 4, j ≠ k.val → echoOf t j = echoOf s j) ∧
        KeepsBlocks [0xc0] s t ∧
        t = { s with rdata := t.rdata, regs := t.regs, clock := t.clock }))

/-- Enabling the servo takes PTP_RATE as its integral and enters HOLDOVER; disabling it is OFF. A sample of another STEP_GEN is discarded, counted and sets INT_RAW bit 4. An accepted sample is noted with its time and tag; while OFF nothing else follows, in HOLDOVER it counts towards QUAL_N. Without a sample for HOLD_TMO the servo enters HOLDOVER. (R379, R380, R381, R382) -/
def Obligations.ServoCommands : Prop :=
  (∀ (ini : Fin 16) (value : Word) (s : State),
      Reachable s ini 0xC0 0x8C →
      servoCfgErr value = none →
      servoEn s = false →
      fieldGet F.PTP_SERVO_CFG_EN value = 1 →
      Completes (.servoEnable ini value) s (fun t =>
        rd t Reg.PTP_SERVO_CFG = value ∧ servo t = 1 ∧ t.clock.integral = ptpRate s * 65536 ∧ t.clock.qual = 0 ∧ t.clock.ptp = s.clock.ptp ∧
        KeepsBlocks [0xc0] s t ∧
        t = { s with regs := t.regs, arb := t.arb, clock := t.clock })) ∧
  (∀ (ini : Fin 16) (value : Word) (s : State),
      Reachable s ini 0xC0 0x8C →
      servoCfgErr value = none →
      servoEn s = true →
      fieldGet F.PTP_SERVO_CFG_EN value = 0 →
      Completes (.servoEnable ini value) s (fun t =>
        rd t Reg.PTP_SERVO_CFG = value ∧ servo t = 0 ∧ t.clock.ptp = s.clock.ptp ∧ t.clock.integral = s.clock.integral ∧
        KeepsBlocks [0xc0] s t ∧
        t = { s with regs := t.regs, arb := t.arb, clock := t.clock })) ∧
  (∀ (ini : Fin 16) (value : Word) (s : State),
      Reachable s ini 0xC0 0xA4 →
      fld s Reg.PTP_OFS_TAG F.PTP_OFS_TAG_STEP_GEN ≠ stepGen s →
      Completes (.offsetSampleSubmit ini value) s (fun t =>
        rdn t Reg.PTP_SMP_DISC = min (rdn s Reg.PTP_SMP_DISC + 1) 0xFFFFFFFF ∧ bitAt (rd t (Reg.INT_RAW 0xC0)) 4 = true ∧ KeepsRegs [Reg.PTP_SMP_DISC, Reg.INT_RAW 0xC0] s t ∧ t = { s with regs := t.regs, arb := t.arb })) ∧
  (∀ (ini : Fin 16) (value : Word) (s : State),
      Reachable s ini 0xC0 0xA4 →
      fld s Reg.PTP_OFS_TAG F.PTP_OFS_TAG_STEP_GEN = stepGen s →
      sampleErr s (sampleOffset s value) = none →
      Permitted s (sampleIn (granted s ini) (fld s Reg.PTP_OFS_TAG F.PTP_OFS_TAG_MASTER) (sampleOffset s value)) →
      Completes (.offsetSampleSubmit ini value) s (fun t =>
        t.clock.sampleAt = monoNs s ∧ t.clock.prevTag = fld s Reg.PTP_OFS_TAG F.PTP_OFS_TAG_MASTER ∧ rd t Reg.PTP_SMP_DISC = rd s Reg.PTP_SMP_DISC ∧
        (servo s = 0 → t.clock = { s.clock with sampleAt := t.clock.sampleAt, prevTag := t.clock.prevTag } ∧ servo t = 0) ∧
        KeepsBlocks [0xa0, 0xc0, 0xc5] s t ∧
        t = { s with free := t.free, regs := t.regs, arb := t.arb, clock := t.clock, rtc := t.rtc, cyc := t.cyc, mtr := t.mtr, rxe := t.rxe, handed := t.handed })) ∧
  (∀ (ini : Fin 16) (value : Word) (s : State),
      Reachable s ini 0xC0 0xA4 →
      fld s Reg.PTP_OFS_TAG F.PTP_OFS_TAG_STEP_GEN = stepGen s →
      servo s = 1 →
      fld s Reg.PTP_OFS_TAG F.PTP_OFS_TAG_MASTER = s.clock.prevTag →
      s.clock.qual + 1 < fld s Reg.PTP_SERVO_CFG F.PTP_SERVO_CFG_QUAL_N →
      Completes (.offsetSampleSubmit ini value) s (fun t =>
        t.clock = { s.clock with sampleAt := monoNs s, qual := s.clock.qual + 1 } ∧ t = { s with arb := t.arb, clock := t.clock })) ∧
  (∀ (s : State),
      servo s = 2 ∨ servo s = 3 →
      s.clock.sampleAt + fld s Reg.PTP_SERVO_CFG F.PTP_SERVO_CFG_HOLD_TMO * 1000000 ≤ monoNs s →
      Completes .holdoverTimeout s (fun t =>
        servo t = 1 ∧ t.clock.qual = 0 ∧ t.clock.ptp = s.clock.ptp ∧ t.clock.holdFrom = monoNs s ∧ bitAt (rd t (Reg.INT_RAW 0xC0)) 2 = true ∧
        KeepsBlocks [0xc0] s t ∧
        t = { s with free := t.free, regs := t.regs, clock := t.clock }))

/-- A read of a count register freezes all eight words and answers its own; the read of the last one, or 250 ms with INT_RAW bit 4, ends the freeze. SET with a legal staging area waits for its commit edge, SET_DEFER for the next change of the PTP second with SET_PEND set; CANCEL ends a SET_DEFER that waits, and leaves a SET to its edge. The commit writes the staged date into the count and sets INT_RAW bit 5; a SET_DEFER whose second has not changed goes on waiting. Each second the count advances. Loss of backup power sets Saturday 1 January 2000 and the alarms to their reset values. (R391, R392, R393, R394, R395, R396) -/
def Obligations.RtcCommands : Prop :=
  (∀ (i : Fin 8) (s : State),
      pageErr s 0xC5 (0x40 + 4 * i.val) = none →
      s.rtc.frozen = none →
      Completes (.rtcCountRead i) s (fun t =>
        t.rdata = [(rtcWords s).getD i.val 0] ∧ t.rtc = { s.rtc with frozen := if i = 7 then none else some (monoNs s, rtcWords s) } ∧ flag t Reg.RTC_STAT F.RTC_STAT_FROZEN = (i != 7) ∧ KeepsRegs [Reg.RTC_STAT] s t ∧ t = { s with regs := t.regs, rtc := t.rtc, rdata := t.rdata })) ∧
  (∀ (i : Fin 8) (n : Nat) (w : List Word) (s : State),
      pageErr s 0xC5 (0x40 + 4 * i.val) = none →
      s.rtc.frozen = some (n, w) →
      n + 250000000 ≤ monoNs s →
      Completes (.rtcCountRead i) s (fun t =>
        t.rdata = [(rtcWords s).getD i.val 0] ∧ t.rtc = { s.rtc with frozen := if i = 7 then none else some (monoNs s, rtcWords s) } ∧ bitAt (rd t (Reg.INT_RAW 0xC5)) 4 = true ∧ KeepsRegs [Reg.RTC_STAT, Reg.INT_RAW 0xC5] s t ∧ t = { s with regs := t.regs, rtc := t.rtc, rdata := t.rdata })) ∧
  (∀ (i : Fin 8) (n : Nat) (w : List Word) (s : State),
      pageErr s 0xC5 (0x40 + 4 * i.val) = none →
      s.rtc.frozen = some (n, w) →
      monoNs s < n + 250000000 →
      Completes (.rtcCountRead i) s (fun t =>
        t.rdata = [w.getD i.val 0] ∧ t.rtc = { s.rtc with frozen := if i = 7 then none else some (n, w) } ∧ flag t Reg.RTC_STAT F.RTC_STAT_FROZEN = (i != 7) ∧ KeepsRegs [Reg.RTC_STAT] s t ∧ t = { s with regs := t.regs, rtc := t.rtc, rdata := t.rdata })) ∧
  (∀ (n : Nat) (w : List Word) (s : State),
      s.rtc.frozen = some (n, w) →
      n + 250000000 ≤ monoNs s →
      Completes .shadowExpired s (fun t =>
        t.rtc = { s.rtc with frozen := none } ∧ flag t Reg.RTC_STAT F.RTC_STAT_FROZEN = false ∧ bitAt (rd t (Reg.INT_RAW 0xC5)) 4 = true ∧ KeepsRegs [Reg.RTC_STAT, Reg.INT_RAW 0xC5] s t ∧ t = { s with regs := t.regs, rtc := t.rtc })) ∧
  (∀ (ini : Fin 16) (s : State),
      Reachable s ini 0xC5 0x7C →
      flag s Reg.RTC_STAT F.RTC_STAT_SET_PEND = false →
      stagedOk s = true →
      Completes (.rtcSet ini) s (fun t =>
        t.rtc = { s.rtc with setNow := some s.now } ∧ flag t Reg.RTC_STAT F.RTC_STAT_SET_AT_STEP = false ∧ KeepsRegs [Reg.RTC_STAT] s t ∧ t = { s with regs := t.regs, arb := t.arb, rtc := t.rtc })) ∧
  (∀ (ini : Fin 16) (s : State),
      Reachable s ini 0xC5 0x7C →
      flag s Reg.RTC_STAT F.RTC_STAT_SET_PEND = false →
      stagedOk s = true →
      Completes (.rtcSetDefer ini) s (fun t =>
        t.rtc = { s.rtc with setPend := some (ptpSec s), setChanged := false } ∧ flag t Reg.RTC_STAT F.RTC_STAT_SET_PEND = true ∧ flag t Reg.RTC_STAT F.RTC_STAT_SET_AT_STEP = false ∧ KeepsRegs [Reg.RTC_STAT] s t ∧ t = { s with regs := t.regs, arb := t.arb, rtc := t.rtc })) ∧
  (∀ (ini : Fin 16) (s : State),
      Reachable s ini 0xC5 0x7C →
      s.rtc.setPend ≠ none →
      Completes (.rtcCancel ini) s (fun t =>
        t.rtc = { s.rtc with setPend := none, setChanged := false, setNow := if s.rtc.setChanged then none else s.rtc.setNow } ∧ flag t Reg.RTC_STAT F.RTC_STAT_SET_PEND = false ∧ KeepsRegs [Reg.RTC_STAT] s t ∧ t = { s with regs := t.regs, arb := t.arb, rtc := t.rtc })) ∧
  (∀ (n : Nat) (s : State),
      s.rtc.setNow = some n →
      commitEdge n ≤ rtcEdges s.now →
      commitEdge n ≤ s.rtc.base + 32768 →
      Completes .rtcCommit s (fun t =>
        (∀ k < 7, rd t (Reg.RTC_SEC + 4 * k) = BitVec.ofNat 32 ((let c := rtcStaged s; [bcd c.sec, bcd c.min, bcd c.hour, c.wday, bcd c.day, bcd c.mon, bcd (c.year / 100) * 256 + bcd c.year]).getD k 0)) ∧ t.rtc = { s.rtc with base := commitEdge n, setNow := none, setPend := if s.rtc.setPend.isSome && !s.rtc.setChanged then s.rtc.setPend else none, setChanged := false } ∧ flag t Reg.RTC_STAT F.RTC_STAT_SET_PEND = (s.rtc.setPend.isSome && !s.rtc.setChanged) ∧ bitAt (rd t (Reg.INT_RAW 0xC5)) 5 = true ∧
        KeepsRegs [Reg.RTC_SEC + 0, Reg.RTC_SEC + 4, Reg.RTC_SEC + 8, Reg.RTC_SEC + 12, Reg.RTC_SEC + 16, Reg.RTC_SEC + 20, Reg.RTC_SEC + 24, Reg.RTC_STAT, Reg.INT_RAW 0xC5] s t ∧ t = { s with regs := t.regs, rtc := t.rtc })) ∧
  (∀ (s : State),
      s.rtc.base + 32768 ≤ rtcEdges s.now →
      (∀ n, s.rtc.setNow = some n → s.rtc.base + 32768 < commitEdge n) →
      Completes .rtcSecond s (fun t =>
        (∀ k < 7, rd t (Reg.RTC_SEC + 4 * k) = BitVec.ofNat 32 ((let c := nextSecond (rtcCount s); [bcd c.sec, bcd c.min, bcd c.hour, c.wday, bcd c.day, bcd c.mon, bcd (c.year / 100) * 256 + bcd c.year]).getD k 0)) ∧ t.rtc = { s.rtc with base := s.rtc.base + 32768 } ∧
        KeepsRegs [Reg.RTC_SEC + 0, Reg.RTC_SEC + 4, Reg.RTC_SEC + 8, Reg.RTC_SEC + 12, Reg.RTC_SEC + 16, Reg.RTC_SEC + 20, Reg.RTC_SEC + 24, Reg.INT_RAW 0xC5] s t ∧ t = { s with regs := t.regs, rtc := t.rtc })) ∧
  (∀ (s : State),
      Completes .backupPowerLoss s (fun t =>
        rdn t Reg.RTC_SEC = 0 ∧ rdn t (Reg.RTC_SEC + 12) = 6 ∧ rdn t (Reg.RTC_SEC + 16) = 1 ∧ rdn t (Reg.RTC_SEC + 20) = 1 ∧ rdn t (Reg.RTC_SEC + 24) = 0x2000 ∧ rd t Reg.RTC_ALM0_D = regReset Reg.RTC_ALM0_D ∧ t.rtc = { s.rtc with base := rtcEdges s.now, alarms := [] } ∧
        KeepsRegs [Reg.RTC_SEC + 0, Reg.RTC_SEC + 4, Reg.RTC_SEC + 8, Reg.RTC_SEC + 12, Reg.RTC_SEC + 16, Reg.RTC_SEC + 20, Reg.RTC_SEC + 24, Reg.RTC_ALM0_T, Reg.RTC_ALM0_D, Reg.RTC_ALM1_T, Reg.RTC_ALM1_D] s t ∧ t = { s with regs := t.regs, rtc := t.rtc }))

/-- A legal tail write is taken and, where no word holds an error, memory is as before. A head frame whose launch time is reached is marked so, in its queue; a late one is discarded and counted. The port starts the frame its selection chooses when it is idle; the frame leaves its queue. At its end the port is free of it and the frame is counted as sent, but in the power-fail state. Said where no memory access made is a host error. (R386, R402, R403, R404, R405) -/
def Obligations.EthernetTransmit : Prop :=
  (∀ (ini : Fin 16) (k : Fin 4) (q : Fin 8) (value : Word) (s : State),
      Reachable s ini (portPage k.val + 1) (0x48 + 0x20 * q.val) →
      tailErr s k.val q.val value = none →
      Permitted s (fetchRing k.val q.val 2048 (creditSync (wr (granted s ini) (Reg.ETH_TQ_TAIL (8 * k.val + q.val)) value) k.val)) →
      Completes (.ethTqTailWrite ini k q value) s (fun t =>
        rd t (Reg.ETH_TQ_TAIL (8 * k.val + q.val)) = value ∧ (s.ecc = [] → t.mem = s.mem) ∧
        KeepsBlocks [0x20, 0x23, 0xb0, 0xd0, 0x110] s t ∧
        t = { s with free := t.free, regs := t.regs, mem := t.mem, cleRam := t.cleRam, canRam := t.canRam, arb := t.arb, memSys := t.memSys, rxe := t.rxe, mirror := t.mirror, agl := t.agl, eth := t.eth, handed := t.handed })) ∧
  (∀ (k : Fin 4) (q : Fin 8) (f : TxFrame) (fs : List TxFrame) (s : State),
      queueOf s k.val q.val = f :: fs →
      portUp s k.val = true →
      heldAll s = false →
      f.launch ≠ none →
      f.reached = false →
      f.late = false →
      launchNow s k.val f = true →
      Completes (.launchTimeReached k q) s (fun t =>
        queueOf t k.val q.val = { f with reached := true } :: fs ∧ (∀ j, j ≠ 8 * k.val + q.val → mget [] t.handed j = mget [] s.handed j) ∧ t.mem = s.mem ∧ t.clock = s.clock ∧
        KeepsBlocks [0x17, 0x20, 0x23, 0x35, 0x50, 0xa0, 0xb0, 0xc0, 0xd0, 0xf0, 0x110] s t ∧
        t = { s with free := t.free, regs := t.regs, mem := t.mem, cleRam := t.cleRam, canRam := t.canRam, arb := t.arb, clock := t.clock, ecc := t.ecc, memSys := t.memSys, mmu := t.mmu, rxe := t.rxe, mirror := t.mirror, agl := t.agl, keys := t.keys, eth := t.eth, handed := t.handed })) ∧
  (∀ (k : Fin 4) (q : Fin 8) (f : TxFrame) (fs : List TxFrame) (s : State),
      queueOf s k.val q.val = f :: fs →
      portUp s k.val = true →
      heldAll s = false →
      f.launch ≠ none →
      f.reached = false →
      f.late = true →
      f.ring = none →
      Permitted s (lateDiscard (creditSync s k.val) k.val q.val f) →
      Completes (.launchTimeReached k q) s (fun t =>
        (queueOf t k.val q.val).length = fs.length ∧ rdn t (Reg.PTP_LATE_CNT k.val) = min (rdn s (Reg.PTP_LATE_CNT k.val) + 1) 0xFFFFFFFF ∧ (f.slot = none → t.mem = s.mem) ∧
        KeepsBlocks [0x17, 0x20, 0x23, 0x35, 0x50, 0xa0, 0xb0, 0xc0, 0xd0, 0xf0, 0x110] s t ∧
        t = { s with free := t.free, regs := t.regs, mem := t.mem, cleRam := t.cleRam, canRam := t.canRam, arb := t.arb, clock := t.clock, ecc := t.ecc, memSys := t.memSys, mmu := t.mmu, rxe := t.rxe, mirror := t.mirror, agl := t.agl, keys := t.keys, eth := t.eth, handed := t.handed })) ∧
  (∀ (k : Fin 4) (q : Nat) (f : TxFrame) (fs : List TxFrame) (s : State),
      nextQueue s k.val = some q →
      queueOf s k.val q = f :: fs →
      portUp s k.val = true →
      heldAll s = false →
      (port s k.val).sending = none →
      (port s k.val).freeAt ≤ s.now →
      f.ring = none →
      f.slot = none →
      f.pair = none →
      f.tcIn = none →
      secures s k.val f = false →
      Permitted s (startFrame (popHead (creditSync s k.val) k.val q) k.val q f) →
      Completes (.frameTxStart k) s (fun t =>
        (∃ x, (port t k.val).sending = some x ∧ x.frame = f ∧ x.queue = q ∧ x.gen = stepGen s) ∧ (queueOf t k.val q).length = fs.length ∧ t.mem = s.mem ∧
        KeepsBlocks [0x17, 0x20, 0x23, 0x35, 0x50, 0xa0, 0xb0, 0xc0, 0xd0, 0xf0, 0x110] s t ∧
        t = { s with free := t.free, regs := t.regs, mem := t.mem, cleRam := t.cleRam, canRam := t.canRam, arb := t.arb, ecc := t.ecc, memSys := t.memSys, mmu := t.mmu, rxe := t.rxe, mirror := t.mirror, agl := t.agl, keys := t.keys, eth := t.eth, handed := t.handed })) ∧
  (∀ (k : Fin 4) (x : Sending) (s : State),
      (port s k.val).sending = some x →
      x.until0 ≤ s.now →
      x.frame.ring = none →
      heldAll s = false →
      Permitted s (txEnd s k.val x) →
      Completes (.frameTxEnd k) s (fun t =>
        (port t k.val).sending = none ∧ rdn t (Reg.ETH_CNT (12 * k.val + 1)) = min (rdn s (Reg.ETH_CNT (12 * k.val + 1)) + 1) 0xFFFFFFFF ∧ (x.frame.slot = none → t.mem = s.mem) ∧
        KeepsBlocks [0x17, 0x20, 0x23, 0x35, 0x50, 0xa0, 0xb0, 0xc0, 0xd0, 0xf0, 0x110] s t ∧
        t = { s with free := t.free, regs := t.regs, mem := t.mem, cleRam := t.cleRam, canRam := t.canRam, arb := t.arb, clock := t.clock, ecc := t.ecc, memSys := t.memSys, mmu := t.mmu, rxe := t.rxe, mirror := t.mirror, agl := t.agl, keys := t.keys, eth := t.eth })) ∧
  (∀ (k : Fin 4) (x : Sending) (s : State),
      (port s k.val).sending = some x →
      x.until0 ≤ s.now →
      heldAll s = true →
      Completes (.frameTxEnd k) s (fun t => port t k.val = { port s k.val with sending := none } ∧ (∀ j, j ≠ k.val → port t j = port s j) ∧ t = { s with eth := t.eth }))

/-- A frame with a wrong FCS only counts; a frame shorter than 60 bytes counts as a length error. A good untagged frame for the port that no rule steers goes to ring 0: HEAD advances, INT_RAW bit 0 is set, and memory changes in its buffer and descriptor alone, where none of its accesses is a host error. A legal tail write is taken. A link change of an enabled port shows in LINK and AN_DONE and sets INT_RAW bit 2 where LINK changes. An MDIO command makes BUSY until it completes, a read with its data. (R398, R400, R409, R411, R412) -/
def Obligations.EthernetReceiveAndLinks : Prop :=
  (∀ (k : Fin 4) (bytes : List Byte) (s : State),
      portUp s k.val = true →
      heldAll s = false →
      s.eth.second = s.now / (1000 * vcoMs) →
      s.eth.count < 4000000 →
      Completes (.frameReceive k bytes false) s (fun t =>
        rdn t (Reg.ETH_CNT (12 * k.val + 2)) = min (rdn s (Reg.ETH_CNT (12 * k.val + 2)) + 1) 0xFFFFFFFF ∧ t.eth = { s.eth with count := s.eth.count + 1 } ∧
        KeepsRegs [Reg.ETH_CNT (12 * k.val + 2)] s t ∧ t = { s with regs := t.regs, eth := t.eth })) ∧
  (∀ (k : Fin 4) (bytes : List Byte) (s : State),
      portUp s k.val = true →
      heldAll s = false →
      s.eth.second = s.now / (1000 * vcoMs) →
      s.eth.count < 4000000 →
      bytes.length < 60 →
      Completes (.frameReceive k bytes true) s (fun t =>
        rdn t (Reg.ETH_CNT (12 * k.val + 3)) = min (rdn s (Reg.ETH_CNT (12 * k.val + 3)) + 1) 0xFFFFFFFF ∧ KeepsRegs [Reg.ETH_CNT (12 * k.val + 3)] s t ∧ t = { s with regs := t.regs, eth := t.eth })) ∧
  (∀ (k : Fin 4) (bytes : List Byte) (s : State),
      portUp s k.val = true →
      heldAll s = false →
      s.eth.second = s.now / (1000 * vcoMs) →
      s.eth.count < 4000000 →
      2 ≤ k.val →
      60 ≤ bytes.length →
      bytes.length ≤ 1518 →
      fw bytes (typeAt bytes) 2 ≠ 0x8808 →
      addressOk s k.val bytes = true →
      flag s (Reg.ETH_CFG k.val) F.ETH_CFG_SEC = false →
      steerRxe s bytes = none →
      (∀ i < 16, steerMatch s k.val i bytes = false) →
      flag s (Reg.ETH_RQ_CFG (8 * k.val)) F.ETH_RQ_CFG_EN = true →
      rqHead s k.val 0 ≠ rqTail s k.val 0 →
      s.ecc = [] →
      bytes.length ≤ rdLE s (rdn s (Reg.ETH_RQ_BASE (8 * k.val)) + 32 * (rqHead s k.val 0 % rqSize s k.val 0) + 4) 2 →
      Permitted s (frameIn s k.val bytes true) →
      Completes (.frameReceive k bytes true) s (fun t =>
        rqHead t k.val 0 = (rqHead s k.val 0 + 1) % (2 * rqSize s k.val 0) % 2 ^ F.ETH_RQ_HEAD_IDX.width ∧ rdn t (Reg.ETH_CNT (12 * k.val + 0)) = min (rdn s (Reg.ETH_CNT (12 * k.val + 0)) + 1) 0xFFFFFFFF ∧ bitAt (rd t (Reg.INT_RAW (portPage k.val))) 0 = true ∧
        (∀ a, (a < rdLE s (rdn s (Reg.ETH_RQ_BASE (8 * k.val)) + 32 * (rqHead s k.val 0 % rqSize s k.val 0)) 4 ∨ rdLE s (rdn s (Reg.ETH_RQ_BASE (8 * k.val)) + 32 * (rqHead s k.val 0 % rqSize s k.val 0)) 4 + bytes.length ≤ a) →
        (a < rdn s (Reg.ETH_RQ_BASE (8 * k.val)) + 32 * (rqHead s k.val 0 % rqSize s k.val 0) + 6 ∨ rdn s (Reg.ETH_RQ_BASE (8 * k.val)) + 32 * (rqHead s k.val 0 % rqSize s k.val 0) + 32 ≤ a) → mget 0 t.mem a = mget 0 s.mem a) ∧
        KeepsBlocks [0x20, 0x23, 0xa0, 0xb0, 0xc0, 0xd0, 0xf0, 0x110] s t ∧
        t = { s with free := t.free, regs := t.regs, mem := t.mem, cleRam := t.cleRam, canRam := t.canRam, arb := t.arb, ecc := t.ecc, memSys := t.memSys, rxe := t.rxe, mirror := t.mirror, agl := t.agl, keys := t.keys, eth := t.eth, handed := t.handed })) ∧
  (∀ (ini : Fin 16) (k : Fin 4) (r : Fin 8) (value : Word) (s : State),
      Reachable s ini (portPage k.val + 1) (0x148 + 0x10 * r.val) →
      value.toNat < 2 * rqSize s k.val r.val →
      (value.toNat + 2 * rqSize s k.val r.val - rqHead s k.val r.val) % (2 * rqSize s k.val r.val) ≤ rqSize s k.val r.val →
      rxDescErr s k.val r.val value.toNat = none →
      Completes (.ethRqTailWrite ini k r value) s (fun t => rd t (Reg.ETH_RQ_TAIL (8 * k.val + r.val)) = value ∧ KeepsRegs [Reg.ETH_RQ_TAIL (8 * k.val + r.val)] s t ∧ t = { s with regs := t.regs, arb := t.arb })) ∧
  (∀ (k : Fin 4) (up : Bool) (an : Bool) (s : State),
      pageEn s (portPage k.val) = true →
      domainUp s 5 = true →
      Completes (.linkChange k up an) s (fun t =>
        flag t (Reg.ETH_STAT k.val) F.ETH_STAT_LINK = up ∧ flag t (Reg.ETH_STAT k.val) F.ETH_STAT_AN_DONE = an ∧ (flag s (Reg.ETH_STAT k.val) F.ETH_STAT_LINK ≠ up → bitAt (rd t (Reg.INT_RAW (portPage k.val))) 2 = true) ∧
        KeepsRegs [Reg.ETH_STAT k.val, Reg.INT_RAW (portPage k.val)] s t ∧ t = { s with regs := t.regs })) ∧
  (∀ (ini : Fin 16) (k : Fin 4) (value : Word) (s : State),
      Reachable s ini (portPage k.val) 0x94 →
      2 ≤ k.val →
      flag s (Reg.ETH_MDIO_DATA k.val) F.ETH_MDIO_DATA_BUSY = false →
      fieldGet F.ETH_MDIO_CMD_OP value = 1 ∨ fieldGet F.ETH_MDIO_CMD_OP value = 2 →
      value.toNat < 4096 →
      Completes (.mdioCommand ini k value) s (fun t =>
        flag t (Reg.ETH_MDIO_DATA k.val) F.ETH_MDIO_DATA_BUSY = true ∧ port t k.val = { port s k.val with mdio := some (value, s.now) } ∧ (∀ j, j ≠ k.val → port t j = port s j) ∧
        KeepsRegs [Reg.ETH_MDIO_DATA k.val] s t ∧ t = { s with regs := t.regs, arb := t.arb, eth := t.eth })) ∧
  (∀ (k : Fin 4) (data : BitVec 16) (v : Word) (n : Nat) (s : State),
      (port s k.val).mdio = some (v, n) →
      domainUp s 5 = true →
      n + 128000 ≤ s.now →
      Completes (.mdioComplete k data) s (fun t =>
        flag t (Reg.ETH_MDIO_DATA k.val) F.ETH_MDIO_DATA_BUSY = false ∧ port t k.val = { port s k.val with mdio := none } ∧
        fld t (Reg.ETH_MDIO_DATA k.val) F.ETH_MDIO_DATA_DATA = (if fieldGet F.ETH_MDIO_CMD_OP v = 2 then data.toNat else fld s (Reg.ETH_MDIO_DATA k.val) F.ETH_MDIO_DATA_DATA) ∧
        KeepsRegs [Reg.ETH_MDIO_DATA k.val] s t ∧ t = { s with regs := t.regs, eth := t.eth }))

/-- SWITCH of an enabled gate unit sets PEND with a change instant that is no earlier than the admin base. At a gate event the open gates become those of the operational list at PTP time. At the change instant the other list is operational, with the admin parameters, and PEND clears. No other port is touched. (R406, R407) -/
def Obligations.EthernetGates : Prop :=
  (∀ (ini : Fin 16) (k : Fin 4) (s : State),
      Reachable s ini (portPage k.val + 2) 0x54 →
      gateEn s k.val = true →
      gateUnset s k.val = false →
      Completes (.gateSwitch ini k) s (fun t =>
        gatePend t k.val = true ∧ (gateAdmin s k.val).2.2 ≤ (port t k.val).changeAt ∧ (∀ j, j ≠ k.val → port t j = port s j) ∧
        KeepsRegs [Reg.ETH_GATE_STAT k.val] s t ∧ t = { s with regs := t.regs, arb := t.arb, eth := t.eth })) ∧
  (∀ (k : Fin 4) (s : State),
      domainUp s 5 = true →
      (gatesAt s k.val s.clock.ptp).1 ≠ (port s k.val).gates →
      Completes (.gateEntryChange k) s (fun t =>
        (port t k.val).gates = (gatesAt s k.val s.clock.ptp).1 ∧ (∀ j, j ≠ k.val → port t j = port s j) ∧
        KeepsBlocks [0xd0] s t ∧
        t = { s with free := t.free, regs := t.regs, eth := t.eth })) ∧
  (∀ (k : Fin 4) (s : State),
      domainUp s 5 = true →
      gatePend s k.val = true →
      (port s k.val).changeAt ≤ ptpNs s →
      Completes (.gateChangeInstant k) s (fun t =>
        gateOper t k.val = 1 - gateOper s k.val ∧ gatePend t k.val = false ∧ (port t k.val).oper = some (gateAdmin s k.val) ∧ (∀ j, j ≠ k.val → port t j = port s j) ∧
        KeepsBlocks [0xd0] s t ∧
        t = { s with free := t.free, regs := t.regs, eth := t.eth }))

/-- SLEEP of a channel that may sleep takes effect at once when nothing is pending and else waits. WAKE, and an edge or a matching frame where they are enabled, wake a sleeping channel: SLEEP clears, the cause shows, INT_RAW bit 8 is set, and the channel rejoins after 11 bits. RESTART of a channel in bus-off starts recovery, which ends 1408 bits later with both counters 0. A receive error adds 1, or 8 after a dominant bit. No other channel changes. (R425, R430, R431) -/
def Obligations.CanStateCommands : Prop :=
  (∀ (ini : Fin 16) (c : Fin 8) (s : State),
      Reachable s ini (canPage c.val) 0x4C →
      c.val < 6 →
      fld s (Reg.CAN_CFG c.val) F.CAN_CFG_WAKE ≠ 0 →
      canAsleep s c.val = false →
      canPending s c.val = 0 →
      (canOf s c.val).attempt = none →
      canRuns s c.val = true →
      Completes (.canSleep ini c) s (fun t =>
        canAsleep t c.val = true ∧ canOf t c.val = { canOf s c.val with sleepDue := false, standby := fld s (Reg.CAN_CFG c.val) F.CAN_CFG_WAKE == 1 } ∧
        KeepsRegs [Reg.CAN_STAT c.val] s t ∧ (∀ d, d ≠ c.val → canOf t d = canOf s d) ∧ t = { s with regs := t.regs, arb := t.arb, can := t.can })) ∧
  (∀ (ini : Fin 16) (c : Fin 8) (s : State),
      Reachable s ini (canPage c.val) 0x4C →
      c.val < 6 →
      fld s (Reg.CAN_CFG c.val) F.CAN_CFG_WAKE ≠ 0 →
      canAsleep s c.val = false →
      canPending s c.val ≠ 0 →
      Completes (.canSleep ini c) s (fun t => canOf t c.val = { canOf s c.val with sleepDue := true } ∧ (∀ d, d ≠ c.val → canOf t d = canOf s d) ∧ t = { s with arb := t.arb, can := t.can })) ∧
  (∀ (ini : Fin 16) (c : Fin 8) (s : State),
      Reachable s ini (canPage c.val) 0x4C →
      c.val < 6 →
      fld s (Reg.CAN_CFG c.val) F.CAN_CFG_WAKE ≠ 0 →
      canAsleep s c.val = true →
      Completes (.canSleep ini c) s (fun t => t = { s with arb := t.arb })) ∧
  (∀ (ini : Fin 16) (c : Fin 8) (s : State),
      Reachable s ini (canPage c.val) 0x4C →
      canAsleep s c.val = true →
      Completes (.canWake ini c) s (fun t =>
        canAsleep t c.val = false ∧ fld t (Reg.CAN_STAT c.val) F.CAN_STAT_WAKE_CAUSE = 3 ∧ canOf t c.val = { canOf s c.val with standby := false, sleepDue := false, rejoinAt := s.now + 11 * canBit s c.val } ∧ bitAt (rd t (Reg.INT_RAW (canPage c.val))) 8 = true ∧
        KeepsRegs [Reg.CAN_STAT c.val, Reg.INT_RAW (canPage c.val)] s t ∧ (∀ d, d ≠ c.val → canOf t d = canOf s d) ∧ t = { s with regs := t.regs, arb := t.arb, can := t.can })) ∧
  (∀ (ini : Fin 16) (c : Fin 8) (s : State),
      Reachable s ini (canPage c.val) 0x4C →
      canAsleep s c.val = false →
      Completes (.canWake ini c) s (fun t => t = { s with arb := t.arb })) ∧
  (∀ (c : Fin 8) (s : State),
      canRuns s c.val = true →
      canAsleep s c.val = true →
      fld s (Reg.CAN_CFG c.val) F.CAN_CFG_WAKE = 1 →
      Completes (.wakeEdge c) s (fun t =>
        canAsleep t c.val = false ∧ fld t (Reg.CAN_STAT c.val) F.CAN_STAT_WAKE_CAUSE = 1 ∧ canOf t c.val = { canOf s c.val with standby := false, sleepDue := false, rejoinAt := s.now + 11 * canBit s c.val } ∧ bitAt (rd t (Reg.INT_RAW (canPage c.val))) 8 = true ∧
        KeepsRegs [Reg.CAN_STAT c.val, Reg.INT_RAW (canPage c.val)] s t ∧ (∀ d, d ≠ c.val → canOf t d = canOf s d) ∧ t = { s with regs := t.regs, can := t.can })) ∧
  (∀ (c : Fin 8) (id : BitVec 32) (data : List Byte) (s : State),
      canRuns s c.val = true →
      canAsleep s c.val = true →
      fld s (Reg.CAN_CFG c.val) F.CAN_CFG_WAKE = 2 →
      wakeMatch s c.val id data = true →
      Completes (.wakeFrame c id data) s (fun t =>
        canAsleep t c.val = false ∧ fld t (Reg.CAN_STAT c.val) F.CAN_STAT_WAKE_CAUSE = 2 ∧ canOf t c.val = { canOf s c.val with standby := false, sleepDue := false, rejoinAt := s.now + 11 * canBit s c.val } ∧ bitAt (rd t (Reg.INT_RAW (canPage c.val))) 8 = true ∧
        KeepsRegs [Reg.CAN_STAT c.val, Reg.INT_RAW (canPage c.val)] s t ∧ (∀ d, d ≠ c.val → canOf t d = canOf s d) ∧ t = { s with regs := t.regs, can := t.can })) ∧
  (∀ (ini : Fin 16) (c : Fin 8) (s : State),
      Reachable s ini (canPage c.val) 0x4C →
      canState s c.val = 2 →
      Completes (.canRestart ini c) s (fun t =>
        canState t c.val = 3 ∧ canOf t c.val = { canOf s c.val with restartAt := s.now } ∧
        KeepsRegs [Reg.CAN_STAT c.val] s t ∧ (∀ d, d ≠ c.val → canOf t d = canOf s d) ∧ t = { s with regs := t.regs, arb := t.arb, can := t.can })) ∧
  (∀ (ini : Fin 16) (c : Fin 8) (s : State),
      Reachable s ini (canPage c.val) 0x4C →
      canState s c.val ≠ 2 →
      Completes (.canRestart ini c) s (fun t => t = { s with arb := t.arb })) ∧
  (∀ (c : Fin 8) (s : State),
      canRuns s c.val = true →
      canState s c.val = 3 →
      (canOf s c.val).restartAt + 1408 * canBit s c.val ≤ s.now →
      Completes (.recoveryComplete c) s (fun t =>
        canState t c.val = 0 ∧ fld t (Reg.CAN_STAT c.val) F.CAN_STAT_TEC = 0 ∧ fld t (Reg.CAN_STAT c.val) F.CAN_STAT_REC = 0 ∧ (canOf t c.val).txErr = 0 ∧ (canOf t c.val).rxErr = 0 ∧ bitAt (rd t (Reg.INT_RAW (canPage c.val))) 7 = true ∧ (∀ d, d ≠ c.val → canOf t d = canOf s d) ∧
        KeepsBlocks [0xe0, 0x110] s t ∧
        t = { s with regs := t.regs, agl := t.agl, can := t.can })) ∧
  (∀ (c : Fin 8) (dominant : Bool) (s : State),
      canOnBus s c.val = true →
      canListen s c.val = false →
      Completes (.canReceiveError c dominant) s (fun t =>
        (canOf t c.val).rxErr = (canOf s c.val).rxErr + (if dominant then 8 else 1) ∧ (canOf t c.val).txErr = (canOf s c.val).txErr ∧ fld t (Reg.CAN_STAT c.val) F.CAN_STAT_REC = min ((canOf s c.val).rxErr + (if dominant then 8 else 1)) 255 ∧ (∀ d, d ≠ c.val → canOf t d = canOf s d) ∧
        KeepsBlocks [0xe0, 0x110] s t ∧
        t = { s with regs := t.regs, agl := t.agl, can := t.can }))

/-- A write of TXREQ adds its bits to those pending. TXCANCEL of a buffer that is pending and not on the bus ends it: its bit of TXREQ takes what software wrote to it in this CLK_CAN cycle, else 0, and TXCAN and INT_RAW bit 4 are set; of the frame on the bus it is noted, and an unsuccessful end cancels it. A frame starts with the pending buffer of highest bus priority; one that cannot be read ends as cancelled. A successful attempt clears its TXREQ bit in the same way, sets TXDONE and INT_RAW bit 3 and takes one from the transmit error counter; a failed one leaves the buffer pending, with 8 more errors where the error was the transmitter's. (R423, R424, R425, R426, R429) -/
def Obligations.CanTransmission : Prop :=
  (∀ (ini : Fin 16) (c : Fin 8) (value : Word) (s : State),
      Reachable s ini (canPage c.val) 0x54 →
      canAsleep s c.val = false →
      Completes (.canTxreqWrite ini c value) s (fun t => rd t (Reg.CAN_TXREQ c.val) = rd s (Reg.CAN_TXREQ c.val) ||| value ∧ KeepsRegs [Reg.CAN_TXREQ c.val] s t ∧ t = { s with regs := t.regs, arb := t.arb, swWrites := t.swWrites })) ∧
  (∀ (ini : Fin 16) (c : Fin 8) (value : Word) (s : State),
      Reachable s ini (canPage c.val) 0x54 →
      canAsleep s c.val = true →
      value ≠ 0 →
      Completes (.canTxreqWrite ini c value) s (fun t => rd t (Reg.CAN_TXREQ c.val) = rd s (Reg.CAN_TXREQ c.val) ||| value ∧
        canAsleep t c.val = false ∧ fld t (Reg.CAN_STAT c.val) F.CAN_STAT_WAKE_CAUSE = 3 ∧ canOf t c.val = { canOf s c.val with standby := false, sleepDue := false, rejoinAt := s.now + 11 * canBit s c.val } ∧ bitAt (rd t (Reg.INT_RAW (canPage c.val))) 8 = true ∧
        KeepsRegs [Reg.CAN_TXREQ c.val, Reg.CAN_STAT c.val, Reg.INT_RAW (canPage c.val)] s t ∧ (∀ d, d ≠ c.val → canOf t d = canOf s d) ∧ t = { s with regs := t.regs, arb := t.arb, can := t.can, swWrites := t.swWrites })) ∧
  (∀ (ini : Fin 16) (c : Fin 8) (b : Fin 32) (s : State),
      Reachable s ini (canPage c.val) 0x58 →
      bitAt (canPending s c.val) b.val = true →
      (canOf s c.val).attempt ≠ some b.val →
      (canOf s c.val).sleepDue = false →
      Completes (.canTxcancelWrite ini c (1#32 <<< b.val)) s (fun t =>
        rd t (Reg.CAN_TXREQ c.val) = putBit (rd s (Reg.CAN_TXREQ c.val)) b.val (bitAt ((swWritten s (Reg.CAN_TXREQ c.val)).getD 0) b.val) ∧ bitAt (rd t (Reg.CAN_TXCAN c.val)) b.val = true ∧ bitAt (rd t (Reg.INT_RAW (canPage c.val))) 4 = true ∧
        KeepsRegs [Reg.CAN_TXREQ c.val, Reg.CAN_TXCANCEL c.val, Reg.CAN_TXCAN c.val, Reg.INT_RAW (canPage c.val)] s t ∧ t = { s with regs := t.regs, arb := t.arb })) ∧
  (∀ (ini : Fin 16) (c : Fin 8) (b : Fin 32) (s : State),
      Reachable s ini (canPage c.val) 0x58 →
      bitAt (canPending s c.val) b.val = true →
      (canOf s c.val).attempt = some b.val →
      Completes (.canTxcancelWrite ini c (1#32 <<< b.val)) s (fun t =>
        rd t (Reg.CAN_TXCANCEL c.val) = rd s (Reg.CAN_TXCANCEL c.val) ||| 1#32 <<< b.val ∧
        KeepsRegs [Reg.CAN_TXCANCEL c.val] s t ∧ t = { s with regs := t.regs, arb := t.arb, swWrites := t.swWrites })) ∧
  (∀ (ini : Fin 16) (c : Fin 8) (value : Word) (s : State),
      Reachable s ini (canPage c.val) 0x58 →
      value &&& canPending s c.val = 0 →
      (canOf s c.val).sleepDue = false →
      Completes (.canTxcancelWrite ini c value) s (fun t => t = { s with arb := t.arb })) ∧
  (∀ (c : Fin 8) (b : Nat) (s : State),
      canSelect s c.val = some b →
      canOnBus s c.val = true →
      canListen s c.val = false →
      (canOf s c.val).attempt = none →
      eccIn s (canEcc + canAt c.val (72 * b)) 72 = [] →
      Completes (.canFrameStart c) s (fun t =>
        canOf t c.val = { canOf s c.val with attempt := some b } ∧ bitAt (canPending s c.val) b = true ∧ (∀ d < 32, bitAt (canPending s c.val) d = true → arbField s c.val b ≤ arbField s c.val d) ∧ (∀ d, d ≠ c.val → canOf t d = canOf s d) ∧ t = { s with can := t.can })) ∧
  (∀ (c : Fin 8) (b : Nat) (s : State),
      canSelect s c.val = some b →
      canOnBus s c.val = true →
      canListen s c.val = false →
      (canOf s c.val).attempt = none →
      (readScan s 0 (canEcc + canAt c.val (72 * b)) 72).1.isSome = true →
      Completes (.canFrameStart c) s (fun t =>
        (canOf t c.val).attempt = none ∧ bitAt (canPending t c.val) b = bitAt ((swWritten s (Reg.CAN_TXREQ c.val)).getD 0) b ∧ bitAt (rd t (Reg.CAN_TXCAN c.val)) b = true ∧ bitAt (rd t (Reg.INT_RAW (canPage c.val))) 4 = true ∧
        KeepsBlocks [0x20, 0x23, 0xb0, 0xe0, 0x110] s t ∧
        t = { s with free := t.free, regs := t.regs, mem := t.mem, cleRam := t.cleRam, canRam := t.canRam, arb := t.arb, memSys := t.memSys, rxe := t.rxe, mirror := t.mirror, agl := t.agl, can := t.can })) ∧
  (∀ (c : Fin 8) (b : Nat) (s : State),
      (canOf s c.val).attempt = some b →
      b < 32 →
      canRuns s c.val = true →
      Completes (.canAttemptEnd c 0) s (fun t =>
        (canOf t c.val).attempt = none ∧ rd t (Reg.CAN_TXREQ c.val) = putBit (rd s (Reg.CAN_TXREQ c.val)) b (bitAt ((swWritten s (Reg.CAN_TXREQ c.val)).getD 0) b) ∧ bitAt (rd t (Reg.CAN_TXDONE c.val)) b = true ∧ bitAt (rd t (Reg.INT_RAW (canPage c.val))) 3 = true ∧ (canOf t c.val).txErr = (canOf s c.val).txErr - 1 ∧ (∀ d, d ≠ c.val → canOf t d = canOf s d) ∧
        KeepsBlocks [0xe0, 0x110] s t ∧
        t = { s with regs := t.regs, agl := t.agl, can := t.can })) ∧
  (∀ (c : Fin 8) (b : Nat) (outcome : Fin 4) (s : State),
      (canOf s c.val).attempt = some b →
      canRuns s c.val = true →
      outcome = 1 ∨ outcome = 3 →
      bitAt (rd s (Reg.CAN_TXCANCEL c.val)) b = false →
      Completes (.canAttemptEnd c outcome) s (fun t => canOf t c.val = { canOf s c.val with attempt := none } ∧ (∀ d, d ≠ c.val → canOf t d = canOf s d) ∧ t = { s with can := t.can })) ∧
  (∀ (c : Fin 8) (b : Nat) (outcome : Fin 4) (s : State),
      (canOf s c.val).attempt = some b →
      b < 32 →
      canRuns s c.val = true →
      outcome ≠ 0 →
      bitAt (rd s (Reg.CAN_TXCANCEL c.val)) b = true →
      Completes (.canAttemptEnd c outcome) s (fun t =>
        (canOf t c.val).attempt = none ∧ rd t (Reg.CAN_TXREQ c.val) = putBit (rd s (Reg.CAN_TXREQ c.val)) b (bitAt ((swWritten s (Reg.CAN_TXREQ c.val)).getD 0) b) ∧ bitAt (rd t (Reg.CAN_TXCAN c.val)) b = true ∧ bitAt (rd t (Reg.INT_RAW (canPage c.val))) 4 = true ∧ (∀ d, d ≠ c.val → canOf t d = canOf s d) ∧
        KeepsBlocks [0xe0, 0x110] s t ∧
        t = { s with regs := t.regs, agl := t.agl, can := t.can })) ∧
  (∀ (c : Fin 8) (b : Nat) (s : State),
      (canOf s c.val).attempt = some b →
      canRuns s c.val = true →
      bitAt (rd s (Reg.CAN_TXCANCEL c.val)) b = false →
      Completes (.canAttemptEnd c 2) s (fun t =>
        (canOf t c.val).attempt = none ∧ (canOf t c.val).txErr = (canOf s c.val).txErr + 8 ∧ rd t (Reg.CAN_TXREQ c.val) = rd s (Reg.CAN_TXREQ c.val) ∧ (canState s c.val < 2 → 255 < (canOf s c.val).txErr + 8 → canState t c.val = 2 ∧ bitAt (rd t (Reg.INT_RAW (canPage c.val))) 6 = true) ∧ (∀ d, d ≠ c.val → canOf t d = canOf s d) ∧
        KeepsBlocks [0xe0, 0x110] s t ∧
        t = { s with regs := t.regs, agl := t.agl, can := t.can }))

/-- A frame accepted by an object goes into its main buffer with its full bit and INT_RAW bit 0 set, or counts as overwritten; a held object takes it in the shadow area. With no object it enters the FIFO where that takes all, or counts as an overflow. RXGRAB of a full object holds it and shows its offset; RXREL releases it. A frame stored in the same CLK_CAN cycle counts as stored after the grab or release. A FIFO head write and CAN RAM access take what they may, and the address advances under INC. (R421, R427, R428, R429) -/
def Obligations.CanReception : Prop :=
  (∀ (c : Fin 8) (id : BitVec 32) (dlc : BitVec 4) (flags : BitVec 3) (start : Nat) (data : List Byte) (n : Nat) (s : State),
      canOnBus s c.val = true →
      (!(flags.getLsbD 0) || flag s (Reg.CAN_CFG c.val) F.CAN_CFG_FD_EN) = true →
      start ≤ monoNs s →
      (if bitAt id 30 && !(flags.getLsbD 0) then 0 else dlcBytes (flags.getLsbD 0) dlc.toNat) ≤ data.length →
      canAccept s c.val id = some n →
      (canOf s c.val).hold ≠ some n →
      objFull s c.val n = false →
      Completes (.canFrameReceive c id dlc flags start data) s (fun t =>
        objFull t c.val n = true ∧ bitAt (rd t (Reg.INT_RAW (canPage c.val))) 0 = true ∧ leNat (canRd t (canAt c.val (objMain s c.val n)) 4) = id.toNat % 0x80000000 ∧ leNat (canRd t (canAt c.val (objMain s c.val n) + 4) 4) = dlc.toNat + 16 * flags.toNat + 256 * n + 65536 * (start / 1024 % 65536) ∧ (∀ i < (if bitAt id 30 && !(flags.getLsbD 0) then 0 else dlcBytes (flags.getLsbD 0) dlc.toNat), mget 0 t.canRam (canAt c.val (objMain s c.val n) + 8 + i) = data.getD i 0) ∧
        (∀ a, a < canAt c.val (objMain s c.val n) ∨ canAt c.val (objMain s c.val n) + 8 + (if bitAt id 30 && !(flags.getLsbD 0) then 0 else dlcBytes (flags.getLsbD 0) dlc.toNat) ≤ a → mget 0 t.canRam a = mget 0 s.canRam a) ∧ (canOf t c.val).hold = (canOf s c.val).hold ∧ (canOf t c.val).shadow = (canOf s c.val).shadow ∧ (canOf t c.val).swapped = (canOf s c.val).swapped ∧ (0 < (canOf s c.val).rxErr → canListen s c.val = false → (canOf s c.val).rxErr ≤ 127 → (canOf t c.val).rxErr = (canOf s c.val).rxErr - 1) ∧ (∀ d, d ≠ c.val → canOf t d = canOf s d) ∧
        KeepsBlocks [0x20, 0x23, 0xe0, 0x110] s t ∧
        t = { s with free := t.free, regs := t.regs, canRam := t.canRam, ecc := t.ecc, memSys := t.memSys, agl := t.agl, can := t.can })) ∧
  (∀ (c : Fin 8) (id : BitVec 32) (dlc : BitVec 4) (flags : BitVec 3) (start : Nat) (data : List Byte) (n : Nat) (s : State),
      canOnBus s c.val = true →
      (!(flags.getLsbD 0) || flag s (Reg.CAN_CFG c.val) F.CAN_CFG_FD_EN) = true →
      start ≤ monoNs s →
      (if bitAt id 30 && !(flags.getLsbD 0) then 0 else dlcBytes (flags.getLsbD 0) dlc.toNat) ≤ data.length →
      canAccept s c.val id = some n →
      (canOf s c.val).hold ≠ some n →
      objFull s c.val n = true →
      Completes (.canFrameReceive c id dlc flags start data) s (fun t =>
        objFull t c.val n = true ∧ rdn t (Reg.CAN_OVW c.val) = min (rdn s (Reg.CAN_OVW c.val) + 1) 0xFFFFFFFF ∧ bitAt (rd t (Reg.INT_RAW (canPage c.val))) 9 = true ∧ leNat (canRd t (canAt c.val (objMain s c.val n)) 4) = id.toNat % 0x80000000 ∧ leNat (canRd t (canAt c.val (objMain s c.val n) + 4) 4) = dlc.toNat + 16 * flags.toNat + 256 * n + 65536 * (start / 1024 % 65536) ∧ (∀ i < (if bitAt id 30 && !(flags.getLsbD 0) then 0 else dlcBytes (flags.getLsbD 0) dlc.toNat), mget 0 t.canRam (canAt c.val (objMain s c.val n) + 8 + i) = data.getD i 0) ∧
        (∀ a, a < canAt c.val (objMain s c.val n) ∨ canAt c.val (objMain s c.val n) + 8 + (if bitAt id 30 && !(flags.getLsbD 0) then 0 else dlcBytes (flags.getLsbD 0) dlc.toNat) ≤ a → mget 0 t.canRam a = mget 0 s.canRam a) ∧ (∀ d, d ≠ c.val → canOf t d = canOf s d) ∧
        KeepsBlocks [0x20, 0x23, 0xe0, 0x110] s t ∧
        t = { s with free := t.free, regs := t.regs, canRam := t.canRam, ecc := t.ecc, memSys := t.memSys, agl := t.agl, can := t.can })) ∧
  (∀ (c : Fin 8) (id : BitVec 32) (dlc : BitVec 4) (flags : BitVec 3) (start : Nat) (data : List Byte) (n : Nat) (s : State),
      canOnBus s c.val = true →
      (!(flags.getLsbD 0) || flag s (Reg.CAN_CFG c.val) F.CAN_CFG_FD_EN) = true →
      start ≤ monoNs s →
      (if bitAt id 30 && !(flags.getLsbD 0) then 0 else dlcBytes (flags.getLsbD 0) dlc.toNat) ≤ data.length →
      canAccept s c.val id = some n →
      (canOf s c.val).hold = some n →
      Completes (.canFrameReceive c id dlc flags start data) s (fun t =>
        (canOf t c.val).shadow.testBit n = true ∧ (canOf t c.val).hold = some n ∧ leNat (canRd t (canAt c.val (objShadow s c.val n)) 4) = id.toNat % 0x80000000 ∧ leNat (canRd t (canAt c.val (objShadow s c.val n) + 4) 4) = dlc.toNat + 16 * flags.toNat + 256 * n + 65536 * (start / 1024 % 65536) ∧ (∀ i < (if bitAt id 30 && !(flags.getLsbD 0) then 0 else dlcBytes (flags.getLsbD 0) dlc.toNat), mget 0 t.canRam (canAt c.val (objShadow s c.val n) + 8 + i) = data.getD i 0) ∧
        (∀ a, a < canAt c.val (objShadow s c.val n) ∨ canAt c.val (objShadow s c.val n) + 8 + (if bitAt id 30 && !(flags.getLsbD 0) then 0 else dlcBytes (flags.getLsbD 0) dlc.toNat) ≤ a → mget 0 t.canRam a = mget 0 s.canRam a) ∧ (∀ d, d ≠ c.val → canOf t d = canOf s d) ∧
        KeepsBlocks [0x20, 0x23, 0xe0, 0x110] s t ∧
        t = { s with free := t.free, regs := t.regs, canRam := t.canRam, ecc := t.ecc, memSys := t.memSys, agl := t.agl, can := t.can })) ∧
  (∀ (c : Fin 8) (id : BitVec 32) (dlc : BitVec 4) (flags : BitVec 3) (start : Nat) (data : List Byte) (s : State),
      canOnBus s c.val = true →
      (!(flags.getLsbD 0) || flag s (Reg.CAN_CFG c.val) F.CAN_CFG_FD_EN) = true →
      start ≤ monoNs s →
      (if bitAt id 30 && !(flags.getLsbD 0) then 0 else dlcBytes (flags.getLsbD 0) dlc.toNat) ≤ data.length →
      canAccept s c.val id = none →
      flag s (Reg.CAN_CFG c.val) F.CAN_CFG_FIFO_ALL = true →
      (fld s (Reg.CAN_FIFO_TAIL c.val) F.CAN_FIFO_TAIL_IDX + 128 - fld s (Reg.CAN_FIFO_HEAD c.val) F.CAN_FIFO_HEAD_IDX) % 128 ≠ 64 →
      Completes (.canFrameReceive c id dlc flags start data) s (fun t =>
        fld t (Reg.CAN_FIFO_TAIL c.val) F.CAN_FIFO_TAIL_IDX = (fld s (Reg.CAN_FIFO_TAIL c.val) F.CAN_FIFO_TAIL_IDX + 1) % 128 ∧ bitAt (rd t (Reg.INT_RAW (canPage c.val))) 1 = true ∧ leNat (canRd t (canAt c.val (0x2D00 + 72 * (fld s (Reg.CAN_FIFO_TAIL c.val) F.CAN_FIFO_TAIL_IDX % 64))) 4) = id.toNat % 0x80000000 ∧ leNat (canRd t (canAt c.val (0x2D00 + 72 * (fld s (Reg.CAN_FIFO_TAIL c.val) F.CAN_FIFO_TAIL_IDX % 64)) + 4) 4) = dlc.toNat + 16 * flags.toNat + 256 * 63 + 65536 * (start / 1024 % 65536) ∧ (∀ i < (if bitAt id 30 && !(flags.getLsbD 0) then 0 else dlcBytes (flags.getLsbD 0) dlc.toNat), mget 0 t.canRam (canAt c.val (0x2D00 + 72 * (fld s (Reg.CAN_FIFO_TAIL c.val) F.CAN_FIFO_TAIL_IDX % 64)) + 8 + i) = data.getD i 0) ∧
        KeepsBlocks [0x20, 0x23, 0xe0, 0x110] s t ∧
        t = { s with free := t.free, regs := t.regs, canRam := t.canRam, ecc := t.ecc, memSys := t.memSys, agl := t.agl, can := t.can })) ∧
  (∀ (c : Fin 8) (id : BitVec 32) (dlc : BitVec 4) (flags : BitVec 3) (start : Nat) (data : List Byte) (s : State),
      canOnBus s c.val = true →
      (!(flags.getLsbD 0) || flag s (Reg.CAN_CFG c.val) F.CAN_CFG_FD_EN) = true →
      start ≤ monoNs s →
      (if bitAt id 30 && !(flags.getLsbD 0) then 0 else dlcBytes (flags.getLsbD 0) dlc.toNat) ≤ data.length →
      canAccept s c.val id = none →
      flag s (Reg.CAN_CFG c.val) F.CAN_CFG_FIFO_ALL = true →
      (fld s (Reg.CAN_FIFO_TAIL c.val) F.CAN_FIFO_TAIL_IDX + 128 - fld s (Reg.CAN_FIFO_HEAD c.val) F.CAN_FIFO_HEAD_IDX) % 128 = 64 →
      Completes (.canFrameReceive c id dlc flags start data) s (fun t =>
        rdn t (Reg.CAN_FIFO_OVF c.val) = min (rdn s (Reg.CAN_FIFO_OVF c.val) + 1) 0xFFFFFFFF ∧ bitAt (rd t (Reg.INT_RAW (canPage c.val))) 2 = true ∧ t.canRam = s.canRam ∧
        KeepsBlocks [0x20, 0x23, 0xe0, 0x110] s t ∧
        t = { s with free := t.free, regs := t.regs, canRam := t.canRam, ecc := t.ecc, memSys := t.memSys, agl := t.agl, can := t.can })) ∧
  (∀ (c : Fin 8) (id : BitVec 32) (dlc : BitVec 4) (flags : BitVec 3) (start : Nat) (data : List Byte) (s : State),
      canOnBus s c.val = true →
      (!(flags.getLsbD 0) || flag s (Reg.CAN_CFG c.val) F.CAN_CFG_FD_EN) = true →
      start ≤ monoNs s →
      (if bitAt id 30 && !(flags.getLsbD 0) then 0 else dlcBytes (flags.getLsbD 0) dlc.toNat) ≤ data.length →
      canAccept s c.val id = none →
      flag s (Reg.CAN_CFG c.val) F.CAN_CFG_FIFO_ALL = false →
      Completes (.canFrameReceive c id dlc flags start data) s (fun t => t = countReceived s c.val)) ∧
  (∀ (ini : Fin 16) (c : Fin 8) (value : Word) (s : State),
      Reachable s ini (canPage c.val) 0x6C →
      value.toNat < 64 →
      (canOf s c.val).hold = some value.toNat ∨ ((canOf s c.val).hold = none ∧ canStoredNow s c.val value.toNat false = none) →
      objFull s c.val value.toNat = true →
      Completes (.canRxgrabWrite ini c value) s (fun t =>
        rdn t (Reg.CAN_RXGRAB c.val) = objMain s c.val value.toNat + 0x80000000 ∧ canOf t c.val = { canOf s c.val with hold := some value.toNat } ∧
        KeepsRegs [Reg.CAN_RXGRAB c.val] s t ∧ (∀ d, d ≠ c.val → canOf t d = canOf s d) ∧ t = { s with regs := t.regs, arb := t.arb, can := t.can })) ∧
  (∀ (ini : Fin 16) (c : Fin 8) (value : Word) (s : State),
      Reachable s ini (canPage c.val) 0x6C →
      value.toNat < 64 →
      (canOf s c.val).hold = some value.toNat ∨ ((canOf s c.val).hold = none ∧ canStoredNow s c.val value.toNat false = none) →
      objFull s c.val value.toNat = false →
      Completes (.canRxgrabWrite ini c value) s (fun t => rdn t (Reg.CAN_RXGRAB c.val) = objMain s c.val value.toNat ∧ KeepsRegs [Reg.CAN_RXGRAB c.val] s t ∧ t = { s with regs := t.regs, arb := t.arb })) ∧
  (∀ (ini : Fin 16) (c : Fin 8) (value : Word) (w : CanStored) (s : State),
      Reachable s ini (canPage c.val) 0x6C →
      value.toNat < 64 →
      (canOf s c.val).hold = none →
      canStoredNow s c.val value.toNat false = some w →
      w.empty = true →
      Completes (.canRxgrabWrite ini c value) s (fun t => rdn t (Reg.CAN_RXGRAB c.val) = objMain s c.val value.toNat ∧ KeepsRegs [Reg.CAN_RXGRAB c.val] s t ∧ t = { s with regs := t.regs, arb := t.arb })) ∧
  (∀ (ini : Fin 16) (c : Fin 8) (value : Word) (w : CanStored) (s : State),
      Reachable s ini (canPage c.val) 0x6C →
      value.toNat < 64 →
      (canOf s c.val).hold = none →
      canStoredNow s c.val value.toNat false = some w →
      w.empty = false →
      Completes (.canRxgrabWrite ini c value) s (fun t =>
        rdn t (Reg.CAN_RXGRAB c.val) = objMain s c.val value.toNat + 0x80000000 ∧ (canOf t c.val).hold = some value.toNat ∧ (canOf t c.val).shadow.testBit value.toNat = true ∧ rd t (Reg.CAN_OVW c.val) = w.ovw ∧
        KeepsBlocks [0x20, 0x23, 0xe0, 0x110] s t ∧
        t = { s with regs := t.regs, canRam := t.canRam, arb := t.arb, ecc := t.ecc, memSys := t.memSys, agl := t.agl, can := t.can })) ∧
  (∀ (ini : Fin 16) (c : Fin 8) (value : Word) (w : CanStored) (s : State),
      Reachable s ini (canPage c.val) 0x70 →
      value.toNat < 64 →
      (canOf s c.val).hold = some value.toNat →
      (canOf s c.val).shadow.testBit value.toNat = true →
      canStoredNow s c.val value.toNat true = some w →
      w.empty = true →
      Completes (.canRxrelWrite ini c value) s (fun t =>
        objMain t c.val value.toNat = objMain s c.val value.toNat ∧ (canOf t c.val).hold = none ∧ (canOf t c.val).shadow.testBit value.toNat = false ∧ bitAt (rd t (Reg.INT_RAW (canPage c.val))) 0 = true ∧
        KeepsBlocks [0x20, 0x23, 0x70, 0xe0, 0x110] s t ∧
        t = { s with regs := t.regs, canRam := t.canRam, arb := t.arb, ecc := t.ecc, memSys := t.memSys, agl := t.agl, can := t.can })) ∧
  (∀ (ini : Fin 16) (c : Fin 8) (value : Word) (s : State),
      Reachable s ini (canPage c.val) 0x70 →
      value.toNat < 64 →
      (canOf s c.val).hold = some value.toNat →
      (canOf s c.val).shadow.testBit value.toNat = false →
      (canStoredNow s c.val value.toNat true).filter (fun t => t.empty) = none →
      Completes (.canRxrelWrite ini c value) s (fun t =>
        objFull t c.val value.toNat = false ∧ canOf t c.val = { canOf s c.val with hold := none } ∧
        KeepsRegs [fullReg c.val value.toNat] s t ∧ (∀ d, d ≠ c.val → canOf t d = canOf s d) ∧ t = { s with regs := t.regs, arb := t.arb, can := t.can })) ∧
  (∀ (ini : Fin 16) (c : Fin 8) (value : Word) (s : State),
      Reachable s ini (canPage c.val) 0x70 →
      value.toNat < 64 →
      (canOf s c.val).hold = some value.toNat →
      (canOf s c.val).shadow.testBit value.toNat = true →
      (canStoredNow s c.val value.toNat true).filter (fun t => t.empty) = none →
      Completes (.canRxrelWrite ini c value) s (fun t =>
        objMain t c.val value.toNat = objShadow s c.val value.toNat ∧ (canOf t c.val).hold = none ∧ (canOf t c.val).shadow.testBit value.toNat = false ∧ bitAt (rd t (Reg.INT_RAW (canPage c.val))) 0 = true ∧
        KeepsRegs [Reg.INT_RAW (canPage c.val)] s t ∧ (∀ d, d ≠ c.val → canOf t d = canOf s d) ∧ t = { s with regs := t.regs, arb := t.arb, can := t.can })) ∧
  (∀ (ini : Fin 16) (c : Fin 8) (value : Word) (s : State),
      Reachable s ini (canPage c.val) 0x74 →
      value.toNat < 128 →
      (value.toNat + 128 - fld s (Reg.CAN_FIFO_HEAD c.val) F.CAN_FIFO_HEAD_IDX) % 128 ≤ (fld s (Reg.CAN_FIFO_TAIL c.val) F.CAN_FIFO_TAIL_IDX + 128 - fld s (Reg.CAN_FIFO_HEAD c.val) F.CAN_FIFO_HEAD_IDX) % 128 →
      Completes (.canFifoHeadWrite ini c value) s (fun t => rd t (Reg.CAN_FIFO_HEAD c.val) = value ∧ KeepsRegs [Reg.CAN_FIFO_HEAD c.val] s t ∧ t = { s with regs := t.regs, arb := t.arb })) ∧
  (∀ (ini : Fin 16) (c : Fin 8) (s : State),
      Reachable s ini (canPage c.val) 0x80 →
      eccIn s (canEcc + canAt c.val (fld s (Reg.CAN_RAM_ADDR c.val) F.CAN_RAM_ADDR_ADDR / 4 * 4)) 4 = [] →
      Completes (.canRamDataAccess ini c none) s (fun t =>
        t.rdata = [BitVec.ofNat 32 (leNat (canRd s (canAt c.val (fld s (Reg.CAN_RAM_ADDR c.val) F.CAN_RAM_ADDR_ADDR / 4 * 4)) 4))] ∧ fld t (Reg.CAN_RAM_ADDR c.val) F.CAN_RAM_ADDR_ADDR = (if flag s (Reg.CAN_RAM_ADDR c.val) F.CAN_RAM_ADDR_INC then (fld s (Reg.CAN_RAM_ADDR c.val) F.CAN_RAM_ADDR_ADDR / 4 * 4 + 4) % 2 ^ F.CAN_RAM_ADDR_ADDR.width else fld s (Reg.CAN_RAM_ADDR c.val) F.CAN_RAM_ADDR_ADDR) ∧
        KeepsRegs [Reg.CAN_RAM_ADDR c.val] s t ∧ t = { s with regs := t.regs, arb := t.arb, rdata := t.rdata })) ∧
  (∀ (ini : Fin 16) (c : Fin 8) (s : State),
      Reachable s ini (canPage c.val) 0x80 →
      (readScan s 0 (canEcc + canAt c.val (fld s (Reg.CAN_RAM_ADDR c.val) F.CAN_RAM_ADDR_ADDR / 4 * 4)) 4).1.isSome = true →
      Completes (.canRamDataAccess ini c none) s (fun t => t.rdata.length = 1 ∧ t.canRam = s.canRam ∧ fld t (Reg.CAN_RAM_ADDR c.val) F.CAN_RAM_ADDR_ADDR = (if flag s (Reg.CAN_RAM_ADDR c.val) F.CAN_RAM_ADDR_INC then (fld s (Reg.CAN_RAM_ADDR c.val) F.CAN_RAM_ADDR_ADDR / 4 * 4 + 4) % 2 ^ F.CAN_RAM_ADDR_ADDR.width else fld s (Reg.CAN_RAM_ADDR c.val) F.CAN_RAM_ADDR_ADDR) ∧
        KeepsBlocks [0x20, 0x23, 0xb0, 0xe0, 0x110] s t ∧
        t = { s with free := t.free, rdata := t.rdata, regs := t.regs, mem := t.mem, cleRam := t.cleRam, canRam := t.canRam, arb := t.arb, ecc := t.ecc, memSys := t.memSys, rxe := t.rxe, mirror := t.mirror, agl := t.agl })) ∧
  (∀ (ini : Fin 16) (c : Fin 8) (w : Word) (s : State),
      Reachable s ini (canPage c.val) 0x80 →
      fld s (Reg.CAN_RAM_ADDR c.val) F.CAN_RAM_ADDR_ADDR / 4 * 4 < 0x900 →
      bitAt (canPending s c.val) (fld s (Reg.CAN_RAM_ADDR c.val) F.CAN_RAM_ADDR_ADDR / 4 * 4 / 72) = false →
      Completes (.canRamDataAccess ini c (some w)) s (fun t =>
        leNat (canRd t (canAt c.val (fld s (Reg.CAN_RAM_ADDR c.val) F.CAN_RAM_ADDR_ADDR / 4 * 4)) 4) = w.toNat ∧ (∀ a, a < canAt c.val (fld s (Reg.CAN_RAM_ADDR c.val) F.CAN_RAM_ADDR_ADDR / 4 * 4) ∨ canAt c.val (fld s (Reg.CAN_RAM_ADDR c.val) F.CAN_RAM_ADDR_ADDR / 4 * 4) + 4 ≤ a → mget 0 t.canRam a = mget 0 s.canRam a) ∧ fld t (Reg.CAN_RAM_ADDR c.val) F.CAN_RAM_ADDR_ADDR = (if flag s (Reg.CAN_RAM_ADDR c.val) F.CAN_RAM_ADDR_INC then (fld s (Reg.CAN_RAM_ADDR c.val) F.CAN_RAM_ADDR_ADDR / 4 * 4 + 4) % 2 ^ F.CAN_RAM_ADDR_ADDR.width else fld s (Reg.CAN_RAM_ADDR c.val) F.CAN_RAM_ADDR_ADDR) ∧
        KeepsBlocks [0x20, 0x23, 0xb0, 0xe0, 0x110] s t ∧
        t = { s with free := t.free, rdata := t.rdata, regs := t.regs, mem := t.mem, cleRam := t.cleRam, canRam := t.canRam, arb := t.arb, ecc := t.ecc, memSys := t.memSys, rxe := t.rxe, mirror := t.mirror, agl := t.agl }))

/-- A flush of a merge entry whose word is whole or reads clean leaves the word without error and takes the entry out. A lane that is due reads its next word, adds nothing to memory and goes on to the next one, or round to the first; a corrected word waits for its write-back, which clears the error, counts in GLINT_WB, and is dropped while the merge buffer holds the word, and in MRAM after qualification; an uncorrectable word counts in GLINT_UE and sets INT_RAW bit 1. A row with a lasting tracker entry asks for a remap first. An MRAM tracker entry that is lasting and quiet for its window is released. (R441, R443, R446, R447, R448, R450, R451) -/
def Obligations.MemoryErrorsAndGlint : Prop :=
  (∀ (i : Nat) (e : MergeEntry) (s : State),
      s.memSys.merge[i]? = some e →
      e.mask % 256 = 255 ∨ eccFind s e.word = .clean →
      (∀ r < 3, flag s (Reg.MEM_FLIP_CFG r) F.MEM_FLIP_CFG_ARM = false) →
      Completes (.mergeFlush i) s (fun t =>
        t.memSys.merge = s.memSys.merge.filter (fun x => x.word != e.word) ∧ mget {} t.ecc e.word = {} ∧ (∀ w, w ≠ e.word → mget {} t.ecc w = mget {} s.ecc w) ∧
        KeepsBlocks [0x20] s t ∧ t = { s with ecc := t.ecc, memSys := t.memSys, regs := t.regs })) ∧
  (∀ (i : Nat) (s : State),
      s.memSys.merge[i]? = none →
      Completes (.mergeFlush i) s (fun t => t = s)) ∧
  (∀ (i : Fin 3) (s : State),
      laneReady s i.val = true →
      s.memSys.remap = none →
      i ≠ 0 ∨ rowLasting s (rowOf (laneWord i.val (lane s i.val).next)) = false →
      eccFind s (laneWord i.val (lane s i.val).next) = .clean →
      Completes (.glintRead i []) s (fun t =>
        (lane t i.val).next = (if (lane s i.val).next + 1 < laneWords i.val then (lane s i.val).next + 1 else 0) ∧ (lane t i.val).writeBack = none ∧ (lane t i.val).lastRead = some s.now ∧ (∀ w, mget {} t.ecc w = mget {} s.ecc w) ∧ ((lane s i.val).next + 1 = laneWords i.val → bitAt (rd t (Reg.INT_RAW 0x23)) 0 = true) ∧
        KeepsBlocks [0x23] s t ∧ t = { s with ecc := t.ecc, memSys := t.memSys, regs := t.regs })) ∧
  (∀ (i : Fin 3) (flips : List Nat) (s : State),
      laneReady s i.val = true →
      s.memSys.remap = none →
      i ≠ 0 ∨ rowLasting s (rowOf (laneWord i.val (lane s i.val).next)) = false →
      eccFind (flipBits s (laneWord i.val (lane s i.val).next) flips) (laneWord i.val (lane s i.val).next) = .correctable →
      Completes (.glintRead i flips) s (fun t =>
        (lane t i.val).next = (if (lane s i.val).next + 1 < laneWords i.val then (lane s i.val).next + 1 else 0) ∧ (lane t i.val).writeBack = some (laneWord i.val (lane s i.val).next) ∧ t.ecc = (flipBits s (laneWord i.val (lane s i.val).next) flips).ecc ∧
        KeepsBlocks [0x20, 0x23, 0xb0, 0x110] s t ∧
        t = { s with free := t.free, regs := t.regs, mem := t.mem, cleRam := t.cleRam, canRam := t.canRam, ecc := t.ecc, memSys := t.memSys, rxe := t.rxe, mirror := t.mirror, agl := t.agl })) ∧
  (∀ (i : Fin 3) (flips : List Nat) (s : State),
      laneReady s i.val = true →
      s.memSys.remap = none →
      i ≠ 0 ∨ rowLasting s (rowOf (laneWord i.val (lane s i.val).next)) = false →
      eccFind (flipBits s (laneWord i.val (lane s i.val).next) flips) (laneWord i.val (lane s i.val).next) = .uncorrectable →
      criticalBank s (laneWord i.val (lane s i.val).next) = false →
      Completes (.glintRead i flips) s (fun t =>
        (lane t i.val).next = (if (lane s i.val).next + 1 < laneWords i.val then (lane s i.val).next + 1 else 0) ∧ (lane t i.val).writeBack = none ∧ rdn t Reg.GLINT_UE = min (rdn s Reg.GLINT_UE + 1) 0xFFFFFFFF ∧ bitAt (rd t (Reg.INT_RAW 0x23)) 1 = true ∧ t.mem = s.mem ∧
        KeepsBlocks [0x20, 0x23, 0xb0, 0x110] s t ∧
        t = { s with free := t.free, regs := t.regs, mem := t.mem, cleRam := t.cleRam, canRam := t.canRam, ecc := t.ecc, memSys := t.memSys, rxe := t.rxe, mirror := t.mirror, agl := t.agl })) ∧
  (∀ (flips : List Nat) (s : State),
      laneReady s 0 = true →
      s.memSys.remap = none →
      rowLasting s (rowOf (laneWord 0 (lane s 0).next)) = true →
      s.memSys.refused ≠ some (rowOf (laneWord 0 (lane s 0).next)) →
      Completes (.glintRead 0 flips) s (fun t => t = { s with memSys := { s.memSys with remap := some (rowOf (laneWord 0 (lane s 0).next)) } })) ∧
  (∀ (i : Fin 3) (flips : List Nat) (s : State),
      laneReady s i.val = false →
      Completes (.glintRead i flips) s (fun t => t = s)) ∧
  (∀ (i : Fin 3) (w : Nat) (s : State),
      (lane s i.val).writeBack = some w →
      memoryUp s w = true →
      (isMram w && pfail s) = false →
      (∀ e ∈ s.memSys.merge, e.word ≠ w) →
      Completes (.glintWriteBack i) s (fun t =>
        (lane t i.val).writeBack = none ∧ mget {} t.ecc w = {} ∧ (∀ v, v ≠ w → mget {} t.ecc v = mget {} s.ecc v) ∧ rdn t Reg.GLINT_WB = min (rdn s Reg.GLINT_WB + 1) 0xFFFFFFFF ∧
        KeepsBlocks [0x20, 0x23] s t ∧ t = { s with ecc := t.ecc, memSys := t.memSys, regs := t.regs })) ∧
  (∀ (i : Fin 3) (w : Nat) (s : State),
      (lane s i.val).writeBack = some w →
      memoryUp s w = true →
      ((isMram w && pfail s) = true ∨ ∃ e ∈ s.memSys.merge, e.word = w) →
      Completes (.glintWriteBack i) s (fun t =>
        (lane t i.val).writeBack = none ∧ t = { s with memSys := t.memSys })) ∧
  (∀ (e : Fin 32) (s : State),
      (trk s 2 e.val).valid = true →
      (trk s 2 e.val).lasting = true →
      (trk s 2 e.val).last + trkWindow s 2 ≤ monoNs s →
      Completes (.trackerWindowExpiry 2 e) s (fun t =>
        trk t 2 e.val = {} ∧ (∀ r j, 32 * r + j ≠ 64 + e.val → trk t r j = trk s r j) ∧
        KeepsRegs [Reg.MEM_TRK_ADDR 2, Reg.MEM_TRK_STAT 2, Reg.MEM_TRK_FIRST_LO 2, Reg.MEM_TRK_FIRST_HI 2] s t ∧ t = { s with regs := t.regs, memSys := t.memSys }))

/-- A MAP of a row that has no spare waits with BUSY set; one of a remapped row does nothing. The remap gives the row the bank's next spare, counts it, shows it in REPAIR_LAST and sets INT_RAW bit 0; in a bank with all 32 spares used it is refused with NOSPARE and bit 1. A write to MEM_FLIP_CFG takes PORT, arms by a 1 in ARM and clears DONE by a 1. INVAL_ALL, INVAL_CTX and INVAL_PAGE set BUSY and leave the translations until the invalidation is done; then every entry it covers is gone, every other stays, BUSY is 0 and INT_RAW bit 0 is set. (R452, R453, R454, R457, R465) -/
def Obligations.RowRepairInjectionAndInvalidation : Prop :=
  (∀ (ini : Fin 16) (b : Fin 160) (r : Fin 256) (s : State),
      Reachable s ini 0x24 0x40 →
      flag s Reg.REPAIR_STAT F.REPAIR_STAT_BUSY = false →
      mget 0 s.memSys.rows (256 * b.val + r.val) = 0 →
      Completes (.repairMap ini (0x10000#32 ||| BitVec.ofNat 32 (b.val + 256 * r.val))) s (fun t =>
        t.memSys = { s.memSys with remap := some (256 * b.val + r.val) } ∧ flag t Reg.REPAIR_STAT F.REPAIR_STAT_BUSY = true ∧
        KeepsRegs [Reg.REPAIR_STAT] s t ∧ t = { s with regs := t.regs, arb := t.arb, memSys := t.memSys })) ∧
  (∀ (ini : Fin 16) (b : Fin 160) (r : Fin 256) (s : State),
      Reachable s ini 0x24 0x40 →
      flag s Reg.REPAIR_STAT F.REPAIR_STAT_BUSY = false →
      mget 0 s.memSys.rows (256 * b.val + r.val) ≠ 0 →
      Completes (.repairMap ini (0x10000#32 ||| BitVec.ofNat 32 (b.val + 256 * r.val))) s (fun t => t = { s with arb := t.arb })) ∧
  (∀ (row : Nat) (s : State),
      s.memSys.remap = some row →
      mget 0 s.memSys.rows row = 0 →
      mget 0 s.memSys.spares (row / 256) < 32 →
      eccIn s (rowBase row) 1024 = [] →
      Completes .rowRemap s (fun t =>
        mget 0 t.memSys.rows row = mget 0 s.memSys.spares (row / 256) + 1 ∧ (∀ j, j ≠ row → mget 0 t.memSys.rows j = mget 0 s.memSys.rows j) ∧ mget 0 t.memSys.spares (row / 256) = mget 0 s.memSys.spares (row / 256) + 1 ∧ t.memSys.remap = none ∧
        rdn t Reg.REPAIR_LAST = (row / 256 + 256 * (row % 256) + 65536 * mget 0 s.memSys.spares (row / 256) + 2 ^ 31) % 2 ^ 32 ∧ rdn t Reg.REPAIR_CNT = min (rdn s Reg.REPAIR_CNT + 1) 0xFFFFFFFF ∧
        flag t Reg.REPAIR_STAT F.REPAIR_STAT_BUSY = false ∧ flag t Reg.REPAIR_STAT F.REPAIR_STAT_NOSPARE = false ∧ bitAt (rd t (Reg.INT_RAW 0x24)) 0 = true ∧ t.ecc = s.ecc ∧
        KeepsBlocks [0x20, 0x23, 0x24, 0xb0, 0x110] s t ∧
        t = { s with free := t.free, regs := t.regs, mem := t.mem, cleRam := t.cleRam, canRam := t.canRam, memSys := t.memSys, rxe := t.rxe, mirror := t.mirror, agl := t.agl })) ∧
  (∀ (row : Nat) (s : State),
      s.memSys.remap = some row →
      mget 0 s.memSys.rows row = 0 →
      32 ≤ mget 0 s.memSys.spares (row / 256) →
      Completes .rowRemap s (fun t =>
        t.memSys = { s.memSys with remap := none, refused := some row } ∧ flag t Reg.REPAIR_STAT F.REPAIR_STAT_BUSY = false ∧ flag t Reg.REPAIR_STAT F.REPAIR_STAT_NOSPARE = true ∧ bitAt (rd t (Reg.INT_RAW 0x24)) 1 = true ∧ rd t Reg.REPAIR_CNT = rd s Reg.REPAIR_CNT ∧
        KeepsBlocks [0x20, 0x23, 0x24, 0xb0, 0x110] s t ∧
        t = { s with free := t.free, regs := t.regs, mem := t.mem, cleRam := t.cleRam, canRam := t.canRam, ecc := t.ecc, memSys := t.memSys, rxe := t.rxe, mirror := t.mirror, agl := t.agl })) ∧
  (∀ (row : Nat) (s : State),
      s.memSys.remap = some row →
      mget 0 s.memSys.rows row ≠ 0 →
      Completes .rowRemap s (fun t => t.memSys = { s.memSys with remap := none } ∧ flag t Reg.REPAIR_STAT F.REPAIR_STAT_BUSY = false ∧ KeepsRegs [Reg.REPAIR_STAT] s t ∧ t = { s with regs := t.regs, memSys := t.memSys })) ∧
  (∀ (s : State),
      s.memSys.remap = none →
      Completes .rowRemap s (fun t => t = s)) ∧
  (∀ (ini : Fin 16) (r : Fin 3) (value : Word) (s : State),
      Reachable s ini (0x20 + r.val) 0x5C →
      value &&& 0xFFFFFCE0#32 = 0 →
      fieldGet F.MEM_FLIP_CFG_PORT value ≤ (if r = 0 then 11 else if r = 1 then 1 else 0) →
      flag s (Reg.MEM_FLIP_CFG r.val) F.MEM_FLIP_CFG_ARM = false →
      Completes (.flipArm ini r value) s (fun t =>
        fld t (Reg.MEM_FLIP_CFG r.val) F.MEM_FLIP_CFG_PORT = fieldGet F.MEM_FLIP_CFG_PORT value ∧ flag t (Reg.MEM_FLIP_CFG r.val) F.MEM_FLIP_CFG_ARM = decide (fieldGet F.MEM_FLIP_CFG_ARM value = 1) ∧
        flag t (Reg.MEM_FLIP_CFG r.val) F.MEM_FLIP_CFG_DONE = (flag s (Reg.MEM_FLIP_CFG r.val) F.MEM_FLIP_CFG_DONE && decide (fieldGet F.MEM_FLIP_CFG_DONE value = 0)) ∧
        KeepsRegs [Reg.MEM_FLIP_CFG r.val] s t ∧ t = { s with regs := t.regs, arb := t.arb })) ∧
  (∀ (ini : Fin 16) (s : State),
      Reachable s ini 0x17 0x240 →
      flag s Reg.MMU_INVAL_STAT F.MMU_INVAL_STAT_BUSY = false →
      Completes (.invalAll ini) s (fun t =>
        t.mmu = { s.mmu with inval := some (1, 0, (rd64 s Reg.MMU_INVAL_VA_LO Reg.MMU_INVAL_VA_HI % 2 ^ 40 / 4096)) } ∧ flag t Reg.MMU_INVAL_STAT F.MMU_INVAL_STAT_BUSY = true ∧ KeepsRegs [Reg.MMU_INVAL_STAT] s t ∧ t = { s with regs := t.regs, arb := t.arb, mmu := t.mmu })) ∧
  (∀ (ini : Fin 16) (ctx : Fin 64) (s : State),
      Reachable s ini 0x17 0x240 →
      flag s Reg.MMU_INVAL_STAT F.MMU_INVAL_STAT_BUSY = false →
      Completes (.invalContext ini ctx) s (fun t =>
        t.mmu = { s.mmu with inval := some (2, ctx.val, (rd64 s Reg.MMU_INVAL_VA_LO Reg.MMU_INVAL_VA_HI % 2 ^ 40 / 4096)) } ∧ flag t Reg.MMU_INVAL_STAT F.MMU_INVAL_STAT_BUSY = true ∧ KeepsRegs [Reg.MMU_INVAL_STAT] s t ∧ t = { s with regs := t.regs, arb := t.arb, mmu := t.mmu })) ∧
  (∀ (ini : Fin 16) (ctx : Fin 64) (s : State),
      Reachable s ini 0x17 0x240 →
      flag s Reg.MMU_INVAL_STAT F.MMU_INVAL_STAT_BUSY = false →
      Completes (.invalPage ini ctx) s (fun t =>
        t.mmu = { s.mmu with inval := some (3, ctx.val, (rd64 s Reg.MMU_INVAL_VA_LO Reg.MMU_INVAL_VA_HI % 2 ^ 40 / 4096)) } ∧ flag t Reg.MMU_INVAL_STAT F.MMU_INVAL_STAT_BUSY = true ∧ KeepsRegs [Reg.MMU_INVAL_STAT] s t ∧ t = { s with regs := t.regs, arb := t.arb, mmu := t.mmu })) ∧
  (∀ (k : Nat × Nat × Nat) (s : State),
      s.mmu.inval = some k →
      Completes .invalDone s (fun t =>
        t.mmu.inval = none ∧ (∀ e, e ∈ t.mmu.tlb ↔ e ∈ s.mmu.tlb ∧ ¬ (k.1 = 1 ∨ (e.ctx = k.2.1 ∧ (k.1 = 2 ∨ e.vpn = k.2.2)))) ∧ flag t Reg.MMU_INVAL_STAT F.MMU_INVAL_STAT_BUSY = false ∧ bitAt (rd t (Reg.INT_RAW 0x17)) 0 = true ∧
        KeepsRegs [Reg.MMU_INVAL_STAT, Reg.INT_RAW 0x17] s t ∧ t = { s with regs := t.regs, mmu := t.mmu })) ∧
  (∀ (s : State),
      s.mmu.inval = none →
      Completes .invalDone s (fun t => t = s))

/-- START of an idle channel fetches the descriptor through the IOMMU, clears DONE and, where the issue slot of the cycle is free and no other channel runs, issues the first burst; RESUME of a faulted one goes on at DMA_DONE. START and RESUME have no effect in another state. A START that R481 forbids, or of a descriptor that breaks R479, is a host error. ABORT ends a channel with nothing outstanding in IDLE with END aborted, waits for outstanding bursts, and takes FAULT and DEAD to IDLE. The oldest burst copies 32 bytes and adds 32 to DMA_DONE; one that completes before an older one keeps its data; one that reads an uncorrectable word makes the channel DEAD; one to Afterglow's area of MRAM is a host error. A descriptor that is copied ends in IDLE, with its DONE bit where it asks for it, or the next one is fetched. The translations here are ones the IOMMU holds. (R461, R478, R479, R480, R482, R483, R517) -/
def Obligations.DmaChannels : Prop :=
  (∀ (ini : Fin 16) (ch : Fin 32) (va : Nat) (src : Nat) (dst : Nat) (n : Nat) (k : Nat) (e : TlbEntry) (f : TlbEntry) (g : TlbEntry) (s : State),
      Reachable s ini (dmaPage ch.val) (dmaOff ch.val 0x0C) →
      dmaState s ch.val = dIdle →
      startErr481 ini ch.val s = none →
      Permitted s (dmaStart (granted s ini) ch.val) →
      va = (rd64 s (Reg.DMA_DESC_LO ch.val) (Reg.DMA_DESC_HI ch.val) % 2 ^ 40) →
      src = (leNat (rdBytes s (e.leaf % 2 ^ 32 / 4096 * 4096 + va % 4096) 8) % 2 ^ 40) →
      dst = (leNat (rdBytes s ((e.leaf % 2 ^ 32 / 4096 * 4096 + va % 4096) + 8) 8) % 2 ^ 40) →
      n = (leNat (rdBytes s ((e.leaf % 2 ^ 32 / 4096 * 4096 + va % 4096) + 16) 4)) →
      va % 4096 + 32 ≤ 4096 →
      eccIn s (e.leaf % 2 ^ 32 / 4096 * 4096 + va % 4096) 32 = [] →
      tlbFind s 6 (dmaCtx s ch.val) (va / 4096) = some e →
      leafBit e.leaf 1 = true →
      k = 0 →
      32 * k < n →
      tlbFind s 6 (dmaCtx s ch.val) ((src + 32 * k) / 4096) = some f →
      leafBit f.leaf 1 = true →
      tlbFind s 6 (dmaCtx s ch.val) ((dst + 32 * k) / 4096) = some g →
      leafBit g.leaf 2 = true ∧ leafBit g.leaf 5 = false ∧ leafBit g.leaf 7 = true →
      s.dmaIssue.cycle ≠ s.now / 8 + 1 →
      dmaTaskRuns s ch.val = true →
      (∀ c ∈ s.dma, c.2.out = []) →
      (∀ d < 32, d ≠ ch.val → dmaState s d ≠ dRun) →
      Completes (.dmaStart ini ch) s (fun t =>
        rdn t (Reg.DMA_DONE ch.val) = 0 ∧ dmaState t ch.val = dRun ∧ (chan t ch.val).src = src ∧ (chan t ch.val).dst = dst ∧ (chan t ch.val).len = n ∧ (chan t ch.val).out = [{ src := f.leaf % 2 ^ 32 / 4096 * 4096 + (src + 32 * k) % 4096, dst := g.leaf % 2 ^ 32 / 4096 * 4096 + (dst + 32 * k) % 4096 }] ∧ t.dmaIssue = { next := (ch.val + 1) % 32, cycle := s.now / 8 + 1 } ∧ rd64 t (Reg.DMA_CUR_LO ch.val) (Reg.DMA_CUR_HI ch.val) = va ∧
        (∀ d, d ≠ ch.val → chan t d = chan s d) ∧ KeepsRegs [Reg.DMA_STAT ch.val, Reg.DMA_DONE ch.val, Reg.DMA_CUR_LO ch.val, Reg.DMA_CUR_HI ch.val] s t ∧ t = { s with regs := t.regs, arb := t.arb, dma := t.dma, dmaIssue := t.dmaIssue })) ∧
  (∀ (ini : Fin 16) (ch : Fin 32) (va : Nat) (src : Nat) (dst : Nat) (n : Nat) (e : TlbEntry) (s : State),
      Reachable s ini (dmaPage ch.val) (dmaOff ch.val 0x0C) →
      dmaState s ch.val = dIdle →
      startErr481 ini ch.val s = none →
      Permitted s (dmaStart (granted s ini) ch.val) →
      va = (rd64 s (Reg.DMA_DESC_LO ch.val) (Reg.DMA_DESC_HI ch.val) % 2 ^ 40) →
      src = (leNat (rdBytes s (e.leaf % 2 ^ 32 / 4096 * 4096 + va % 4096) 8) % 2 ^ 40) →
      dst = (leNat (rdBytes s ((e.leaf % 2 ^ 32 / 4096 * 4096 + va % 4096) + 8) 8) % 2 ^ 40) →
      n = (leNat (rdBytes s ((e.leaf % 2 ^ 32 / 4096 * 4096 + va % 4096) + 16) 4)) →
      va % 4096 + 32 ≤ 4096 →
      eccIn s (e.leaf % 2 ^ 32 / 4096 * 4096 + va % 4096) 32 = [] →
      tlbFind s 6 (dmaCtx s ch.val) (va / 4096) = some e →
      leafBit e.leaf 1 = true →
      s.dmaIssue.cycle = s.now / 8 + 1 →
      Completes (.dmaStart ini ch) s (fun t =>
        rdn t (Reg.DMA_DONE ch.val) = 0 ∧ dmaState t ch.val = dRun ∧ (chan t ch.val).src = src ∧ (chan t ch.val).dst = dst ∧ (chan t ch.val).len = n ∧ (chan t ch.val).out = [] ∧ t.dmaIssue = s.dmaIssue ∧ rd64 t (Reg.DMA_CUR_LO ch.val) (Reg.DMA_CUR_HI ch.val) = va ∧
        (∀ d, d ≠ ch.val → chan t d = chan s d) ∧ KeepsRegs [Reg.DMA_STAT ch.val, Reg.DMA_DONE ch.val, Reg.DMA_CUR_LO ch.val, Reg.DMA_CUR_HI ch.val] s t ∧ t = { s with regs := t.regs, arb := t.arb, dma := t.dma, dmaIssue := t.dmaIssue })) ∧
  (∀ (ini : Fin 16) (ch : Fin 32) (va : Nat) (src : Nat) (dst : Nat) (n : Nat) (k : Nat) (e : TlbEntry) (f : TlbEntry) (g : TlbEntry) (s : State),
      Reachable s ini (dmaPage ch.val) (dmaOff ch.val 0x0C) →
      dmaState s ch.val = dFault →
      va < 2 ^ 40 →
      Permitted s (dmaResume (granted s ini) ch.val) →
      va = rd64 s (Reg.DMA_CUR_LO ch.val) (Reg.DMA_CUR_HI ch.val) →
      src = (leNat (rdBytes s (e.leaf % 2 ^ 32 / 4096 * 4096 + va % 4096) 8) % 2 ^ 40) →
      dst = (leNat (rdBytes s ((e.leaf % 2 ^ 32 / 4096 * 4096 + va % 4096) + 8) 8) % 2 ^ 40) →
      n = (leNat (rdBytes s ((e.leaf % 2 ^ 32 / 4096 * 4096 + va % 4096) + 16) 4)) →
      va % 4096 + 32 ≤ 4096 →
      eccIn s (e.leaf % 2 ^ 32 / 4096 * 4096 + va % 4096) 32 = [] →
      tlbFind s 6 (dmaCtx s ch.val) (va / 4096) = some e →
      leafBit e.leaf 1 = true →
      k = rdn s (Reg.DMA_DONE ch.val) / 32 →
      32 * k < n →
      tlbFind s 6 (dmaCtx s ch.val) ((src + 32 * k) / 4096) = some f →
      leafBit f.leaf 1 = true →
      tlbFind s 6 (dmaCtx s ch.val) ((dst + 32 * k) / 4096) = some g →
      leafBit g.leaf 2 = true ∧ leafBit g.leaf 5 = false ∧ leafBit g.leaf 7 = true →
      s.dmaIssue.cycle ≠ s.now / 8 + 1 →
      dmaTaskRuns s ch.val = true →
      (∀ c ∈ s.dma, c.2.out = []) →
      (∀ d < 32, d ≠ ch.val → dmaState s d ≠ dRun) →
      Completes (.dmaResume ini ch) s (fun t =>
        rd t (Reg.DMA_DONE ch.val) = rd s (Reg.DMA_DONE ch.val) ∧ dmaState t ch.val = dRun ∧ (chan t ch.val).src = src ∧ (chan t ch.val).dst = dst ∧ (chan t ch.val).len = n ∧ (chan t ch.val).out = [{ src := f.leaf % 2 ^ 32 / 4096 * 4096 + (src + 32 * k) % 4096, dst := g.leaf % 2 ^ 32 / 4096 * 4096 + (dst + 32 * k) % 4096 }] ∧ t.dmaIssue = { next := (ch.val + 1) % 32, cycle := s.now / 8 + 1 } ∧ rd64 t (Reg.DMA_CUR_LO ch.val) (Reg.DMA_CUR_HI ch.val) = va ∧
        (∀ d, d ≠ ch.val → chan t d = chan s d) ∧ KeepsRegs [Reg.DMA_STAT ch.val, Reg.DMA_DONE ch.val, Reg.DMA_CUR_LO ch.val, Reg.DMA_CUR_HI ch.val] s t ∧ t = { s with regs := t.regs, arb := t.arb, dma := t.dma, dmaIssue := t.dmaIssue })) ∧
  (∀ (ini : Fin 16) (ch : Fin 32) (va : Nat) (src : Nat) (dst : Nat) (n : Nat) (e : TlbEntry) (s : State),
      Reachable s ini (dmaPage ch.val) (dmaOff ch.val 0x0C) →
      dmaState s ch.val = dFault →
      va < 2 ^ 40 →
      Permitted s (dmaResume (granted s ini) ch.val) →
      va = rd64 s (Reg.DMA_CUR_LO ch.val) (Reg.DMA_CUR_HI ch.val) →
      src = (leNat (rdBytes s (e.leaf % 2 ^ 32 / 4096 * 4096 + va % 4096) 8) % 2 ^ 40) →
      dst = (leNat (rdBytes s ((e.leaf % 2 ^ 32 / 4096 * 4096 + va % 4096) + 8) 8) % 2 ^ 40) →
      n = (leNat (rdBytes s ((e.leaf % 2 ^ 32 / 4096 * 4096 + va % 4096) + 16) 4)) →
      va % 4096 + 32 ≤ 4096 →
      eccIn s (e.leaf % 2 ^ 32 / 4096 * 4096 + va % 4096) 32 = [] →
      tlbFind s 6 (dmaCtx s ch.val) (va / 4096) = some e →
      leafBit e.leaf 1 = true →
      s.dmaIssue.cycle = s.now / 8 + 1 →
      Completes (.dmaResume ini ch) s (fun t =>
        rd t (Reg.DMA_DONE ch.val) = rd s (Reg.DMA_DONE ch.val) ∧ dmaState t ch.val = dRun ∧ (chan t ch.val).src = src ∧ (chan t ch.val).dst = dst ∧ (chan t ch.val).len = n ∧ (chan t ch.val).out = [] ∧ t.dmaIssue = s.dmaIssue ∧ rd64 t (Reg.DMA_CUR_LO ch.val) (Reg.DMA_CUR_HI ch.val) = va ∧
        (∀ d, d ≠ ch.val → chan t d = chan s d) ∧ KeepsRegs [Reg.DMA_STAT ch.val, Reg.DMA_DONE ch.val, Reg.DMA_CUR_LO ch.val, Reg.DMA_CUR_HI ch.val] s t ∧ t = { s with regs := t.regs, arb := t.arb, dma := t.dma, dmaIssue := t.dmaIssue })) ∧
  (∀ (ini : Fin 16) (ch : Fin 32) (s : State),
      Reachable s ini (dmaPage ch.val) (dmaOff ch.val 0x0C) →
      startErr481 ini ch.val s = none →
      dmaState s ch.val ≠ dIdle →
      Completes (.dmaStart ini ch) s (fun t => t = { s with arb := t.arb })) ∧
  (∀ (ini : Fin 16) (ch : Fin 32) (s : State),
      Reachable s ini (dmaPage ch.val) (dmaOff ch.val 0x0C) →
      dmaState s ch.val ≠ dFault →
      Completes (.dmaResume ini ch) s (fun t => t = { s with arb := t.arb })) ∧
  (∀ (ini : Fin 16) (ch : Fin 32) (va : Nat) (e : TlbEntry) (n : Nat) (s : State),
      Reachable s ini (dmaPage ch.val) (dmaOff ch.val 0x0C) →
      dmaState s ch.val = dIdle →
      startErr481 ini ch.val s = none →
      s.hostErr = none →
      va = (rd64 s (Reg.DMA_DESC_LO ch.val) (Reg.DMA_DESC_HI ch.val) % 2 ^ 40) →
      va % 4096 + 32 ≤ 4096 →
      tlbFind s 6 (dmaCtx s ch.val) (va / 4096) = some e →
      leafBit e.leaf 1 = true →
      rangeMapped (e.leaf % 2 ^ 32 / 4096 * 4096 + va % 4096) 32 = true →
      (e.leaf % 2 ^ 32 / 4096 * 4096 + va % 4096) < 0x50000000 →
      eccIn s (e.leaf % 2 ^ 32 / 4096 * 4096 + va % 4096) 32 = [] →
      dmaDescErr va (rdBytes s (e.leaf % 2 ^ 32 / 4096 * 4096 + va % 4096) 32) = some n →
      exec (.dmaStart ini ch) s = .fault (.hostError n)) ∧
  (∀ (ini : Fin 16) (ch : Fin 32) (s : State),
      Reachable s ini (dmaPage ch.val) (dmaOff ch.val 0x0C) →
      startErr481 ini ch.val s = some 481 →
      exec (.dmaStart ini ch) s = .fault (.hostError 481)) ∧
  (∀ (ini : Fin 16) (ch : Fin 32) (s : State),
      Reachable s ini (dmaPage ch.val) (dmaOff ch.val 0x0C) →
      dmaState s ch.val = dFault ∨ dmaState s ch.val = dDead →
      Completes (.dmaAbort ini ch) s (fun t => dmaState t ch.val = dIdle ∧ KeepsRegs [Reg.DMA_STAT ch.val] s t ∧ t = { s with regs := t.regs, arb := t.arb })) ∧
  (∀ (ini : Fin 16) (ch : Fin 32) (s : State),
      Reachable s ini (dmaPage ch.val) (dmaOff ch.val 0x0C) →
      dmaState s ch.val = dIdle ∨ dmaState s ch.val = dPaused →
      Completes (.dmaAbort ini ch) s (fun t => t = { s with arb := t.arb })) ∧
  (∀ (ini : Fin 16) (ch : Fin 32) (s : State),
      Reachable s ini (dmaPage ch.val) (dmaOff ch.val 0x0C) →
      dmaState s ch.val = dRun →
      (chan s ch.val).stop ≠ some .dead →
      (chan s ch.val).out = [] →
      Completes (.dmaAbort ini ch) s (fun t => dmaState t ch.val = dIdle ∧ fld t (Reg.DMA_STAT ch.val) F.DMA_STAT_END = endAborted ∧ KeepsRegs [Reg.DMA_STAT ch.val] s t ∧ t = { s with regs := t.regs, arb := t.arb, dma := t.dma })) ∧
  (∀ (ini : Fin 16) (ch : Fin 32) (s : State),
      Reachable s ini (dmaPage ch.val) (dmaOff ch.val 0x0C) →
      dmaState s ch.val = dRun →
      (chan s ch.val).stop ≠ some .dead →
      (chan s ch.val).out ≠ [] →
      Completes (.dmaAbort ini ch) s (fun t => dmaState t ch.val = dRun ∧ chan t ch.val = { chan s ch.val with stop := some (.ended endAborted) } ∧ KeepsRegs [Reg.DMA_STAT ch.val] s t ∧ t = { s with regs := t.regs, arb := t.arb, dma := t.dma })) ∧
  (∀ (ch : Fin 32) (b : DmaBurst) (s : State),
      (chan s ch.val).out = [b] →
      b.data = none →
      eccIn s b.src 32 = [] →
      Permitted s (dmaRead s ch.val 0 b) →
      0x20000000 ≤ b.dst ∧ b.dst + 32 ≤ 0x21800000 →
      b.dst % 32 = 0 →
      s.ecc = [] →
      s.memSys.merge = [] →
      (∀ r < 3, flag s (Reg.MEM_FLIP_CFG r) F.MEM_FLIP_CFG_ARM = false) →
      (chan s ch.val).stop = none →
      rdn s (Reg.DMA_DONE ch.val) + 32 < 2 ^ 32 →
      (s.dmaIssue.cycle = s.now / 8 + 1 ∨ ((chan s ch.val).len ≤ rdn s (Reg.DMA_DONE ch.val) / 32 * 32 + 32 ∧ ∀ d < 32, d ≠ ch.val → dmaState s d ≠ dRun)) →
      Completes (.dmaBurstComplete ch (rdn s (Reg.DMA_DONE ch.val) / 32)) s (fun t =>
        rdBytes t b.dst 32 = rdBytes s b.src 32 ∧ KeepsMemBut b.dst 32 s t ∧ rdn t (Reg.DMA_DONE ch.val) = rdn s (Reg.DMA_DONE ch.val) + 32 ∧ chan t ch.val = { chan s ch.val with out := [] } ∧ dmaState t ch.val = dmaState s ch.val ∧ t.ecc = [] ∧ t.dmaIssue = s.dmaIssue ∧
        KeepsBlocks [0x17, 0x20, 0x23, 0x30, 0x35, 0xa0, 0xb0, 0x110] s t ∧
        t = { s with free := t.free, regs := t.regs, mem := t.mem, cleRam := t.cleRam, canRam := t.canRam, arb := t.arb, ecc := t.ecc, memSys := t.memSys, mmu := t.mmu, dma := t.dma, dmaIssue := t.dmaIssue, rxe := t.rxe, mirror := t.mirror, agl := t.agl })) ∧
  (∀ (ch : Fin 32) (k : Nat) (b : DmaBurst) (c : DmaBurst) (q : List DmaBurst) (s : State),
      (chan s ch.val).out = c :: q →
      c.data = none →
      q[k]? = some b →
      b.data = none →
      eccIn s b.src 32 = [] →
      Permitted s (dmaRead s ch.val (k + 1) b) →
      (chan s ch.val).stop = none →
      s.dmaIssue.cycle = s.now / 8 + 1 →
      Completes (.dmaBurstComplete ch (rdn s (Reg.DMA_DONE ch.val) / 32 + (k + 1))) s (fun t =>
        chan t ch.val = { chan s ch.val with out := c :: q.set k { b with data := some (rdBytes s b.src 32) } } ∧ rd t (Reg.DMA_DONE ch.val) = rd s (Reg.DMA_DONE ch.val) ∧ (∀ d, d ≠ ch.val → chan t d = chan s d) ∧
        KeepsRegs [Reg.DMA_STAT ch.val] s t ∧ t = { s with regs := t.regs, arb := t.arb, dma := t.dma })) ∧
  (∀ (ch : Fin 32) (b : DmaBurst) (w : Nat) (q : List DmaBurst) (s : State),
      (chan s ch.val).out = b :: q →
      b.data = none →
      (readScan s 7 b.src 32).1 = some w →
      criticalBank s w = false →
      Permitted s (dmaRead s ch.val 0 b) →
      s.dmaIssue.cycle = s.now / 8 + 1 →
      Completes (.dmaBurstComplete ch (rdn s (Reg.DMA_DONE ch.val) / 32)) s (fun t =>
        dmaState t ch.val = dDead ∧ fld t (Reg.DMA_STAT ch.val) F.DMA_STAT_END = endUe ∧ bitAt (rd t Reg.DMA_FLT_PEND) ch.val = true ∧ bitAt (rd t (Reg.INT_RAW 0x30)) 1 = true ∧ (chan t ch.val).out = [] ∧ rd t (Reg.DMA_DONE ch.val) = rd s (Reg.DMA_DONE ch.val) ∧
        KeepsBlocks [0x17, 0x20, 0x23, 0x30, 0x35, 0xa0, 0xb0, 0x110] s t ∧
        t = { s with free := t.free, regs := t.regs, mem := t.mem, cleRam := t.cleRam, canRam := t.canRam, arb := t.arb, ecc := t.ecc, memSys := t.memSys, mmu := t.mmu, dma := t.dma, dmaIssue := t.dmaIssue, rxe := t.rxe, mirror := t.mirror, agl := t.agl })) ∧
  (∀ (ch : Fin 32) (b : DmaBurst) (q : List DmaBurst) (s : State),
      (chan s ch.val).out = b :: q →
      b.data = none →
      s.hostErr = none →
      rangeMapped b.src 32 = true →
      b.src < 0x50000000 →
      eccIn s b.src 32 = [] →
      0x40080000 ≤ b.dst ∧ b.dst ≤ 0x4017FFFF →
      b.dst % 32 = 0 →
      inPrevious s b.dst 32 = false →
      exec (.dmaBurstComplete ch (rdn s (Reg.DMA_DONE ch.val) / 32)) s = .fault (.hostError 517)) ∧
  (∀ (ch : Fin 32) (burst : Nat) (s : State),
      burst < rdn s (Reg.DMA_DONE ch.val) / 32 ∨ (chan s ch.val).out[burst - rdn s (Reg.DMA_DONE ch.val) / 32]? = none →
      Completes (.dmaBurstComplete ch burst) s (fun t => t = s)) ∧
  (∀ (ch : Fin 32) (s : State),
      dmaDescDone s ch.val = true →
      (chan s ch.val).flags.testBit 1 = false →
      Completes (.dmaDescriptorComplete ch) s (fun t =>
        dmaState t ch.val = dIdle ∧ fld t (Reg.DMA_STAT ch.val) F.DMA_STAT_END = endDone ∧ ((chan s ch.val).flags.testBit 0 = true → bitAt (rd t Reg.DMA_DONE_PEND) ch.val = true ∧ bitAt (rd t (Reg.INT_RAW 0x30)) 0 = true) ∧ ((chan s ch.val).flags.testBit 0 = false → rd t Reg.DMA_DONE_PEND = rd s Reg.DMA_DONE_PEND) ∧
        KeepsRegs [Reg.DMA_STAT ch.val, Reg.DMA_DONE_PEND, Reg.INT_RAW 0x30] s t ∧ t = { s with regs := t.regs })) ∧
  (∀ (ch : Fin 32) (va : Nat) (src : Nat) (dst : Nat) (n : Nat) (e : TlbEntry) (s : State),
      dmaDescDone s ch.val = true →
      (chan s ch.val).flags.testBit 1 = true →
      va < 2 ^ 40 →
      va = (chan s ch.val).next →
      src = (leNat (rdBytes s (e.leaf % 2 ^ 32 / 4096 * 4096 + va % 4096) 8) % 2 ^ 40) →
      dst = (leNat (rdBytes s ((e.leaf % 2 ^ 32 / 4096 * 4096 + va % 4096) + 8) 8) % 2 ^ 40) →
      n = (leNat (rdBytes s ((e.leaf % 2 ^ 32 / 4096 * 4096 + va % 4096) + 16) 4)) →
      va % 4096 + 32 ≤ 4096 →
      eccIn s (e.leaf % 2 ^ 32 / 4096 * 4096 + va % 4096) 32 = [] →
      tlbFind s 6 (dmaCtx s ch.val) (va / 4096) = some e →
      leafBit e.leaf 1 = true →
      s.dmaIssue.cycle = s.now / 8 + 1 →
      Permitted s (dmaDescEnd s ch.val) →
      Completes (.dmaDescriptorComplete ch) s (fun t =>
        rdn t (Reg.DMA_DONE ch.val) = 0 ∧ ((chan s ch.val).flags.testBit 0 = true → bitAt (rd t Reg.DMA_DONE_PEND) ch.val = true) ∧
        dmaState t ch.val = dRun ∧ (chan t ch.val).src = src ∧ (chan t ch.val).dst = dst ∧ (chan t ch.val).len = n ∧ (chan t ch.val).out = [] ∧ t.dmaIssue = s.dmaIssue ∧ rd64 t (Reg.DMA_CUR_LO ch.val) (Reg.DMA_CUR_HI ch.val) = va ∧
        (∀ d, d ≠ ch.val → chan t d = chan s d) ∧ KeepsRegs [Reg.DMA_DONE_PEND, Reg.INT_RAW 0x30, Reg.DMA_STAT ch.val, Reg.DMA_DONE ch.val, Reg.DMA_CUR_LO ch.val, Reg.DMA_CUR_HI ch.val] s t ∧ t = { s with regs := t.regs, arb := t.arb, dma := t.dma, dmaIssue := t.dmaIssue }))

/-- FENCE flushes every merge entry the core has written to and, with no word in error, changes no byte. IFENCE drops what the core has fetched. FBCALL of an instance whose header word is rT pushes the return address and IB, sets IB and branches, and traps 0x09 on another word and with the load's code on a load that fails; FBRET takes the frame back, and traps 0x06 where it cannot be read. A call at depth 64 or a return at depth 0 records the trap 0x0A, an instance that is not aligned to 32 bytes is a host error. An uncorrectable word in a clean L1 line invalidates it and the load goes to memory; in a dirty line it is trap 0x06. Outside a task both do nothing. The choices of log entries 27, 32 and 98 stand behind the trap at depth 64 before the type, the frame's layout and the L1 operand. (R106, R107, R438, R467, R468, R469, R473) -/
def Obligations.CoreFencesAndFunctionBlocks : Prop :=
  (∀ (core : Fin 7) (l1 : List L1Event) (u : State) (s : State),
      l1Events s core.val l1 = u →
      u.ecc = [] →
      (∀ r < 3, flag u (Reg.MEM_FLIP_CFG r) F.MEM_FLIP_CFG_ARM = false) →
      Completes (.fence core l1) s (fun t =>
        (∀ e ∈ t.memSys.merge, e.writers.testBit core.val = false) ∧ (∀ e ∈ t.memSys.merge, e ∈ u.memSys.merge) ∧ t.mem = u.mem ∧ t.ecc = u.ecc ∧
        KeepsBlocks [0x20] u t ∧ t = { u with regs := t.regs, memSys := t.memSys })) ∧
  (∀ (core : Fin 7) (l1 : List L1Event) (s : State),
      Completes (.fence core l1) s (fun t =>
        (∀ e ∈ t.memSys.merge, e.writers.testBit core.val = false) ∧ KeepsBlocks [0x20, 0x23, 0xb0, 0x110] s t ∧
        t = { s with free := t.free, regs := t.regs, mem := t.mem, cleRam := t.cleRam, canRam := t.canRam, ecc := t.ecc, memSys := t.memSys, l1 := t.l1, rxe := t.rxe, mirror := t.mirror, agl := t.agl })) ∧
  (∀ (core : Fin 7) (inst : Bool) (a : Nat) (n : Nat) (s : State),
      core.val < 6 →
      n % 16 = 0 ∧ 0 < n →
      rangeMapped (a / n * n) n = true →
      (∀ l ∈ s.l1, l.core = core.val → l.inst = inst → a / n * n + n ≤ l.addr ∨ l.addr + l.size ≤ a / n * n) →
      s.memSys.merge = [] →
      Completes (.fence core [.fill inst a n]) s (fun t => t = { s with l1 := s.l1 ++ [{ core := core.val, inst := inst, addr := a / n * n, size := n }] })) ∧
  (∀ (core : Fin 7) (s : State),
      Completes (.ifence core) s (fun t =>
        coreOf t core.val = { coreOf s core.val with icacheFrom := s.now } ∧ (∀ d, d ≠ core.val → coreOf t d = coreOf s d) ∧ t.l1 = s.l1.filter (fun l => !(l.core == core.val && l.inst)) ∧ t = { s with cores := t.cores, l1 := t.l1 })) ∧
  (∀ (core : Fin 4) (inst : BitVec 40) (itype : BitVec 40) (target : BitVec 40) (ret : BitVec 40) (n : Nat) (e : TlbEntry) (l1 : List L1Event) (u : State) (s : State),
      l1Events s core.val l1 = u →
      coreRuns u core.val = true →
      inTask u core.val = some n →
      n < 16 →
      taskCore u n < 4 →
      inst.toNat % 32 = 0 →
      (task u n).fbsp < 64 →
      tlbFind u core.val (fld u (Reg.CORE_STAT core.val) F.CORE_STAT_CTX) (inst.toNat / 4096) = some e →
      leafBit e.leaf 1 = true →
      leafBit e.leaf 4 = true →
      reservedTcm (e.leaf % 2 ^ 32 / 4096 * 4096 + inst.toNat % 4096) = false →
      l1Find u core.val false (e.leaf % 2 ^ 32 / 4096 * 4096 + inst.toNat % 4096) = none →
      eccIn u (e.leaf % 2 ^ 32 / 4096 * 4096 + inst.toNat % 4096) 4 = [] →
      rdLE u (e.leaf % 2 ^ 32 / 4096 * 4096 + inst.toNat % 4096) 4 = itype.toNat →
      Permitted s (fbCall u core.val n inst.toNat itype.toNat target.toNat ret.toNat) →
      Completes (.fbcall core inst itype target ret l1) s (fun t =>
        task t n = { task u n with fbsp := (task u n).fbsp + 1, ib := inst.toNat } ∧ (coreOf t core.val).pc = target.toNat ∧ rdLE t (fbFrame u n (task u n).fbsp) 8 = ret.toNat ∧ ((task u n).ib < 2 ^ 64 → rdLE t ((fbFrame u n (task u n).fbsp) + 8) 8 = (task u n).ib) ∧ KeepsMemBut (fbFrame u n (task u n).fbsp) 16 u t ∧
        (∀ d, d ≠ core.val → coreOf t d = coreOf u d) ∧ (∀ m, m ≠ n → task t m = task u m) ∧
        KeepsRegs [] u t ∧ t = { u with mem := t.mem, ecc := t.ecc, memSys := t.memSys, arb := t.arb, cores := t.cores, cyc := t.cyc })) ∧
  (∀ (core : Fin 4) (inst : BitVec 40) (itype : BitVec 40) (target : BitVec 40) (ret : BitVec 40) (n : Nat) (e : TlbEntry) (l : L1Line) (l1 : List L1Event) (u : State) (s : State),
      l1Events s core.val l1 = u →
      coreRuns u core.val = true →
      inTask u core.val = some n →
      n < 16 →
      taskCore u n < 4 →
      inst.toNat % 32 = 0 →
      (task u n).fbsp < 64 →
      tlbFind u core.val (fld u (Reg.CORE_STAT core.val) F.CORE_STAT_CTX) (inst.toNat / 4096) = some e →
      leafBit e.leaf 1 = true →
      leafBit e.leaf 4 = true →
      reservedTcm (e.leaf % 2 ^ 32 / 4096 * 4096 + inst.toNat % 4096) = false →
      l1Find u core.val false (e.leaf % 2 ^ 32 / 4096 * 4096 + inst.toNat % 4096) = some l →
      l.dirty = false →
      eccCheck 1 (l1Ecc l (e.leaf % 2 ^ 32 / 4096 * 4096 + inst.toNat % 4096)) = .uncorrectable →
      eccIn u (e.leaf % 2 ^ 32 / 4096 * 4096 + inst.toNat % 4096) 4 = [] →
      rdLE u (e.leaf % 2 ^ 32 / 4096 * 4096 + inst.toNat % 4096) 4 = itype.toNat →
      Permitted s (fbCall u core.val n inst.toNat itype.toNat target.toNat ret.toNat) →
      Completes (.fbcall core inst itype target ret l1) s (fun t =>
        task t n = { task u n with fbsp := (task u n).fbsp + 1, ib := inst.toNat } ∧ (coreOf t core.val).pc = target.toNat ∧ rdLE t (fbFrame u n (task u n).fbsp) 8 = ret.toNat ∧ ((task u n).ib < 2 ^ 64 → rdLE t ((fbFrame u n (task u n).fbsp) + 8) 8 = (task u n).ib) ∧ KeepsMemBut (fbFrame u n (task u n).fbsp) 16 u t ∧
        (∀ d, d ≠ core.val → coreOf t d = coreOf u d) ∧ (∀ m, m ≠ n → task t m = task u m) ∧ t.l1 = u.l1.filter (fun l => !(l1Holds core.val false (e.leaf % 2 ^ 32 / 4096 * 4096 + inst.toNat % 4096) l)) ∧
        KeepsRegs [] u t ∧ t = { u with mem := t.mem, ecc := t.ecc, memSys := t.memSys, arb := t.arb, cores := t.cores, cyc := t.cyc, l1 := t.l1 })) ∧
  (∀ (core : Fin 4) (inst : BitVec 40) (itype : BitVec 40) (target : BitVec 40) (ret : BitVec 40) (n : Nat) (w : Nat) (r : (Nat ⊕ Nat) × State) (l1 : List L1Event) (u : State) (s : State),
      l1Events s core.val l1 = u →
      coreRuns u core.val = true →
      inTask u core.val = some n →
      n < 16 →
      inst.toNat % 32 = 0 →
      (task u n).fbsp < 64 →
      coreLoad u core.val inst.toNat = r →
      r.1 = .inr w →
      w ≠ itype.toNat →
      Permitted s (fbCall u core.val n inst.toNat itype.toNat target.toNat ret.toNat) →
      Completes (.fbcall core inst itype target ret l1) s (fun t =>
        fld t (Reg.CORE_TRAP core.val) F.CORE_TRAP_CAUSE = 0x09 ∧ flag t (Reg.CORE_TRAP core.val) F.CORE_TRAP_VALID = true ∧ bitAt (rd t (Reg.INT_RAW (0x10 + core.val))) 0 = true ∧
        KeepsBlocks [0x10, 0x16, 0x17, 0x20, 0x23, 0x30, 0x35, 0x40, 0xa0, 0xb0, 0x110] s t ∧
        t = { s with free := t.free, regs := t.regs, mem := t.mem, cleRam := t.cleRam, canRam := t.canRam, arb := t.arb, cyc := t.cyc, ecc := t.ecc, memSys := t.memSys, l1 := t.l1, mmu := t.mmu, dma := t.dma, dmaIssue := t.dmaIssue, cores := t.cores, rxe := t.rxe, mirror := t.mirror, agl := t.agl })) ∧
  (∀ (core : Fin 4) (inst : BitVec 40) (itype : BitVec 40) (target : BitVec 40) (ret : BitVec 40) (n : Nat) (code : Nat) (r : (Nat ⊕ Nat) × State) (l1 : List L1Event) (u : State) (s : State),
      l1Events s core.val l1 = u →
      coreRuns u core.val = true →
      inTask u core.val = some n →
      n < 16 →
      inst.toNat % 32 = 0 →
      (task u n).fbsp < 64 →
      coreLoad u core.val inst.toNat = r →
      r.1 = .inl code →
      Permitted s (fbCall u core.val n inst.toNat itype.toNat target.toNat ret.toNat) →
      Completes (.fbcall core inst itype target ret l1) s (fun t =>
        fld t (Reg.CORE_TRAP core.val) F.CORE_TRAP_CAUSE = code ∧ flag t (Reg.CORE_TRAP core.val) F.CORE_TRAP_VALID = true ∧ bitAt (rd t (Reg.INT_RAW (0x10 + core.val))) 0 = true ∧ rd64 t (Reg.CORE_TRAP_VA_LO core.val) (Reg.CORE_TRAP_VA_HI core.val) = inst.toNat ∧
        KeepsBlocks [0x10, 0x16, 0x17, 0x20, 0x23, 0x30, 0x35, 0x40, 0xa0, 0xb0, 0x110] s t ∧
        t = { s with free := t.free, regs := t.regs, mem := t.mem, cleRam := t.cleRam, canRam := t.canRam, arb := t.arb, cyc := t.cyc, ecc := t.ecc, memSys := t.memSys, l1 := t.l1, mmu := t.mmu, dma := t.dma, dmaIssue := t.dmaIssue, cores := t.cores, rxe := t.rxe, mirror := t.mirror, agl := t.agl })) ∧
  (∀ (core : Fin 4) (inst : BitVec 40) (n : Nat) (e : TlbEntry) (l : L1Line) (s : State),
      tlbFind s core.val (fld s (Reg.CORE_STAT core.val) F.CORE_STAT_CTX) (inst.toNat / 4096) = some e →
      leafBit e.leaf 1 = true →
      leafBit e.leaf 4 = true →
      reservedTcm (e.leaf % 2 ^ 32 / 4096 * 4096 + inst.toNat % 4096) = false →
      l1Find s core.val false (e.leaf % 2 ^ 32 / 4096 * 4096 + inst.toNat % 4096) = some l →
      l.dirty = true →
      l1Bad l = true →
      coreLoad s core.val inst.toNat = (.inl 6, s)) ∧
  (∀ (core : Fin 4) (inst : BitVec 40) (itype : BitVec 40) (target : BitVec 40) (ret : BitVec 40) (n : Nat) (l1 : List L1Event) (u : State) (s : State),
      l1Events s core.val l1 = u →
      coreRuns u core.val = true →
      inTask u core.val = some n →
      n < 16 →
      inst.toNat % 32 = 0 →
      64 ≤ (task u n).fbsp →
      Permitted s (fbCall u core.val n inst.toNat itype.toNat target.toNat ret.toNat) →
      Completes (.fbcall core inst itype target ret l1) s (fun t =>
        fld t (Reg.CORE_TRAP core.val) F.CORE_TRAP_CAUSE = 0x0A ∧ flag t (Reg.CORE_TRAP core.val) F.CORE_TRAP_VALID = true ∧ bitAt (rd t (Reg.INT_RAW (0x10 + core.val))) 0 = true ∧
        KeepsBlocks [0x10, 0x16, 0x17, 0x20, 0x23, 0x30, 0x35, 0x40, 0xa0, 0xb0, 0x110] s t ∧
        t = { s with free := t.free, regs := t.regs, mem := t.mem, cleRam := t.cleRam, canRam := t.canRam, arb := t.arb, cyc := t.cyc, ecc := t.ecc, memSys := t.memSys, l1 := t.l1, mmu := t.mmu, dma := t.dma, dmaIssue := t.dmaIssue, cores := t.cores, rxe := t.rxe, mirror := t.mirror, agl := t.agl })) ∧
  (∀ (core : Fin 4) (inst : BitVec 40) (itype : BitVec 40) (target : BitVec 40) (ret : BitVec 40) (n : Nat) (l1 : List L1Event) (u : State) (s : State),
      l1Events s core.val l1 = u →
      coreRuns u core.val = true →
      inTask u core.val = some n →
      inst.toNat % 32 ≠ 0 →
      exec (.fbcall core inst itype target ret l1) s = .fault (.hostError 107)) ∧
  (∀ (core : Fin 4) (inst : BitVec 40) (itype : BitVec 40) (target : BitVec 40) (ret : BitVec 40) (l1 : List L1Event) (u : State) (s : State),
      l1Events s core.val l1 = u →
      inTask u core.val = none ∨ coreRuns u core.val = false →
      Completes (.fbcall core inst itype target ret l1) s (fun t =>
        t = u)) ∧
  (∀ (core : Fin 4) (n : Nat) (s : State),
      coreRuns s core.val = true →
      inTask s core.val = some n →
      0 < (task s n).fbsp →
      eccIn s (fbFrame s n ((task s n).fbsp - 1)) 16 = [] →
      Permitted s (fbReturn s core.val n) →
      Completes (.fbret core) s (fun t =>
        task t n = { task s n with fbsp := (task s n).fbsp - 1, ib := rdLE s (fbFrame s n ((task s n).fbsp - 1) + 8) 8 } ∧ coreOf t core.val = { coreOf s core.val with pc := rdLE s (fbFrame s n ((task s n).fbsp - 1)) 8 } ∧
        (∀ d, d ≠ core.val → coreOf t d = coreOf s d) ∧ (∀ m, m ≠ n → task t m = task s m) ∧ t = { s with arb := t.arb, cores := t.cores, cyc := t.cyc })) ∧
  (∀ (core : Fin 4) (n : Nat) (s : State),
      coreRuns s core.val = true →
      inTask s core.val = some n →
      n < 16 →
      0 < (task s n).fbsp →
      (readScan s core.val (fbFrame s n ((task s n).fbsp - 1)) 16).1.isSome = true →
      Permitted s (fbReturn s core.val n) →
      Completes (.fbret core) s (fun t => fld t (Reg.CORE_TRAP core.val) F.CORE_TRAP_CAUSE = 0x06 ∧ flag t (Reg.CORE_TRAP core.val) F.CORE_TRAP_VALID = true ∧ bitAt (rd t (Reg.INT_RAW (0x10 + core.val))) 0 = true ∧
        KeepsBlocks [0x10, 0x16, 0x17, 0x20, 0x23, 0x30, 0x35, 0x40, 0xa0, 0xb0, 0x110] s t ∧
        t = { s with free := t.free, regs := t.regs, mem := t.mem, cleRam := t.cleRam, canRam := t.canRam, arb := t.arb, cyc := t.cyc, ecc := t.ecc, memSys := t.memSys, l1 := t.l1, mmu := t.mmu, dma := t.dma, dmaIssue := t.dmaIssue, cores := t.cores, rxe := t.rxe, mirror := t.mirror, agl := t.agl })) ∧
  (∀ (core : Fin 4) (n : Nat) (s : State),
      coreRuns s core.val = true →
      inTask s core.val = some n →
      n < 16 →
      (task s n).fbsp = 0 →
      Permitted s (fbReturn s core.val n) →
      Completes (.fbret core) s (fun t => fld t (Reg.CORE_TRAP core.val) F.CORE_TRAP_CAUSE = 0x0A ∧ flag t (Reg.CORE_TRAP core.val) F.CORE_TRAP_VALID = true ∧ bitAt (rd t (Reg.INT_RAW (0x10 + core.val))) 0 = true ∧
        KeepsBlocks [0x10, 0x16, 0x17, 0x20, 0x23, 0x30, 0x35, 0x40, 0xa0, 0xb0, 0x110] s t ∧
        t = { s with free := t.free, regs := t.regs, mem := t.mem, cleRam := t.cleRam, canRam := t.canRam, arb := t.arb, cyc := t.cyc, ecc := t.ecc, memSys := t.memSys, l1 := t.l1, mmu := t.mmu, dma := t.dma, dmaIssue := t.dmaIssue, cores := t.cores, rxe := t.rxe, mirror := t.mirror, agl := t.agl })) ∧
  (∀ (core : Fin 4) (s : State),
      inTask s core.val = none ∨ coreRuns s core.val = false →
      Completes (.fbret core) s (fun t => t = s))

/-- In supervisor mode a trap records CORE_TRAP and enters CORE_TVEC with translation off, and halts the core while CORE_TRAP is VALID; in a task it records the trap. BREAK in supervisor mode halts the core; in a task it holds the task in mode sets 1 and 3 and halts the core in another. A source of higher priority enters CORE_IVEC in supervisor mode. CORE_IACK answers the source and raises IPRIO to its priority, or 0; A read by another initiator is a host error. CORE_EOI takes the priority before, and the last one ends the handler. DEBUG_RESUME clears HALTED. (R455, R472, R473, R474, R475, R476) -/
def Obligations.CoreTrapsAndInterrupts : Prop :=
  (∀ (core : Fin 7) (code : BitVec 8) (pc : BitVec 40) (va : BitVec 40) (l1 : List L1Event) (u : State) (s : State),
      l1Events s core.val l1 = u →
      coreRuns s core.val = true →
      inTask u core.val = none →
      flag u (Reg.CORE_TRAP core.val) F.CORE_TRAP_VALID = false →
      0 < code.toNat ∧ code.toNat ≤ 10 ∧ code.toNat ≠ 3 ∧ code.toNat ≠ 6 →
      Completes (.trap core code pc va l1) s (fun t =>
        fld t (Reg.CORE_TRAP core.val) F.CORE_TRAP_CAUSE = code.toNat ∧ flag t (Reg.CORE_TRAP core.val) F.CORE_TRAP_VALID = true ∧ bitAt (rd t (Reg.INT_RAW (0x10 + core.val))) 0 = true ∧ fld t (Reg.CORE_TRAP core.val) F.CORE_TRAP_CTX = fld u (Reg.CORE_STAT core.val) F.CORE_STAT_CTX ∧ rd64 t (Reg.CORE_TRAP_PC_LO core.val) (Reg.CORE_TRAP_PC_HI core.val) = pc.toNat ∧ (4 ≤ code.toNat ∧ code.toNat ≤ 7 → rd64 t (Reg.CORE_TRAP_VA_LO core.val) (Reg.CORE_TRAP_VA_HI core.val) = va.toNat) ∧
        coreOf t core.val = { coreOf u core.val with pc := rdn u (Reg.CORE_TVEC core.val), trapped := true } ∧
        KeepsRegs [Reg.CORE_TRAP core.val, Reg.CORE_TRAP_PC_LO core.val, Reg.CORE_TRAP_PC_HI core.val, Reg.CORE_TRAP_VA_LO core.val, Reg.CORE_TRAP_VA_HI core.val, Reg.INT_RAW (0x10 + core.val)] u t ∧ t = { u with regs := t.regs, cores := t.cores })) ∧
  (∀ (core : Fin 7) (code : BitVec 8) (pc : BitVec 40) (va : BitVec 40) (l1 : List L1Event) (u : State) (s : State),
      l1Events s core.val l1 = u →
      coreRuns s core.val = true →
      inTask u core.val = none →
      flag u (Reg.CORE_TRAP core.val) F.CORE_TRAP_VALID = false →
      code = 3 ∨ code = 6 →
      Permitted s (takeTrap u core.val code.toNat pc.toNat va.toNat) →
      Completes (.trap core code pc va l1) s (fun t =>
        fld t (Reg.CORE_TRAP core.val) F.CORE_TRAP_CAUSE = code.toNat ∧ flag t (Reg.CORE_TRAP core.val) F.CORE_TRAP_VALID = true ∧ bitAt (rd t (Reg.INT_RAW (0x10 + core.val))) 0 = true ∧ (coreOf t core.val).pc = rdn u (Reg.CORE_TVEC core.val) ∧ (coreOf t core.val).trapped = true ∧
        KeepsBlocks [0x10, 0x16, 0x17, 0x20, 0x23, 0x30, 0x35, 0x40, 0xa0, 0xb0, 0x110] s t ∧
        t = { s with free := t.free, regs := t.regs, mem := t.mem, cleRam := t.cleRam, canRam := t.canRam, arb := t.arb, cyc := t.cyc, ecc := t.ecc, memSys := t.memSys, l1 := t.l1, mmu := t.mmu, dma := t.dma, dmaIssue := t.dmaIssue, cores := t.cores, rxe := t.rxe, mirror := t.mirror, agl := t.agl })) ∧
  (∀ (core : Fin 7) (code : BitVec 8) (pc : BitVec 40) (va : BitVec 40) (l1 : List L1Event) (u : State) (s : State),
      l1Events s core.val l1 = u →
      coreRuns s core.val = true →
      inTask u core.val = none →
      flag u (Reg.CORE_TRAP core.val) F.CORE_TRAP_VALID = true →
      0 < code.toNat ∧ code.toNat ≤ 10 →
      Permitted s (takeTrap u core.val code.toNat pc.toNat va.toNat) →
      Completes (.trap core code pc va l1) s (fun t =>
        flag t (Reg.CORE_STAT core.val) F.CORE_STAT_HALTED = true ∧ bitAt (rd t (Reg.INT_RAW (0x10 + core.val))) 1 = true ∧ rd t (Reg.CORE_TRAP core.val) = rd u (Reg.CORE_TRAP core.val) ∧
        KeepsBlocks [0x10, 0x16, 0x17, 0x20, 0x23, 0x30, 0x35, 0x40, 0xa0, 0xb0, 0x110] s t ∧
        t = { s with free := t.free, regs := t.regs, mem := t.mem, cleRam := t.cleRam, canRam := t.canRam, arb := t.arb, cyc := t.cyc, ecc := t.ecc, memSys := t.memSys, l1 := t.l1, mmu := t.mmu, dma := t.dma, dmaIssue := t.dmaIssue, cores := t.cores, rxe := t.rxe, mirror := t.mirror, agl := t.agl })) ∧
  (∀ (core : Fin 7) (code : BitVec 8) (pc : BitVec 40) (va : BitVec 40) (l1 : List L1Event) (u : State) (n : Nat) (s : State),
      l1Events s core.val l1 = u →
      coreRuns s core.val = true →
      inTask u core.val = some n →
      n < 16 →
      0 < code.toNat ∧ code.toNat ≤ 10 →
      Permitted s (takeTrap u core.val code.toNat pc.toNat va.toNat) →
      Completes (.trap core code pc va l1) s (fun t =>
        fld t (Reg.CORE_TRAP core.val) F.CORE_TRAP_CAUSE = code.toNat ∧ flag t (Reg.CORE_TRAP core.val) F.CORE_TRAP_VALID = true ∧ bitAt (rd t (Reg.INT_RAW (0x10 + core.val))) 0 = true ∧ rd64 t (Reg.CORE_TRAP_PC_LO core.val) (Reg.CORE_TRAP_PC_HI core.val) = pc.toNat ∧
        KeepsBlocks [0x10, 0x16, 0x17, 0x20, 0x23, 0x30, 0x35, 0x40, 0xa0, 0xb0, 0x110] s t ∧
        t = { s with free := t.free, regs := t.regs, mem := t.mem, cleRam := t.cleRam, canRam := t.canRam, arb := t.arb, cyc := t.cyc, ecc := t.ecc, memSys := t.memSys, l1 := t.l1, mmu := t.mmu, dma := t.dma, dmaIssue := t.dmaIssue, cores := t.cores, rxe := t.rxe, mirror := t.mirror, agl := t.agl })) ∧
  (∀ (core : Fin 7) (code : BitVec 8) (pc : BitVec 40) (va : BitVec 40) (l1 : List L1Event) (s : State),
      0 < code.toNat ∧ code.toNat ≤ 10 →
      coreRuns s core.val = false →
      Completes (.trap core code pc va l1) s (fun t =>
        t = s)) ∧
  (∀ (core : Fin 7) (pc : BitVec 40) (s : State),
      coreRuns s core.val = true →
      inTask s core.val = none →
      flag s (Reg.CORE_TRAP core.val) F.CORE_TRAP_VALID = false →
      Completes (.breakTrap core pc) s (fun t =>
        flag t (Reg.CORE_STAT core.val) F.CORE_STAT_HALTED = true ∧ fld t (Reg.CORE_TRAP core.val) F.CORE_TRAP_CAUSE = 0x0B ∧ flag t (Reg.CORE_TRAP core.val) F.CORE_TRAP_VALID = true ∧ bitAt (rd t (Reg.INT_RAW (0x10 + core.val))) 0 = true ∧ rd64 t (Reg.CORE_TRAP_PC_LO core.val) (Reg.CORE_TRAP_PC_HI core.val) = pc.toNat ∧ bitAt (rd t (Reg.INT_RAW (0x10 + core.val))) 1 = true ∧
        ((∀ n, runningOn s core.val = some n → boundTo s n = []) → KeepsRegs [Reg.CORE_STAT core.val, Reg.CORE_TRAP core.val, Reg.CORE_TRAP_PC_LO core.val, Reg.CORE_TRAP_PC_HI core.val, Reg.CORE_TRAP_VA_LO core.val, Reg.CORE_TRAP_VA_HI core.val, Reg.INT_RAW (0x10 + core.val)] s t ∧ t = { s with regs := t.regs }) ∧
        KeepsBlocks [0x10, 0x16, 0x17, 0x20, 0x23, 0x30, 0x35, 0x40, 0xa0, 0xb0, 0x110] s t ∧
        t = { s with free := t.free, regs := t.regs, mem := t.mem, cleRam := t.cleRam, canRam := t.canRam, arb := t.arb, cyc := t.cyc, ecc := t.ecc, memSys := t.memSys, mmu := t.mmu, dma := t.dma, dmaIssue := t.dmaIssue, cores := t.cores, rxe := t.rxe, mirror := t.mirror, agl := t.agl })) ∧
  (∀ (core : Fin 7) (pc : BitVec 40) (s : State),
      coreRuns s core.val = true →
      inTask s core.val = none →
      flag s (Reg.CORE_TRAP core.val) F.CORE_TRAP_VALID = true →
      Completes (.breakTrap core pc) s (fun t =>
        flag t (Reg.CORE_STAT core.val) F.CORE_STAT_HALTED = true ∧ rd t (Reg.CORE_TRAP core.val) = rd s (Reg.CORE_TRAP core.val) ∧ bitAt (rd t (Reg.INT_RAW (0x10 + core.val))) 1 = true ∧
        KeepsBlocks [0x10, 0x16, 0x17, 0x20, 0x23, 0x30, 0x35, 0x40, 0xa0, 0xb0, 0x110] s t ∧
        t = { s with free := t.free, regs := t.regs, mem := t.mem, cleRam := t.cleRam, canRam := t.canRam, arb := t.arb, cyc := t.cyc, ecc := t.ecc, memSys := t.memSys, mmu := t.mmu, dma := t.dma, dmaIssue := t.dmaIssue, cores := t.cores, rxe := t.rxe, mirror := t.mirror, agl := t.agl })) ∧
  (∀ (core : Fin 7) (pc : BitVec 40) (n : Nat) (s : State),
      coreRuns s core.val = true →
      inTask s core.val = some n →
      modeSet s ≠ 1 ∧ modeSet s ≠ 3 →
      Completes (.breakTrap core pc) s (fun t =>
        flag t (Reg.CORE_STAT core.val) F.CORE_STAT_HALTED = true ∧ fld t (Reg.CORE_TRAP core.val) F.CORE_TRAP_CAUSE = 0x0B ∧ flag t (Reg.CORE_TRAP core.val) F.CORE_TRAP_VALID = true ∧ bitAt (rd t (Reg.INT_RAW (0x10 + core.val))) 0 = true ∧ (boundTo s n = [] → KeepsRegs [Reg.CORE_STAT core.val, Reg.CORE_TRAP core.val, Reg.CORE_TRAP_PC_LO core.val, Reg.CORE_TRAP_PC_HI core.val, Reg.CORE_TRAP_VA_LO core.val, Reg.CORE_TRAP_VA_HI core.val, Reg.INT_RAW (0x10 + core.val)] s t ∧ t = { s with regs := t.regs }) ∧
        KeepsBlocks [0x10, 0x16, 0x17, 0x20, 0x23, 0x30, 0x35, 0x40, 0xa0, 0xb0, 0x110] s t ∧
        t = { s with free := t.free, regs := t.regs, mem := t.mem, cleRam := t.cleRam, canRam := t.canRam, arb := t.arb, cyc := t.cyc, ecc := t.ecc, memSys := t.memSys, mmu := t.mmu, dma := t.dma, dmaIssue := t.dmaIssue, cores := t.cores, rxe := t.rxe, mirror := t.mirror, agl := t.agl })) ∧
  (∀ (core : Fin 7) (pc : BitVec 40) (n : Nat) (s : State),
      coreRuns s core.val = true →
      inTask s core.val = some n →
      n < 16 →
      modeSet s = 1 ∨ modeSet s = 3 →
      Permitted s (breakTask (recordTrap s core.val 0x0B pc.toNat 0) n) →
      Completes (.breakTrap core pc) s (fun t =>
        taskState t n = tHeld ∧ (task t n).saved = true ∧ fld t (Reg.CORE_TRAP core.val) F.CORE_TRAP_CAUSE = 0x0B ∧ flag t (Reg.CORE_TRAP core.val) F.CORE_TRAP_VALID = true ∧ bitAt (rd t (Reg.INT_RAW (0x10 + core.val))) 0 = true ∧
        KeepsBlocks [0x10, 0x16, 0x17, 0x20, 0x23, 0x30, 0x35, 0x40, 0xa0, 0xb0, 0x110] s t ∧
        t = { s with free := t.free, regs := t.regs, mem := t.mem, cleRam := t.cleRam, canRam := t.canRam, arb := t.arb, cyc := t.cyc, ecc := t.ecc, memSys := t.memSys, mmu := t.mmu, dma := t.dma, dmaIssue := t.dmaIssue, cores := t.cores, rxe := t.rxe, mirror := t.mirror, agl := t.agl })) ∧
  (∀ (core : Fin 7) (pc : BitVec 40) (s : State),
      coreRuns s core.val = false →
      Completes (.breakTrap core pc) s (fun t => t = s)) ∧
  (∀ (core : Fin 7) (n : Nat) (s : State),
      coreRuns s core.val = true →
      deliver s core.val = some n →
      srcPrio s n < iprio s core.val →
      (coreOf s core.val).handler = false ∨ (coreOf s core.val).acked = true →
      Completes (.interruptEntry core) s (fun t =>
        (coreOf t core.val).handler = true ∧ (coreOf t core.val).acked = false ∧ (coreOf t core.val).pc = rdn s (Reg.CORE_IVEC core.val) ∧ (coreOf t core.val).linkStat = rd s (Reg.CORE_STAT core.val) ∧ flag t (Reg.CORE_STAT core.val) F.CORE_STAT_TMODE = false ∧
        fld t (Reg.CORE_STAT core.val) F.CORE_STAT_CTX = (if flag s (Reg.CORE_CFG core.val) F.CORE_CFG_XLATE then fld s (Reg.CORE_CFG core.val) F.CORE_CFG_SCTX else 0) ∧
        KeepsRegs [Reg.CORE_STAT core.val] s t ∧ t = { s with regs := t.regs, cores := t.cores, free := t.free })) ∧
  (∀ (core : Fin 7) (s : State),
      deliver s core.val = none ∨ coreRuns s core.val = false ∨ ((coreOf s core.val).handler = true ∧ (coreOf s core.val).acked = false) →
      Completes (.interruptEntry core) s (fun t => t = s)) ∧
  (∀ (core : Fin 7) (n : Nat) (s : State),
      deliver s core.val = some n →
      iprio s core.val ≤ srcPrio s n →
      Completes (.interruptEntry core) s (fun t => t = s)) ∧
  (∀ (core : Fin 7) (reader : Fin 16) (n : Nat) (s : State),
      pageErr s (0x10 + core.val) 0x64 = none →
      reader.val = core.val →
      deliver s core.val = some n →
      Completes (.coreIackRead core reader) s (fun t =>
        t.rdata = [BitVec.ofNat 32 (n + 65536)] ∧ iprio t core.val = srcPrio s n ∧ coreOf t core.val = { coreOf s core.val with stack := iprio s core.val :: (coreOf s core.val).stack, acked := true, handler := true } ∧
        KeepsRegs [Reg.CORE_STAT core.val] s t ∧ t = { s with regs := t.regs, cores := t.cores, arb := t.arb, rdata := t.rdata })) ∧
  (∀ (core : Fin 7) (reader : Fin 16) (s : State),
      pageErr s (0x10 + core.val) 0x64 = none →
      reader.val = core.val →
      deliver s core.val = none →
      ((coreOf s core.val).handler && iprio s core.val == 16) = false →
      Completes (.coreIackRead core reader) s (fun t => t = { s with arb := t.arb, rdata := [0] })) ∧
  (∀ (core : Fin 7) (reader : Fin 16) (s : State),
      pageErr s (0x10 + core.val) 0x64 = none →
      reader.val = core.val →
      deliver s core.val = none →
      (coreOf s core.val).handler = true →
      iprio s core.val = 16 →
      Permitted s (handlerReturn (granted s reader) core.val) →
      Completes (.coreIackRead core reader) s (fun t => t.rdata = [0] ∧ (coreOf t core.val).handler = false ∧ (coreOf t core.val).acked = false ∧
        KeepsBlocks [0x10, 0x16, 0x17, 0x20, 0x23, 0x30, 0x35, 0x40, 0xa0, 0xb0, 0x110] s t ∧
        t = { s with free := t.free, rdata := t.rdata, regs := t.regs, mem := t.mem, cleRam := t.cleRam, canRam := t.canRam, arb := t.arb, cyc := t.cyc, ecc := t.ecc, memSys := t.memSys, mmu := t.mmu, dma := t.dma, dmaIssue := t.dmaIssue, cores := t.cores, rxe := t.rxe, mirror := t.mirror, agl := t.agl })) ∧
  (∀ (core : Fin 7) (reader : Fin 16) (s : State),
      pageErr s (0x10 + core.val) 0x64 = none →
      reader.val ≠ core.val →
      exec (.coreIackRead core reader) s = .fault (.hostError 476)) ∧
  (∀ (ini : Fin 16) (core : Fin 7) (p : Nat) (s : State),
      Reachable s ini (0x10 + core.val) 0x68 →
      (coreOf s core.val).stack = [p] →
      p < 32 →
      core.val < 4 →
      Permitted s (popPrio (granted s ini) core.val) →
      Completes (.coreEoiWrite ini core) s (fun t =>
        iprio t core.val = p ∧ (coreOf t core.val).stack = [] ∧ (coreOf t core.val).handler = false ∧
        KeepsBlocks [0x10, 0x16, 0x17, 0x20, 0x23, 0x30, 0x35, 0x40, 0xa0, 0xb0, 0x110] s t ∧
        t = { s with free := t.free, regs := t.regs, mem := t.mem, cleRam := t.cleRam, canRam := t.canRam, arb := t.arb, cyc := t.cyc, ecc := t.ecc, memSys := t.memSys, mmu := t.mmu, dma := t.dma, dmaIssue := t.dmaIssue, cores := t.cores, rxe := t.rxe, mirror := t.mirror, agl := t.agl })) ∧
  (∀ (ini : Fin 16) (core : Fin 7) (p : Nat) (q : Nat) (l : List Nat) (s : State),
      Reachable s ini (0x10 + core.val) 0x68 →
      (coreOf s core.val).stack = p :: q :: l →
      p < 32 →
      Completes (.coreEoiWrite ini core) s (fun t =>
        iprio t core.val = p ∧ coreOf t core.val = { coreOf s core.val with stack := q :: l } ∧ KeepsRegs [Reg.CORE_STAT core.val] s t ∧ t = { s with regs := t.regs, cores := t.cores, arb := t.arb })) ∧
  (∀ (ini : Fin 16) (core : Fin 7) (p : Nat) (s : State),
      Reachable s ini (0x10 + core.val) 0x68 →
      (coreOf s core.val).stack = [p] →
      p < 32 →
      4 ≤ core.val →
      Completes (.coreEoiWrite ini core) s (fun t =>
        iprio t core.val = p ∧ (coreOf t core.val).stack = [] ∧ (coreOf t core.val).handler = false ∧ (coreOf t core.val).pc = (coreOf s core.val).pc ∧ KeepsRegs [Reg.CORE_STAT core.val] s t ∧ t = { s with regs := t.regs, cores := t.cores, arb := t.arb })) ∧
  (∀ (ini : Fin 16) (core : Fin 7) (s : State),
      Reachable s ini (0x10 + core.val) 0x68 →
      (coreOf s core.val).stack = [] →
      Completes (.coreEoiWrite ini core) s (fun t => t = { s with arb := t.arb })) ∧
  (∀ (core : Fin 7) (s : State),
      flag s (Reg.CORE_STAT core.val) F.CORE_STAT_HALTED = true →
      4 ≤ core.val →
      core ≠ 4 ∨ s.boot.step ≠ .failed →
      runningOn s core.val = none →
      Completes (.debugResume core) s (fun t =>
        flag t (Reg.CORE_STAT core.val) F.CORE_STAT_HALTED = false ∧ iprio t core.val = iprio s core.val ∧ KeepsRegs [Reg.CORE_STAT core.val] s t ∧ t = { s with regs := t.regs })) ∧
  (∀ (core : Fin 7) (s : State),
      flag s (Reg.CORE_STAT core.val) F.CORE_STAT_HALTED = true →
      core.val < 4 →
      Permitted s (resumeCore s core.val) →
      Completes (.debugResume core) s (fun t => flag t (Reg.CORE_STAT core.val) F.CORE_STAT_HALTED = false ∧
        KeepsBlocks [0x10, 0x16, 0x17, 0x20, 0x23, 0x30, 0x35, 0x40, 0xa0, 0xb0, 0x110] s t ∧
        t = { s with free := t.free, regs := t.regs, mem := t.mem, cleRam := t.cleRam, canRam := t.canRam, arb := t.arb, cyc := t.cyc, ecc := t.ecc, memSys := t.memSys, mmu := t.mmu, dma := t.dma, dmaIssue := t.dmaIssue, cores := t.cores, rxe := t.rxe, mirror := t.mirror, agl := t.agl })) ∧
  (∀ (core : Fin 7) (s : State),
      flag s (Reg.CORE_STAT core.val) F.CORE_STAT_HALTED = false ∨ (core = 4 ∧ s.boot.step = .failed) →
      Completes (.debugResume core) s (fun t => t = s))

/-- Each command of KEYS_CMD is taken when none is in progress, sets BUSY and changes nothing else until it is done: IMPORT and DERIVE with a FORMAT and DEST that are assigned (DERIVE into the native format from a slot or the root), STORE, ERASE, CLEAR, ENROLL, SECURE, DECOMMISSION, GCM_START and GCM_FINAL. One while BUSY is 1 is a host error. A write of the last word of KEYS_GCM_DIN decrypts the block into KEYS_GCM_DOUT and takes it into the hash. When the Boot ROM loads the key store of an enrolled device in life cycle OPEN, ENROLLED is set; the root that reproduces the check value of the record is PRESENT and the slots are loaded, otherwise ROOT is FAILED. (R487, R488, R489, R490, R492, R495, R500) -/
def Obligations.KeysCommandsAccepted : Prop :=
  (∀ (ini : Fin 16) (value : Word) (s : State),
      Reachable s ini 0xF0 0x40 →
      fieldGet F.KEYS_CMD_CMD value = 1 →
      value &&& 0x00F0C800#32 = 0 →
      flag s Reg.KEYS_STAT F.KEYS_STAT_BUSY = false →
      fieldGet F.KEYS_CMD_FORMAT value = 1 ∨ fieldGet F.KEYS_CMD_FORMAT value = 2 →
      fieldGet F.KEYS_CMD_DEST value ≠ 0 →
      Completes (.keyImport ini value) s (fun t =>
        t.keys = { s.keys with cmd := some value } ∧ flag t Reg.KEYS_STAT F.KEYS_STAT_BUSY = true ∧ KeepsRegs [Reg.KEYS_STAT] s t ∧ t = { s with regs := t.regs, arb := t.arb, keys := t.keys })) ∧
  (∀ (ini : Fin 16) (value : Word) (s : State),
      Reachable s ini 0xF0 0x40 →
      fieldGet F.KEYS_CMD_CMD value = 2 →
      value &&& 0x00F0C800#32 = 0 →
      flag s Reg.KEYS_STAT F.KEYS_STAT_BUSY = false →
      fieldGet F.KEYS_CMD_FORMAT value = 1 →
      fieldGet F.KEYS_CMD_DEST value ≠ 0 →
      fieldGet F.KEYS_CMD_SRC value ≤ 0x80 →
      Completes (.keyDerive ini value) s (fun t =>
        t.keys = { s.keys with cmd := some value } ∧ flag t Reg.KEYS_STAT F.KEYS_STAT_BUSY = true ∧ KeepsRegs [Reg.KEYS_STAT] s t ∧ t = { s with regs := t.regs, arb := t.arb, keys := t.keys })) ∧
  (∀ (ini : Fin 16) (value : Word) (s : State),
      Reachable s ini 0xF0 0x40 →
      fieldGet F.KEYS_CMD_CMD value = 3 →
      value &&& 0x00F0C800#32 = 0 →
      flag s Reg.KEYS_STAT F.KEYS_STAT_BUSY = false →
      Completes (.keyStore ini value) s (fun t =>
        t.keys = { s.keys with cmd := some value } ∧ flag t Reg.KEYS_STAT F.KEYS_STAT_BUSY = true ∧ KeepsRegs [Reg.KEYS_STAT] s t ∧ t = { s with regs := t.regs, arb := t.arb, keys := t.keys })) ∧
  (∀ (ini : Fin 16) (value : Word) (s : State),
      Reachable s ini 0xF0 0x40 →
      fieldGet F.KEYS_CMD_CMD value = 4 →
      value &&& 0x00F0C800#32 = 0 →
      flag s Reg.KEYS_STAT F.KEYS_STAT_BUSY = false →
      Completes (.keyErase ini value) s (fun t =>
        t.keys = { s.keys with cmd := some value } ∧ flag t Reg.KEYS_STAT F.KEYS_STAT_BUSY = true ∧ KeepsRegs [Reg.KEYS_STAT] s t ∧ t = { s with regs := t.regs, arb := t.arb, keys := t.keys })) ∧
  (∀ (ini : Fin 16) (value : Word) (s : State),
      Reachable s ini 0xF0 0x40 →
      fieldGet F.KEYS_CMD_CMD value = 5 →
      value &&& 0x00F0C800#32 = 0 →
      flag s Reg.KEYS_STAT F.KEYS_STAT_BUSY = false →
      Completes (.keysClear ini value) s (fun t =>
        t.keys = { s.keys with cmd := some value } ∧ flag t Reg.KEYS_STAT F.KEYS_STAT_BUSY = true ∧ KeepsRegs [Reg.KEYS_STAT] s t ∧ t = { s with regs := t.regs, arb := t.arb, keys := t.keys })) ∧
  (∀ (ini : Fin 16) (value : Word) (s : State),
      Reachable s ini 0xF0 0x40 →
      fieldGet F.KEYS_CMD_CMD value = 6 →
      value &&& 0x00F0C800#32 = 0 →
      flag s Reg.KEYS_STAT F.KEYS_STAT_BUSY = false →
      Completes (.keyEnroll ini value) s (fun t =>
        t.keys = { s.keys with cmd := some value } ∧ flag t Reg.KEYS_STAT F.KEYS_STAT_BUSY = true ∧ KeepsRegs [Reg.KEYS_STAT] s t ∧ t = { s with regs := t.regs, arb := t.arb, keys := t.keys })) ∧
  (∀ (ini : Fin 16) (value : Word) (s : State),
      Reachable s ini 0xF0 0x40 →
      fieldGet F.KEYS_CMD_CMD value = 7 →
      value &&& 0x00F0C800#32 = 0 →
      flag s Reg.KEYS_STAT F.KEYS_STAT_BUSY = false →
      Completes (.keySecure ini value) s (fun t =>
        t.keys = { s.keys with cmd := some value } ∧ flag t Reg.KEYS_STAT F.KEYS_STAT_BUSY = true ∧ KeepsRegs [Reg.KEYS_STAT] s t ∧ t = { s with regs := t.regs, arb := t.arb, keys := t.keys })) ∧
  (∀ (ini : Fin 16) (value : Word) (s : State),
      Reachable s ini 0xF0 0x40 →
      fieldGet F.KEYS_CMD_CMD value = 8 →
      value &&& 0x00F0C800#32 = 0 →
      flag s Reg.KEYS_STAT F.KEYS_STAT_BUSY = false →
      Completes (.keyDecommission ini value) s (fun t =>
        t.keys = { s.keys with cmd := some value } ∧ flag t Reg.KEYS_STAT F.KEYS_STAT_BUSY = true ∧ KeepsRegs [Reg.KEYS_STAT] s t ∧ t = { s with regs := t.regs, arb := t.arb, keys := t.keys })) ∧
  (∀ (ini : Fin 16) (value : Word) (s : State),
      Reachable s ini 0xF0 0x40 →
      fieldGet F.KEYS_CMD_CMD value = 9 →
      value &&& 0x00F0C800#32 = 0 →
      flag s Reg.KEYS_STAT F.KEYS_STAT_BUSY = false →
      Completes (.gcmStart ini value) s (fun t =>
        t.keys = { s.keys with cmd := some value } ∧ flag t Reg.KEYS_STAT F.KEYS_STAT_BUSY = true ∧ KeepsRegs [Reg.KEYS_STAT] s t ∧ t = { s with regs := t.regs, arb := t.arb, keys := t.keys })) ∧
  (∀ (ini : Fin 16) (value : Word) (s : State),
      Reachable s ini 0xF0 0x40 →
      fieldGet F.KEYS_CMD_CMD value = 10 →
      value &&& 0x00F0C800#32 = 0 →
      flag s Reg.KEYS_STAT F.KEYS_STAT_BUSY = false →
      Completes (.gcmFinal ini value) s (fun t =>
        t.keys = { s.keys with cmd := some value } ∧ flag t Reg.KEYS_STAT F.KEYS_STAT_BUSY = true ∧ KeepsRegs [Reg.KEYS_STAT] s t ∧ t = { s with regs := t.regs, arb := t.arb, keys := t.keys })) ∧
  (∀ (ini : Fin 16) (value : Word) (s : State),
      Reachable s ini 0xF0 0x40 →
      fieldGet F.KEYS_CMD_CMD value = 3 →
      value &&& 0x00F0C800#32 = 0 →
      flag s Reg.KEYS_STAT F.KEYS_STAT_BUSY = true →
      exec (.keyStore ini value) s = .fault (.hostError 38)) ∧
  (∀ (ini : Fin 16) (value : Word) (g : GcmRun) (s : State),
      Reachable s ini 0xF0 0xF8 →
      s.keys.gcm = some g →
      Completes (.gcmDinWrite ini value) s (fun t =>
        rd t (Reg.KEYS_GCM_DIN 3) = value ∧ t.keys = { s.keys with gcm := some { g with blocks := g.blocks + 1, hash := ghash (gcmHash g.key) g.hash ((List.range 3).flatMap (fun i => leBytes 4 (rdn s (Reg.KEYS_GCM_DIN i))) ++ leBytes 4 value.toNat) } } ∧
        ((gcmCrypt g.key g.iv (2 + g.blocks) ((List.range 3).flatMap (fun i => leBytes 4 (rdn s (Reg.KEYS_GCM_DIN i))) ++ leBytes 4 value.toNat)).length = 16 → ∀ i < 4, rdn t (Reg.KEYS_GCM_DOUT i) = leNat (((gcmCrypt g.key g.iv (2 + g.blocks) ((List.range 3).flatMap (fun i => leBytes 4 (rdn s (Reg.KEYS_GCM_DIN i))) ++ leBytes 4 value.toNat)).drop (4 * i)).take 4)) ∧
        KeepsBlocks [0xF0] s t ∧ t = { s with regs := t.regs, arb := t.arb, keys := t.keys })) ∧
  (∀ (b : List Byte) (s : State),
      fld s Reg.BOOT_STAT F.BOOT_STAT_PHASE = 4 →
      s.efuse.lifeCycle = 0 →
      rootState s = 0 →
      flag s Reg.KEYS_STAT F.KEYS_STAT_ENROLLED = false →
      (enrolRead s).1 = some b →
      eccIn s keyArea 0x1000 = [] →
      Completes .keyStoreLoad s (fun t =>
        flag t Reg.KEYS_STAT F.KEYS_STAT_ENROLLED = true ∧ (s.keys.puf = false → rootState t = 2 ∧ t.keys = s.keys) ∧
        (s.keys.puf = true → rootCheck (rootOf ((b.drop 0x28).take 4052)) = (b.drop 8).take 32 → rootState t = 1 ∧ t.keys.root = some (rootOf ((b.drop 0x28).take 4052)) ∧ flag t Reg.KEYS_STAT F.KEYS_STAT_LOADED = true) ∧
        (s.keys.puf = true → rootCheck (rootOf ((b.drop 0x28).take 4052)) ≠ (b.drop 8).take 32 → rootState t = 2 ∧ t.keys = s.keys) ∧
        KeepsBlocks [0x9, 0x20, 0x23, 0xb0, 0xf0, 0x110] s t ∧
        t = { s with free := t.free, regs := t.regs, mem := t.mem, cleRam := t.cleRam, canRam := t.canRam, arb := t.arb, memSys := t.memSys, rxe := t.rxe, mirror := t.mirror, agl := t.agl, keys := t.keys })) ∧
  (∀ (s : State),
      fld s Reg.BOOT_STAT F.BOOT_STAT_PHASE ≠ 4 ∨ s.efuse.lifeCycle ≠ 0 ∨ rootState s ≠ 0 ∨ flag s Reg.KEYS_STAT F.KEYS_STAT_ENROLLED = true ∨ (enrolRead s).1 = none →
      Completes .keyStoreLoad s (fun t => t = s)) ∧
  (∀ (ini : Fin 16) (value : Word) (s : State),
      Reachable s ini 0xF0 0xF8 →
      s.keys.gcm = none →
      Completes (.gcmDinWrite ini value) s (fun t => rd t (Reg.KEYS_GCM_DIN 3) = value ∧ t.keys = s.keys ∧
        KeepsBlocks [0xf0] s t ∧
        t = { s with free := t.free, regs := t.regs, arb := t.arb, keys := t.keys }))

/-- IMPORT puts the staged key into its slot, a K1 key with the right CRC only, and clears the staging area. DERIVE puts the KDF of the root or of a slot of destination 7 into its slot, and ends with SOURCE where the source is not to be used. STORE writes the record of a valid slot to MRAM, and ends with STATE for one that is not valid; ERASE writes zeros, and ends with MRAM where a word of the record is uncorrectable; after power-fail qualification nothing is written. CLEAR empties the slot. ENROLL of an unenrolled device makes the root PRESENT. SECURE latches the hash and the next life cycle, which stays that of a DECOMMISSION. DECOMMISSION clears the slots and the root with its key in KEYS_LABEL. Out of their states these three end with STATE. GCM_START takes key and IV, or is denied; GCM_FINAL compares the tag, with no stream to an open result (log entry 79). BUSY falls and INT_RAW bit 0 is set. (R487, R489, R490, R491, R495, R496, R497, R498, R499, R500) -/
def Obligations.KeysCommandsDone : Prop :=
  (∀ (v : Word) (s : State),
      s.keys.cmd = some v →
      domainUp s 3 = true →
      fieldGet F.KEYS_CMD_CMD v = 1 →
      fieldGet F.KEYS_CMD_FORMAT v = 1 →
      Completes .keysCommandDone s (fun t =>
        t.keys.cmd = none ∧ flag t Reg.KEYS_STAT F.KEYS_STAT_BUSY = false ∧ bitAt (rd t (Reg.INT_RAW 0xF0)) 0 = true ∧
        fld t Reg.KEYS_STAT F.KEYS_STAT_RESULT = 0 ∧ (keySlot t (fieldGet F.KEYS_CMD_SLOT v)).status = 1 ∧ (keySlot t (fieldGet F.KEYS_CMD_SLOT v)).format = 1 ∧ (keySlot t (fieldGet F.KEYS_CMD_SLOT v)).dest = fieldGet F.KEYS_CMD_DEST v ∧ (keySlot t (fieldGet F.KEYS_CMD_SLOT v)).key = (regBytes s Reg.KEYS_STG 8).take (if fieldGet F.KEYS_CMD_LEN v = 1 then 32 else 16) ∧ bitAt (rd t (Reg.KEYS_VALID ((fieldGet F.KEYS_CMD_SLOT v) / 32))) ((fieldGet F.KEYS_CMD_SLOT v) % 32) = true ∧ (∀ j < 9, rd t (Reg.KEYS_STG j) = 0) ∧ (∀ j, j ≠ (fieldGet F.KEYS_CMD_SLOT v) → keySlot t j = keySlot s j) ∧ KeepsBlocks [0xF0] s t ∧ t = { s with regs := t.regs, keys := t.keys, free := t.free })) ∧
  (∀ (v : Word) (s : State),
      s.keys.cmd = some v →
      domainUp s 3 = true →
      fieldGet F.KEYS_CMD_CMD v = 1 →
      fieldGet F.KEYS_CMD_FORMAT v = 2 →
      crc16k (k1Bytes (fieldGet F.KEYS_CMD_DEST v) (fieldGet F.KEYS_CMD_LEN v == 1) ((regBytes s Reg.KEYS_STG 8).take (if fieldGet F.KEYS_CMD_LEN v = 1 then 32 else 16))) = fld s Reg.KEYS_STG_CRC F.KEYS_STG_CRC_CRC →
      Completes .keysCommandDone s (fun t =>
        t.keys.cmd = none ∧ flag t Reg.KEYS_STAT F.KEYS_STAT_BUSY = false ∧ bitAt (rd t (Reg.INT_RAW 0xF0)) 0 = true ∧
        fld t Reg.KEYS_STAT F.KEYS_STAT_RESULT = 0 ∧ keySlot t (fieldGet F.KEYS_CMD_SLOT v) = { status := 1, format := 2, dest := fieldGet F.KEYS_CMD_DEST v, wide := fieldGet F.KEYS_CMD_LEN v == 1, key := (regBytes s Reg.KEYS_STG 8).take (if fieldGet F.KEYS_CMD_LEN v = 1 then 32 else 16), crc := fld s Reg.KEYS_STG_CRC F.KEYS_STG_CRC_CRC } ∧ bitAt (rd t (Reg.KEYS_VALID ((fieldGet F.KEYS_CMD_SLOT v) / 32))) ((fieldGet F.KEYS_CMD_SLOT v) % 32) = true ∧ (∀ j < 9, rd t (Reg.KEYS_STG j) = 0) ∧ (∀ j, j ≠ (fieldGet F.KEYS_CMD_SLOT v) → keySlot t j = keySlot s j) ∧ KeepsBlocks [0xF0] s t ∧ t = { s with regs := t.regs, keys := t.keys })) ∧
  (∀ (v : Word) (s : State),
      s.keys.cmd = some v →
      domainUp s 3 = true →
      fieldGet F.KEYS_CMD_CMD v = 1 →
      fieldGet F.KEYS_CMD_FORMAT v = 2 →
      crc16k (k1Bytes (fieldGet F.KEYS_CMD_DEST v) (fieldGet F.KEYS_CMD_LEN v == 1) ((regBytes s Reg.KEYS_STG 8).take (if fieldGet F.KEYS_CMD_LEN v = 1 then 32 else 16))) ≠ fld s Reg.KEYS_STG_CRC F.KEYS_STG_CRC_CRC →
      Completes .keysCommandDone s (fun t =>
        t.keys.cmd = none ∧ flag t Reg.KEYS_STAT F.KEYS_STAT_BUSY = false ∧ bitAt (rd t (Reg.INT_RAW 0xF0)) 0 = true ∧
        fld t Reg.KEYS_STAT F.KEYS_STAT_RESULT = 3 ∧ (∀ j < 9, rd t (Reg.KEYS_STG j) = 0) ∧ t.keys = { s.keys with cmd := none } ∧ KeepsBlocks [0xF0] s t ∧ t = { s with regs := t.regs, keys := t.keys })) ∧
  (∀ (v : Word) (root : List Byte) (s : State),
      s.keys.cmd = some v →
      domainUp s 3 = true →
      fieldGet F.KEYS_CMD_CMD v = 2 →
      fieldGet F.KEYS_CMD_SRC v = 0x80 →
      s.keys.root = some root →
      rdn s Reg.KEYS_LABEL ≠ labelChk ∧ rdn s Reg.KEYS_LABEL ≠ labelImg ∧ rdn s Reg.KEYS_LABEL ≠ labelStor →
      Completes .keysCommandDone s (fun t =>
        t.keys.cmd = none ∧ flag t Reg.KEYS_STAT F.KEYS_STAT_BUSY = false ∧ bitAt (rd t (Reg.INT_RAW 0xF0)) 0 = true ∧
        fld t Reg.KEYS_STAT F.KEYS_STAT_RESULT = 0 ∧ (keySlot t (fieldGet F.KEYS_CMD_SLOT v)).status = 1 ∧ (keySlot t (fieldGet F.KEYS_CMD_SLOT v)).dest = fieldGet F.KEYS_CMD_DEST v ∧ (keySlot t (fieldGet F.KEYS_CMD_SLOT v)).key = kdf root (rdn s Reg.KEYS_LABEL) ((List.range 4).flatMap (fun i => beBytes 4 (rdn s (Reg.KEYS_CTX i)))) (8 * (if fieldGet F.KEYS_CMD_LEN v = 1 then 32 else 16)) ∧ (∀ j, j ≠ (fieldGet F.KEYS_CMD_SLOT v) → keySlot t j = keySlot s j) ∧ KeepsBlocks [0xF0] s t ∧ t = { s with regs := t.regs, keys := t.keys, free := t.free })) ∧
  (∀ (v : Word) (s : State),
      s.keys.cmd = some v →
      domainUp s 3 = true →
      fieldGet F.KEYS_CMD_CMD v = 2 →
      fieldGet F.KEYS_CMD_SRC v < 0x80 →
      (keySlot s (fieldGet F.KEYS_CMD_SRC v)).status = 1 →
      k1Ok (keySlot s (fieldGet F.KEYS_CMD_SRC v)) = true →
      (keySlot s (fieldGet F.KEYS_CMD_SRC v)).dest = 7 →
      Completes .keysCommandDone s (fun t =>
        t.keys.cmd = none ∧ flag t Reg.KEYS_STAT F.KEYS_STAT_BUSY = false ∧ bitAt (rd t (Reg.INT_RAW 0xF0)) 0 = true ∧
        fld t Reg.KEYS_STAT F.KEYS_STAT_RESULT = 0 ∧ (keySlot t (fieldGet F.KEYS_CMD_SLOT v)).status = 1 ∧ (keySlot t (fieldGet F.KEYS_CMD_SLOT v)).dest = fieldGet F.KEYS_CMD_DEST v ∧ (keySlot t (fieldGet F.KEYS_CMD_SLOT v)).key = kdf (keySlot s (fieldGet F.KEYS_CMD_SRC v)).key (rdn s Reg.KEYS_LABEL) ((List.range 4).flatMap (fun i => beBytes 4 (rdn s (Reg.KEYS_CTX i)))) (8 * (if fieldGet F.KEYS_CMD_LEN v = 1 then 32 else 16)) ∧ (∀ j, j ≠ (fieldGet F.KEYS_CMD_SLOT v) → j ≠ (fieldGet F.KEYS_CMD_SRC v) → keySlot t j = keySlot s j) ∧ KeepsBlocks [0xF0] s t ∧ t = { s with regs := t.regs, keys := t.keys, free := t.free })) ∧
  (∀ (v : Word) (s : State),
      s.keys.cmd = some v →
      domainUp s 3 = true →
      fieldGet F.KEYS_CMD_CMD v = 2 →
      (fieldGet F.KEYS_CMD_SRC v = 0x80 ∧ (s.keys.root = none ∨ rdn s Reg.KEYS_LABEL = labelChk ∨ rdn s Reg.KEYS_LABEL = labelImg ∨ rdn s Reg.KEYS_LABEL = labelStor)) ∨ (fieldGet F.KEYS_CMD_SRC v ≠ 0x80 ∧ ((keySlot s (fieldGet F.KEYS_CMD_SRC v)).status ≠ 1 ∨ (k1Ok (keySlot s (fieldGet F.KEYS_CMD_SRC v)) = true ∧ (keySlot s (fieldGet F.KEYS_CMD_SRC v)).dest ≠ 7))) →
      Completes .keysCommandDone s (fun t =>
        t.keys.cmd = none ∧ flag t Reg.KEYS_STAT F.KEYS_STAT_BUSY = false ∧ bitAt (rd t (Reg.INT_RAW 0xF0)) 0 = true ∧
        fld t Reg.KEYS_STAT F.KEYS_STAT_RESULT = 2 ∧ t.keys = { s.keys with cmd := none } ∧ KeepsBlocks [0xF0] s t ∧ t = { s with regs := t.regs, keys := t.keys })) ∧
  (∀ (v : Word) (s : State),
      s.keys.cmd = some v →
      domainUp s 3 = true →
      fieldGet F.KEYS_CMD_CMD v = 3 →
      (keySlot s (fieldGet F.KEYS_CMD_SLOT v)).status = 1 →
      (keySlot s (fieldGet F.KEYS_CMD_SLOT v)).format = 1 → s.keys.root.isSome = true →
      (keySlot s (fieldGet F.KEYS_CMD_SLOT v)).key.length ≤ 32 →
      pfail s = false →
      s.ecc = [] →
      (∀ r < 3, flag s (Reg.MEM_FLIP_CFG r) F.MEM_FLIP_CFG_ARM = false) →
      Permitted s (keysEnd s v) →
      Completes .keysCommandDone s (fun t =>
        t.keys.cmd = none ∧ flag t Reg.KEYS_STAT F.KEYS_STAT_BUSY = false ∧ bitAt (rd t (Reg.INT_RAW 0xF0)) 0 = true ∧
        fld t Reg.KEYS_STAT F.KEYS_STAT_RESULT = 0 ∧ rdBytes t (slotRecordAt (fieldGet F.KEYS_CMD_SLOT v)) (keyRecord s (fieldGet F.KEYS_CMD_SLOT v)).length = keyRecord s (fieldGet F.KEYS_CMD_SLOT v) ∧ KeepsMemBut (slotRecordAt (fieldGet F.KEYS_CMD_SLOT v)) (keyRecord s (fieldGet F.KEYS_CMD_SLOT v)).length s t ∧ t.keys.slots = s.keys.slots ∧ KeepsBlocks [0x20, 0x23, 0xa0, 0xb0, 0xf0, 0x110] s t ∧
        t = { s with free := t.free, regs := t.regs, mem := t.mem, cleRam := t.cleRam, canRam := t.canRam, arb := t.arb, efuse := t.efuse, ecc := t.ecc, memSys := t.memSys, rxe := t.rxe, mirror := t.mirror, agl := t.agl, keys := t.keys })) ∧
  (∀ (v : Word) (s : State),
      s.keys.cmd = some v →
      domainUp s 3 = true →
      fieldGet F.KEYS_CMD_CMD v = 3 →
      (keySlot s (fieldGet F.KEYS_CMD_SLOT v)).status ≠ 1 ∨ ((keySlot s (fieldGet F.KEYS_CMD_SLOT v)).format = 1 ∧ s.keys.root = none) →
      Completes .keysCommandDone s (fun t =>
        t.keys.cmd = none ∧ flag t Reg.KEYS_STAT F.KEYS_STAT_BUSY = false ∧ bitAt (rd t (Reg.INT_RAW 0xF0)) 0 = true ∧
        fld t Reg.KEYS_STAT F.KEYS_STAT_RESULT = 1 ∧ t.keys = { s.keys with cmd := none } ∧ KeepsRegs [Reg.KEYS_STAT, Reg.INT_RAW 0xF0] s t ∧ t = { s with regs := t.regs, keys := t.keys })) ∧
  (∀ (v : Word) (s : State),
      s.keys.cmd = some v →
      domainUp s 3 = true →
      fieldGet F.KEYS_CMD_CMD v = 4 →
      pfail s = false →
      s.ecc = [] →
      (∀ r < 3, flag s (Reg.MEM_FLIP_CFG r) F.MEM_FLIP_CFG_ARM = false) →
      Permitted s (keysEnd s v) →
      Completes .keysCommandDone s (fun t =>
        t.keys.cmd = none ∧ flag t Reg.KEYS_STAT F.KEYS_STAT_BUSY = false ∧ bitAt (rd t (Reg.INT_RAW 0xF0)) 0 = true ∧
        fld t Reg.KEYS_STAT F.KEYS_STAT_RESULT = 0 ∧ rdBytes t (slotRecordAt (fieldGet F.KEYS_CMD_SLOT v)) 64 = List.replicate 64 0 ∧ KeepsMemBut (slotRecordAt (fieldGet F.KEYS_CMD_SLOT v)) 64 s t ∧ t.keys.slots = s.keys.slots ∧ KeepsBlocks [0x20, 0x23, 0xa0, 0xb0, 0xf0, 0x110] s t ∧
        t = { s with free := t.free, regs := t.regs, mem := t.mem, cleRam := t.cleRam, canRam := t.canRam, arb := t.arb, efuse := t.efuse, ecc := t.ecc, memSys := t.memSys, rxe := t.rxe, mirror := t.mirror, agl := t.agl, keys := t.keys })) ∧
  (∀ (v : Word) (s : State),
      s.keys.cmd = some v →
      domainUp s 3 = true →
      fieldGet F.KEYS_CMD_CMD v = 4 →
      pfail s = false →
      (eccIn s (slotRecordAt (fieldGet F.KEYS_CMD_SLOT v)) 64).any (ueAt s) = true →
      Permitted s (keysEnd s v) →
      Completes .keysCommandDone s (fun t =>
        t.keys.cmd = none ∧ flag t Reg.KEYS_STAT F.KEYS_STAT_BUSY = false ∧ bitAt (rd t (Reg.INT_RAW 0xF0)) 0 = true ∧
        fld t Reg.KEYS_STAT F.KEYS_STAT_RESULT = 4 ∧ t.keys.slots = s.keys.slots ∧ KeepsBlocks [0x20, 0x23, 0xa0, 0xb0, 0xf0, 0x110] s t ∧
        t = { s with free := t.free, regs := t.regs, mem := t.mem, cleRam := t.cleRam, canRam := t.canRam, arb := t.arb, efuse := t.efuse, ecc := t.ecc, memSys := t.memSys, rxe := t.rxe, mirror := t.mirror, agl := t.agl, keys := t.keys })) ∧
  (∀ (v : Word) (s : State),
      s.keys.cmd = some v →
      domainUp s 3 = true →
      fieldGet F.KEYS_CMD_CMD v = 4 →
      pfail s = true →
      Completes .keysCommandDone s (fun t =>
        t.keys.cmd = none ∧ flag t Reg.KEYS_STAT F.KEYS_STAT_BUSY = false ∧ bitAt (rd t (Reg.INT_RAW 0xF0)) 0 = true ∧
        fld t Reg.KEYS_STAT F.KEYS_STAT_RESULT < 5 ∧ t.keys = { s.keys with cmd := none } ∧ KeepsRegs [Reg.KEYS_STAT, Reg.INT_RAW 0xF0] s t ∧ t = { s with regs := t.regs, keys := t.keys, free := t.free })) ∧
  (∀ (v : Word) (s : State),
      s.keys.cmd = some v →
      domainUp s 3 = true →
      fieldGet F.KEYS_CMD_CMD v = 5 →
      Completes .keysCommandDone s (fun t =>
        t.keys.cmd = none ∧ flag t Reg.KEYS_STAT F.KEYS_STAT_BUSY = false ∧ bitAt (rd t (Reg.INT_RAW 0xF0)) 0 = true ∧
        fld t Reg.KEYS_STAT F.KEYS_STAT_RESULT = 0 ∧ keySlot t (fieldGet F.KEYS_CMD_SLOT v) = {} ∧ bitAt (rd t (Reg.KEYS_VALID ((fieldGet F.KEYS_CMD_SLOT v) / 32))) ((fieldGet F.KEYS_CMD_SLOT v) % 32) = false ∧ bitAt (rd t (Reg.KEYS_BAD ((fieldGet F.KEYS_CMD_SLOT v) / 32))) ((fieldGet F.KEYS_CMD_SLOT v) % 32) = false ∧ (∀ j, j ≠ (fieldGet F.KEYS_CMD_SLOT v) → keySlot t j = keySlot s j) ∧
        KeepsRegs [Reg.KEYS_STAT, Reg.INT_RAW 0xF0, Reg.KEYS_VALID ((fieldGet F.KEYS_CMD_SLOT v) / 32), Reg.KEYS_BAD ((fieldGet F.KEYS_CMD_SLOT v) / 32), Reg.KEYS_SLOT_INFO] s t ∧ t = { s with regs := t.regs, keys := t.keys })) ∧
  (∀ (v : Word) (s : State),
      s.keys.cmd = some v →
      domainUp s 3 = true →
      fieldGet F.KEYS_CMD_CMD v = 6 →
      s.efuse.lifeCycle = 0 →
      flag s Reg.KEYS_STAT F.KEYS_STAT_ENROLLED = false →
      (enrolRead s).1 = none →
      Permitted s (keysEnd s v) →
      Completes .keysCommandDone s (fun t =>
        t.keys.cmd = none ∧ flag t Reg.KEYS_STAT F.KEYS_STAT_BUSY = false ∧ bitAt (rd t (Reg.INT_RAW 0xF0)) 0 = true ∧
        t.keys.root = some (rootOf ((List.range 4052).map Config.pufHelper)) ∧ rootState t = 1 ∧ flag t Reg.KEYS_STAT F.KEYS_STAT_ENROLLED = true ∧ flag t Reg.KEYS_STAT F.KEYS_STAT_LOADED = true ∧
        KeepsBlocks [0x20, 0x23, 0xa0, 0xb0, 0xf0, 0x110] s t ∧
        t = { s with free := t.free, regs := t.regs, mem := t.mem, cleRam := t.cleRam, canRam := t.canRam, arb := t.arb, efuse := t.efuse, ecc := t.ecc, memSys := t.memSys, rxe := t.rxe, mirror := t.mirror, agl := t.agl, keys := t.keys })) ∧
  (∀ (v : Word) (s : State),
      s.keys.cmd = some v →
      domainUp s 3 = true →
      fieldGet F.KEYS_CMD_CMD v = 6 →
      s.efuse.lifeCycle ≠ 0 ∨ flag s Reg.KEYS_STAT F.KEYS_STAT_ENROLLED = true ∨ (enrolRead s).1.isSome = true →
      eccIn s keyArea 0x1000 = [] →
      Completes .keysCommandDone s (fun t =>
        t.keys.cmd = none ∧ flag t Reg.KEYS_STAT F.KEYS_STAT_BUSY = false ∧ bitAt (rd t (Reg.INT_RAW 0xF0)) 0 = true ∧
        fld t Reg.KEYS_STAT F.KEYS_STAT_RESULT = 1 ∧ t.keys = { s.keys with cmd := none } ∧ KeepsRegs [Reg.KEYS_STAT, Reg.INT_RAW 0xF0] s t ∧ t = { s with regs := t.regs, keys := t.keys, arb := t.arb })) ∧
  (∀ (v : Word) (s : State),
      s.keys.cmd = some v →
      domainUp s 3 = true →
      fieldGet F.KEYS_CMD_CMD v = 7 →
      s.efuse.lifeCycle = 0 →
      flag s Reg.KEYS_STAT F.KEYS_STAT_ENROLLED = true →
      rootState s = 1 →
      (∃ b ∈ regBytes s Reg.KEYS_HASH 8, b ≠ 0) →
      Completes .keysCommandDone s (fun t =>
        t.keys.cmd = none ∧ flag t Reg.KEYS_STAT F.KEYS_STAT_BUSY = false ∧ bitAt (rd t (Reg.INT_RAW 0xF0)) 0 = true ∧
        fld t Reg.KEYS_STAT F.KEYS_STAT_RESULT = 0 ∧ t.efuse = { s.efuse with keyHash := BitVec.ofNat 256 (beNat (regBytes s Reg.KEYS_HASH 8)), nextCycle := if s.efuse.nextCycle = 3 then 3 else 1 } ∧ KeepsRegs [Reg.KEYS_STAT, Reg.INT_RAW 0xF0] s t ∧ t = { s with regs := t.regs, keys := t.keys, efuse := t.efuse })) ∧
  (∀ (v : Word) (s : State),
      s.keys.cmd = some v →
      domainUp s 3 = true →
      fieldGet F.KEYS_CMD_CMD v = 7 →
      (s.efuse.lifeCycle ≠ 0 ∨ flag s Reg.KEYS_STAT F.KEYS_STAT_ENROLLED = false ∨ rootState s ≠ 1 ∨ ∀ b ∈ regBytes s Reg.KEYS_HASH 8, b = 0) →
      Completes .keysCommandDone s (fun t =>
        t.keys.cmd = none ∧ flag t Reg.KEYS_STAT F.KEYS_STAT_BUSY = false ∧ bitAt (rd t (Reg.INT_RAW 0xF0)) 0 = true ∧
        fld t Reg.KEYS_STAT F.KEYS_STAT_RESULT = 1 ∧ t.keys = { s.keys with cmd := none } ∧ KeepsRegs [Reg.KEYS_STAT, Reg.INT_RAW 0xF0] s t ∧ t = { s with regs := t.regs, keys := t.keys })) ∧
  (∀ (v : Word) (s : State),
      s.keys.cmd = some v →
      domainUp s 3 = true →
      fieldGet F.KEYS_CMD_CMD v = 8 →
      rdn s Reg.KEYS_LABEL = 0x4445434D →
      Permitted s (keysEnd s v) →
      Completes .keysCommandDone s (fun t =>
        t.keys.cmd = none ∧ flag t Reg.KEYS_STAT F.KEYS_STAT_BUSY = false ∧ bitAt (rd t (Reg.INT_RAW 0xF0)) 0 = true ∧
        (∀ i < 128, keySlot t i = {}) ∧ t.keys.root = none ∧ rootState t = 0 ∧ t.efuse = { s.efuse with nextCycle := 3 } ∧
        KeepsBlocks [0x20, 0x23, 0xa0, 0xb0, 0xf0, 0x110] s t ∧
        t = { s with free := t.free, regs := t.regs, mem := t.mem, cleRam := t.cleRam, canRam := t.canRam, arb := t.arb, efuse := t.efuse, ecc := t.ecc, memSys := t.memSys, rxe := t.rxe, mirror := t.mirror, agl := t.agl, keys := t.keys })) ∧
  (∀ (v : Word) (s : State),
      s.keys.cmd = some v →
      domainUp s 3 = true →
      fieldGet F.KEYS_CMD_CMD v = 8 →
      rdn s Reg.KEYS_LABEL ≠ 0x4445434D →
      Completes .keysCommandDone s (fun t =>
        t.keys.cmd = none ∧ flag t Reg.KEYS_STAT F.KEYS_STAT_BUSY = false ∧ bitAt (rd t (Reg.INT_RAW 0xF0)) 0 = true ∧
        fld t Reg.KEYS_STAT F.KEYS_STAT_RESULT = 1 ∧ KeepsRegs [Reg.KEYS_STAT, Reg.INT_RAW 0xF0] s t ∧ t = { s with regs := t.regs, keys := t.keys })) ∧
  (∀ (v : Word) (s : State),
      s.keys.cmd = some v →
      domainUp s 3 = true →
      fieldGet F.KEYS_CMD_CMD v = 9 →
      (keySlot s (fieldGet F.KEYS_CMD_SLOT v)).status = 1 →
      k1Ok (keySlot s (fieldGet F.KEYS_CMD_SLOT v)) = true →
      (keySlot s (fieldGet F.KEYS_CMD_SLOT v)).dest = 5 →
      (keySlot s (fieldGet F.KEYS_CMD_SLOT v)).wide = true →
      Completes .keysCommandDone s (fun t =>
        t.keys.cmd = none ∧ flag t Reg.KEYS_STAT F.KEYS_STAT_BUSY = false ∧ bitAt (rd t (Reg.INT_RAW 0xF0)) 0 = true ∧
        fld t Reg.KEYS_STAT F.KEYS_STAT_RESULT = 0 ∧ t.keys.gcm = some { key := (keySlot s (fieldGet F.KEYS_CMD_SLOT v)).key, iv := regBytes s Reg.KEYS_GCM_IV 3 } ∧ rd t Reg.KEYS_GCM_STAT = 1 ∧ KeepsRegs [Reg.KEYS_STAT, Reg.INT_RAW 0xF0, Reg.KEYS_GCM_STAT] s t ∧ t = { s with regs := t.regs, keys := t.keys, free := t.free })) ∧
  (∀ (v : Word) (s : State),
      s.keys.cmd = some v →
      domainUp s 3 = true →
      fieldGet F.KEYS_CMD_CMD v = 9 →
      (keySlot s (fieldGet F.KEYS_CMD_SLOT v)).status ≠ 1 ∨ (k1Ok (keySlot s (fieldGet F.KEYS_CMD_SLOT v)) = true ∧ ((keySlot s (fieldGet F.KEYS_CMD_SLOT v)).dest ≠ 5 ∨ (keySlot s (fieldGet F.KEYS_CMD_SLOT v)).wide = false)) →
      Completes .keysCommandDone s (fun t =>
        t.keys.cmd = none ∧ flag t Reg.KEYS_STAT F.KEYS_STAT_BUSY = false ∧ bitAt (rd t (Reg.INT_RAW 0xF0)) 0 = true ∧
        fld t Reg.KEYS_STAT F.KEYS_STAT_RESULT = 2 ∧ rdn t Reg.KEYS_DENIED = min (rdn s Reg.KEYS_DENIED + 1) 0xFFFFFFFF ∧ bitAt (rd t (Reg.INT_RAW 0xF0)) 1 = true ∧ t.keys = { s.keys with cmd := none } ∧ KeepsRegs [Reg.KEYS_STAT, Reg.INT_RAW 0xF0, Reg.KEYS_DENIED, Reg.KEYS_DENY_LAST] s t ∧ t = { s with regs := t.regs, keys := t.keys })) ∧
  (∀ (v : Word) (s : State),
      s.keys.cmd = some v →
      domainUp s 3 = true →
      fieldGet F.KEYS_CMD_CMD v = 10 →
      s.keys.gcm = none →
      Completes .keysCommandDone s (fun t =>
        t.keys.cmd = none ∧ flag t Reg.KEYS_STAT F.KEYS_STAT_BUSY = false ∧ bitAt (rd t (Reg.INT_RAW 0xF0)) 0 = true ∧
        fld t Reg.KEYS_STAT F.KEYS_STAT_RESULT = 0 ∧ (rd t Reg.KEYS_GCM_STAT = 6 ∨ rd t Reg.KEYS_GCM_STAT = 2) ∧ bitAt (rd t (Reg.INT_RAW 0xF0)) 3 = true ∧ KeepsRegs [Reg.KEYS_STAT, Reg.INT_RAW 0xF0, Reg.KEYS_GCM_STAT] s t ∧ t = { s with regs := t.regs, keys := t.keys, free := t.free })) ∧
  (∀ (v : Word) (g : GcmRun) (s : State),
      s.keys.cmd = some v →
      domainUp s 3 = true →
      fieldGet F.KEYS_CMD_CMD v = 10 →
      s.keys.gcm = some g →
      Completes .keysCommandDone s (fun t =>
        t.keys.cmd = none ∧ flag t Reg.KEYS_STAT F.KEYS_STAT_BUSY = false ∧ bitAt (rd t (Reg.INT_RAW 0xF0)) 0 = true ∧
        fld t Reg.KEYS_STAT F.KEYS_STAT_RESULT = 0 ∧ t.keys.gcm = none ∧ rd t Reg.KEYS_GCM_STAT = (if gcmRunTag g = regBytes s Reg.KEYS_GCM_TAG 4 then 6 else 2) ∧ bitAt (rd t (Reg.INT_RAW 0xF0)) 3 = true ∧ KeepsRegs [Reg.KEYS_STAT, Reg.INT_RAW 0xF0, Reg.KEYS_GCM_STAT] s t ∧ t = { s with regs := t.regs, keys := t.keys })) ∧
  (∀ (s : State),
      s.keys.cmd = none ∨ domainUp s 3 = false →
      Completes .keysCommandDone s (fun t => t = s))

/-- ON from OFF raises the first rail and enters RISING; elsewhere it does nothing. A configuration outside its range is a host error (log entry 83). OFF waits for rectangles in progress and then enters FALLING with the backlight off, or OFF at once where neither drive nor VHVN is up. After RAIL_MS class T starts its drive with an empty image in CLEARING, class B raises VHVN and then loads an all-hold chain; FALLING of class B ends in OFF. The second frame pair of CLEARING enters ON; a frame pair in ON shows the image, and one of FALLING blanks it and then ends in OFF. (R504, R505, R506, R507, R510, R512, R516) -/
def Obligations.LanternPowerSequence : Prop :=
  (∀ (ini : Fin 16) (s : State),
      Reachable s ini 0x100 0x44 →
      lanState s = lsOff →
      pageEn s 0x100 = true →
      heldAll s = false →
      lanCfgErr s = none →
      Completes (.lanternOn ini) s (fun t =>
        lanState t = lsRising ∧ t.lantern = { s.lantern with since := s.now, vhvp := s.lantern.vhvp || classB s, vlcd := s.lantern.vlcd || !(classB s) } ∧ rd t Reg.LANTERN_REPLAYED = 0 ∧ KeepsRegs [Reg.LANTERN_STAT, Reg.LANTERN_REPLAYED] s t ∧ t = { s with regs := t.regs, arb := t.arb, lantern := t.lantern })) ∧
  (∀ (ini : Fin 16) (n : Nat) (s : State),
      Reachable s ini 0x100 0x44 →
      lanState s = lsOff →
      pageEn s 0x100 = true →
      heldAll s = false →
      lanCfgErr s = some n →
      exec (.lanternOn ini) s = .fault (.hostError n)) ∧
  (∀ (ini : Fin 16) (s : State),
      Reachable s ini 0x100 0x44 →
      lanState s ≠ lsOff ∨ pageEn s 0x100 = false ∨ heldAll s = true →
      Completes (.lanternOn ini) s (fun t => t = { s with arb := t.arb })) ∧
  (∀ (ini : Fin 16) (s : State),
      Reachable s ini 0x100 0x44 →
      1 ≤ lanState s ∧ lanState s ≤ 4 →
      heldAll s = false →
      inProgress s = true →
      Completes (.lanternOff ini) s (fun t => t = { s with arb := t.arb, lantern := { s.lantern with offDue := true } })) ∧
  (∀ (ini : Fin 16) (s : State),
      Reachable s ini 0x100 0x44 →
      1 ≤ lanState s ∧ lanState s ≤ 4 →
      heldAll s = false →
      inProgress s = false →
      classB s = false →
      s.lantern.driveFrom ≠ none →
      Completes (.lanternOff ini) s (fun t =>
        lanState t = lsFalling ∧ flag t Reg.LANTERN_STAT F.LANTERN_STAT_BL_ON = false ∧ t.lantern = { s.lantern with offDue := false, since := s.now, blankDue := 2 } ∧ KeepsRegs [Reg.LANTERN_STAT] s t ∧ t = { s with regs := t.regs, arb := t.arb, lantern := t.lantern })) ∧
  (∀ (ini : Fin 16) (s : State),
      Reachable s ini 0x100 0x44 →
      1 ≤ lanState s ∧ lanState s ≤ 4 →
      heldAll s = false →
      inProgress s = false →
      (classB s = false ∧ s.lantern.driveFrom = none) ∨ (classB s = true ∧ s.lantern.vhvn = false) →
      Completes (.lanternOff ini) s (fun t =>
        lanState t = lsOff ∧ flag t Reg.LANTERN_STAT F.LANTERN_STAT_BL_ON = false ∧ bitAt (rd t (Reg.INT_RAW 0x100)) 2 = true ∧ t.lantern = { s.lantern with offDue := false, since := s.now, vlcd := s.lantern.vlcd && classB s, vhvp := s.lantern.vhvp && !(classB s) } ∧ KeepsRegs [Reg.LANTERN_STAT, Reg.INT_RAW 0x100] s t ∧ t = { s with regs := t.regs, arb := t.arb, lantern := t.lantern })) ∧
  (∀ (ini : Fin 16) (s : State),
      Reachable s ini 0x100 0x44 →
      1 ≤ lanState s ∧ lanState s ≤ 4 →
      heldAll s = false →
      inProgress s = false →
      classB s = true →
      s.lantern.vhvn = true →
      s.lantern.load = none →
      Completes (.lanternOff ini) s (fun t =>
        lanState t = lsFalling ∧ flag t Reg.LANTERN_STAT F.LANTERN_STAT_BL_ON = false ∧ t.lantern = { s.lantern with offDue := false, since := s.now, load := some { since := s.now, blank := 2 }, blankDue := 0 } ∧ KeepsRegs [Reg.LANTERN_STAT] s t ∧ t = { s with regs := t.regs, arb := t.arb, lantern := t.lantern })) ∧
  (∀ (ini : Fin 16) (s : State),
      Reachable s ini 0x100 0x44 →
      lanState s = 0 ∨ 4 < lanState s ∨ heldAll s = true →
      Completes (.lanternOff ini) s (fun t => t = { s with arb := t.arb })) ∧
  (∀ (s : State),
      heldAll s = true →
      s.lantern.vhvp = true →
      s.lantern.since + vcoUs ≤ s.now →
      Completes .railStep s (fun t => t = { s with lantern := { s.lantern with vhvp := false } })) ∧
  (∀ (s : State),
      heldAll s = false →
      lanState s = lsRising →
      s.lantern.since + railTime s ≤ s.now →
      classB s = false →
      Completes .railStep s (fun t =>
        lanState t = lsClearing ∧ (∀ i < 12, rd t (Reg.LANTERN_IMG i) = 0) ∧ t.lantern = { s.lantern with since := s.now, driveFrom := some s.now, pairs := 0, shown := 0 } ∧
        KeepsBlocks [0x100] s t ∧ t = { s with regs := t.regs, lantern := t.lantern })) ∧
  (∀ (s : State),
      heldAll s = false →
      lanState s = lsRising →
      s.lantern.since + railTime s ≤ s.now →
      classB s = true →
      s.lantern.vhvn = false →
      Completes .railStep s (fun t => t = { s with lantern := { s.lantern with vhvn := true, since := s.now } })) ∧
  (∀ (s : State),
      heldAll s = false →
      lanState s = lsRising →
      s.lantern.since + railTime s ≤ s.now →
      classB s = true →
      s.lantern.vhvn = true →
      s.lantern.load = none →
      Completes .railStep s (fun t =>
        lanState t = lsClearing ∧ t.lantern = { s.lantern with since := s.now, load := some { since := s.now, blank := 1 }, blankDue := 0 } ∧ KeepsRegs [Reg.LANTERN_STAT] s t ∧ t = { s with regs := t.regs, lantern := t.lantern })) ∧
  (∀ (s : State),
      heldAll s = false →
      lanState s = lsFalling →
      classB s = true →
      s.lantern.vhvn = false →
      s.lantern.vhvp = true →
      s.lantern.since + railTime s ≤ s.now →
      Completes .railStep s (fun t =>
        lanState t = lsOff ∧ t.lantern = { s.lantern with vhvp := false, since := s.now } ∧ bitAt (rd t (Reg.INT_RAW 0x100)) 2 = true ∧ KeepsRegs [Reg.LANTERN_STAT, Reg.INT_RAW 0x100] s t ∧ t = { s with regs := t.regs, lantern := t.lantern })) ∧
  (∀ (s : State),
      pairDue s = true →
      lanState s = lsClearing →
      s.lantern.pairs = 1 →
      s.lantern.slots = [] →
      s.lantern.vhvn = false →
      Completes .framePairStart s (fun t =>
        lanState t = lsOn ∧ flag t Reg.LANTERN_STAT F.LANTERN_STAT_BL_ON = true ∧ bitAt (rd t (Reg.INT_RAW 0x100)) 1 = true ∧ t.lantern.pairs = 2 ∧ KeepsRegs [Reg.LANTERN_STAT, Reg.INT_RAW 0x100] s t ∧ t = { s with regs := t.regs, lantern := t.lantern })) ∧
  (∀ (s : State),
      pairDue s = true →
      lanState s = lsOn →
      (∀ n < 5, (rect s n).phase ≠ 9) →
      Completes .framePairStart s (fun t =>
        t.lantern.shown = shownImage s ∧ t = { s with lantern := { s.lantern with pairs := s.lantern.pairs + 1, shown := t.lantern.shown, blinkOff := t.lantern.blinkOff } })) ∧
  (∀ (s : State),
      pairDue s = true →
      lanState s = lsFalling →
      s.lantern.blankDue ≠ 0 →
      Completes .framePairStart s (fun t => t = { s with lantern := { s.lantern with pairs := s.lantern.pairs + 1, blankDue := 0, shown := 0 } })) ∧
  (∀ (s : State),
      pairDue s = true →
      lanState s = lsFalling →
      s.lantern.blankDue = 0 →
      Completes .framePairStart s (fun t =>
        lanState t = lsOff ∧ t.lantern = { s.lantern with pairs := s.lantern.pairs + 1, driveFrom := none, vlcd := false, since := s.now } ∧ bitAt (rd t (Reg.INT_RAW 0x100)) 2 = true ∧ KeepsRegs [Reg.LANTERN_STAT, Reg.INT_RAW 0x100] s t ∧ t = { s with regs := t.regs, lantern := t.lantern }))

/-- SUBMIT of a free slot takes its bounds, pulse and data with the next JSEQ and sets BUSY; in ON of class T it waits for the next frame pair, which writes its cells into the image and completes it. Of class B its journal entry is written, the chain load drives it, its pulse ends, the next load holds it, and its DONE word completes it: the slot is free, BUSY falls and INT_RAW bit 0 is set. The all-hold load of CLEARING with no journal entry ends in ON, that of FALLING lowers VHVN. A busy slot is a host error. (R505, R509, R510, R511, R512, R513) -/
def Obligations.LanternRectangles : Prop :=
  (∀ (ini : Fin 16) (n : Fin 4) (s : State),
      Reachable s ini 0x100 0x44 →
      rectErr s n.val = none →
      lanState s = lsOff →
      s.lantern.vhvn = false →
      Completes (.rectSubmit ini n) s (fun t =>
        rect t n.val = { phase := 1, seq := (if (rdn s Reg.LANTERN_JSEQ + 1) % 0x100000000 = 0 then 1 else (rdn s Reg.LANTERN_JSEQ + 1) % 0x100000000), bound := rd s (Reg.LANTERN_RBOUND n.val), pulse := fld s (Reg.LANTERN_RDRIVE n.val) F.LANTERN_RDRIVE_PULSE_MS, data := (List.range 12).map (fun i => rd s (Reg.LANTERN_RDATA n.val i)), since := s.now } ∧ lanBusy t n.val = true ∧ rdn t Reg.LANTERN_JSEQ = (if (rdn s Reg.LANTERN_JSEQ + 1) % 0x100000000 = 0 then 1 else (rdn s Reg.LANTERN_JSEQ + 1) % 0x100000000) ∧ (∀ m, m ≠ n.val → rect t m = rect s m) ∧
        KeepsRegs [Reg.LANTERN_STAT, Reg.LANTERN_JSEQ] s t ∧ t = { s with regs := t.regs, arb := t.arb, lantern := t.lantern })) ∧
  (∀ (ini : Fin 16) (n : Fin 4) (s : State),
      Reachable s ini 0x100 0x44 →
      rectErr s n.val = none →
      lanState s = lsOn →
      classB s = false →
      s.lantern.vhvn = false →
      heldAll s = false →
      s.lantern.offDue = false →
      s.lantern.slots = [] →
      Completes (.rectSubmit ini n) s (fun t =>
        rect t n.val = { phase := 9, seq := (if (rdn s Reg.LANTERN_JSEQ + 1) % 0x100000000 = 0 then 1 else (rdn s Reg.LANTERN_JSEQ + 1) % 0x100000000), bound := rd s (Reg.LANTERN_RBOUND n.val), pulse := fld s (Reg.LANTERN_RDRIVE n.val) F.LANTERN_RDRIVE_PULSE_MS, data := (List.range 12).map (fun i => rd s (Reg.LANTERN_RDATA n.val i)), since := s.now } ∧ lanBusy t n.val = true ∧ rdn t Reg.LANTERN_JSEQ = (if (rdn s Reg.LANTERN_JSEQ + 1) % 0x100000000 = 0 then 1 else (rdn s Reg.LANTERN_JSEQ + 1) % 0x100000000) ∧
        KeepsRegs [Reg.LANTERN_STAT, Reg.LANTERN_JSEQ] s t ∧ t = { s with regs := t.regs, arb := t.arb, lantern := t.lantern })) ∧
  (∀ (ini : Fin 16) (n : Fin 4) (s : State),
      Reachable s ini 0x100 0x44 →
      rectErr s n.val = none →
      lanState s = lsOn →
      classB s = true →
      heldAll s = false →
      s.lantern.offDue = false →
      s.lantern.slots = [] →
      s.lantern.load ≠ none →
      Completes (.rectSubmit ini n) s (fun t =>
        rect t n.val = { phase := 2, seq := (if (rdn s Reg.LANTERN_JSEQ + 1) % 0x100000000 = 0 then 1 else (rdn s Reg.LANTERN_JSEQ + 1) % 0x100000000), bound := rd s (Reg.LANTERN_RBOUND n.val), pulse := fld s (Reg.LANTERN_RDRIVE n.val) F.LANTERN_RDRIVE_PULSE_MS, data := (List.range 12).map (fun i => rd s (Reg.LANTERN_RDATA n.val i)), since := s.now } ∧ lanBusy t n.val = true ∧ t.lantern.writing = s.lantern.writing ++ [n.val] ∧ rdn t Reg.LANTERN_JSEQ = (if (rdn s Reg.LANTERN_JSEQ + 1) % 0x100000000 = 0 then 1 else (rdn s Reg.LANTERN_JSEQ + 1) % 0x100000000) ∧
        KeepsRegs [Reg.LANTERN_STAT, Reg.LANTERN_JSEQ] s t ∧ t = { s with regs := t.regs, arb := t.arb, lantern := t.lantern })) ∧
  (∀ (ini : Fin 16) (n : Fin 4) (e : Nat) (s : State),
      Reachable s ini 0x100 0x44 →
      rectErr s n.val = some e →
      exec (.rectSubmit ini n) s = .fault (.hostError e)) ∧
  (∀ (ini : Fin 16) (n : Fin 4) (s : State),
      Reachable s ini 0x100 0x44 →
      lanBusy s n.val = true →
      exec (.rectSubmit ini n) s = .fault (.hostError 505)) ∧
  (∀ (n : Nat) (r : Rect) (s : State),
      pairDue s = true →
      lanState s = lsOn →
      s.lantern.slots = [(n, r)] →
      n < 4 →
      r.phase = 9 →
      r.replay = false →
      r.since < s.now →
      s.lantern.offDue = false →
      s.lantern.vhvn = false →
      Completes .framePairStart s (fun t =>
        rect t n = {} ∧ lanBusy t n = false ∧ bitAt (rd t (Reg.INT_RAW 0x100)) 0 = true ∧
        (∀ k, k < 384 → bitAt (rd t (Reg.LANTERN_IMG (k / 32))) (k % 32) = if inRect r.bound k then bitAt (r.data.getD (k / 32) 0) (k % 32) else bitAt (rd s (Reg.LANTERN_IMG (k / 32))) (k % 32)) ∧ KeepsBlocks [0x100] s t ∧ t = { s with regs := t.regs, lantern := t.lantern })) ∧
  (∀ (n : Nat) (l : List Nat) (s : State),
      s.lantern.writing = n :: l →
      n < 5 →
      s.lantern.writeFrom + journalTime 80 ≤ s.now →
      s.lantern.load ≠ none →
      heldAll s = false →
      s.ecc = [] →
      (∀ r < 3, flag s (Reg.MEM_FLIP_CFG r) F.MEM_FLIP_CFG_ARM = false) →
      Permitted s (journalEnd s n l) →
      Completes .journalWriteDone s (fun t =>
        rdBytes t (journalAt n) 80 = journalBytes (rect s n) (rect s n).pulse ∧ KeepsMemBut (journalAt n) 80 s t ∧ rect t n = { rect s n with phase := 3, since := s.now } ∧ t.lantern.writing = l ∧ (∀ m, m ≠ n → rect t m = rect s m) ∧
        KeepsBlocks [0x20, 0x23, 0xb0, 0x110] s t ∧
        t = { s with free := t.free, regs := t.regs, mem := t.mem, cleRam := t.cleRam, canRam := t.canRam, arb := t.arb, power := t.power, ecc := t.ecc, memSys := t.memSys, rxe := t.rxe, mirror := t.mirror, agl := t.agl, lantern := t.lantern })) ∧
  (∀ (s : State),
      s.lantern.writing = [] →
      Completes .journalWriteDone s (fun t => t = s)) ∧
  (∀ (n : Nat) (c : Nat) (s : State),
      s.lantern.load = some { since := c, starts := [n] } →
      heldAll s = false →
      c + loadTime s ≤ s.now →
      s.lantern.vhvn = false →
      n < 5 →
      Completes .chainLoadLatch s (fun t =>
        rect t n = { rect s n with phase := 5, since := s.now } ∧ (∀ m, m ≠ n → rect t m = rect s m) ∧ t.lantern.load = none ∧ KeepsBlocks [0x100] s t ∧ t = { s with regs := t.regs, lantern := t.lantern })) ∧
  (∀ (n : Nat) (c : Nat) (s : State),
      s.lantern.load = some { since := c, ends := [n] } →
      heldAll s = false →
      c + loadTime s ≤ s.now →
      s.lantern.vhvn = false →
      n < 5 →
      Completes .chainLoadLatch s (fun t =>
        rect t n = { rect s n with phase := 8, since := s.now } ∧ (∀ m, m ≠ n → rect t m = rect s m) ∧ t.lantern.load = none ∧ t = { s with lantern := t.lantern })) ∧
  (∀ (c : ChainLoad) (s : State),
      s.lantern.load = some c →
      c.blank = 1 →
      heldAll s = false →
      c.since + loadTime s ≤ s.now →
      lanState s = lsClearing →
      s.lantern.slots = [] →
      (∀ n < 5, eccIn s (journalAt n) 128 = [] ∧ leNat (rdBytes s (journalAt n) 4) ≠ 0x4C4A4E31) →
      Completes .chainLoadLatch s (fun t =>
        lanState t = lsOn ∧ flag t Reg.LANTERN_STAT F.LANTERN_STAT_BL_ON = true ∧ bitAt (rd t (Reg.INT_RAW 0x100)) 1 = true ∧ t.lantern.slots = [] ∧ KeepsRegs [Reg.LANTERN_STAT, Reg.INT_RAW 0x100] s t ∧ t = { s with regs := t.regs, arb := t.arb, lantern := t.lantern })) ∧
  (∀ (c : ChainLoad) (s : State),
      s.lantern.load = some c →
      c.blank = 2 →
      heldAll s = false →
      c.since + loadTime s ≤ s.now →
      Completes .chainLoadLatch s (fun t => t = { s with lantern := { s.lantern with load := none, setMask := 0, clearMask := 0, vhvn := false, since := s.now } })) ∧
  (∀ (s : State),
      s.lantern.load = none →
      Completes .chainLoadLatch s (fun t => t = s)) ∧
  (∀ (n : Fin 5) (s : State),
      (rect s n.val).phase = 5 →
      heldAll s = false →
      (rect s n.val).since + (rect s n.val).pulse * vcoMs ≤ s.now →
      s.lantern.load ≠ none →
      Completes (.drivePulseEnd n) s (fun t =>
        rect t n.val = { rect s n.val with phase := 6, since := s.now } ∧ (∀ m, m ≠ n.val → rect t m = rect s m) ∧ t = { s with lantern := { s.lantern with slots := t.lantern.slots } })) ∧
  (∀ (n : Fin 5) (r : Rect) (s : State),
      s.lantern.slots = [(n.val, r)] →
      r.phase = 8 →
      r.since + journalTime 4 ≤ s.now →
      r.replay = false →
      s.lantern.iconDue = false →
      s.lantern.offDue = false →
      s.lantern.vhvn = false →
      s.ecc = [] →
      (∀ r < 3, flag s (Reg.MEM_FLIP_CFG r) F.MEM_FLIP_CFG_ARM = false) →
      Permitted s (writeEnds (completeRect (storeMram s 14 (journalAt n.val + 0x50) (leBytes 4 r.seq)) n.val)) →
      Completes (.rectangleComplete n) s (fun t =>
        rdBytes t (journalAt n.val + 0x50) 4 = leBytes 4 r.seq ∧ KeepsMemBut (journalAt n.val + 0x50) 4 s t ∧ rect t n.val = {} ∧ lanBusy t n.val = false ∧ bitAt (rd t (Reg.INT_RAW 0x100)) 0 = true ∧ t.lantern = { s.lantern with slots := [] } ∧
        KeepsBlocks [0x20, 0x23, 0xb0, 0x100, 0x110] s t ∧
        t = { s with free := t.free, regs := t.regs, mem := t.mem, cleRam := t.cleRam, canRam := t.canRam, arb := t.arb, power := t.power, ecc := t.ecc, memSys := t.memSys, rxe := t.rxe, mirror := t.mirror, agl := t.agl, lantern := t.lantern }))

/-- ADD adds AGL_SW_VAL to the value of its record, HIST to a bin, CLEAR zeroes the payload, saturating, and the record is dirty; before the load they wait. The load takes the newer valid copy of each record and then sets LOADED and INT_RAW bit 0. A due record is written to the copy that is not the newest in three commands: GEN becomes 0, the record is written and is no longer dirty, and GEN becomes one higher than the newest copy's; that each of the three is a command of its own is the model's choice (log entry 65). Each second the operating time goes up by one and AGL_TEMP takes the sample. (R520, R521, R522, R523, R524, R525) -/
def Obligations.AfterglowRecords : Prop :=
  (∀ (ini : Fin 16) (value : Word) (r : Nat) (s : State),
      Reachable s ini 0x110 0x4C →
      value &&& 0xFFFC8200#32 = 0 →
      fieldGet F.AGL_SW_CMD_OP value = 1 →
      fieldGet F.AGL_SW_CMD_REC value = r →
      160 ≤ r ∧ r < 288 →
      aglLoaded s = true →
      Completes (.aglAdd ini value) s (fun t =>
        aglGet t r 0 8 = min (aglGet s r 0 8 + rdn s Reg.AGL_SW_VAL) (256 ^ 8 - 1) ∧ mget false t.agl.dirty r = true ∧ (∀ q k, q ≠ r → k < 256 → mget 0 t.agl.work (256 * q + k) = mget 0 s.agl.work (256 * q + k)) ∧
        KeepsRegs [Reg.AGL_PEND] s t ∧ t = { s with regs := t.regs, arb := t.arb, agl := t.agl })) ∧
  (∀ (ini : Fin 16) (value : Word) (r : Nat) (s : State),
      Reachable s ini 0x110 0x4C →
      value &&& 0xFFFC8200#32 = 0 →
      fieldGet F.AGL_SW_CMD_OP value = 1 →
      fieldGet F.AGL_SW_CMD_REC value = r →
      160 ≤ r ∧ r < 288 →
      aglLoaded s = false →
      Completes (.aglAdd ini value) s (fun t => t = { s with arb := t.arb, agl := { s.agl with queue := s.agl.queue ++ [.add r 0 8 (rdn s Reg.AGL_SW_VAL)] } })) ∧
  (∀ (ini : Fin 16) (value : Word) (r : Nat) (s : State),
      Reachable s ini 0x110 0x4C →
      value &&& 0xFFFC8200#32 = 0 →
      fieldGet F.AGL_SW_CMD_BIN value < 28 →
      fieldGet F.AGL_SW_CMD_OP value = 2 →
      fieldGet F.AGL_SW_CMD_REC value = r →
      96 ≤ r ∧ r < 160 →
      aglLoaded s = true →
      Completes (.aglHist ini value) s (fun t =>
        aglGet t r (8 * fieldGet F.AGL_SW_CMD_BIN value) 8 = min (aglGet s r (8 * fieldGet F.AGL_SW_CMD_BIN value) 8 + rdn s Reg.AGL_SW_VAL) (256 ^ 8 - 1) ∧ mget false t.agl.dirty r = true ∧ (∀ q k, q ≠ r → k < 256 → mget 0 t.agl.work (256 * q + k) = mget 0 s.agl.work (256 * q + k)) ∧
        KeepsRegs [Reg.AGL_PEND] s t ∧ t = { s with regs := t.regs, arb := t.arb, agl := t.agl })) ∧
  (∀ (ini : Fin 16) (value : Word) (r : Nat) (s : State),
      Reachable s ini 0x110 0x4C →
      value &&& 0xFFFC8200#32 = 0 →
      fieldGet F.AGL_SW_CMD_OP value = 3 →
      fieldGet F.AGL_SW_CMD_REC value = r →
      96 ≤ r ∧ r < 288 →
      aglLoaded s = true →
      Completes (.aglClear ini value) s (fun t =>
        (∀ k < 224, aglGet t r k 1 = 0) ∧ mget false t.agl.dirty r = true ∧ (∀ q k, q ≠ r → k < 256 → mget 0 t.agl.work (256 * q + k) = mget 0 s.agl.work (256 * q + k)) ∧
        KeepsRegs [Reg.AGL_PEND] s t ∧ t = { s with regs := t.regs, arb := t.arb, agl := t.agl })) ∧
  (∀ (ini : Fin 16) (value : Word) (s : State),
      Reachable s ini 0x110 0x4C →
      value &&& 0xFFFC8200#32 = 0 →
      fieldGet F.AGL_SW_CMD_OP value = 1 →
      fieldGet F.AGL_SW_CMD_REC value < 160 →
      exec (.aglAdd ini value) s = .fault (.hostError 525)) ∧
  (∀ (s : State),
      s.start.step = .filled ∨ s.start.step = .running →
      aglLoaded s = false →
      s.agl.queue = [] →
      (∀ r < 288, aglGenOf s r false = 0 ∧ aglGenOf s r true = 0) →
      s.ecc = [] →
      Completes .aglLoad s (fun t =>
        aglLoaded t = true ∧ bitAt (rd t (Reg.INT_RAW 0x110)) 0 = true ∧ KeepsRegs [Reg.AGL_STAT, Reg.INT_RAW 0x110] s t ∧ t = { s with regs := t.regs, arb := t.arb })) ∧
  (∀ (r : Nat) (b : Bool) (s : State),
      s.start.step = .filled ∨ s.start.step = .running →
      aglLoaded s = false →
      s.agl.queue = [] →
      r < 288 →
      aglNewer s r = some b →
      s.ecc = [] →
      Completes .aglLoad s (fun t =>
        aglLoaded t = true ∧ bitAt (rd t (Reg.INT_RAW 0x110)) 0 = true ∧ (∀ k < 0xF8, mget 0 t.agl.work (256 * r + k) = rdByte s (aglCopyAt r b + k)) ∧ KeepsRegs [Reg.AGL_STAT, Reg.INT_RAW 0x110] s t ∧ t = { s with regs := t.regs, arb := t.arb, agl := t.agl })) ∧
  (∀ (s : State),
      aglLoaded s = true ∨ (s.start.step ≠ .filled ∧ s.start.step ≠ .running) →
      Completes .aglLoad s (fun t => t = s)) ∧
  (∀ (record : Fin 288) (c : Bool) (g : Nat) (nb : Option Bool) (s : State),
      s.agl.copying = none →
      pageEn s 0x110 = true →
      aglLoaded s = true →
      pfail s = false →
      aglReady s record.val = true →
      (∀ q < record.val, aglReady s q = false) →
      aglNewer s record.val = nb →
      ((nb = none ∧ c = false ∧ g = 1) ∨ (∃ b, nb = some b ∧ c = !b ∧ g = (aglGenOf s record.val b + 1) % 0x100000000 ∧ g ≠ 0)) →
      s.ecc = [] →
      (∀ r < 3, flag s (Reg.MEM_FLIP_CFG r) F.MEM_FLIP_CFG_ARM = false) →
      Permitted s (aglBegin s record.val) →
      Completes (.aglRecordWrite record) s (fun t =>
        rdBytes t (aglCopyAt record.val c) 4 = leBytes 4 0 ∧ KeepsMemBut (aglCopyAt record.val c) 4 s t ∧ t.agl = { s.agl with wrote := t.agl.wrote, copying := some { record := record.val, copyB := c, gen := g } } ∧ mget 0 t.agl.wrote record.val = monoNs s + 1 ∧
        KeepsBlocks [0x20, 0x23, 0xb0, 0x110] s t ∧
        t = { s with free := t.free, regs := t.regs, mem := t.mem, cleRam := t.cleRam, canRam := t.canRam, arb := t.arb, ecc := t.ecc, memSys := t.memSys, rxe := t.rxe, mirror := t.mirror, agl := t.agl })) ∧
  (∀ (record : Fin 288) (c : AglCopy) (s : State),
      s.agl.copying = some c →
      c.record = record.val →
      c.step = 2 →
      s.ecc = [] →
      (∀ r < 3, flag s (Reg.MEM_FLIP_CFG r) F.MEM_FLIP_CFG_ARM = false) →
      Permitted s (aglStep s c) →
      Completes (.aglRecordWrite record) s (fun t =>
        rdBytes t (aglCopyAt c.record c.copyB + 4) 252 = aglCopyBytes s record.val c.gen ∧ KeepsMemBut (aglCopyAt c.record c.copyB + 4) 252 s t ∧ mget false t.agl.dirty record.val = false ∧ (∀ q, q ≠ record.val → mget false t.agl.dirty q = mget false s.agl.dirty q) ∧ t.agl = { s.agl with dirty := t.agl.dirty, copying := some { c with step := 3 } } ∧
        KeepsBlocks [0x20, 0x23, 0xb0, 0x110] s t ∧
        t = { s with free := t.free, regs := t.regs, mem := t.mem, cleRam := t.cleRam, canRam := t.canRam, arb := t.arb, ecc := t.ecc, memSys := t.memSys, rxe := t.rxe, mirror := t.mirror, agl := t.agl })) ∧
  (∀ (record : Fin 288) (c : AglCopy) (s : State),
      s.agl.copying = some c →
      c.record = record.val →
      c.step ≠ 2 →
      s.ecc = [] →
      (∀ r < 3, flag s (Reg.MEM_FLIP_CFG r) F.MEM_FLIP_CFG_ARM = false) →
      Permitted s (aglStep s c) →
      Completes (.aglRecordWrite record) s (fun t =>
        rdBytes t (aglCopyAt c.record c.copyB) 4 = leBytes 4 c.gen ∧ KeepsMemBut (aglCopyAt c.record c.copyB) 4 s t ∧ t.agl = { s.agl with copying := none } ∧ rdn t Reg.AGL_WR_CNT = min (rdn s Reg.AGL_WR_CNT + 1) 0xFFFFFFFF ∧ (pageEn s 0x110 = false → flag t (Reg.PSTAT 0x110) F.PSTAT_ENABLED = false) ∧
        KeepsBlocks [0x20, 0x23, 0xb0, 0x110] s t ∧
        t = { s with free := t.free, regs := t.regs, mem := t.mem, cleRam := t.cleRam, canRam := t.canRam, arb := t.arb, ecc := t.ecc, memSys := t.memSys, rxe := t.rxe, mirror := t.mirror, agl := t.agl })) ∧
  (∀ (record : Fin 288) (c : AglCopy) (s : State),
      s.agl.copying = some c →
      c.record ≠ record.val →
      Completes (.aglRecordWrite record) s (fun t => t = s)) ∧
  (∀ (record : Fin 288) (s : State),
      s.agl.copying = none →
      pageEn s 0x110 = false ∨ aglLoaded s = false ∨ pfail s = true ∨ aglReady s record.val = false →
      Completes (.aglRecordWrite record) s (fun t => t = s)) ∧
  (∀ (temp : BitVec 16) (supplies : List Nat) (s : State),
      s.agl.seconds < monoNs s / 1000000000 →
      aglLoaded s = true →
      Completes (.aglSecond temp supplies) s (fun t =>
        aglGet t 0 8 8 = min (aglGet s 0 8 8 + 1) (256 ^ 8 - 1) ∧ t.agl.seconds = s.agl.seconds + 1 ∧ fld t Reg.AGL_TEMP F.AGL_TEMP_TEMP = temp.toNat ∧ flag t Reg.AGL_TEMP F.AGL_TEMP_VALID = true ∧
        KeepsRegs [Reg.AGL_TEMP, Reg.AGL_PEND, Reg.INT_RAW 0x110] s t ∧ t = { s with regs := t.regs, agl := t.agl })) ∧
  (∀ (temp : BitVec 16) (supplies : List Nat) (s : State),
      s.agl.seconds < monoNs s / 1000000000 →
      aglLoaded s = false →
      Completes (.aglSecond temp supplies) s (fun t =>
        t.agl.seconds = s.agl.seconds + 1 ∧ t.agl.work = s.agl.work ∧ (∃ q, t.agl.queue = s.agl.queue ++ .add 0 8 8 1 :: q) ∧ fld t Reg.AGL_TEMP F.AGL_TEMP_TEMP = temp.toNat ∧ flag t Reg.AGL_TEMP F.AGL_TEMP_VALID = true ∧
        KeepsRegs [Reg.AGL_TEMP] s t ∧ t = { s with regs := t.regs, agl := t.agl })) ∧
  (∀ (temp : BitVec 16) (supplies : List Nat) (s : State),
      monoNs s / 1000000000 ≤ s.agl.seconds →
      Completes (.aglSecond temp supplies) s (fun t => t = s))

/-- A write or a read of any word of a page that the page table gives no block, a write of its PKEY or of its PCTL bits, and a write of its INT_SET are host errors, in every state. (R29) -/
def Obligations.UnassignedPageIsHostError : Prop :=
  (∀ (ini : Fin 16) (pg : Fin 4096) (off : Fin 1024) (v : Option Word) (hw : Word) (s : State),
      pageDomain pg.val = none →
      exec (.registerWrite ini (0xF0000000#32 + BitVec.ofNat 32 (0x1000 * pg.val + 4 * off.val)) v hw) s = .fault (.hostError 29)) ∧
  (∀ (ini : Fin 16) (pg : Fin 4096) (v : Word) (s : State),
      pageDomain pg.val = none →
      exec (.pkeyWrite ini pg v) s = .fault (.hostError 29) ∧ exec (.intSet ini pg v) s = .fault (.hostError 29) ∧ exec (.srst ini pg) s = .fault (.hostError 29) ∧ exec (.pageLock ini pg) s = .fault (.hostError 29)) ∧
  (∀ (ini : Fin 16) (pg : Fin 4096) (en : Bool) (s : State),
      pageDomain pg.val = none →
      exec (.pctlEn ini pg en) s = .fault (.hostError 29))

/-- INT_EN takes the value; INT_CLR clears the bits written, and a hardware event of the same cycle leaves its bit set. A RW register takes the value, a W1C one clears its bits, a RO one keeps its own. A RWL register takes the value in an unlocked page and is a host error in a locked one. A write to a safety page by another initiator than 6 after the release is ignored and counted. A read returns the value and changes nothing, one of INT_PEND the enabled bits of INT_RAW; one of an RC register clears it but for what an event of the same cycle sets. A reserved bit written 1, an address outside register space and one that is not aligned are host errors. (R3, R18, R19, R21, R24, R27, R37, R308) -/
def Obligations.RegisterWrites : Prop :=
  (∀ (ini : Fin 16) (pg : Fin 4096) (v : Word) (hw : Word) (s : State),
      Reachable s ini pg.val 0x10 →
      intErr pg.val v = none →
      Completes (.registerWrite ini (0xF0000000#32 + BitVec.ofNat 32 (0x1000 * pg.val + 0x10)) (some v) hw) s (fun t => rd t (Reg.INT_EN pg.val) = v ∧ KeepsRegs [Reg.INT_EN pg.val] s t ∧ t = { s with regs := t.regs, arb := t.arb })) ∧
  (∀ (ini : Fin 16) (pg : Fin 4096) (v : Word) (hw : Word) (s : State),
      Reachable s ini pg.val 0x0C →
      intErr pg.val v = none →
      Completes (.registerWrite ini (0xF0000000#32 + BitVec.ofNat 32 (0x1000 * pg.val + 0x0C)) (some v) hw) s (fun t => rd t (Reg.INT_RAW pg.val) = (rd s (Reg.INT_RAW pg.val) &&& ~~~v) ||| hw ∧ KeepsRegs [Reg.INT_RAW pg.val] s t ∧ t = { s with regs := t.regs, arb := t.arb })) ∧
  (∀ (ini : Fin 16) (v : Word) (hw : Word) (s : State),
      Reachable s ini 0x110 0x48 →
      Completes (.registerWrite ini 0xF0110048#32 (some v) hw) s (fun t => rd t Reg.AGL_SW_VAL = v ∧ KeepsRegs [Reg.AGL_SW_VAL] s t ∧ t = { s with regs := t.regs, arb := t.arb })) ∧
  (∀ (ini : Fin 16) (v : Word) (hw : Word) (s : State),
      Reachable s ini 0x30 0x40 →
      Completes (.registerWrite ini 0xF0030040#32 (some v) hw) s (fun t => rd t Reg.DMA_DONE_PEND = (rd s Reg.DMA_DONE_PEND &&& ~~~v) ||| hw ∧ KeepsRegs [Reg.DMA_DONE_PEND] s t ∧ t = { s with regs := t.regs, arb := t.arb })) ∧
  (∀ (ini : Fin 16) (v : Word) (hw : Word) (s : State),
      Reachable s ini 0x110 0x50 →
      v.toNat < 512 →
      Completes (.registerWrite ini 0xF0110050#32 (some v) hw) s (fun t => t = { s with arb := t.arb })) ∧
  (∀ (ini : Fin 16) (v : Word) (hw : Word) (s : State),
      Reachable s ini 0xD0 0x44 →
      lockErr s 0xD0 = none →
      pageEn s 0xD0 = false →
      Completes (.registerWrite ini 0xF00D0044#32 (some v) hw) s (fun t => rd t 0xD0044 = v ∧ KeepsRegs [0xD0044] s t ∧ t = { s with regs := t.regs, arb := t.arb })) ∧
  (∀ (ini : Fin 16) (v : Word) (hw : Word) (s : State),
      Reachable s ini 0xD0 0x44 →
      flag s (Reg.PCTL 0xD0) F.PCTL_LOCK = true →
      exec (.registerWrite ini 0xF00D0044#32 (some v) hw) s = .fault (.hostError 27)) ∧
  (∀ (ini : Fin 16) (pg : Fin 4096) (v : Word) (hw : Word) (s : State),
      pageErr s pg.val 0x10 = none →
      foreignPage s ini pg.val = true →
      Completes (.registerWrite ini (0xF0000000#32 + BitVec.ofNat 32 (0x1000 * pg.val + 0x10)) (some v) hw) s (fun t => rdn t Reg.SAFE_FOREIGN = min (rdn s Reg.SAFE_FOREIGN + 1) 0xFFFFFFFF ∧ bitAt (rd t (Reg.INT_RAW 0xA0)) 6 = true ∧ KeepsRegs [Reg.SAFE_FOREIGN, Reg.INT_RAW 0xA0] s t ∧ t = { s with regs := t.regs, arb := t.arb })) ∧
  (∀ (ini : Fin 16) (pg : Fin 4096) (v : Word) (hw : Word) (s : State),
      Reachable s ini pg.val 0x10 →
      intErr pg.val v ≠ none →
      exec (.registerWrite ini (0xF0000000#32 + BitVec.ofNat 32 (0x1000 * pg.val + 0x10)) (some v) hw) s = .fault (.hostError 37)) ∧
  (∀ (ini : Fin 16) (hw : Word) (s : State),
      pageErr s 0x110 0x48 = none →
      Completes (.registerWrite ini 0xF0110048#32 none hw) s (fun t => t = { s with arb := t.arb, rdata := [rd s Reg.AGL_SW_VAL] })) ∧
  (∀ (ini : Fin 16) (pg : Fin 4096) (hw : Word) (s : State),
      pageErr s pg.val 0x14 = none →
      Completes (.registerWrite ini (0xF0000000#32 + BitVec.ofNat 32 (0x1000 * pg.val + 0x14)) none hw) s (fun t => t = { s with arb := t.arb, rdata := [rd s (Reg.INT_RAW pg.val) &&& rd s (Reg.INT_EN pg.val)] })) ∧
  (∀ (ini : Fin 16) (hw : Word) (s : State),
      pageErr s 0x70 0x4C = none →
      Completes (.registerWrite ini 0xF007004C#32 none hw) s (fun t => t.rdata = [rd s 0x7004C] ∧ rd t 0x7004C = hw ∧ KeepsRegs [0x7004C] s t ∧ t = { s with regs := t.regs, arb := t.arb, rdata := t.rdata })) ∧
  (∀ (ini : Fin 16) (addr : Word) (v : Option Word) (hw : Word) (s : State),
      addr.toNat < 0xF0000000 ∨ 0xF0FFFFFF < addr.toNat →
      exec (.registerWrite ini addr v hw) s = .fault (.hostError 18)) ∧
  (∀ (ini : Fin 16) (addr : Word) (v : Option Word) (hw : Word) (s : State),
      0xF0000000 ≤ addr.toNat ∧ addr.toNat ≤ 0xF0FFFFFF →
      addr.toNat % 4 ≠ 0 →
      exec (.registerWrite ini addr v hw) s = .fault (.hostError 19))

/-- For every command and state, a step of the state with the command at the front of its queue is the command's effect on the state with the rest of the queue. With an empty queue (the model's own choice, log entry 5) the step answers a next state one VCO cycle later, whose queue is empty, unless the DMA engine meets a host error in that cycle: then that host error is the answer. (R15) -/
def Obligations.StepRunsFrontCommand : Prop :=
  (∀ (c : Instr) (rest : List Instr) (s : State),
      step { s with pending := c :: rest } = exec c { s with pending := rest }) ∧
  (∀ (s : State),
      s.pending = [] →
      Permitted s (tick s) →
      ∃ t, step s = .next t ∧ t.now = s.now + 1 ∧ t.pending = []) ∧
  (∀ (n : Nat) (s : State),
      s.pending = [] →
      s.hostErr = none →
      (tick s).hostErr = some n →
      step s = .fault (.hostError n))

/-- After reset the queue is empty, no clock cycle has passed and the start sequence waits for the release of POR; no register differs from the reset value its table gives it, memory, CLE RAM and CAN RAM list nothing and so keep the canonical form, and no interrupt line is raised. That State.reset is the state before POR_RELEASE, and the values of what the spec gives no reset value, are the model's choices (log entries 1 to 4). (R5, R41, R51) -/
def Obligations.ResetState : Prop :=
  (      State.reset.pending = [] ∧ State.reset.now = 0 ∧ State.reset.start.step = .porActive ∧ (∀ a, rd State.reset a = regReset a) ∧ State.reset.mem = [] ∧ State.reset.cleRam = [] ∧ State.reset.canRam = [] ∧
        Memory.wf State.reset.mem = true ∧ asserted State.reset = [] ∧ State.reset.pkey = [] ∧ State.reset.sem = [])

/-- For every state whose memory is in canonical form (addresses strictly rising, no listed byte equal to what an unlisted address reads as), if a step answers a next state, the memory of that state is in canonical form too: whatever command stands at the front of the queue, and when none does. (R18, R439, R44) -/
def Obligations.StepKeepsMemoryCanonical : Prop :=
  (∀ (s : State) (t : State),
      Memory.wf s.mem = true →
      step s = .next t →
      Memory.wf t.mem = true)
end

