-- ==== Sys2Proof/Laws/Crypto.lean ====
section
/-!
SUPPORT. The tables of the AES substitution hold what FIPS 197 defines.
-/

namespace Sys2Proof.Machine

/-- The table holds the substitution of every byte. -/
theorem aesSub_eq : ∀ a : Fin 256, aesSub a.val = aesSubOf a.val := by decide +kernel

/-- The other table holds its inverse. -/
theorem aesUnsub_eq : ∀ a : Fin 256, aesUnsub a.val = aesUnsubOf a.val := by decide +kernel

/-- The two substitutions undo each other. -/
theorem aesUnsub_aesSub : ∀ a : Fin 256, aesUnsub (aesSub a.val) = a.val := by decide +kernel

end Sys2Proof.Machine
end

