-- ==== Sys2Proof/Laws/Maps.lean ====
section
/-!
SUPPORT. Sparse maps: what a look-up answers after an update, and that updates keep the canonical form.
-/

namespace Sys2Proof.Machine

theorem mget_mins_self {α : Type} (d v : α) (a : Nat) (m : AMap α) : mget d (mins m a v) a = v := by
  induction m with
  | nil => simp [mins, mget]
  | cons e m ih =>
    obtain ⟨k, w⟩ := e
    rw [mins]
    split
    · rw [mget, if_neg (by omega), ih]
    · split <;> rw [mget, if_pos rfl]

theorem mget_mins_ne {α : Type} (d v : α) {a b : Nat} (h : b ≠ a) (m : AMap α) : mget d (mins m a v) b = mget d m b := by
  induction m with
  | nil => simp [mins, mget, Ne.symm h]
  | cons e m ih =>
    obtain ⟨k, w⟩ := e
    rw [mins]
    split
    · rw [mget, ih, mget]
    · split
      · rename_i hk
        subst hk
        rw [mget, mget, if_neg (Ne.symm h), if_neg (Ne.symm h)]
      · rw [mget, if_neg (Ne.symm h)]

theorem mget_mdel_self {α : Type} (d : α) (a : Nat) (m : AMap α) : mget d (mdel m a) a = d := by
  induction m with
  | nil => rfl
  | cons e m ih =>
    obtain ⟨k, w⟩ := e
    by_cases hk : k = a
    · simpa [mdel, List.filter, hk] using ih
    · have hf : mdel ((k, w) :: m) a = (k, w) :: mdel m a := by simp [mdel, hk]
      rw [hf, mget, if_neg hk, ih]

theorem mget_mdel_ne {α : Type} (d : α) {a b : Nat} (h : b ≠ a) (m : AMap α) : mget d (mdel m a) b = mget d m b := by
  induction m with
  | nil => rfl
  | cons e m ih =>
    obtain ⟨k, w⟩ := e
    by_cases hk : k = a
    · have hf : mdel ((k, w) :: m) a = mdel m a := by simp [mdel, hk]
      rw [hf, ih, mget, if_neg (by omega)]
    · have hf : mdel ((k, w) :: m) a = (k, w) :: mdel m a := by simp [mdel, hk]
      rw [hf, mget, mget, ih]

/-- What was put is what is read. -/
@[simp] theorem mget_mput_self {α : Type} [DecidableEq α] (d v : α) (a : Nat) (m : AMap α) : mget d (mput d m a v) a = v := by
  rw [mput]
  split
  · rename_i h
    rw [mget_mdel_self, h]
  · exact mget_mins_self d v a m

/-- Every other key reads as before, whatever its default. -/
theorem mget_mput_ne {α : Type} [DecidableEq α] (d e v : α) {a b : Nat} (h : b ≠ a) (m : AMap α) :
    mget d (mput e m a v) b = mget d m b := by
  rw [mput]
  split
  · exact mget_mdel_ne d h m
  · exact mget_mins_ne d v h m

theorem mget_mput {α : Type} [DecidableEq α] (d v : α) (a b : Nat) (m : AMap α) :
    mget d (mput d m a v) b = if b = a then v else mget d m b := by
  split
  · rename_i h
    rw [h, mget_mput_self]
  · rename_i h
    exact mget_mput_ne d d v h m

/-! ### The canonical form -/

theorem wfFrom_mono {α : Type} [DecidableEq α] (d : Nat → α) {lo lo' : Nat} (h : lo' ≤ lo) :
    ∀ m : AMap α, AMap.wfFrom d lo m = true → AMap.wfFrom d lo' m = true
  | [], _ => rfl
  | (k, v) :: m, hw => by
    simp only [AMap.wfFrom, Bool.and_eq_true, decide_eq_true_eq] at hw ⊢
    exact ⟨⟨by omega, hw.1.2⟩, hw.2⟩

theorem wfFrom_filter {α : Type} [DecidableEq α] (d : Nat → α) (p : Nat × α → Bool) :
    ∀ (m : AMap α) (lo : Nat), AMap.wfFrom d lo m = true → AMap.wfFrom d lo (m.filter p) = true
  | [], _, _ => rfl
  | (k, v) :: m, lo, hw => by
    simp only [AMap.wfFrom, Bool.and_eq_true, decide_eq_true_eq] at hw
    have ih := wfFrom_filter d p m (k + 1) hw.2
    rw [List.filter]
    split
    · simp only [AMap.wfFrom, Bool.and_eq_true, decide_eq_true_eq]
      exact ⟨hw.1, ih⟩
    · exact wfFrom_mono d (by omega) _ ih

theorem wfFrom_mins {α : Type} [DecidableEq α] (d : Nat → α) (a : Nat) (v : α) (hv : v ≠ d a) :
    ∀ (m : AMap α) (lo : Nat), lo ≤ a → AMap.wfFrom d lo m = true → AMap.wfFrom d lo (mins m a v) = true
  | [], lo, hl, _ => by simp [mins, AMap.wfFrom, hl, hv]
  | (k, w) :: m, lo, hl, hw => by
    simp only [AMap.wfFrom, Bool.and_eq_true, decide_eq_true_eq] at hw
    rw [mins]
    split
    · rename_i hk
      simp only [AMap.wfFrom, Bool.and_eq_true, decide_eq_true_eq]
      exact ⟨hw.1, wfFrom_mins d a v hv m (k + 1) (by omega) hw.2⟩
    · split
      · rename_i hk
        subst hk
        simp only [AMap.wfFrom, Bool.and_eq_true, decide_eq_true_eq]
        exact ⟨⟨hw.1.1, hv⟩, hw.2⟩
      · simp only [AMap.wfFrom, Bool.and_eq_true, decide_eq_true_eq]
        exact ⟨⟨hl, hv⟩, ⟨by omega, hw.1.2⟩, hw.2⟩

/-- An update keeps the canonical form: writing the default removes the entry. -/
theorem wfFrom_mput {α : Type} [DecidableEq α] (d : Nat → α) (a : Nat) (v : α) (m : AMap α) (h : AMap.wfFrom d 0 m = true) :
    AMap.wfFrom d 0 (mput (d a) m a v) = true := by
  rw [mput]
  split
  · exact wfFrom_filter d _ m 0 h
  · rename_i hv
    exact wfFrom_mins d a v hv m 0 (Nat.zero_le a) h

end Sys2Proof.Machine
end

