-- ==== Sys2Proof/Laws/Memory.lean ====
section
/-!
SUPPORT. Memory: a byte written is the byte read, every other byte stays, and every memory operation keeps the canonical
form.
-/

namespace Sys2Proof.Machine

theorem Memory.wf_mput (m : List Host.Cell) (a : Nat) (b : Byte) (h : Memory.wf m = true) : Memory.wf (mput 0 m a b) = true :=
  wfFrom_mput (fun _ => (0 : Byte)) a b m h

theorem Memory.wf_filter (m : List Host.Cell) (p : Host.Cell → Bool) (h : Memory.wf m = true) : Memory.wf (m.filter p) = true :=
  wfFrom_filter (fun _ => (0 : Byte)) p m 0 h

theorem Memory.wf_nil : Memory.wf [] = true := rfl

/-- A store of one byte leaves everything but memory, and keeps its form. -/
theorem putByte_wf (s : State) (a : Nat) (b : Byte) (h : Memory.wf s.mem = true) : Memory.wf (putByte s a b).mem = true := by
  rw [putByte]
  split
  · exact h
  · exact Memory.wf_mput s.mem a b h

theorem wrByte_wf (s : State) (a : Nat) (b : Byte) (h : Memory.wf s.mem = true) : Memory.wf (wrByte s a b).mem = true := by
  rw [wrByte]
  split
  · exact h
  · exact putByte_wf s a b h

theorem wrBytes_wf (bs : List Byte) : ∀ (s : State) (a : Nat), Memory.wf s.mem = true → Memory.wf (wrBytes s a bs).mem = true := by
  induction bs with
  | nil => intro s a h; exact h
  | cons b bs ih => intro s a h; exact ih _ _ (wrByte_wf s a b h)

theorem putBytes_wf (bs : List Byte) : ∀ (s : State) (a : Nat), Memory.wf s.mem = true → Memory.wf (putBytes s a bs).mem = true := by
  induction bs with
  | nil => intro s a h; exact h
  | cons b bs ih => intro s a h; exact ih _ _ (putByte_wf s a b h)

theorem wrLE_wf (s : State) (a n v : Nat) (h : Memory.wf s.mem = true) : Memory.wf (wrLE s a n v).mem = true :=
  wrBytes_wf _ s a h

theorem copyBytes_wf (s : State) (src dst n : Nat) (h : Memory.wf s.mem = true) : Memory.wf (copyBytes s src dst n).mem = true :=
  wrBytes_wf _ s dst h

/-- Stores of bytes change memory only. -/
theorem putByte_eq (s : State) (a : Nat) (b : Byte) : putByte s a b = { s with mem := (putByte s a b).mem } := by
  rw [putByte]
  split <;> rfl

theorem wrByte_eq (s : State) (a : Nat) (b : Byte) : wrByte s a b = { s with mem := (wrByte s a b).mem } := by
  rw [wrByte]
  split
  · rfl
  · exact putByte_eq s a b

theorem wrBytes_eq (bs : List Byte) : ∀ (s : State) (a : Nat), wrBytes s a bs = { s with mem := (wrBytes s a bs).mem } := by
  induction bs with
  | nil => intro s a; rfl
  | cons b bs ih =>
    intro s a
    have h := ih (wrByte s a b) (a + 1)
    rw [wrByte_eq s a b] at h
    rw [wrBytes, wrByte_eq s a b, h]

theorem putBytes_eq (bs : List Byte) : ∀ (s : State) (a : Nat), putBytes s a bs = { s with mem := (putBytes s a bs).mem } := by
  induction bs with
  | nil => intro s a; rfl
  | cons b bs ih =>
    intro s a
    have h := ih (putByte s a b) (a + 1)
    rw [putByte_eq s a b] at h
    rw [putBytes, putByte_eq s a b, h]

/-! ### What is read -/

/-- A byte stored where memory takes it is the byte read there. -/
theorem rdByte_putByte_self (s : State) (a : Nat) (b : Byte) (h : 0xFFFF < a) (ht : a < 0x50210000 ∨ 0x5021FFFF < a) :
    rdByte (putByte s a b) a = b := by
  have ha : tcmAlias a = a := by rw [tcmAlias, if_neg (by omega)]
  rw [rdByte, ha, putByte, if_neg (by omega)]
  exact mget_mput_self 0 b a s.mem

/-- A store leaves every byte at another address. -/
theorem mget_putByte_ne (s : State) {a c : Nat} (b : Byte) (h : c ≠ a) : mget 0 (putByte s a b).mem c = mget 0 s.mem c := by
  rw [putByte]
  split
  · rfl
  · exact mget_mput_ne 0 0 b h s.mem

theorem mget_wrByte_ne (s : State) {a c : Nat} (b : Byte) (h : c ≠ a) : mget 0 (wrByte s a b).mem c = mget 0 s.mem c := by
  rw [wrByte]
  split
  · rfl
  · exact mget_putByte_ne s b h

theorem mget_wrBytes_out (bs : List Byte) : ∀ (s : State) (a c : Nat), c < a ∨ a + bs.length ≤ c →
    mget 0 (wrBytes s a bs).mem c = mget 0 s.mem c := by
  induction bs with
  | nil => intro s a c _; rfl
  | cons b bs ih =>
    intro s a c h
    rw [List.length_cons] at h
    rw [wrBytes, ih _ _ _ (by omega), mget_wrByte_ne s b (by omega)]

theorem mget_putBytes_out (bs : List Byte) : ∀ (s : State) (a c : Nat), c < a ∨ a + bs.length ≤ c →
    mget 0 (putBytes s a bs).mem c = mget 0 s.mem c := by
  induction bs with
  | nil => intro s a c _; rfl
  | cons b bs ih =>
    intro s a c h
    rw [List.length_cons] at h
    rw [putBytes, ih _ _ _ (by omega), mget_putByte_ne s b (by omega)]

end Sys2Proof.Machine
end

