-- ==== Sys2Proof/Laws/State.lean ====
section
/-!
SUPPORT. What each update of the state leaves as it was, field by field: no later proof unfolds a record update.
-/

namespace Sys2Proof.Machine

/-! ### wr -/

@[simp] theorem wr_pending (s : State) (a : Nat) (v : Word) : (wr s a v).pending = s.pending := rfl
@[simp] theorem wr_now (s : State) (a : Nat) (v : Word) : (wr s a v).now = s.now := rfl
@[simp] theorem wr_free (s : State) (a : Nat) (v : Word) : (wr s a v).free = s.free := rfl
@[simp] theorem wr_rdata (s : State) (a : Nat) (v : Word) : (wr s a v).rdata = s.rdata := rfl
@[simp] theorem wr_mem (s : State) (a : Nat) (v : Word) : (wr s a v).mem = s.mem := rfl
@[simp] theorem wr_cleRam (s : State) (a : Nat) (v : Word) : (wr s a v).cleRam = s.cleRam := rfl
@[simp] theorem wr_canRam (s : State) (a : Nat) (v : Word) : (wr s a v).canRam = s.canRam := rfl
@[simp] theorem wr_pkey (s : State) (a : Nat) (v : Word) : (wr s a v).pkey = s.pkey := rfl
@[simp] theorem wr_sem (s : State) (a : Nat) (v : Word) : (wr s a v).sem = s.sem := rfl
@[simp] theorem wr_arb (s : State) (a : Nat) (v : Word) : (wr s a v).arb = s.arb := rfl
@[simp] theorem wr_start (s : State) (a : Nat) (v : Word) : (wr s a v).start = s.start := rfl
@[simp] theorem wr_efuse (s : State) (a : Nat) (v : Word) : (wr s a v).efuse = s.efuse := rfl
@[simp] theorem wr_boot (s : State) (a : Nat) (v : Word) : (wr s a v).boot = s.boot := rfl
@[simp] theorem wr_power (s : State) (a : Nat) (v : Word) : (wr s a v).power = s.power := rfl
@[simp] theorem wr_clock (s : State) (a : Nat) (v : Word) : (wr s a v).clock = s.clock := rfl
@[simp] theorem wr_rtc (s : State) (a : Nat) (v : Word) : (wr s a v).rtc = s.rtc := rfl
@[simp] theorem wr_cyc (s : State) (a : Nat) (v : Word) : (wr s a v).cyc = s.cyc := rfl
@[simp] theorem wr_cle (s : State) (a : Nat) (v : Word) : (wr s a v).cle = s.cle := rfl
@[simp] theorem wr_ecc (s : State) (a : Nat) (v : Word) : (wr s a v).ecc = s.ecc := rfl
@[simp] theorem wr_memSys (s : State) (a : Nat) (v : Word) : (wr s a v).memSys = s.memSys := rfl
@[simp] theorem wr_mmu (s : State) (a : Nat) (v : Word) : (wr s a v).mmu = s.mmu := rfl
@[simp] theorem wr_dma (s : State) (a : Nat) (v : Word) : (wr s a v).dma = s.dma := rfl
@[simp] theorem wr_cores (s : State) (a : Nat) (v : Word) : (wr s a v).cores = s.cores := rfl
@[simp] theorem wr_prism (s : State) (a : Nat) (v : Word) : (wr s a v).prism = s.prism := rfl
@[simp] theorem wr_mtr (s : State) (a : Nat) (v : Word) : (wr s a v).mtr = s.mtr := rfl
@[simp] theorem wr_mxe (s : State) (a : Nat) (v : Word) : (wr s a v).mxe = s.mxe := rfl
@[simp] theorem wr_rxe (s : State) (a : Nat) (v : Word) : (wr s a v).rxe = s.rxe := rfl
@[simp] theorem wr_safe (s : State) (a : Nat) (v : Word) : (wr s a v).safe = s.safe := rfl
@[simp] theorem wr_mirror (s : State) (a : Nat) (v : Word) : (wr s a v).mirror = s.mirror := rfl
@[simp] theorem wr_agl (s : State) (a : Nat) (v : Word) : (wr s a v).agl = s.agl := rfl
@[simp] theorem wr_keys (s : State) (a : Nat) (v : Word) : (wr s a v).keys = s.keys := rfl
@[simp] theorem wr_lantern (s : State) (a : Nat) (v : Word) : (wr s a v).lantern = s.lantern := rfl
@[simp] theorem wr_eth (s : State) (a : Nat) (v : Word) : (wr s a v).eth = s.eth := rfl
@[simp] theorem wr_can (s : State) (a : Nat) (v : Word) : (wr s a v).can = s.can := rfl
@[simp] theorem wr_handed (s : State) (a : Nat) (v : Word) : (wr s a v).handed = s.handed := rfl
@[simp] theorem wr_hostErr (s : State) (a : Nat) (v : Word) : (wr s a v).hostErr = s.hostErr := rfl
@[simp] theorem wr_swWrites (s : State) (a : Nat) (v : Word) : (wr s a v).swWrites = s.swWrites := rfl
@[simp] theorem wr_l1 (s : State) (a : Nat) (v : Word) : (wr s a v).l1 = s.l1 := rfl
@[simp] theorem wr_dmaIssue (s : State) (a : Nat) (v : Word) : (wr s a v).dmaIssue = s.dmaIssue := rfl

/-! ### wrn -/

@[simp] theorem wrn_pending (s : State) (a v : Nat) : (wrn s a v).pending = s.pending := rfl
@[simp] theorem wrn_now (s : State) (a v : Nat) : (wrn s a v).now = s.now := rfl
@[simp] theorem wrn_free (s : State) (a v : Nat) : (wrn s a v).free = s.free := rfl
@[simp] theorem wrn_rdata (s : State) (a v : Nat) : (wrn s a v).rdata = s.rdata := rfl
@[simp] theorem wrn_mem (s : State) (a v : Nat) : (wrn s a v).mem = s.mem := rfl
@[simp] theorem wrn_cleRam (s : State) (a v : Nat) : (wrn s a v).cleRam = s.cleRam := rfl
@[simp] theorem wrn_canRam (s : State) (a v : Nat) : (wrn s a v).canRam = s.canRam := rfl
@[simp] theorem wrn_pkey (s : State) (a v : Nat) : (wrn s a v).pkey = s.pkey := rfl
@[simp] theorem wrn_sem (s : State) (a v : Nat) : (wrn s a v).sem = s.sem := rfl
@[simp] theorem wrn_arb (s : State) (a v : Nat) : (wrn s a v).arb = s.arb := rfl
@[simp] theorem wrn_start (s : State) (a v : Nat) : (wrn s a v).start = s.start := rfl
@[simp] theorem wrn_efuse (s : State) (a v : Nat) : (wrn s a v).efuse = s.efuse := rfl
@[simp] theorem wrn_boot (s : State) (a v : Nat) : (wrn s a v).boot = s.boot := rfl
@[simp] theorem wrn_power (s : State) (a v : Nat) : (wrn s a v).power = s.power := rfl
@[simp] theorem wrn_clock (s : State) (a v : Nat) : (wrn s a v).clock = s.clock := rfl
@[simp] theorem wrn_rtc (s : State) (a v : Nat) : (wrn s a v).rtc = s.rtc := rfl
@[simp] theorem wrn_cyc (s : State) (a v : Nat) : (wrn s a v).cyc = s.cyc := rfl
@[simp] theorem wrn_cle (s : State) (a v : Nat) : (wrn s a v).cle = s.cle := rfl
@[simp] theorem wrn_ecc (s : State) (a v : Nat) : (wrn s a v).ecc = s.ecc := rfl
@[simp] theorem wrn_memSys (s : State) (a v : Nat) : (wrn s a v).memSys = s.memSys := rfl
@[simp] theorem wrn_mmu (s : State) (a v : Nat) : (wrn s a v).mmu = s.mmu := rfl
@[simp] theorem wrn_dma (s : State) (a v : Nat) : (wrn s a v).dma = s.dma := rfl
@[simp] theorem wrn_cores (s : State) (a v : Nat) : (wrn s a v).cores = s.cores := rfl
@[simp] theorem wrn_prism (s : State) (a v : Nat) : (wrn s a v).prism = s.prism := rfl
@[simp] theorem wrn_mtr (s : State) (a v : Nat) : (wrn s a v).mtr = s.mtr := rfl
@[simp] theorem wrn_mxe (s : State) (a v : Nat) : (wrn s a v).mxe = s.mxe := rfl
@[simp] theorem wrn_rxe (s : State) (a v : Nat) : (wrn s a v).rxe = s.rxe := rfl
@[simp] theorem wrn_safe (s : State) (a v : Nat) : (wrn s a v).safe = s.safe := rfl
@[simp] theorem wrn_mirror (s : State) (a v : Nat) : (wrn s a v).mirror = s.mirror := rfl
@[simp] theorem wrn_agl (s : State) (a v : Nat) : (wrn s a v).agl = s.agl := rfl
@[simp] theorem wrn_keys (s : State) (a v : Nat) : (wrn s a v).keys = s.keys := rfl
@[simp] theorem wrn_lantern (s : State) (a v : Nat) : (wrn s a v).lantern = s.lantern := rfl
@[simp] theorem wrn_eth (s : State) (a v : Nat) : (wrn s a v).eth = s.eth := rfl
@[simp] theorem wrn_can (s : State) (a v : Nat) : (wrn s a v).can = s.can := rfl
@[simp] theorem wrn_handed (s : State) (a v : Nat) : (wrn s a v).handed = s.handed := rfl
@[simp] theorem wrn_hostErr (s : State) (a v : Nat) : (wrn s a v).hostErr = s.hostErr := rfl
@[simp] theorem wrn_swWrites (s : State) (a v : Nat) : (wrn s a v).swWrites = s.swWrites := rfl
@[simp] theorem wrn_l1 (s : State) (a v : Nat) : (wrn s a v).l1 = s.l1 := rfl
@[simp] theorem wrn_dmaIssue (s : State) (a v : Nat) : (wrn s a v).dmaIssue = s.dmaIssue := rfl

/-! ### setFld -/

@[simp] theorem setFld_pending (s : State) (a : Nat) (g : Field) (v : Nat) : (setFld s a g v).pending = s.pending := rfl
@[simp] theorem setFld_now (s : State) (a : Nat) (g : Field) (v : Nat) : (setFld s a g v).now = s.now := rfl
@[simp] theorem setFld_free (s : State) (a : Nat) (g : Field) (v : Nat) : (setFld s a g v).free = s.free := rfl
@[simp] theorem setFld_rdata (s : State) (a : Nat) (g : Field) (v : Nat) : (setFld s a g v).rdata = s.rdata := rfl
@[simp] theorem setFld_mem (s : State) (a : Nat) (g : Field) (v : Nat) : (setFld s a g v).mem = s.mem := rfl
@[simp] theorem setFld_cleRam (s : State) (a : Nat) (g : Field) (v : Nat) : (setFld s a g v).cleRam = s.cleRam := rfl
@[simp] theorem setFld_canRam (s : State) (a : Nat) (g : Field) (v : Nat) : (setFld s a g v).canRam = s.canRam := rfl
@[simp] theorem setFld_pkey (s : State) (a : Nat) (g : Field) (v : Nat) : (setFld s a g v).pkey = s.pkey := rfl
@[simp] theorem setFld_sem (s : State) (a : Nat) (g : Field) (v : Nat) : (setFld s a g v).sem = s.sem := rfl
@[simp] theorem setFld_arb (s : State) (a : Nat) (g : Field) (v : Nat) : (setFld s a g v).arb = s.arb := rfl
@[simp] theorem setFld_start (s : State) (a : Nat) (g : Field) (v : Nat) : (setFld s a g v).start = s.start := rfl
@[simp] theorem setFld_efuse (s : State) (a : Nat) (g : Field) (v : Nat) : (setFld s a g v).efuse = s.efuse := rfl
@[simp] theorem setFld_boot (s : State) (a : Nat) (g : Field) (v : Nat) : (setFld s a g v).boot = s.boot := rfl
@[simp] theorem setFld_power (s : State) (a : Nat) (g : Field) (v : Nat) : (setFld s a g v).power = s.power := rfl
@[simp] theorem setFld_clock (s : State) (a : Nat) (g : Field) (v : Nat) : (setFld s a g v).clock = s.clock := rfl
@[simp] theorem setFld_rtc (s : State) (a : Nat) (g : Field) (v : Nat) : (setFld s a g v).rtc = s.rtc := rfl
@[simp] theorem setFld_cyc (s : State) (a : Nat) (g : Field) (v : Nat) : (setFld s a g v).cyc = s.cyc := rfl
@[simp] theorem setFld_cle (s : State) (a : Nat) (g : Field) (v : Nat) : (setFld s a g v).cle = s.cle := rfl
@[simp] theorem setFld_ecc (s : State) (a : Nat) (g : Field) (v : Nat) : (setFld s a g v).ecc = s.ecc := rfl
@[simp] theorem setFld_memSys (s : State) (a : Nat) (g : Field) (v : Nat) : (setFld s a g v).memSys = s.memSys := rfl
@[simp] theorem setFld_mmu (s : State) (a : Nat) (g : Field) (v : Nat) : (setFld s a g v).mmu = s.mmu := rfl
@[simp] theorem setFld_dma (s : State) (a : Nat) (g : Field) (v : Nat) : (setFld s a g v).dma = s.dma := rfl
@[simp] theorem setFld_cores (s : State) (a : Nat) (g : Field) (v : Nat) : (setFld s a g v).cores = s.cores := rfl
@[simp] theorem setFld_prism (s : State) (a : Nat) (g : Field) (v : Nat) : (setFld s a g v).prism = s.prism := rfl
@[simp] theorem setFld_mtr (s : State) (a : Nat) (g : Field) (v : Nat) : (setFld s a g v).mtr = s.mtr := rfl
@[simp] theorem setFld_mxe (s : State) (a : Nat) (g : Field) (v : Nat) : (setFld s a g v).mxe = s.mxe := rfl
@[simp] theorem setFld_rxe (s : State) (a : Nat) (g : Field) (v : Nat) : (setFld s a g v).rxe = s.rxe := rfl
@[simp] theorem setFld_safe (s : State) (a : Nat) (g : Field) (v : Nat) : (setFld s a g v).safe = s.safe := rfl
@[simp] theorem setFld_mirror (s : State) (a : Nat) (g : Field) (v : Nat) : (setFld s a g v).mirror = s.mirror := rfl
@[simp] theorem setFld_agl (s : State) (a : Nat) (g : Field) (v : Nat) : (setFld s a g v).agl = s.agl := rfl
@[simp] theorem setFld_keys (s : State) (a : Nat) (g : Field) (v : Nat) : (setFld s a g v).keys = s.keys := rfl
@[simp] theorem setFld_lantern (s : State) (a : Nat) (g : Field) (v : Nat) : (setFld s a g v).lantern = s.lantern := rfl
@[simp] theorem setFld_eth (s : State) (a : Nat) (g : Field) (v : Nat) : (setFld s a g v).eth = s.eth := rfl
@[simp] theorem setFld_can (s : State) (a : Nat) (g : Field) (v : Nat) : (setFld s a g v).can = s.can := rfl
@[simp] theorem setFld_handed (s : State) (a : Nat) (g : Field) (v : Nat) : (setFld s a g v).handed = s.handed := rfl
@[simp] theorem setFld_hostErr (s : State) (a : Nat) (g : Field) (v : Nat) : (setFld s a g v).hostErr = s.hostErr := rfl
@[simp] theorem setFld_swWrites (s : State) (a : Nat) (g : Field) (v : Nat) : (setFld s a g v).swWrites = s.swWrites := rfl
@[simp] theorem setFld_l1 (s : State) (a : Nat) (g : Field) (v : Nat) : (setFld s a g v).l1 = s.l1 := rfl
@[simp] theorem setFld_dmaIssue (s : State) (a : Nat) (g : Field) (v : Nat) : (setFld s a g v).dmaIssue = s.dmaIssue := rfl

/-! ### setFlag -/

@[simp] theorem setFlag_pending (s : State) (a : Nat) (g : Field) (b : Bool) : (setFlag s a g b).pending = s.pending := rfl
@[simp] theorem setFlag_now (s : State) (a : Nat) (g : Field) (b : Bool) : (setFlag s a g b).now = s.now := rfl
@[simp] theorem setFlag_free (s : State) (a : Nat) (g : Field) (b : Bool) : (setFlag s a g b).free = s.free := rfl
@[simp] theorem setFlag_rdata (s : State) (a : Nat) (g : Field) (b : Bool) : (setFlag s a g b).rdata = s.rdata := rfl
@[simp] theorem setFlag_mem (s : State) (a : Nat) (g : Field) (b : Bool) : (setFlag s a g b).mem = s.mem := rfl
@[simp] theorem setFlag_cleRam (s : State) (a : Nat) (g : Field) (b : Bool) : (setFlag s a g b).cleRam = s.cleRam := rfl
@[simp] theorem setFlag_canRam (s : State) (a : Nat) (g : Field) (b : Bool) : (setFlag s a g b).canRam = s.canRam := rfl
@[simp] theorem setFlag_pkey (s : State) (a : Nat) (g : Field) (b : Bool) : (setFlag s a g b).pkey = s.pkey := rfl
@[simp] theorem setFlag_sem (s : State) (a : Nat) (g : Field) (b : Bool) : (setFlag s a g b).sem = s.sem := rfl
@[simp] theorem setFlag_arb (s : State) (a : Nat) (g : Field) (b : Bool) : (setFlag s a g b).arb = s.arb := rfl
@[simp] theorem setFlag_start (s : State) (a : Nat) (g : Field) (b : Bool) : (setFlag s a g b).start = s.start := rfl
@[simp] theorem setFlag_efuse (s : State) (a : Nat) (g : Field) (b : Bool) : (setFlag s a g b).efuse = s.efuse := rfl
@[simp] theorem setFlag_boot (s : State) (a : Nat) (g : Field) (b : Bool) : (setFlag s a g b).boot = s.boot := rfl
@[simp] theorem setFlag_power (s : State) (a : Nat) (g : Field) (b : Bool) : (setFlag s a g b).power = s.power := rfl
@[simp] theorem setFlag_clock (s : State) (a : Nat) (g : Field) (b : Bool) : (setFlag s a g b).clock = s.clock := rfl
@[simp] theorem setFlag_rtc (s : State) (a : Nat) (g : Field) (b : Bool) : (setFlag s a g b).rtc = s.rtc := rfl
@[simp] theorem setFlag_cyc (s : State) (a : Nat) (g : Field) (b : Bool) : (setFlag s a g b).cyc = s.cyc := rfl
@[simp] theorem setFlag_cle (s : State) (a : Nat) (g : Field) (b : Bool) : (setFlag s a g b).cle = s.cle := rfl
@[simp] theorem setFlag_ecc (s : State) (a : Nat) (g : Field) (b : Bool) : (setFlag s a g b).ecc = s.ecc := rfl
@[simp] theorem setFlag_memSys (s : State) (a : Nat) (g : Field) (b : Bool) : (setFlag s a g b).memSys = s.memSys := rfl
@[simp] theorem setFlag_mmu (s : State) (a : Nat) (g : Field) (b : Bool) : (setFlag s a g b).mmu = s.mmu := rfl
@[simp] theorem setFlag_dma (s : State) (a : Nat) (g : Field) (b : Bool) : (setFlag s a g b).dma = s.dma := rfl
@[simp] theorem setFlag_cores (s : State) (a : Nat) (g : Field) (b : Bool) : (setFlag s a g b).cores = s.cores := rfl
@[simp] theorem setFlag_prism (s : State) (a : Nat) (g : Field) (b : Bool) : (setFlag s a g b).prism = s.prism := rfl
@[simp] theorem setFlag_mtr (s : State) (a : Nat) (g : Field) (b : Bool) : (setFlag s a g b).mtr = s.mtr := rfl
@[simp] theorem setFlag_mxe (s : State) (a : Nat) (g : Field) (b : Bool) : (setFlag s a g b).mxe = s.mxe := rfl
@[simp] theorem setFlag_rxe (s : State) (a : Nat) (g : Field) (b : Bool) : (setFlag s a g b).rxe = s.rxe := rfl
@[simp] theorem setFlag_safe (s : State) (a : Nat) (g : Field) (b : Bool) : (setFlag s a g b).safe = s.safe := rfl
@[simp] theorem setFlag_mirror (s : State) (a : Nat) (g : Field) (b : Bool) : (setFlag s a g b).mirror = s.mirror := rfl
@[simp] theorem setFlag_agl (s : State) (a : Nat) (g : Field) (b : Bool) : (setFlag s a g b).agl = s.agl := rfl
@[simp] theorem setFlag_keys (s : State) (a : Nat) (g : Field) (b : Bool) : (setFlag s a g b).keys = s.keys := rfl
@[simp] theorem setFlag_lantern (s : State) (a : Nat) (g : Field) (b : Bool) : (setFlag s a g b).lantern = s.lantern := rfl
@[simp] theorem setFlag_eth (s : State) (a : Nat) (g : Field) (b : Bool) : (setFlag s a g b).eth = s.eth := rfl
@[simp] theorem setFlag_can (s : State) (a : Nat) (g : Field) (b : Bool) : (setFlag s a g b).can = s.can := rfl
@[simp] theorem setFlag_handed (s : State) (a : Nat) (g : Field) (b : Bool) : (setFlag s a g b).handed = s.handed := rfl
@[simp] theorem setFlag_hostErr (s : State) (a : Nat) (g : Field) (b : Bool) : (setFlag s a g b).hostErr = s.hostErr := rfl
@[simp] theorem setFlag_swWrites (s : State) (a : Nat) (g : Field) (b : Bool) : (setFlag s a g b).swWrites = s.swWrites := rfl
@[simp] theorem setFlag_l1 (s : State) (a : Nat) (g : Field) (b : Bool) : (setFlag s a g b).l1 = s.l1 := rfl
@[simp] theorem setFlag_dmaIssue (s : State) (a : Nat) (g : Field) (b : Bool) : (setFlag s a g b).dmaIssue = s.dmaIssue := rfl

/-! ### orReg -/

@[simp] theorem orReg_pending (s : State) (a : Nat) (m : Word) : (orReg s a m).pending = s.pending := rfl
@[simp] theorem orReg_now (s : State) (a : Nat) (m : Word) : (orReg s a m).now = s.now := rfl
@[simp] theorem orReg_free (s : State) (a : Nat) (m : Word) : (orReg s a m).free = s.free := rfl
@[simp] theorem orReg_rdata (s : State) (a : Nat) (m : Word) : (orReg s a m).rdata = s.rdata := rfl
@[simp] theorem orReg_mem (s : State) (a : Nat) (m : Word) : (orReg s a m).mem = s.mem := rfl
@[simp] theorem orReg_cleRam (s : State) (a : Nat) (m : Word) : (orReg s a m).cleRam = s.cleRam := rfl
@[simp] theorem orReg_canRam (s : State) (a : Nat) (m : Word) : (orReg s a m).canRam = s.canRam := rfl
@[simp] theorem orReg_pkey (s : State) (a : Nat) (m : Word) : (orReg s a m).pkey = s.pkey := rfl
@[simp] theorem orReg_sem (s : State) (a : Nat) (m : Word) : (orReg s a m).sem = s.sem := rfl
@[simp] theorem orReg_arb (s : State) (a : Nat) (m : Word) : (orReg s a m).arb = s.arb := rfl
@[simp] theorem orReg_start (s : State) (a : Nat) (m : Word) : (orReg s a m).start = s.start := rfl
@[simp] theorem orReg_efuse (s : State) (a : Nat) (m : Word) : (orReg s a m).efuse = s.efuse := rfl
@[simp] theorem orReg_boot (s : State) (a : Nat) (m : Word) : (orReg s a m).boot = s.boot := rfl
@[simp] theorem orReg_power (s : State) (a : Nat) (m : Word) : (orReg s a m).power = s.power := rfl
@[simp] theorem orReg_clock (s : State) (a : Nat) (m : Word) : (orReg s a m).clock = s.clock := rfl
@[simp] theorem orReg_rtc (s : State) (a : Nat) (m : Word) : (orReg s a m).rtc = s.rtc := rfl
@[simp] theorem orReg_cyc (s : State) (a : Nat) (m : Word) : (orReg s a m).cyc = s.cyc := rfl
@[simp] theorem orReg_cle (s : State) (a : Nat) (m : Word) : (orReg s a m).cle = s.cle := rfl
@[simp] theorem orReg_ecc (s : State) (a : Nat) (m : Word) : (orReg s a m).ecc = s.ecc := rfl
@[simp] theorem orReg_memSys (s : State) (a : Nat) (m : Word) : (orReg s a m).memSys = s.memSys := rfl
@[simp] theorem orReg_mmu (s : State) (a : Nat) (m : Word) : (orReg s a m).mmu = s.mmu := rfl
@[simp] theorem orReg_dma (s : State) (a : Nat) (m : Word) : (orReg s a m).dma = s.dma := rfl
@[simp] theorem orReg_cores (s : State) (a : Nat) (m : Word) : (orReg s a m).cores = s.cores := rfl
@[simp] theorem orReg_prism (s : State) (a : Nat) (m : Word) : (orReg s a m).prism = s.prism := rfl
@[simp] theorem orReg_mtr (s : State) (a : Nat) (m : Word) : (orReg s a m).mtr = s.mtr := rfl
@[simp] theorem orReg_mxe (s : State) (a : Nat) (m : Word) : (orReg s a m).mxe = s.mxe := rfl
@[simp] theorem orReg_rxe (s : State) (a : Nat) (m : Word) : (orReg s a m).rxe = s.rxe := rfl
@[simp] theorem orReg_safe (s : State) (a : Nat) (m : Word) : (orReg s a m).safe = s.safe := rfl
@[simp] theorem orReg_mirror (s : State) (a : Nat) (m : Word) : (orReg s a m).mirror = s.mirror := rfl
@[simp] theorem orReg_agl (s : State) (a : Nat) (m : Word) : (orReg s a m).agl = s.agl := rfl
@[simp] theorem orReg_keys (s : State) (a : Nat) (m : Word) : (orReg s a m).keys = s.keys := rfl
@[simp] theorem orReg_lantern (s : State) (a : Nat) (m : Word) : (orReg s a m).lantern = s.lantern := rfl
@[simp] theorem orReg_eth (s : State) (a : Nat) (m : Word) : (orReg s a m).eth = s.eth := rfl
@[simp] theorem orReg_can (s : State) (a : Nat) (m : Word) : (orReg s a m).can = s.can := rfl
@[simp] theorem orReg_handed (s : State) (a : Nat) (m : Word) : (orReg s a m).handed = s.handed := rfl
@[simp] theorem orReg_hostErr (s : State) (a : Nat) (m : Word) : (orReg s a m).hostErr = s.hostErr := rfl
@[simp] theorem orReg_swWrites (s : State) (a : Nat) (m : Word) : (orReg s a m).swWrites = s.swWrites := rfl
@[simp] theorem orReg_l1 (s : State) (a : Nat) (m : Word) : (orReg s a m).l1 = s.l1 := rfl
@[simp] theorem orReg_dmaIssue (s : State) (a : Nat) (m : Word) : (orReg s a m).dmaIssue = s.dmaIssue := rfl

/-! ### clrReg -/

@[simp] theorem clrReg_pending (s : State) (a : Nat) (m : Word) : (clrReg s a m).pending = s.pending := rfl
@[simp] theorem clrReg_now (s : State) (a : Nat) (m : Word) : (clrReg s a m).now = s.now := rfl
@[simp] theorem clrReg_free (s : State) (a : Nat) (m : Word) : (clrReg s a m).free = s.free := rfl
@[simp] theorem clrReg_rdata (s : State) (a : Nat) (m : Word) : (clrReg s a m).rdata = s.rdata := rfl
@[simp] theorem clrReg_mem (s : State) (a : Nat) (m : Word) : (clrReg s a m).mem = s.mem := rfl
@[simp] theorem clrReg_cleRam (s : State) (a : Nat) (m : Word) : (clrReg s a m).cleRam = s.cleRam := rfl
@[simp] theorem clrReg_canRam (s : State) (a : Nat) (m : Word) : (clrReg s a m).canRam = s.canRam := rfl
@[simp] theorem clrReg_pkey (s : State) (a : Nat) (m : Word) : (clrReg s a m).pkey = s.pkey := rfl
@[simp] theorem clrReg_sem (s : State) (a : Nat) (m : Word) : (clrReg s a m).sem = s.sem := rfl
@[simp] theorem clrReg_arb (s : State) (a : Nat) (m : Word) : (clrReg s a m).arb = s.arb := rfl
@[simp] theorem clrReg_start (s : State) (a : Nat) (m : Word) : (clrReg s a m).start = s.start := rfl
@[simp] theorem clrReg_efuse (s : State) (a : Nat) (m : Word) : (clrReg s a m).efuse = s.efuse := rfl
@[simp] theorem clrReg_boot (s : State) (a : Nat) (m : Word) : (clrReg s a m).boot = s.boot := rfl
@[simp] theorem clrReg_power (s : State) (a : Nat) (m : Word) : (clrReg s a m).power = s.power := rfl
@[simp] theorem clrReg_clock (s : State) (a : Nat) (m : Word) : (clrReg s a m).clock = s.clock := rfl
@[simp] theorem clrReg_rtc (s : State) (a : Nat) (m : Word) : (clrReg s a m).rtc = s.rtc := rfl
@[simp] theorem clrReg_cyc (s : State) (a : Nat) (m : Word) : (clrReg s a m).cyc = s.cyc := rfl
@[simp] theorem clrReg_cle (s : State) (a : Nat) (m : Word) : (clrReg s a m).cle = s.cle := rfl
@[simp] theorem clrReg_ecc (s : State) (a : Nat) (m : Word) : (clrReg s a m).ecc = s.ecc := rfl
@[simp] theorem clrReg_memSys (s : State) (a : Nat) (m : Word) : (clrReg s a m).memSys = s.memSys := rfl
@[simp] theorem clrReg_mmu (s : State) (a : Nat) (m : Word) : (clrReg s a m).mmu = s.mmu := rfl
@[simp] theorem clrReg_dma (s : State) (a : Nat) (m : Word) : (clrReg s a m).dma = s.dma := rfl
@[simp] theorem clrReg_cores (s : State) (a : Nat) (m : Word) : (clrReg s a m).cores = s.cores := rfl
@[simp] theorem clrReg_prism (s : State) (a : Nat) (m : Word) : (clrReg s a m).prism = s.prism := rfl
@[simp] theorem clrReg_mtr (s : State) (a : Nat) (m : Word) : (clrReg s a m).mtr = s.mtr := rfl
@[simp] theorem clrReg_mxe (s : State) (a : Nat) (m : Word) : (clrReg s a m).mxe = s.mxe := rfl
@[simp] theorem clrReg_rxe (s : State) (a : Nat) (m : Word) : (clrReg s a m).rxe = s.rxe := rfl
@[simp] theorem clrReg_safe (s : State) (a : Nat) (m : Word) : (clrReg s a m).safe = s.safe := rfl
@[simp] theorem clrReg_mirror (s : State) (a : Nat) (m : Word) : (clrReg s a m).mirror = s.mirror := rfl
@[simp] theorem clrReg_agl (s : State) (a : Nat) (m : Word) : (clrReg s a m).agl = s.agl := rfl
@[simp] theorem clrReg_keys (s : State) (a : Nat) (m : Word) : (clrReg s a m).keys = s.keys := rfl
@[simp] theorem clrReg_lantern (s : State) (a : Nat) (m : Word) : (clrReg s a m).lantern = s.lantern := rfl
@[simp] theorem clrReg_eth (s : State) (a : Nat) (m : Word) : (clrReg s a m).eth = s.eth := rfl
@[simp] theorem clrReg_can (s : State) (a : Nat) (m : Word) : (clrReg s a m).can = s.can := rfl
@[simp] theorem clrReg_handed (s : State) (a : Nat) (m : Word) : (clrReg s a m).handed = s.handed := rfl
@[simp] theorem clrReg_hostErr (s : State) (a : Nat) (m : Word) : (clrReg s a m).hostErr = s.hostErr := rfl
@[simp] theorem clrReg_swWrites (s : State) (a : Nat) (m : Word) : (clrReg s a m).swWrites = s.swWrites := rfl
@[simp] theorem clrReg_l1 (s : State) (a : Nat) (m : Word) : (clrReg s a m).l1 = s.l1 := rfl
@[simp] theorem clrReg_dmaIssue (s : State) (a : Nat) (m : Word) : (clrReg s a m).dmaIssue = s.dmaIssue := rfl

/-! ### addReg -/

@[simp] theorem addReg_pending (s : State) (a n : Nat) : (addReg s a n).pending = s.pending := rfl
@[simp] theorem addReg_now (s : State) (a n : Nat) : (addReg s a n).now = s.now := rfl
@[simp] theorem addReg_free (s : State) (a n : Nat) : (addReg s a n).free = s.free := rfl
@[simp] theorem addReg_rdata (s : State) (a n : Nat) : (addReg s a n).rdata = s.rdata := rfl
@[simp] theorem addReg_mem (s : State) (a n : Nat) : (addReg s a n).mem = s.mem := rfl
@[simp] theorem addReg_cleRam (s : State) (a n : Nat) : (addReg s a n).cleRam = s.cleRam := rfl
@[simp] theorem addReg_canRam (s : State) (a n : Nat) : (addReg s a n).canRam = s.canRam := rfl
@[simp] theorem addReg_pkey (s : State) (a n : Nat) : (addReg s a n).pkey = s.pkey := rfl
@[simp] theorem addReg_sem (s : State) (a n : Nat) : (addReg s a n).sem = s.sem := rfl
@[simp] theorem addReg_arb (s : State) (a n : Nat) : (addReg s a n).arb = s.arb := rfl
@[simp] theorem addReg_start (s : State) (a n : Nat) : (addReg s a n).start = s.start := rfl
@[simp] theorem addReg_efuse (s : State) (a n : Nat) : (addReg s a n).efuse = s.efuse := rfl
@[simp] theorem addReg_boot (s : State) (a n : Nat) : (addReg s a n).boot = s.boot := rfl
@[simp] theorem addReg_power (s : State) (a n : Nat) : (addReg s a n).power = s.power := rfl
@[simp] theorem addReg_clock (s : State) (a n : Nat) : (addReg s a n).clock = s.clock := rfl
@[simp] theorem addReg_rtc (s : State) (a n : Nat) : (addReg s a n).rtc = s.rtc := rfl
@[simp] theorem addReg_cyc (s : State) (a n : Nat) : (addReg s a n).cyc = s.cyc := rfl
@[simp] theorem addReg_cle (s : State) (a n : Nat) : (addReg s a n).cle = s.cle := rfl
@[simp] theorem addReg_ecc (s : State) (a n : Nat) : (addReg s a n).ecc = s.ecc := rfl
@[simp] theorem addReg_memSys (s : State) (a n : Nat) : (addReg s a n).memSys = s.memSys := rfl
@[simp] theorem addReg_mmu (s : State) (a n : Nat) : (addReg s a n).mmu = s.mmu := rfl
@[simp] theorem addReg_dma (s : State) (a n : Nat) : (addReg s a n).dma = s.dma := rfl
@[simp] theorem addReg_cores (s : State) (a n : Nat) : (addReg s a n).cores = s.cores := rfl
@[simp] theorem addReg_prism (s : State) (a n : Nat) : (addReg s a n).prism = s.prism := rfl
@[simp] theorem addReg_mtr (s : State) (a n : Nat) : (addReg s a n).mtr = s.mtr := rfl
@[simp] theorem addReg_mxe (s : State) (a n : Nat) : (addReg s a n).mxe = s.mxe := rfl
@[simp] theorem addReg_rxe (s : State) (a n : Nat) : (addReg s a n).rxe = s.rxe := rfl
@[simp] theorem addReg_safe (s : State) (a n : Nat) : (addReg s a n).safe = s.safe := rfl
@[simp] theorem addReg_mirror (s : State) (a n : Nat) : (addReg s a n).mirror = s.mirror := rfl
@[simp] theorem addReg_agl (s : State) (a n : Nat) : (addReg s a n).agl = s.agl := rfl
@[simp] theorem addReg_keys (s : State) (a n : Nat) : (addReg s a n).keys = s.keys := rfl
@[simp] theorem addReg_lantern (s : State) (a n : Nat) : (addReg s a n).lantern = s.lantern := rfl
@[simp] theorem addReg_eth (s : State) (a n : Nat) : (addReg s a n).eth = s.eth := rfl
@[simp] theorem addReg_can (s : State) (a n : Nat) : (addReg s a n).can = s.can := rfl
@[simp] theorem addReg_handed (s : State) (a n : Nat) : (addReg s a n).handed = s.handed := rfl
@[simp] theorem addReg_hostErr (s : State) (a n : Nat) : (addReg s a n).hostErr = s.hostErr := rfl
@[simp] theorem addReg_swWrites (s : State) (a n : Nat) : (addReg s a n).swWrites = s.swWrites := rfl
@[simp] theorem addReg_l1 (s : State) (a n : Nat) : (addReg s a n).l1 = s.l1 := rfl
@[simp] theorem addReg_dmaIssue (s : State) (a n : Nat) : (addReg s a n).dmaIssue = s.dmaIssue := rfl

/-! ### satFld -/

@[simp] theorem satFld_pending (s : State) (a : Nat) (g : Field) (n : Nat) : (satFld s a g n).pending = s.pending := rfl
@[simp] theorem satFld_now (s : State) (a : Nat) (g : Field) (n : Nat) : (satFld s a g n).now = s.now := rfl
@[simp] theorem satFld_free (s : State) (a : Nat) (g : Field) (n : Nat) : (satFld s a g n).free = s.free := rfl
@[simp] theorem satFld_rdata (s : State) (a : Nat) (g : Field) (n : Nat) : (satFld s a g n).rdata = s.rdata := rfl
@[simp] theorem satFld_mem (s : State) (a : Nat) (g : Field) (n : Nat) : (satFld s a g n).mem = s.mem := rfl
@[simp] theorem satFld_cleRam (s : State) (a : Nat) (g : Field) (n : Nat) : (satFld s a g n).cleRam = s.cleRam := rfl
@[simp] theorem satFld_canRam (s : State) (a : Nat) (g : Field) (n : Nat) : (satFld s a g n).canRam = s.canRam := rfl
@[simp] theorem satFld_pkey (s : State) (a : Nat) (g : Field) (n : Nat) : (satFld s a g n).pkey = s.pkey := rfl
@[simp] theorem satFld_sem (s : State) (a : Nat) (g : Field) (n : Nat) : (satFld s a g n).sem = s.sem := rfl
@[simp] theorem satFld_arb (s : State) (a : Nat) (g : Field) (n : Nat) : (satFld s a g n).arb = s.arb := rfl
@[simp] theorem satFld_start (s : State) (a : Nat) (g : Field) (n : Nat) : (satFld s a g n).start = s.start := rfl
@[simp] theorem satFld_efuse (s : State) (a : Nat) (g : Field) (n : Nat) : (satFld s a g n).efuse = s.efuse := rfl
@[simp] theorem satFld_boot (s : State) (a : Nat) (g : Field) (n : Nat) : (satFld s a g n).boot = s.boot := rfl
@[simp] theorem satFld_power (s : State) (a : Nat) (g : Field) (n : Nat) : (satFld s a g n).power = s.power := rfl
@[simp] theorem satFld_clock (s : State) (a : Nat) (g : Field) (n : Nat) : (satFld s a g n).clock = s.clock := rfl
@[simp] theorem satFld_rtc (s : State) (a : Nat) (g : Field) (n : Nat) : (satFld s a g n).rtc = s.rtc := rfl
@[simp] theorem satFld_cyc (s : State) (a : Nat) (g : Field) (n : Nat) : (satFld s a g n).cyc = s.cyc := rfl
@[simp] theorem satFld_cle (s : State) (a : Nat) (g : Field) (n : Nat) : (satFld s a g n).cle = s.cle := rfl
@[simp] theorem satFld_ecc (s : State) (a : Nat) (g : Field) (n : Nat) : (satFld s a g n).ecc = s.ecc := rfl
@[simp] theorem satFld_memSys (s : State) (a : Nat) (g : Field) (n : Nat) : (satFld s a g n).memSys = s.memSys := rfl
@[simp] theorem satFld_mmu (s : State) (a : Nat) (g : Field) (n : Nat) : (satFld s a g n).mmu = s.mmu := rfl
@[simp] theorem satFld_dma (s : State) (a : Nat) (g : Field) (n : Nat) : (satFld s a g n).dma = s.dma := rfl
@[simp] theorem satFld_cores (s : State) (a : Nat) (g : Field) (n : Nat) : (satFld s a g n).cores = s.cores := rfl
@[simp] theorem satFld_prism (s : State) (a : Nat) (g : Field) (n : Nat) : (satFld s a g n).prism = s.prism := rfl
@[simp] theorem satFld_mtr (s : State) (a : Nat) (g : Field) (n : Nat) : (satFld s a g n).mtr = s.mtr := rfl
@[simp] theorem satFld_mxe (s : State) (a : Nat) (g : Field) (n : Nat) : (satFld s a g n).mxe = s.mxe := rfl
@[simp] theorem satFld_rxe (s : State) (a : Nat) (g : Field) (n : Nat) : (satFld s a g n).rxe = s.rxe := rfl
@[simp] theorem satFld_safe (s : State) (a : Nat) (g : Field) (n : Nat) : (satFld s a g n).safe = s.safe := rfl
@[simp] theorem satFld_mirror (s : State) (a : Nat) (g : Field) (n : Nat) : (satFld s a g n).mirror = s.mirror := rfl
@[simp] theorem satFld_agl (s : State) (a : Nat) (g : Field) (n : Nat) : (satFld s a g n).agl = s.agl := rfl
@[simp] theorem satFld_keys (s : State) (a : Nat) (g : Field) (n : Nat) : (satFld s a g n).keys = s.keys := rfl
@[simp] theorem satFld_lantern (s : State) (a : Nat) (g : Field) (n : Nat) : (satFld s a g n).lantern = s.lantern := rfl
@[simp] theorem satFld_eth (s : State) (a : Nat) (g : Field) (n : Nat) : (satFld s a g n).eth = s.eth := rfl
@[simp] theorem satFld_can (s : State) (a : Nat) (g : Field) (n : Nat) : (satFld s a g n).can = s.can := rfl
@[simp] theorem satFld_handed (s : State) (a : Nat) (g : Field) (n : Nat) : (satFld s a g n).handed = s.handed := rfl
@[simp] theorem satFld_hostErr (s : State) (a : Nat) (g : Field) (n : Nat) : (satFld s a g n).hostErr = s.hostErr := rfl
@[simp] theorem satFld_swWrites (s : State) (a : Nat) (g : Field) (n : Nat) : (satFld s a g n).swWrites = s.swWrites := rfl
@[simp] theorem satFld_l1 (s : State) (a : Nat) (g : Field) (n : Nat) : (satFld s a g n).l1 = s.l1 := rfl
@[simp] theorem satFld_dmaIssue (s : State) (a : Nat) (g : Field) (n : Nat) : (satFld s a g n).dmaIssue = s.dmaIssue := rfl

/-! ### wr64 -/

@[simp] theorem wr64_pending (s : State) (lo hi v : Nat) : (wr64 s lo hi v).pending = s.pending := rfl
@[simp] theorem wr64_now (s : State) (lo hi v : Nat) : (wr64 s lo hi v).now = s.now := rfl
@[simp] theorem wr64_free (s : State) (lo hi v : Nat) : (wr64 s lo hi v).free = s.free := rfl
@[simp] theorem wr64_rdata (s : State) (lo hi v : Nat) : (wr64 s lo hi v).rdata = s.rdata := rfl
@[simp] theorem wr64_mem (s : State) (lo hi v : Nat) : (wr64 s lo hi v).mem = s.mem := rfl
@[simp] theorem wr64_cleRam (s : State) (lo hi v : Nat) : (wr64 s lo hi v).cleRam = s.cleRam := rfl
@[simp] theorem wr64_canRam (s : State) (lo hi v : Nat) : (wr64 s lo hi v).canRam = s.canRam := rfl
@[simp] theorem wr64_pkey (s : State) (lo hi v : Nat) : (wr64 s lo hi v).pkey = s.pkey := rfl
@[simp] theorem wr64_sem (s : State) (lo hi v : Nat) : (wr64 s lo hi v).sem = s.sem := rfl
@[simp] theorem wr64_arb (s : State) (lo hi v : Nat) : (wr64 s lo hi v).arb = s.arb := rfl
@[simp] theorem wr64_start (s : State) (lo hi v : Nat) : (wr64 s lo hi v).start = s.start := rfl
@[simp] theorem wr64_efuse (s : State) (lo hi v : Nat) : (wr64 s lo hi v).efuse = s.efuse := rfl
@[simp] theorem wr64_boot (s : State) (lo hi v : Nat) : (wr64 s lo hi v).boot = s.boot := rfl
@[simp] theorem wr64_power (s : State) (lo hi v : Nat) : (wr64 s lo hi v).power = s.power := rfl
@[simp] theorem wr64_clock (s : State) (lo hi v : Nat) : (wr64 s lo hi v).clock = s.clock := rfl
@[simp] theorem wr64_rtc (s : State) (lo hi v : Nat) : (wr64 s lo hi v).rtc = s.rtc := rfl
@[simp] theorem wr64_cyc (s : State) (lo hi v : Nat) : (wr64 s lo hi v).cyc = s.cyc := rfl
@[simp] theorem wr64_cle (s : State) (lo hi v : Nat) : (wr64 s lo hi v).cle = s.cle := rfl
@[simp] theorem wr64_ecc (s : State) (lo hi v : Nat) : (wr64 s lo hi v).ecc = s.ecc := rfl
@[simp] theorem wr64_memSys (s : State) (lo hi v : Nat) : (wr64 s lo hi v).memSys = s.memSys := rfl
@[simp] theorem wr64_mmu (s : State) (lo hi v : Nat) : (wr64 s lo hi v).mmu = s.mmu := rfl
@[simp] theorem wr64_dma (s : State) (lo hi v : Nat) : (wr64 s lo hi v).dma = s.dma := rfl
@[simp] theorem wr64_cores (s : State) (lo hi v : Nat) : (wr64 s lo hi v).cores = s.cores := rfl
@[simp] theorem wr64_prism (s : State) (lo hi v : Nat) : (wr64 s lo hi v).prism = s.prism := rfl
@[simp] theorem wr64_mtr (s : State) (lo hi v : Nat) : (wr64 s lo hi v).mtr = s.mtr := rfl
@[simp] theorem wr64_mxe (s : State) (lo hi v : Nat) : (wr64 s lo hi v).mxe = s.mxe := rfl
@[simp] theorem wr64_rxe (s : State) (lo hi v : Nat) : (wr64 s lo hi v).rxe = s.rxe := rfl
@[simp] theorem wr64_safe (s : State) (lo hi v : Nat) : (wr64 s lo hi v).safe = s.safe := rfl
@[simp] theorem wr64_mirror (s : State) (lo hi v : Nat) : (wr64 s lo hi v).mirror = s.mirror := rfl
@[simp] theorem wr64_agl (s : State) (lo hi v : Nat) : (wr64 s lo hi v).agl = s.agl := rfl
@[simp] theorem wr64_keys (s : State) (lo hi v : Nat) : (wr64 s lo hi v).keys = s.keys := rfl
@[simp] theorem wr64_lantern (s : State) (lo hi v : Nat) : (wr64 s lo hi v).lantern = s.lantern := rfl
@[simp] theorem wr64_eth (s : State) (lo hi v : Nat) : (wr64 s lo hi v).eth = s.eth := rfl
@[simp] theorem wr64_can (s : State) (lo hi v : Nat) : (wr64 s lo hi v).can = s.can := rfl
@[simp] theorem wr64_handed (s : State) (lo hi v : Nat) : (wr64 s lo hi v).handed = s.handed := rfl
@[simp] theorem wr64_hostErr (s : State) (lo hi v : Nat) : (wr64 s lo hi v).hostErr = s.hostErr := rfl
@[simp] theorem wr64_swWrites (s : State) (lo hi v : Nat) : (wr64 s lo hi v).swWrites = s.swWrites := rfl
@[simp] theorem wr64_l1 (s : State) (lo hi v : Nat) : (wr64 s lo hi v).l1 = s.l1 := rfl
@[simp] theorem wr64_dmaIssue (s : State) (lo hi v : Nat) : (wr64 s lo hi v).dmaIssue = s.dmaIssue := rfl

/-! ### raise -/

@[simp] theorem raise_pending (s : State) (pg bit : Nat) : (raise s pg bit).pending = s.pending := rfl
@[simp] theorem raise_now (s : State) (pg bit : Nat) : (raise s pg bit).now = s.now := rfl
@[simp] theorem raise_free (s : State) (pg bit : Nat) : (raise s pg bit).free = s.free := rfl
@[simp] theorem raise_rdata (s : State) (pg bit : Nat) : (raise s pg bit).rdata = s.rdata := rfl
@[simp] theorem raise_mem (s : State) (pg bit : Nat) : (raise s pg bit).mem = s.mem := rfl
@[simp] theorem raise_cleRam (s : State) (pg bit : Nat) : (raise s pg bit).cleRam = s.cleRam := rfl
@[simp] theorem raise_canRam (s : State) (pg bit : Nat) : (raise s pg bit).canRam = s.canRam := rfl
@[simp] theorem raise_pkey (s : State) (pg bit : Nat) : (raise s pg bit).pkey = s.pkey := rfl
@[simp] theorem raise_sem (s : State) (pg bit : Nat) : (raise s pg bit).sem = s.sem := rfl
@[simp] theorem raise_arb (s : State) (pg bit : Nat) : (raise s pg bit).arb = s.arb := rfl
@[simp] theorem raise_start (s : State) (pg bit : Nat) : (raise s pg bit).start = s.start := rfl
@[simp] theorem raise_efuse (s : State) (pg bit : Nat) : (raise s pg bit).efuse = s.efuse := rfl
@[simp] theorem raise_boot (s : State) (pg bit : Nat) : (raise s pg bit).boot = s.boot := rfl
@[simp] theorem raise_power (s : State) (pg bit : Nat) : (raise s pg bit).power = s.power := rfl
@[simp] theorem raise_clock (s : State) (pg bit : Nat) : (raise s pg bit).clock = s.clock := rfl
@[simp] theorem raise_rtc (s : State) (pg bit : Nat) : (raise s pg bit).rtc = s.rtc := rfl
@[simp] theorem raise_cyc (s : State) (pg bit : Nat) : (raise s pg bit).cyc = s.cyc := rfl
@[simp] theorem raise_cle (s : State) (pg bit : Nat) : (raise s pg bit).cle = s.cle := rfl
@[simp] theorem raise_ecc (s : State) (pg bit : Nat) : (raise s pg bit).ecc = s.ecc := rfl
@[simp] theorem raise_memSys (s : State) (pg bit : Nat) : (raise s pg bit).memSys = s.memSys := rfl
@[simp] theorem raise_mmu (s : State) (pg bit : Nat) : (raise s pg bit).mmu = s.mmu := rfl
@[simp] theorem raise_dma (s : State) (pg bit : Nat) : (raise s pg bit).dma = s.dma := rfl
@[simp] theorem raise_cores (s : State) (pg bit : Nat) : (raise s pg bit).cores = s.cores := rfl
@[simp] theorem raise_prism (s : State) (pg bit : Nat) : (raise s pg bit).prism = s.prism := rfl
@[simp] theorem raise_mtr (s : State) (pg bit : Nat) : (raise s pg bit).mtr = s.mtr := rfl
@[simp] theorem raise_mxe (s : State) (pg bit : Nat) : (raise s pg bit).mxe = s.mxe := rfl
@[simp] theorem raise_rxe (s : State) (pg bit : Nat) : (raise s pg bit).rxe = s.rxe := rfl
@[simp] theorem raise_safe (s : State) (pg bit : Nat) : (raise s pg bit).safe = s.safe := rfl
@[simp] theorem raise_mirror (s : State) (pg bit : Nat) : (raise s pg bit).mirror = s.mirror := rfl
@[simp] theorem raise_agl (s : State) (pg bit : Nat) : (raise s pg bit).agl = s.agl := rfl
@[simp] theorem raise_keys (s : State) (pg bit : Nat) : (raise s pg bit).keys = s.keys := rfl
@[simp] theorem raise_lantern (s : State) (pg bit : Nat) : (raise s pg bit).lantern = s.lantern := rfl
@[simp] theorem raise_eth (s : State) (pg bit : Nat) : (raise s pg bit).eth = s.eth := rfl
@[simp] theorem raise_can (s : State) (pg bit : Nat) : (raise s pg bit).can = s.can := rfl
@[simp] theorem raise_handed (s : State) (pg bit : Nat) : (raise s pg bit).handed = s.handed := rfl
@[simp] theorem raise_hostErr (s : State) (pg bit : Nat) : (raise s pg bit).hostErr = s.hostErr := rfl
@[simp] theorem raise_swWrites (s : State) (pg bit : Nat) : (raise s pg bit).swWrites = s.swWrites := rfl
@[simp] theorem raise_l1 (s : State) (pg bit : Nat) : (raise s pg bit).l1 = s.l1 := rfl
@[simp] theorem raise_dmaIssue (s : State) (pg bit : Nat) : (raise s pg bit).dmaIssue = s.dmaIssue := rfl

/-! ### setAgl -/

@[simp] theorem setAgl_pending (s : State) (f : Agl → Agl) : (setAgl s f).pending = s.pending := rfl
@[simp] theorem setAgl_now (s : State) (f : Agl → Agl) : (setAgl s f).now = s.now := rfl
@[simp] theorem setAgl_free (s : State) (f : Agl → Agl) : (setAgl s f).free = s.free := rfl
@[simp] theorem setAgl_rdata (s : State) (f : Agl → Agl) : (setAgl s f).rdata = s.rdata := rfl
@[simp] theorem setAgl_regs (s : State) (f : Agl → Agl) : (setAgl s f).regs = s.regs := rfl
@[simp] theorem setAgl_mem (s : State) (f : Agl → Agl) : (setAgl s f).mem = s.mem := rfl
@[simp] theorem setAgl_cleRam (s : State) (f : Agl → Agl) : (setAgl s f).cleRam = s.cleRam := rfl
@[simp] theorem setAgl_canRam (s : State) (f : Agl → Agl) : (setAgl s f).canRam = s.canRam := rfl
@[simp] theorem setAgl_pkey (s : State) (f : Agl → Agl) : (setAgl s f).pkey = s.pkey := rfl
@[simp] theorem setAgl_sem (s : State) (f : Agl → Agl) : (setAgl s f).sem = s.sem := rfl
@[simp] theorem setAgl_arb (s : State) (f : Agl → Agl) : (setAgl s f).arb = s.arb := rfl
@[simp] theorem setAgl_start (s : State) (f : Agl → Agl) : (setAgl s f).start = s.start := rfl
@[simp] theorem setAgl_efuse (s : State) (f : Agl → Agl) : (setAgl s f).efuse = s.efuse := rfl
@[simp] theorem setAgl_boot (s : State) (f : Agl → Agl) : (setAgl s f).boot = s.boot := rfl
@[simp] theorem setAgl_power (s : State) (f : Agl → Agl) : (setAgl s f).power = s.power := rfl
@[simp] theorem setAgl_clock (s : State) (f : Agl → Agl) : (setAgl s f).clock = s.clock := rfl
@[simp] theorem setAgl_rtc (s : State) (f : Agl → Agl) : (setAgl s f).rtc = s.rtc := rfl
@[simp] theorem setAgl_cyc (s : State) (f : Agl → Agl) : (setAgl s f).cyc = s.cyc := rfl
@[simp] theorem setAgl_cle (s : State) (f : Agl → Agl) : (setAgl s f).cle = s.cle := rfl
@[simp] theorem setAgl_ecc (s : State) (f : Agl → Agl) : (setAgl s f).ecc = s.ecc := rfl
@[simp] theorem setAgl_memSys (s : State) (f : Agl → Agl) : (setAgl s f).memSys = s.memSys := rfl
@[simp] theorem setAgl_mmu (s : State) (f : Agl → Agl) : (setAgl s f).mmu = s.mmu := rfl
@[simp] theorem setAgl_dma (s : State) (f : Agl → Agl) : (setAgl s f).dma = s.dma := rfl
@[simp] theorem setAgl_cores (s : State) (f : Agl → Agl) : (setAgl s f).cores = s.cores := rfl
@[simp] theorem setAgl_prism (s : State) (f : Agl → Agl) : (setAgl s f).prism = s.prism := rfl
@[simp] theorem setAgl_mtr (s : State) (f : Agl → Agl) : (setAgl s f).mtr = s.mtr := rfl
@[simp] theorem setAgl_mxe (s : State) (f : Agl → Agl) : (setAgl s f).mxe = s.mxe := rfl
@[simp] theorem setAgl_rxe (s : State) (f : Agl → Agl) : (setAgl s f).rxe = s.rxe := rfl
@[simp] theorem setAgl_safe (s : State) (f : Agl → Agl) : (setAgl s f).safe = s.safe := rfl
@[simp] theorem setAgl_mirror (s : State) (f : Agl → Agl) : (setAgl s f).mirror = s.mirror := rfl
@[simp] theorem setAgl_agl (s : State) (f : Agl → Agl) : (setAgl s f).agl = f s.agl := rfl
@[simp] theorem setAgl_keys (s : State) (f : Agl → Agl) : (setAgl s f).keys = s.keys := rfl
@[simp] theorem setAgl_lantern (s : State) (f : Agl → Agl) : (setAgl s f).lantern = s.lantern := rfl
@[simp] theorem setAgl_eth (s : State) (f : Agl → Agl) : (setAgl s f).eth = s.eth := rfl
@[simp] theorem setAgl_can (s : State) (f : Agl → Agl) : (setAgl s f).can = s.can := rfl
@[simp] theorem setAgl_handed (s : State) (f : Agl → Agl) : (setAgl s f).handed = s.handed := rfl
@[simp] theorem setAgl_hostErr (s : State) (f : Agl → Agl) : (setAgl s f).hostErr = s.hostErr := rfl
@[simp] theorem setAgl_swWrites (s : State) (f : Agl → Agl) : (setAgl s f).swWrites = s.swWrites := rfl
@[simp] theorem setAgl_l1 (s : State) (f : Agl → Agl) : (setAgl s f).l1 = s.l1 := rfl
@[simp] theorem setAgl_dmaIssue (s : State) (f : Agl → Agl) : (setAgl s f).dmaIssue = s.dmaIssue := rfl
@[simp] theorem setAgl_rd (s : State) (f : Agl → Agl) (x : Nat) : rd (setAgl s f) x = rd s x := rfl
@[simp] theorem setAgl_rdn (s : State) (f : Agl → Agl) (x : Nat) : rdn (setAgl s f) x = rdn s x := rfl
@[simp] theorem setAgl_fld (s : State) (f : Agl → Agl) (x : Nat) (h : Field) : fld (setAgl s f) x h = fld s x h := rfl
@[simp] theorem setAgl_flag (s : State) (f : Agl → Agl) (x : Nat) (h : Field) : flag (setAgl s f) x h = flag s x h := rfl

/-! ### setBoot -/

@[simp] theorem setBoot_pending (s : State) (f : Boot → Boot) : (setBoot s f).pending = s.pending := rfl
@[simp] theorem setBoot_now (s : State) (f : Boot → Boot) : (setBoot s f).now = s.now := rfl
@[simp] theorem setBoot_free (s : State) (f : Boot → Boot) : (setBoot s f).free = s.free := rfl
@[simp] theorem setBoot_rdata (s : State) (f : Boot → Boot) : (setBoot s f).rdata = s.rdata := rfl
@[simp] theorem setBoot_regs (s : State) (f : Boot → Boot) : (setBoot s f).regs = s.regs := rfl
@[simp] theorem setBoot_mem (s : State) (f : Boot → Boot) : (setBoot s f).mem = s.mem := rfl
@[simp] theorem setBoot_cleRam (s : State) (f : Boot → Boot) : (setBoot s f).cleRam = s.cleRam := rfl
@[simp] theorem setBoot_canRam (s : State) (f : Boot → Boot) : (setBoot s f).canRam = s.canRam := rfl
@[simp] theorem setBoot_pkey (s : State) (f : Boot → Boot) : (setBoot s f).pkey = s.pkey := rfl
@[simp] theorem setBoot_sem (s : State) (f : Boot → Boot) : (setBoot s f).sem = s.sem := rfl
@[simp] theorem setBoot_arb (s : State) (f : Boot → Boot) : (setBoot s f).arb = s.arb := rfl
@[simp] theorem setBoot_start (s : State) (f : Boot → Boot) : (setBoot s f).start = s.start := rfl
@[simp] theorem setBoot_efuse (s : State) (f : Boot → Boot) : (setBoot s f).efuse = s.efuse := rfl
@[simp] theorem setBoot_boot (s : State) (f : Boot → Boot) : (setBoot s f).boot = f s.boot := rfl
@[simp] theorem setBoot_power (s : State) (f : Boot → Boot) : (setBoot s f).power = s.power := rfl
@[simp] theorem setBoot_clock (s : State) (f : Boot → Boot) : (setBoot s f).clock = s.clock := rfl
@[simp] theorem setBoot_rtc (s : State) (f : Boot → Boot) : (setBoot s f).rtc = s.rtc := rfl
@[simp] theorem setBoot_cyc (s : State) (f : Boot → Boot) : (setBoot s f).cyc = s.cyc := rfl
@[simp] theorem setBoot_cle (s : State) (f : Boot → Boot) : (setBoot s f).cle = s.cle := rfl
@[simp] theorem setBoot_ecc (s : State) (f : Boot → Boot) : (setBoot s f).ecc = s.ecc := rfl
@[simp] theorem setBoot_memSys (s : State) (f : Boot → Boot) : (setBoot s f).memSys = s.memSys := rfl
@[simp] theorem setBoot_mmu (s : State) (f : Boot → Boot) : (setBoot s f).mmu = s.mmu := rfl
@[simp] theorem setBoot_dma (s : State) (f : Boot → Boot) : (setBoot s f).dma = s.dma := rfl
@[simp] theorem setBoot_cores (s : State) (f : Boot → Boot) : (setBoot s f).cores = s.cores := rfl
@[simp] theorem setBoot_prism (s : State) (f : Boot → Boot) : (setBoot s f).prism = s.prism := rfl
@[simp] theorem setBoot_mtr (s : State) (f : Boot → Boot) : (setBoot s f).mtr = s.mtr := rfl
@[simp] theorem setBoot_mxe (s : State) (f : Boot → Boot) : (setBoot s f).mxe = s.mxe := rfl
@[simp] theorem setBoot_rxe (s : State) (f : Boot → Boot) : (setBoot s f).rxe = s.rxe := rfl
@[simp] theorem setBoot_safe (s : State) (f : Boot → Boot) : (setBoot s f).safe = s.safe := rfl
@[simp] theorem setBoot_mirror (s : State) (f : Boot → Boot) : (setBoot s f).mirror = s.mirror := rfl
@[simp] theorem setBoot_agl (s : State) (f : Boot → Boot) : (setBoot s f).agl = s.agl := rfl
@[simp] theorem setBoot_keys (s : State) (f : Boot → Boot) : (setBoot s f).keys = s.keys := rfl
@[simp] theorem setBoot_lantern (s : State) (f : Boot → Boot) : (setBoot s f).lantern = s.lantern := rfl
@[simp] theorem setBoot_eth (s : State) (f : Boot → Boot) : (setBoot s f).eth = s.eth := rfl
@[simp] theorem setBoot_can (s : State) (f : Boot → Boot) : (setBoot s f).can = s.can := rfl
@[simp] theorem setBoot_handed (s : State) (f : Boot → Boot) : (setBoot s f).handed = s.handed := rfl
@[simp] theorem setBoot_hostErr (s : State) (f : Boot → Boot) : (setBoot s f).hostErr = s.hostErr := rfl
@[simp] theorem setBoot_swWrites (s : State) (f : Boot → Boot) : (setBoot s f).swWrites = s.swWrites := rfl
@[simp] theorem setBoot_l1 (s : State) (f : Boot → Boot) : (setBoot s f).l1 = s.l1 := rfl
@[simp] theorem setBoot_dmaIssue (s : State) (f : Boot → Boot) : (setBoot s f).dmaIssue = s.dmaIssue := rfl
@[simp] theorem setBoot_rd (s : State) (f : Boot → Boot) (x : Nat) : rd (setBoot s f) x = rd s x := rfl
@[simp] theorem setBoot_rdn (s : State) (f : Boot → Boot) (x : Nat) : rdn (setBoot s f) x = rdn s x := rfl
@[simp] theorem setBoot_fld (s : State) (f : Boot → Boot) (x : Nat) (h : Field) : fld (setBoot s f) x h = fld s x h := rfl
@[simp] theorem setBoot_flag (s : State) (f : Boot → Boot) (x : Nat) (h : Field) : flag (setBoot s f) x h = flag s x h := rfl

/-! ### setSafe -/

@[simp] theorem setSafe_pending (s : State) (f : Safe → Safe) : (setSafe s f).pending = s.pending := rfl
@[simp] theorem setSafe_now (s : State) (f : Safe → Safe) : (setSafe s f).now = s.now := rfl
@[simp] theorem setSafe_free (s : State) (f : Safe → Safe) : (setSafe s f).free = s.free := rfl
@[simp] theorem setSafe_rdata (s : State) (f : Safe → Safe) : (setSafe s f).rdata = s.rdata := rfl
@[simp] theorem setSafe_regs (s : State) (f : Safe → Safe) : (setSafe s f).regs = s.regs := rfl
@[simp] theorem setSafe_mem (s : State) (f : Safe → Safe) : (setSafe s f).mem = s.mem := rfl
@[simp] theorem setSafe_cleRam (s : State) (f : Safe → Safe) : (setSafe s f).cleRam = s.cleRam := rfl
@[simp] theorem setSafe_canRam (s : State) (f : Safe → Safe) : (setSafe s f).canRam = s.canRam := rfl
@[simp] theorem setSafe_pkey (s : State) (f : Safe → Safe) : (setSafe s f).pkey = s.pkey := rfl
@[simp] theorem setSafe_sem (s : State) (f : Safe → Safe) : (setSafe s f).sem = s.sem := rfl
@[simp] theorem setSafe_arb (s : State) (f : Safe → Safe) : (setSafe s f).arb = s.arb := rfl
@[simp] theorem setSafe_start (s : State) (f : Safe → Safe) : (setSafe s f).start = s.start := rfl
@[simp] theorem setSafe_efuse (s : State) (f : Safe → Safe) : (setSafe s f).efuse = s.efuse := rfl
@[simp] theorem setSafe_boot (s : State) (f : Safe → Safe) : (setSafe s f).boot = s.boot := rfl
@[simp] theorem setSafe_power (s : State) (f : Safe → Safe) : (setSafe s f).power = s.power := rfl
@[simp] theorem setSafe_clock (s : State) (f : Safe → Safe) : (setSafe s f).clock = s.clock := rfl
@[simp] theorem setSafe_rtc (s : State) (f : Safe → Safe) : (setSafe s f).rtc = s.rtc := rfl
@[simp] theorem setSafe_cyc (s : State) (f : Safe → Safe) : (setSafe s f).cyc = s.cyc := rfl
@[simp] theorem setSafe_cle (s : State) (f : Safe → Safe) : (setSafe s f).cle = s.cle := rfl
@[simp] theorem setSafe_ecc (s : State) (f : Safe → Safe) : (setSafe s f).ecc = s.ecc := rfl
@[simp] theorem setSafe_memSys (s : State) (f : Safe → Safe) : (setSafe s f).memSys = s.memSys := rfl
@[simp] theorem setSafe_mmu (s : State) (f : Safe → Safe) : (setSafe s f).mmu = s.mmu := rfl
@[simp] theorem setSafe_dma (s : State) (f : Safe → Safe) : (setSafe s f).dma = s.dma := rfl
@[simp] theorem setSafe_cores (s : State) (f : Safe → Safe) : (setSafe s f).cores = s.cores := rfl
@[simp] theorem setSafe_prism (s : State) (f : Safe → Safe) : (setSafe s f).prism = s.prism := rfl
@[simp] theorem setSafe_mtr (s : State) (f : Safe → Safe) : (setSafe s f).mtr = s.mtr := rfl
@[simp] theorem setSafe_mxe (s : State) (f : Safe → Safe) : (setSafe s f).mxe = s.mxe := rfl
@[simp] theorem setSafe_rxe (s : State) (f : Safe → Safe) : (setSafe s f).rxe = s.rxe := rfl
@[simp] theorem setSafe_safe (s : State) (f : Safe → Safe) : (setSafe s f).safe = f s.safe := rfl
@[simp] theorem setSafe_mirror (s : State) (f : Safe → Safe) : (setSafe s f).mirror = s.mirror := rfl
@[simp] theorem setSafe_agl (s : State) (f : Safe → Safe) : (setSafe s f).agl = s.agl := rfl
@[simp] theorem setSafe_keys (s : State) (f : Safe → Safe) : (setSafe s f).keys = s.keys := rfl
@[simp] theorem setSafe_lantern (s : State) (f : Safe → Safe) : (setSafe s f).lantern = s.lantern := rfl
@[simp] theorem setSafe_eth (s : State) (f : Safe → Safe) : (setSafe s f).eth = s.eth := rfl
@[simp] theorem setSafe_can (s : State) (f : Safe → Safe) : (setSafe s f).can = s.can := rfl
@[simp] theorem setSafe_handed (s : State) (f : Safe → Safe) : (setSafe s f).handed = s.handed := rfl
@[simp] theorem setSafe_hostErr (s : State) (f : Safe → Safe) : (setSafe s f).hostErr = s.hostErr := rfl
@[simp] theorem setSafe_swWrites (s : State) (f : Safe → Safe) : (setSafe s f).swWrites = s.swWrites := rfl
@[simp] theorem setSafe_l1 (s : State) (f : Safe → Safe) : (setSafe s f).l1 = s.l1 := rfl
@[simp] theorem setSafe_dmaIssue (s : State) (f : Safe → Safe) : (setSafe s f).dmaIssue = s.dmaIssue := rfl
@[simp] theorem setSafe_rd (s : State) (f : Safe → Safe) (x : Nat) : rd (setSafe s f) x = rd s x := rfl
@[simp] theorem setSafe_rdn (s : State) (f : Safe → Safe) (x : Nat) : rdn (setSafe s f) x = rdn s x := rfl
@[simp] theorem setSafe_fld (s : State) (f : Safe → Safe) (x : Nat) (h : Field) : fld (setSafe s f) x h = fld s x h := rfl
@[simp] theorem setSafe_flag (s : State) (f : Safe → Safe) (x : Nat) (h : Field) : flag (setSafe s f) x h = flag s x h := rfl

/-! ### setKeys -/

@[simp] theorem setKeys_pending (s : State) (f : Keys → Keys) : (setKeys s f).pending = s.pending := rfl
@[simp] theorem setKeys_now (s : State) (f : Keys → Keys) : (setKeys s f).now = s.now := rfl
@[simp] theorem setKeys_free (s : State) (f : Keys → Keys) : (setKeys s f).free = s.free := rfl
@[simp] theorem setKeys_rdata (s : State) (f : Keys → Keys) : (setKeys s f).rdata = s.rdata := rfl
@[simp] theorem setKeys_regs (s : State) (f : Keys → Keys) : (setKeys s f).regs = s.regs := rfl
@[simp] theorem setKeys_mem (s : State) (f : Keys → Keys) : (setKeys s f).mem = s.mem := rfl
@[simp] theorem setKeys_cleRam (s : State) (f : Keys → Keys) : (setKeys s f).cleRam = s.cleRam := rfl
@[simp] theorem setKeys_canRam (s : State) (f : Keys → Keys) : (setKeys s f).canRam = s.canRam := rfl
@[simp] theorem setKeys_pkey (s : State) (f : Keys → Keys) : (setKeys s f).pkey = s.pkey := rfl
@[simp] theorem setKeys_sem (s : State) (f : Keys → Keys) : (setKeys s f).sem = s.sem := rfl
@[simp] theorem setKeys_arb (s : State) (f : Keys → Keys) : (setKeys s f).arb = s.arb := rfl
@[simp] theorem setKeys_start (s : State) (f : Keys → Keys) : (setKeys s f).start = s.start := rfl
@[simp] theorem setKeys_efuse (s : State) (f : Keys → Keys) : (setKeys s f).efuse = s.efuse := rfl
@[simp] theorem setKeys_boot (s : State) (f : Keys → Keys) : (setKeys s f).boot = s.boot := rfl
@[simp] theorem setKeys_power (s : State) (f : Keys → Keys) : (setKeys s f).power = s.power := rfl
@[simp] theorem setKeys_clock (s : State) (f : Keys → Keys) : (setKeys s f).clock = s.clock := rfl
@[simp] theorem setKeys_rtc (s : State) (f : Keys → Keys) : (setKeys s f).rtc = s.rtc := rfl
@[simp] theorem setKeys_cyc (s : State) (f : Keys → Keys) : (setKeys s f).cyc = s.cyc := rfl
@[simp] theorem setKeys_cle (s : State) (f : Keys → Keys) : (setKeys s f).cle = s.cle := rfl
@[simp] theorem setKeys_ecc (s : State) (f : Keys → Keys) : (setKeys s f).ecc = s.ecc := rfl
@[simp] theorem setKeys_memSys (s : State) (f : Keys → Keys) : (setKeys s f).memSys = s.memSys := rfl
@[simp] theorem setKeys_mmu (s : State) (f : Keys → Keys) : (setKeys s f).mmu = s.mmu := rfl
@[simp] theorem setKeys_dma (s : State) (f : Keys → Keys) : (setKeys s f).dma = s.dma := rfl
@[simp] theorem setKeys_cores (s : State) (f : Keys → Keys) : (setKeys s f).cores = s.cores := rfl
@[simp] theorem setKeys_prism (s : State) (f : Keys → Keys) : (setKeys s f).prism = s.prism := rfl
@[simp] theorem setKeys_mtr (s : State) (f : Keys → Keys) : (setKeys s f).mtr = s.mtr := rfl
@[simp] theorem setKeys_mxe (s : State) (f : Keys → Keys) : (setKeys s f).mxe = s.mxe := rfl
@[simp] theorem setKeys_rxe (s : State) (f : Keys → Keys) : (setKeys s f).rxe = s.rxe := rfl
@[simp] theorem setKeys_safe (s : State) (f : Keys → Keys) : (setKeys s f).safe = s.safe := rfl
@[simp] theorem setKeys_mirror (s : State) (f : Keys → Keys) : (setKeys s f).mirror = s.mirror := rfl
@[simp] theorem setKeys_agl (s : State) (f : Keys → Keys) : (setKeys s f).agl = s.agl := rfl
@[simp] theorem setKeys_keys (s : State) (f : Keys → Keys) : (setKeys s f).keys = f s.keys := rfl
@[simp] theorem setKeys_lantern (s : State) (f : Keys → Keys) : (setKeys s f).lantern = s.lantern := rfl
@[simp] theorem setKeys_eth (s : State) (f : Keys → Keys) : (setKeys s f).eth = s.eth := rfl
@[simp] theorem setKeys_can (s : State) (f : Keys → Keys) : (setKeys s f).can = s.can := rfl
@[simp] theorem setKeys_handed (s : State) (f : Keys → Keys) : (setKeys s f).handed = s.handed := rfl
@[simp] theorem setKeys_hostErr (s : State) (f : Keys → Keys) : (setKeys s f).hostErr = s.hostErr := rfl
@[simp] theorem setKeys_swWrites (s : State) (f : Keys → Keys) : (setKeys s f).swWrites = s.swWrites := rfl
@[simp] theorem setKeys_l1 (s : State) (f : Keys → Keys) : (setKeys s f).l1 = s.l1 := rfl
@[simp] theorem setKeys_dmaIssue (s : State) (f : Keys → Keys) : (setKeys s f).dmaIssue = s.dmaIssue := rfl
@[simp] theorem setKeys_rd (s : State) (f : Keys → Keys) (x : Nat) : rd (setKeys s f) x = rd s x := rfl
@[simp] theorem setKeys_rdn (s : State) (f : Keys → Keys) (x : Nat) : rdn (setKeys s f) x = rdn s x := rfl
@[simp] theorem setKeys_fld (s : State) (f : Keys → Keys) (x : Nat) (h : Field) : fld (setKeys s f) x h = fld s x h := rfl
@[simp] theorem setKeys_flag (s : State) (f : Keys → Keys) (x : Nat) (h : Field) : flag (setKeys s f) x h = flag s x h := rfl

/-! ### setMem -/

@[simp] theorem setMem_pending (s : State) (f : MemSys → MemSys) : (setMem s f).pending = s.pending := rfl
@[simp] theorem setMem_now (s : State) (f : MemSys → MemSys) : (setMem s f).now = s.now := rfl
@[simp] theorem setMem_free (s : State) (f : MemSys → MemSys) : (setMem s f).free = s.free := rfl
@[simp] theorem setMem_rdata (s : State) (f : MemSys → MemSys) : (setMem s f).rdata = s.rdata := rfl
@[simp] theorem setMem_regs (s : State) (f : MemSys → MemSys) : (setMem s f).regs = s.regs := rfl
@[simp] theorem setMem_mem (s : State) (f : MemSys → MemSys) : (setMem s f).mem = s.mem := rfl
@[simp] theorem setMem_cleRam (s : State) (f : MemSys → MemSys) : (setMem s f).cleRam = s.cleRam := rfl
@[simp] theorem setMem_canRam (s : State) (f : MemSys → MemSys) : (setMem s f).canRam = s.canRam := rfl
@[simp] theorem setMem_pkey (s : State) (f : MemSys → MemSys) : (setMem s f).pkey = s.pkey := rfl
@[simp] theorem setMem_sem (s : State) (f : MemSys → MemSys) : (setMem s f).sem = s.sem := rfl
@[simp] theorem setMem_arb (s : State) (f : MemSys → MemSys) : (setMem s f).arb = s.arb := rfl
@[simp] theorem setMem_start (s : State) (f : MemSys → MemSys) : (setMem s f).start = s.start := rfl
@[simp] theorem setMem_efuse (s : State) (f : MemSys → MemSys) : (setMem s f).efuse = s.efuse := rfl
@[simp] theorem setMem_boot (s : State) (f : MemSys → MemSys) : (setMem s f).boot = s.boot := rfl
@[simp] theorem setMem_power (s : State) (f : MemSys → MemSys) : (setMem s f).power = s.power := rfl
@[simp] theorem setMem_clock (s : State) (f : MemSys → MemSys) : (setMem s f).clock = s.clock := rfl
@[simp] theorem setMem_rtc (s : State) (f : MemSys → MemSys) : (setMem s f).rtc = s.rtc := rfl
@[simp] theorem setMem_cyc (s : State) (f : MemSys → MemSys) : (setMem s f).cyc = s.cyc := rfl
@[simp] theorem setMem_cle (s : State) (f : MemSys → MemSys) : (setMem s f).cle = s.cle := rfl
@[simp] theorem setMem_ecc (s : State) (f : MemSys → MemSys) : (setMem s f).ecc = s.ecc := rfl
@[simp] theorem setMem_memSys (s : State) (f : MemSys → MemSys) : (setMem s f).memSys = f s.memSys := rfl
@[simp] theorem setMem_mmu (s : State) (f : MemSys → MemSys) : (setMem s f).mmu = s.mmu := rfl
@[simp] theorem setMem_dma (s : State) (f : MemSys → MemSys) : (setMem s f).dma = s.dma := rfl
@[simp] theorem setMem_cores (s : State) (f : MemSys → MemSys) : (setMem s f).cores = s.cores := rfl
@[simp] theorem setMem_prism (s : State) (f : MemSys → MemSys) : (setMem s f).prism = s.prism := rfl
@[simp] theorem setMem_mtr (s : State) (f : MemSys → MemSys) : (setMem s f).mtr = s.mtr := rfl
@[simp] theorem setMem_mxe (s : State) (f : MemSys → MemSys) : (setMem s f).mxe = s.mxe := rfl
@[simp] theorem setMem_rxe (s : State) (f : MemSys → MemSys) : (setMem s f).rxe = s.rxe := rfl
@[simp] theorem setMem_safe (s : State) (f : MemSys → MemSys) : (setMem s f).safe = s.safe := rfl
@[simp] theorem setMem_mirror (s : State) (f : MemSys → MemSys) : (setMem s f).mirror = s.mirror := rfl
@[simp] theorem setMem_agl (s : State) (f : MemSys → MemSys) : (setMem s f).agl = s.agl := rfl
@[simp] theorem setMem_keys (s : State) (f : MemSys → MemSys) : (setMem s f).keys = s.keys := rfl
@[simp] theorem setMem_lantern (s : State) (f : MemSys → MemSys) : (setMem s f).lantern = s.lantern := rfl
@[simp] theorem setMem_eth (s : State) (f : MemSys → MemSys) : (setMem s f).eth = s.eth := rfl
@[simp] theorem setMem_can (s : State) (f : MemSys → MemSys) : (setMem s f).can = s.can := rfl
@[simp] theorem setMem_handed (s : State) (f : MemSys → MemSys) : (setMem s f).handed = s.handed := rfl
@[simp] theorem setMem_hostErr (s : State) (f : MemSys → MemSys) : (setMem s f).hostErr = s.hostErr := rfl
@[simp] theorem setMem_swWrites (s : State) (f : MemSys → MemSys) : (setMem s f).swWrites = s.swWrites := rfl
@[simp] theorem setMem_l1 (s : State) (f : MemSys → MemSys) : (setMem s f).l1 = s.l1 := rfl
@[simp] theorem setMem_dmaIssue (s : State) (f : MemSys → MemSys) : (setMem s f).dmaIssue = s.dmaIssue := rfl
@[simp] theorem setMem_rd (s : State) (f : MemSys → MemSys) (x : Nat) : rd (setMem s f) x = rd s x := rfl
@[simp] theorem setMem_rdn (s : State) (f : MemSys → MemSys) (x : Nat) : rdn (setMem s f) x = rdn s x := rfl
@[simp] theorem setMem_fld (s : State) (f : MemSys → MemSys) (x : Nat) (h : Field) : fld (setMem s f) x h = fld s x h := rfl
@[simp] theorem setMem_flag (s : State) (f : MemSys → MemSys) (x : Nat) (h : Field) : flag (setMem s f) x h = flag s x h := rfl

/-! ### setMmu -/

@[simp] theorem setMmu_pending (s : State) (f : Mmu → Mmu) : (setMmu s f).pending = s.pending := rfl
@[simp] theorem setMmu_now (s : State) (f : Mmu → Mmu) : (setMmu s f).now = s.now := rfl
@[simp] theorem setMmu_free (s : State) (f : Mmu → Mmu) : (setMmu s f).free = s.free := rfl
@[simp] theorem setMmu_rdata (s : State) (f : Mmu → Mmu) : (setMmu s f).rdata = s.rdata := rfl
@[simp] theorem setMmu_regs (s : State) (f : Mmu → Mmu) : (setMmu s f).regs = s.regs := rfl
@[simp] theorem setMmu_mem (s : State) (f : Mmu → Mmu) : (setMmu s f).mem = s.mem := rfl
@[simp] theorem setMmu_cleRam (s : State) (f : Mmu → Mmu) : (setMmu s f).cleRam = s.cleRam := rfl
@[simp] theorem setMmu_canRam (s : State) (f : Mmu → Mmu) : (setMmu s f).canRam = s.canRam := rfl
@[simp] theorem setMmu_pkey (s : State) (f : Mmu → Mmu) : (setMmu s f).pkey = s.pkey := rfl
@[simp] theorem setMmu_sem (s : State) (f : Mmu → Mmu) : (setMmu s f).sem = s.sem := rfl
@[simp] theorem setMmu_arb (s : State) (f : Mmu → Mmu) : (setMmu s f).arb = s.arb := rfl
@[simp] theorem setMmu_start (s : State) (f : Mmu → Mmu) : (setMmu s f).start = s.start := rfl
@[simp] theorem setMmu_efuse (s : State) (f : Mmu → Mmu) : (setMmu s f).efuse = s.efuse := rfl
@[simp] theorem setMmu_boot (s : State) (f : Mmu → Mmu) : (setMmu s f).boot = s.boot := rfl
@[simp] theorem setMmu_power (s : State) (f : Mmu → Mmu) : (setMmu s f).power = s.power := rfl
@[simp] theorem setMmu_clock (s : State) (f : Mmu → Mmu) : (setMmu s f).clock = s.clock := rfl
@[simp] theorem setMmu_rtc (s : State) (f : Mmu → Mmu) : (setMmu s f).rtc = s.rtc := rfl
@[simp] theorem setMmu_cyc (s : State) (f : Mmu → Mmu) : (setMmu s f).cyc = s.cyc := rfl
@[simp] theorem setMmu_cle (s : State) (f : Mmu → Mmu) : (setMmu s f).cle = s.cle := rfl
@[simp] theorem setMmu_ecc (s : State) (f : Mmu → Mmu) : (setMmu s f).ecc = s.ecc := rfl
@[simp] theorem setMmu_memSys (s : State) (f : Mmu → Mmu) : (setMmu s f).memSys = s.memSys := rfl
@[simp] theorem setMmu_mmu (s : State) (f : Mmu → Mmu) : (setMmu s f).mmu = f s.mmu := rfl
@[simp] theorem setMmu_dma (s : State) (f : Mmu → Mmu) : (setMmu s f).dma = s.dma := rfl
@[simp] theorem setMmu_cores (s : State) (f : Mmu → Mmu) : (setMmu s f).cores = s.cores := rfl
@[simp] theorem setMmu_prism (s : State) (f : Mmu → Mmu) : (setMmu s f).prism = s.prism := rfl
@[simp] theorem setMmu_mtr (s : State) (f : Mmu → Mmu) : (setMmu s f).mtr = s.mtr := rfl
@[simp] theorem setMmu_mxe (s : State) (f : Mmu → Mmu) : (setMmu s f).mxe = s.mxe := rfl
@[simp] theorem setMmu_rxe (s : State) (f : Mmu → Mmu) : (setMmu s f).rxe = s.rxe := rfl
@[simp] theorem setMmu_safe (s : State) (f : Mmu → Mmu) : (setMmu s f).safe = s.safe := rfl
@[simp] theorem setMmu_mirror (s : State) (f : Mmu → Mmu) : (setMmu s f).mirror = s.mirror := rfl
@[simp] theorem setMmu_agl (s : State) (f : Mmu → Mmu) : (setMmu s f).agl = s.agl := rfl
@[simp] theorem setMmu_keys (s : State) (f : Mmu → Mmu) : (setMmu s f).keys = s.keys := rfl
@[simp] theorem setMmu_lantern (s : State) (f : Mmu → Mmu) : (setMmu s f).lantern = s.lantern := rfl
@[simp] theorem setMmu_eth (s : State) (f : Mmu → Mmu) : (setMmu s f).eth = s.eth := rfl
@[simp] theorem setMmu_can (s : State) (f : Mmu → Mmu) : (setMmu s f).can = s.can := rfl
@[simp] theorem setMmu_handed (s : State) (f : Mmu → Mmu) : (setMmu s f).handed = s.handed := rfl
@[simp] theorem setMmu_hostErr (s : State) (f : Mmu → Mmu) : (setMmu s f).hostErr = s.hostErr := rfl
@[simp] theorem setMmu_swWrites (s : State) (f : Mmu → Mmu) : (setMmu s f).swWrites = s.swWrites := rfl
@[simp] theorem setMmu_l1 (s : State) (f : Mmu → Mmu) : (setMmu s f).l1 = s.l1 := rfl
@[simp] theorem setMmu_dmaIssue (s : State) (f : Mmu → Mmu) : (setMmu s f).dmaIssue = s.dmaIssue := rfl
@[simp] theorem setMmu_rd (s : State) (f : Mmu → Mmu) (x : Nat) : rd (setMmu s f) x = rd s x := rfl
@[simp] theorem setMmu_rdn (s : State) (f : Mmu → Mmu) (x : Nat) : rdn (setMmu s f) x = rdn s x := rfl
@[simp] theorem setMmu_fld (s : State) (f : Mmu → Mmu) (x : Nat) (h : Field) : fld (setMmu s f) x h = fld s x h := rfl
@[simp] theorem setMmu_flag (s : State) (f : Mmu → Mmu) (x : Nat) (h : Field) : flag (setMmu s f) x h = flag s x h := rfl

/-! ### setMtr -/

@[simp] theorem setMtr_pending (s : State) (f : Mtr → Mtr) : (setMtr s f).pending = s.pending := rfl
@[simp] theorem setMtr_now (s : State) (f : Mtr → Mtr) : (setMtr s f).now = s.now := rfl
@[simp] theorem setMtr_free (s : State) (f : Mtr → Mtr) : (setMtr s f).free = s.free := rfl
@[simp] theorem setMtr_rdata (s : State) (f : Mtr → Mtr) : (setMtr s f).rdata = s.rdata := rfl
@[simp] theorem setMtr_regs (s : State) (f : Mtr → Mtr) : (setMtr s f).regs = s.regs := rfl
@[simp] theorem setMtr_mem (s : State) (f : Mtr → Mtr) : (setMtr s f).mem = s.mem := rfl
@[simp] theorem setMtr_cleRam (s : State) (f : Mtr → Mtr) : (setMtr s f).cleRam = s.cleRam := rfl
@[simp] theorem setMtr_canRam (s : State) (f : Mtr → Mtr) : (setMtr s f).canRam = s.canRam := rfl
@[simp] theorem setMtr_pkey (s : State) (f : Mtr → Mtr) : (setMtr s f).pkey = s.pkey := rfl
@[simp] theorem setMtr_sem (s : State) (f : Mtr → Mtr) : (setMtr s f).sem = s.sem := rfl
@[simp] theorem setMtr_arb (s : State) (f : Mtr → Mtr) : (setMtr s f).arb = s.arb := rfl
@[simp] theorem setMtr_start (s : State) (f : Mtr → Mtr) : (setMtr s f).start = s.start := rfl
@[simp] theorem setMtr_efuse (s : State) (f : Mtr → Mtr) : (setMtr s f).efuse = s.efuse := rfl
@[simp] theorem setMtr_boot (s : State) (f : Mtr → Mtr) : (setMtr s f).boot = s.boot := rfl
@[simp] theorem setMtr_power (s : State) (f : Mtr → Mtr) : (setMtr s f).power = s.power := rfl
@[simp] theorem setMtr_clock (s : State) (f : Mtr → Mtr) : (setMtr s f).clock = s.clock := rfl
@[simp] theorem setMtr_rtc (s : State) (f : Mtr → Mtr) : (setMtr s f).rtc = s.rtc := rfl
@[simp] theorem setMtr_cyc (s : State) (f : Mtr → Mtr) : (setMtr s f).cyc = s.cyc := rfl
@[simp] theorem setMtr_cle (s : State) (f : Mtr → Mtr) : (setMtr s f).cle = s.cle := rfl
@[simp] theorem setMtr_ecc (s : State) (f : Mtr → Mtr) : (setMtr s f).ecc = s.ecc := rfl
@[simp] theorem setMtr_memSys (s : State) (f : Mtr → Mtr) : (setMtr s f).memSys = s.memSys := rfl
@[simp] theorem setMtr_mmu (s : State) (f : Mtr → Mtr) : (setMtr s f).mmu = s.mmu := rfl
@[simp] theorem setMtr_dma (s : State) (f : Mtr → Mtr) : (setMtr s f).dma = s.dma := rfl
@[simp] theorem setMtr_cores (s : State) (f : Mtr → Mtr) : (setMtr s f).cores = s.cores := rfl
@[simp] theorem setMtr_prism (s : State) (f : Mtr → Mtr) : (setMtr s f).prism = s.prism := rfl
@[simp] theorem setMtr_mtr (s : State) (f : Mtr → Mtr) : (setMtr s f).mtr = f s.mtr := rfl
@[simp] theorem setMtr_mxe (s : State) (f : Mtr → Mtr) : (setMtr s f).mxe = s.mxe := rfl
@[simp] theorem setMtr_rxe (s : State) (f : Mtr → Mtr) : (setMtr s f).rxe = s.rxe := rfl
@[simp] theorem setMtr_safe (s : State) (f : Mtr → Mtr) : (setMtr s f).safe = s.safe := rfl
@[simp] theorem setMtr_mirror (s : State) (f : Mtr → Mtr) : (setMtr s f).mirror = s.mirror := rfl
@[simp] theorem setMtr_agl (s : State) (f : Mtr → Mtr) : (setMtr s f).agl = s.agl := rfl
@[simp] theorem setMtr_keys (s : State) (f : Mtr → Mtr) : (setMtr s f).keys = s.keys := rfl
@[simp] theorem setMtr_lantern (s : State) (f : Mtr → Mtr) : (setMtr s f).lantern = s.lantern := rfl
@[simp] theorem setMtr_eth (s : State) (f : Mtr → Mtr) : (setMtr s f).eth = s.eth := rfl
@[simp] theorem setMtr_can (s : State) (f : Mtr → Mtr) : (setMtr s f).can = s.can := rfl
@[simp] theorem setMtr_handed (s : State) (f : Mtr → Mtr) : (setMtr s f).handed = s.handed := rfl
@[simp] theorem setMtr_hostErr (s : State) (f : Mtr → Mtr) : (setMtr s f).hostErr = s.hostErr := rfl
@[simp] theorem setMtr_swWrites (s : State) (f : Mtr → Mtr) : (setMtr s f).swWrites = s.swWrites := rfl
@[simp] theorem setMtr_l1 (s : State) (f : Mtr → Mtr) : (setMtr s f).l1 = s.l1 := rfl
@[simp] theorem setMtr_dmaIssue (s : State) (f : Mtr → Mtr) : (setMtr s f).dmaIssue = s.dmaIssue := rfl
@[simp] theorem setMtr_rd (s : State) (f : Mtr → Mtr) (x : Nat) : rd (setMtr s f) x = rd s x := rfl
@[simp] theorem setMtr_rdn (s : State) (f : Mtr → Mtr) (x : Nat) : rdn (setMtr s f) x = rdn s x := rfl
@[simp] theorem setMtr_fld (s : State) (f : Mtr → Mtr) (x : Nat) (h : Field) : fld (setMtr s f) x h = fld s x h := rfl
@[simp] theorem setMtr_flag (s : State) (f : Mtr → Mtr) (x : Nat) (h : Field) : flag (setMtr s f) x h = flag s x h := rfl

/-! ### setMxe -/

@[simp] theorem setMxe_pending (s : State) (f : Mxe → Mxe) : (setMxe s f).pending = s.pending := rfl
@[simp] theorem setMxe_now (s : State) (f : Mxe → Mxe) : (setMxe s f).now = s.now := rfl
@[simp] theorem setMxe_free (s : State) (f : Mxe → Mxe) : (setMxe s f).free = s.free := rfl
@[simp] theorem setMxe_rdata (s : State) (f : Mxe → Mxe) : (setMxe s f).rdata = s.rdata := rfl
@[simp] theorem setMxe_regs (s : State) (f : Mxe → Mxe) : (setMxe s f).regs = s.regs := rfl
@[simp] theorem setMxe_mem (s : State) (f : Mxe → Mxe) : (setMxe s f).mem = s.mem := rfl
@[simp] theorem setMxe_cleRam (s : State) (f : Mxe → Mxe) : (setMxe s f).cleRam = s.cleRam := rfl
@[simp] theorem setMxe_canRam (s : State) (f : Mxe → Mxe) : (setMxe s f).canRam = s.canRam := rfl
@[simp] theorem setMxe_pkey (s : State) (f : Mxe → Mxe) : (setMxe s f).pkey = s.pkey := rfl
@[simp] theorem setMxe_sem (s : State) (f : Mxe → Mxe) : (setMxe s f).sem = s.sem := rfl
@[simp] theorem setMxe_arb (s : State) (f : Mxe → Mxe) : (setMxe s f).arb = s.arb := rfl
@[simp] theorem setMxe_start (s : State) (f : Mxe → Mxe) : (setMxe s f).start = s.start := rfl
@[simp] theorem setMxe_efuse (s : State) (f : Mxe → Mxe) : (setMxe s f).efuse = s.efuse := rfl
@[simp] theorem setMxe_boot (s : State) (f : Mxe → Mxe) : (setMxe s f).boot = s.boot := rfl
@[simp] theorem setMxe_power (s : State) (f : Mxe → Mxe) : (setMxe s f).power = s.power := rfl
@[simp] theorem setMxe_clock (s : State) (f : Mxe → Mxe) : (setMxe s f).clock = s.clock := rfl
@[simp] theorem setMxe_rtc (s : State) (f : Mxe → Mxe) : (setMxe s f).rtc = s.rtc := rfl
@[simp] theorem setMxe_cyc (s : State) (f : Mxe → Mxe) : (setMxe s f).cyc = s.cyc := rfl
@[simp] theorem setMxe_cle (s : State) (f : Mxe → Mxe) : (setMxe s f).cle = s.cle := rfl
@[simp] theorem setMxe_ecc (s : State) (f : Mxe → Mxe) : (setMxe s f).ecc = s.ecc := rfl
@[simp] theorem setMxe_memSys (s : State) (f : Mxe → Mxe) : (setMxe s f).memSys = s.memSys := rfl
@[simp] theorem setMxe_mmu (s : State) (f : Mxe → Mxe) : (setMxe s f).mmu = s.mmu := rfl
@[simp] theorem setMxe_dma (s : State) (f : Mxe → Mxe) : (setMxe s f).dma = s.dma := rfl
@[simp] theorem setMxe_cores (s : State) (f : Mxe → Mxe) : (setMxe s f).cores = s.cores := rfl
@[simp] theorem setMxe_prism (s : State) (f : Mxe → Mxe) : (setMxe s f).prism = s.prism := rfl
@[simp] theorem setMxe_mtr (s : State) (f : Mxe → Mxe) : (setMxe s f).mtr = s.mtr := rfl
@[simp] theorem setMxe_mxe (s : State) (f : Mxe → Mxe) : (setMxe s f).mxe = f s.mxe := rfl
@[simp] theorem setMxe_rxe (s : State) (f : Mxe → Mxe) : (setMxe s f).rxe = s.rxe := rfl
@[simp] theorem setMxe_safe (s : State) (f : Mxe → Mxe) : (setMxe s f).safe = s.safe := rfl
@[simp] theorem setMxe_mirror (s : State) (f : Mxe → Mxe) : (setMxe s f).mirror = s.mirror := rfl
@[simp] theorem setMxe_agl (s : State) (f : Mxe → Mxe) : (setMxe s f).agl = s.agl := rfl
@[simp] theorem setMxe_keys (s : State) (f : Mxe → Mxe) : (setMxe s f).keys = s.keys := rfl
@[simp] theorem setMxe_lantern (s : State) (f : Mxe → Mxe) : (setMxe s f).lantern = s.lantern := rfl
@[simp] theorem setMxe_eth (s : State) (f : Mxe → Mxe) : (setMxe s f).eth = s.eth := rfl
@[simp] theorem setMxe_can (s : State) (f : Mxe → Mxe) : (setMxe s f).can = s.can := rfl
@[simp] theorem setMxe_handed (s : State) (f : Mxe → Mxe) : (setMxe s f).handed = s.handed := rfl
@[simp] theorem setMxe_hostErr (s : State) (f : Mxe → Mxe) : (setMxe s f).hostErr = s.hostErr := rfl
@[simp] theorem setMxe_swWrites (s : State) (f : Mxe → Mxe) : (setMxe s f).swWrites = s.swWrites := rfl
@[simp] theorem setMxe_l1 (s : State) (f : Mxe → Mxe) : (setMxe s f).l1 = s.l1 := rfl
@[simp] theorem setMxe_dmaIssue (s : State) (f : Mxe → Mxe) : (setMxe s f).dmaIssue = s.dmaIssue := rfl
@[simp] theorem setMxe_rd (s : State) (f : Mxe → Mxe) (x : Nat) : rd (setMxe s f) x = rd s x := rfl
@[simp] theorem setMxe_rdn (s : State) (f : Mxe → Mxe) (x : Nat) : rdn (setMxe s f) x = rdn s x := rfl
@[simp] theorem setMxe_fld (s : State) (f : Mxe → Mxe) (x : Nat) (h : Field) : fld (setMxe s f) x h = fld s x h := rfl
@[simp] theorem setMxe_flag (s : State) (f : Mxe → Mxe) (x : Nat) (h : Field) : flag (setMxe s f) x h = flag s x h := rfl

/-! ### setLantern -/

@[simp] theorem setLantern_pending (s : State) (f : Lantern → Lantern) : (setLantern s f).pending = s.pending := rfl
@[simp] theorem setLantern_now (s : State) (f : Lantern → Lantern) : (setLantern s f).now = s.now := rfl
@[simp] theorem setLantern_free (s : State) (f : Lantern → Lantern) : (setLantern s f).free = s.free := rfl
@[simp] theorem setLantern_rdata (s : State) (f : Lantern → Lantern) : (setLantern s f).rdata = s.rdata := rfl
@[simp] theorem setLantern_regs (s : State) (f : Lantern → Lantern) : (setLantern s f).regs = s.regs := rfl
@[simp] theorem setLantern_mem (s : State) (f : Lantern → Lantern) : (setLantern s f).mem = s.mem := rfl
@[simp] theorem setLantern_cleRam (s : State) (f : Lantern → Lantern) : (setLantern s f).cleRam = s.cleRam := rfl
@[simp] theorem setLantern_canRam (s : State) (f : Lantern → Lantern) : (setLantern s f).canRam = s.canRam := rfl
@[simp] theorem setLantern_pkey (s : State) (f : Lantern → Lantern) : (setLantern s f).pkey = s.pkey := rfl
@[simp] theorem setLantern_sem (s : State) (f : Lantern → Lantern) : (setLantern s f).sem = s.sem := rfl
@[simp] theorem setLantern_arb (s : State) (f : Lantern → Lantern) : (setLantern s f).arb = s.arb := rfl
@[simp] theorem setLantern_start (s : State) (f : Lantern → Lantern) : (setLantern s f).start = s.start := rfl
@[simp] theorem setLantern_efuse (s : State) (f : Lantern → Lantern) : (setLantern s f).efuse = s.efuse := rfl
@[simp] theorem setLantern_boot (s : State) (f : Lantern → Lantern) : (setLantern s f).boot = s.boot := rfl
@[simp] theorem setLantern_power (s : State) (f : Lantern → Lantern) : (setLantern s f).power = s.power := rfl
@[simp] theorem setLantern_clock (s : State) (f : Lantern → Lantern) : (setLantern s f).clock = s.clock := rfl
@[simp] theorem setLantern_rtc (s : State) (f : Lantern → Lantern) : (setLantern s f).rtc = s.rtc := rfl
@[simp] theorem setLantern_cyc (s : State) (f : Lantern → Lantern) : (setLantern s f).cyc = s.cyc := rfl
@[simp] theorem setLantern_cle (s : State) (f : Lantern → Lantern) : (setLantern s f).cle = s.cle := rfl
@[simp] theorem setLantern_ecc (s : State) (f : Lantern → Lantern) : (setLantern s f).ecc = s.ecc := rfl
@[simp] theorem setLantern_memSys (s : State) (f : Lantern → Lantern) : (setLantern s f).memSys = s.memSys := rfl
@[simp] theorem setLantern_mmu (s : State) (f : Lantern → Lantern) : (setLantern s f).mmu = s.mmu := rfl
@[simp] theorem setLantern_dma (s : State) (f : Lantern → Lantern) : (setLantern s f).dma = s.dma := rfl
@[simp] theorem setLantern_cores (s : State) (f : Lantern → Lantern) : (setLantern s f).cores = s.cores := rfl
@[simp] theorem setLantern_prism (s : State) (f : Lantern → Lantern) : (setLantern s f).prism = s.prism := rfl
@[simp] theorem setLantern_mtr (s : State) (f : Lantern → Lantern) : (setLantern s f).mtr = s.mtr := rfl
@[simp] theorem setLantern_mxe (s : State) (f : Lantern → Lantern) : (setLantern s f).mxe = s.mxe := rfl
@[simp] theorem setLantern_rxe (s : State) (f : Lantern → Lantern) : (setLantern s f).rxe = s.rxe := rfl
@[simp] theorem setLantern_safe (s : State) (f : Lantern → Lantern) : (setLantern s f).safe = s.safe := rfl
@[simp] theorem setLantern_mirror (s : State) (f : Lantern → Lantern) : (setLantern s f).mirror = s.mirror := rfl
@[simp] theorem setLantern_agl (s : State) (f : Lantern → Lantern) : (setLantern s f).agl = s.agl := rfl
@[simp] theorem setLantern_keys (s : State) (f : Lantern → Lantern) : (setLantern s f).keys = s.keys := rfl
@[simp] theorem setLantern_lantern (s : State) (f : Lantern → Lantern) : (setLantern s f).lantern = f s.lantern := rfl
@[simp] theorem setLantern_eth (s : State) (f : Lantern → Lantern) : (setLantern s f).eth = s.eth := rfl
@[simp] theorem setLantern_can (s : State) (f : Lantern → Lantern) : (setLantern s f).can = s.can := rfl
@[simp] theorem setLantern_handed (s : State) (f : Lantern → Lantern) : (setLantern s f).handed = s.handed := rfl
@[simp] theorem setLantern_hostErr (s : State) (f : Lantern → Lantern) : (setLantern s f).hostErr = s.hostErr := rfl
@[simp] theorem setLantern_swWrites (s : State) (f : Lantern → Lantern) : (setLantern s f).swWrites = s.swWrites := rfl
@[simp] theorem setLantern_l1 (s : State) (f : Lantern → Lantern) : (setLantern s f).l1 = s.l1 := rfl
@[simp] theorem setLantern_dmaIssue (s : State) (f : Lantern → Lantern) : (setLantern s f).dmaIssue = s.dmaIssue := rfl
@[simp] theorem setLantern_rd (s : State) (f : Lantern → Lantern) (x : Nat) : rd (setLantern s f) x = rd s x := rfl
@[simp] theorem setLantern_rdn (s : State) (f : Lantern → Lantern) (x : Nat) : rdn (setLantern s f) x = rdn s x := rfl
@[simp] theorem setLantern_fld (s : State) (f : Lantern → Lantern) (x : Nat) (h : Field) : fld (setLantern s f) x h = fld s x h := rfl
@[simp] theorem setLantern_flag (s : State) (f : Lantern → Lantern) (x : Nat) (h : Field) : flag (setLantern s f) x h = flag s x h := rfl

/-! ### setEth -/

@[simp] theorem setEth_pending (s : State) (f : Eth → Eth) : (setEth s f).pending = s.pending := rfl
@[simp] theorem setEth_now (s : State) (f : Eth → Eth) : (setEth s f).now = s.now := rfl
@[simp] theorem setEth_free (s : State) (f : Eth → Eth) : (setEth s f).free = s.free := rfl
@[simp] theorem setEth_rdata (s : State) (f : Eth → Eth) : (setEth s f).rdata = s.rdata := rfl
@[simp] theorem setEth_regs (s : State) (f : Eth → Eth) : (setEth s f).regs = s.regs := rfl
@[simp] theorem setEth_mem (s : State) (f : Eth → Eth) : (setEth s f).mem = s.mem := rfl
@[simp] theorem setEth_cleRam (s : State) (f : Eth → Eth) : (setEth s f).cleRam = s.cleRam := rfl
@[simp] theorem setEth_canRam (s : State) (f : Eth → Eth) : (setEth s f).canRam = s.canRam := rfl
@[simp] theorem setEth_pkey (s : State) (f : Eth → Eth) : (setEth s f).pkey = s.pkey := rfl
@[simp] theorem setEth_sem (s : State) (f : Eth → Eth) : (setEth s f).sem = s.sem := rfl
@[simp] theorem setEth_arb (s : State) (f : Eth → Eth) : (setEth s f).arb = s.arb := rfl
@[simp] theorem setEth_start (s : State) (f : Eth → Eth) : (setEth s f).start = s.start := rfl
@[simp] theorem setEth_efuse (s : State) (f : Eth → Eth) : (setEth s f).efuse = s.efuse := rfl
@[simp] theorem setEth_boot (s : State) (f : Eth → Eth) : (setEth s f).boot = s.boot := rfl
@[simp] theorem setEth_power (s : State) (f : Eth → Eth) : (setEth s f).power = s.power := rfl
@[simp] theorem setEth_clock (s : State) (f : Eth → Eth) : (setEth s f).clock = s.clock := rfl
@[simp] theorem setEth_rtc (s : State) (f : Eth → Eth) : (setEth s f).rtc = s.rtc := rfl
@[simp] theorem setEth_cyc (s : State) (f : Eth → Eth) : (setEth s f).cyc = s.cyc := rfl
@[simp] theorem setEth_cle (s : State) (f : Eth → Eth) : (setEth s f).cle = s.cle := rfl
@[simp] theorem setEth_ecc (s : State) (f : Eth → Eth) : (setEth s f).ecc = s.ecc := rfl
@[simp] theorem setEth_memSys (s : State) (f : Eth → Eth) : (setEth s f).memSys = s.memSys := rfl
@[simp] theorem setEth_mmu (s : State) (f : Eth → Eth) : (setEth s f).mmu = s.mmu := rfl
@[simp] theorem setEth_dma (s : State) (f : Eth → Eth) : (setEth s f).dma = s.dma := rfl
@[simp] theorem setEth_cores (s : State) (f : Eth → Eth) : (setEth s f).cores = s.cores := rfl
@[simp] theorem setEth_prism (s : State) (f : Eth → Eth) : (setEth s f).prism = s.prism := rfl
@[simp] theorem setEth_mtr (s : State) (f : Eth → Eth) : (setEth s f).mtr = s.mtr := rfl
@[simp] theorem setEth_mxe (s : State) (f : Eth → Eth) : (setEth s f).mxe = s.mxe := rfl
@[simp] theorem setEth_rxe (s : State) (f : Eth → Eth) : (setEth s f).rxe = s.rxe := rfl
@[simp] theorem setEth_safe (s : State) (f : Eth → Eth) : (setEth s f).safe = s.safe := rfl
@[simp] theorem setEth_mirror (s : State) (f : Eth → Eth) : (setEth s f).mirror = s.mirror := rfl
@[simp] theorem setEth_agl (s : State) (f : Eth → Eth) : (setEth s f).agl = s.agl := rfl
@[simp] theorem setEth_keys (s : State) (f : Eth → Eth) : (setEth s f).keys = s.keys := rfl
@[simp] theorem setEth_lantern (s : State) (f : Eth → Eth) : (setEth s f).lantern = s.lantern := rfl
@[simp] theorem setEth_eth (s : State) (f : Eth → Eth) : (setEth s f).eth = f s.eth := rfl
@[simp] theorem setEth_can (s : State) (f : Eth → Eth) : (setEth s f).can = s.can := rfl
@[simp] theorem setEth_handed (s : State) (f : Eth → Eth) : (setEth s f).handed = s.handed := rfl
@[simp] theorem setEth_hostErr (s : State) (f : Eth → Eth) : (setEth s f).hostErr = s.hostErr := rfl
@[simp] theorem setEth_swWrites (s : State) (f : Eth → Eth) : (setEth s f).swWrites = s.swWrites := rfl
@[simp] theorem setEth_l1 (s : State) (f : Eth → Eth) : (setEth s f).l1 = s.l1 := rfl
@[simp] theorem setEth_dmaIssue (s : State) (f : Eth → Eth) : (setEth s f).dmaIssue = s.dmaIssue := rfl
@[simp] theorem setEth_rd (s : State) (f : Eth → Eth) (x : Nat) : rd (setEth s f) x = rd s x := rfl
@[simp] theorem setEth_rdn (s : State) (f : Eth → Eth) (x : Nat) : rdn (setEth s f) x = rdn s x := rfl
@[simp] theorem setEth_fld (s : State) (f : Eth → Eth) (x : Nat) (h : Field) : fld (setEth s f) x h = fld s x h := rfl
@[simp] theorem setEth_flag (s : State) (f : Eth → Eth) (x : Nat) (h : Field) : flag (setEth s f) x h = flag s x h := rfl

/-! ### setPower -/

@[simp] theorem setPower_pending (s : State) (f : Power → Power) : (setPower s f).pending = s.pending := rfl
@[simp] theorem setPower_now (s : State) (f : Power → Power) : (setPower s f).now = s.now := rfl
@[simp] theorem setPower_free (s : State) (f : Power → Power) : (setPower s f).free = s.free := rfl
@[simp] theorem setPower_rdata (s : State) (f : Power → Power) : (setPower s f).rdata = s.rdata := rfl
@[simp] theorem setPower_regs (s : State) (f : Power → Power) : (setPower s f).regs = s.regs := rfl
@[simp] theorem setPower_mem (s : State) (f : Power → Power) : (setPower s f).mem = s.mem := rfl
@[simp] theorem setPower_cleRam (s : State) (f : Power → Power) : (setPower s f).cleRam = s.cleRam := rfl
@[simp] theorem setPower_canRam (s : State) (f : Power → Power) : (setPower s f).canRam = s.canRam := rfl
@[simp] theorem setPower_pkey (s : State) (f : Power → Power) : (setPower s f).pkey = s.pkey := rfl
@[simp] theorem setPower_sem (s : State) (f : Power → Power) : (setPower s f).sem = s.sem := rfl
@[simp] theorem setPower_arb (s : State) (f : Power → Power) : (setPower s f).arb = s.arb := rfl
@[simp] theorem setPower_start (s : State) (f : Power → Power) : (setPower s f).start = s.start := rfl
@[simp] theorem setPower_efuse (s : State) (f : Power → Power) : (setPower s f).efuse = s.efuse := rfl
@[simp] theorem setPower_boot (s : State) (f : Power → Power) : (setPower s f).boot = s.boot := rfl
@[simp] theorem setPower_power (s : State) (f : Power → Power) : (setPower s f).power = f s.power := rfl
@[simp] theorem setPower_clock (s : State) (f : Power → Power) : (setPower s f).clock = s.clock := rfl
@[simp] theorem setPower_rtc (s : State) (f : Power → Power) : (setPower s f).rtc = s.rtc := rfl
@[simp] theorem setPower_cyc (s : State) (f : Power → Power) : (setPower s f).cyc = s.cyc := rfl
@[simp] theorem setPower_cle (s : State) (f : Power → Power) : (setPower s f).cle = s.cle := rfl
@[simp] theorem setPower_ecc (s : State) (f : Power → Power) : (setPower s f).ecc = s.ecc := rfl
@[simp] theorem setPower_memSys (s : State) (f : Power → Power) : (setPower s f).memSys = s.memSys := rfl
@[simp] theorem setPower_mmu (s : State) (f : Power → Power) : (setPower s f).mmu = s.mmu := rfl
@[simp] theorem setPower_dma (s : State) (f : Power → Power) : (setPower s f).dma = s.dma := rfl
@[simp] theorem setPower_cores (s : State) (f : Power → Power) : (setPower s f).cores = s.cores := rfl
@[simp] theorem setPower_prism (s : State) (f : Power → Power) : (setPower s f).prism = s.prism := rfl
@[simp] theorem setPower_mtr (s : State) (f : Power → Power) : (setPower s f).mtr = s.mtr := rfl
@[simp] theorem setPower_mxe (s : State) (f : Power → Power) : (setPower s f).mxe = s.mxe := rfl
@[simp] theorem setPower_rxe (s : State) (f : Power → Power) : (setPower s f).rxe = s.rxe := rfl
@[simp] theorem setPower_safe (s : State) (f : Power → Power) : (setPower s f).safe = s.safe := rfl
@[simp] theorem setPower_mirror (s : State) (f : Power → Power) : (setPower s f).mirror = s.mirror := rfl
@[simp] theorem setPower_agl (s : State) (f : Power → Power) : (setPower s f).agl = s.agl := rfl
@[simp] theorem setPower_keys (s : State) (f : Power → Power) : (setPower s f).keys = s.keys := rfl
@[simp] theorem setPower_lantern (s : State) (f : Power → Power) : (setPower s f).lantern = s.lantern := rfl
@[simp] theorem setPower_eth (s : State) (f : Power → Power) : (setPower s f).eth = s.eth := rfl
@[simp] theorem setPower_can (s : State) (f : Power → Power) : (setPower s f).can = s.can := rfl
@[simp] theorem setPower_handed (s : State) (f : Power → Power) : (setPower s f).handed = s.handed := rfl
@[simp] theorem setPower_hostErr (s : State) (f : Power → Power) : (setPower s f).hostErr = s.hostErr := rfl
@[simp] theorem setPower_swWrites (s : State) (f : Power → Power) : (setPower s f).swWrites = s.swWrites := rfl
@[simp] theorem setPower_l1 (s : State) (f : Power → Power) : (setPower s f).l1 = s.l1 := rfl
@[simp] theorem setPower_dmaIssue (s : State) (f : Power → Power) : (setPower s f).dmaIssue = s.dmaIssue := rfl
@[simp] theorem setPower_rd (s : State) (f : Power → Power) (x : Nat) : rd (setPower s f) x = rd s x := rfl
@[simp] theorem setPower_rdn (s : State) (f : Power → Power) (x : Nat) : rdn (setPower s f) x = rdn s x := rfl
@[simp] theorem setPower_fld (s : State) (f : Power → Power) (x : Nat) (h : Field) : fld (setPower s f) x h = fld s x h := rfl
@[simp] theorem setPower_flag (s : State) (f : Power → Power) (x : Nat) (h : Field) : flag (setPower s f) x h = flag s x h := rfl

/-! ### setPrism -/

@[simp] theorem setPrism_pending (s : State) (f : Prism → Prism) : (setPrism s f).pending = s.pending := rfl
@[simp] theorem setPrism_now (s : State) (f : Prism → Prism) : (setPrism s f).now = s.now := rfl
@[simp] theorem setPrism_free (s : State) (f : Prism → Prism) : (setPrism s f).free = s.free := rfl
@[simp] theorem setPrism_rdata (s : State) (f : Prism → Prism) : (setPrism s f).rdata = s.rdata := rfl
@[simp] theorem setPrism_regs (s : State) (f : Prism → Prism) : (setPrism s f).regs = s.regs := rfl
@[simp] theorem setPrism_mem (s : State) (f : Prism → Prism) : (setPrism s f).mem = s.mem := rfl
@[simp] theorem setPrism_cleRam (s : State) (f : Prism → Prism) : (setPrism s f).cleRam = s.cleRam := rfl
@[simp] theorem setPrism_canRam (s : State) (f : Prism → Prism) : (setPrism s f).canRam = s.canRam := rfl
@[simp] theorem setPrism_pkey (s : State) (f : Prism → Prism) : (setPrism s f).pkey = s.pkey := rfl
@[simp] theorem setPrism_sem (s : State) (f : Prism → Prism) : (setPrism s f).sem = s.sem := rfl
@[simp] theorem setPrism_arb (s : State) (f : Prism → Prism) : (setPrism s f).arb = s.arb := rfl
@[simp] theorem setPrism_start (s : State) (f : Prism → Prism) : (setPrism s f).start = s.start := rfl
@[simp] theorem setPrism_efuse (s : State) (f : Prism → Prism) : (setPrism s f).efuse = s.efuse := rfl
@[simp] theorem setPrism_boot (s : State) (f : Prism → Prism) : (setPrism s f).boot = s.boot := rfl
@[simp] theorem setPrism_power (s : State) (f : Prism → Prism) : (setPrism s f).power = s.power := rfl
@[simp] theorem setPrism_clock (s : State) (f : Prism → Prism) : (setPrism s f).clock = s.clock := rfl
@[simp] theorem setPrism_rtc (s : State) (f : Prism → Prism) : (setPrism s f).rtc = s.rtc := rfl
@[simp] theorem setPrism_cyc (s : State) (f : Prism → Prism) : (setPrism s f).cyc = s.cyc := rfl
@[simp] theorem setPrism_cle (s : State) (f : Prism → Prism) : (setPrism s f).cle = s.cle := rfl
@[simp] theorem setPrism_ecc (s : State) (f : Prism → Prism) : (setPrism s f).ecc = s.ecc := rfl
@[simp] theorem setPrism_memSys (s : State) (f : Prism → Prism) : (setPrism s f).memSys = s.memSys := rfl
@[simp] theorem setPrism_mmu (s : State) (f : Prism → Prism) : (setPrism s f).mmu = s.mmu := rfl
@[simp] theorem setPrism_dma (s : State) (f : Prism → Prism) : (setPrism s f).dma = s.dma := rfl
@[simp] theorem setPrism_cores (s : State) (f : Prism → Prism) : (setPrism s f).cores = s.cores := rfl
@[simp] theorem setPrism_prism (s : State) (f : Prism → Prism) : (setPrism s f).prism = f s.prism := rfl
@[simp] theorem setPrism_mtr (s : State) (f : Prism → Prism) : (setPrism s f).mtr = s.mtr := rfl
@[simp] theorem setPrism_mxe (s : State) (f : Prism → Prism) : (setPrism s f).mxe = s.mxe := rfl
@[simp] theorem setPrism_rxe (s : State) (f : Prism → Prism) : (setPrism s f).rxe = s.rxe := rfl
@[simp] theorem setPrism_safe (s : State) (f : Prism → Prism) : (setPrism s f).safe = s.safe := rfl
@[simp] theorem setPrism_mirror (s : State) (f : Prism → Prism) : (setPrism s f).mirror = s.mirror := rfl
@[simp] theorem setPrism_agl (s : State) (f : Prism → Prism) : (setPrism s f).agl = s.agl := rfl
@[simp] theorem setPrism_keys (s : State) (f : Prism → Prism) : (setPrism s f).keys = s.keys := rfl
@[simp] theorem setPrism_lantern (s : State) (f : Prism → Prism) : (setPrism s f).lantern = s.lantern := rfl
@[simp] theorem setPrism_eth (s : State) (f : Prism → Prism) : (setPrism s f).eth = s.eth := rfl
@[simp] theorem setPrism_can (s : State) (f : Prism → Prism) : (setPrism s f).can = s.can := rfl
@[simp] theorem setPrism_handed (s : State) (f : Prism → Prism) : (setPrism s f).handed = s.handed := rfl
@[simp] theorem setPrism_hostErr (s : State) (f : Prism → Prism) : (setPrism s f).hostErr = s.hostErr := rfl
@[simp] theorem setPrism_swWrites (s : State) (f : Prism → Prism) : (setPrism s f).swWrites = s.swWrites := rfl
@[simp] theorem setPrism_l1 (s : State) (f : Prism → Prism) : (setPrism s f).l1 = s.l1 := rfl
@[simp] theorem setPrism_dmaIssue (s : State) (f : Prism → Prism) : (setPrism s f).dmaIssue = s.dmaIssue := rfl
@[simp] theorem setPrism_rd (s : State) (f : Prism → Prism) (x : Nat) : rd (setPrism s f) x = rd s x := rfl
@[simp] theorem setPrism_rdn (s : State) (f : Prism → Prism) (x : Nat) : rdn (setPrism s f) x = rdn s x := rfl
@[simp] theorem setPrism_fld (s : State) (f : Prism → Prism) (x : Nat) (h : Field) : fld (setPrism s f) x h = fld s x h := rfl
@[simp] theorem setPrism_flag (s : State) (f : Prism → Prism) (x : Nat) (h : Field) : flag (setPrism s f) x h = flag s x h := rfl

/-! ### setMirror -/

@[simp] theorem setMirror_pending (s : State) (f : Mirror → Mirror) : (setMirror s f).pending = s.pending := rfl
@[simp] theorem setMirror_now (s : State) (f : Mirror → Mirror) : (setMirror s f).now = s.now := rfl
@[simp] theorem setMirror_free (s : State) (f : Mirror → Mirror) : (setMirror s f).free = s.free := rfl
@[simp] theorem setMirror_rdata (s : State) (f : Mirror → Mirror) : (setMirror s f).rdata = s.rdata := rfl
@[simp] theorem setMirror_regs (s : State) (f : Mirror → Mirror) : (setMirror s f).regs = s.regs := rfl
@[simp] theorem setMirror_mem (s : State) (f : Mirror → Mirror) : (setMirror s f).mem = s.mem := rfl
@[simp] theorem setMirror_cleRam (s : State) (f : Mirror → Mirror) : (setMirror s f).cleRam = s.cleRam := rfl
@[simp] theorem setMirror_canRam (s : State) (f : Mirror → Mirror) : (setMirror s f).canRam = s.canRam := rfl
@[simp] theorem setMirror_pkey (s : State) (f : Mirror → Mirror) : (setMirror s f).pkey = s.pkey := rfl
@[simp] theorem setMirror_sem (s : State) (f : Mirror → Mirror) : (setMirror s f).sem = s.sem := rfl
@[simp] theorem setMirror_arb (s : State) (f : Mirror → Mirror) : (setMirror s f).arb = s.arb := rfl
@[simp] theorem setMirror_start (s : State) (f : Mirror → Mirror) : (setMirror s f).start = s.start := rfl
@[simp] theorem setMirror_efuse (s : State) (f : Mirror → Mirror) : (setMirror s f).efuse = s.efuse := rfl
@[simp] theorem setMirror_boot (s : State) (f : Mirror → Mirror) : (setMirror s f).boot = s.boot := rfl
@[simp] theorem setMirror_power (s : State) (f : Mirror → Mirror) : (setMirror s f).power = s.power := rfl
@[simp] theorem setMirror_clock (s : State) (f : Mirror → Mirror) : (setMirror s f).clock = s.clock := rfl
@[simp] theorem setMirror_rtc (s : State) (f : Mirror → Mirror) : (setMirror s f).rtc = s.rtc := rfl
@[simp] theorem setMirror_cyc (s : State) (f : Mirror → Mirror) : (setMirror s f).cyc = s.cyc := rfl
@[simp] theorem setMirror_cle (s : State) (f : Mirror → Mirror) : (setMirror s f).cle = s.cle := rfl
@[simp] theorem setMirror_ecc (s : State) (f : Mirror → Mirror) : (setMirror s f).ecc = s.ecc := rfl
@[simp] theorem setMirror_memSys (s : State) (f : Mirror → Mirror) : (setMirror s f).memSys = s.memSys := rfl
@[simp] theorem setMirror_mmu (s : State) (f : Mirror → Mirror) : (setMirror s f).mmu = s.mmu := rfl
@[simp] theorem setMirror_dma (s : State) (f : Mirror → Mirror) : (setMirror s f).dma = s.dma := rfl
@[simp] theorem setMirror_cores (s : State) (f : Mirror → Mirror) : (setMirror s f).cores = s.cores := rfl
@[simp] theorem setMirror_prism (s : State) (f : Mirror → Mirror) : (setMirror s f).prism = s.prism := rfl
@[simp] theorem setMirror_mtr (s : State) (f : Mirror → Mirror) : (setMirror s f).mtr = s.mtr := rfl
@[simp] theorem setMirror_mxe (s : State) (f : Mirror → Mirror) : (setMirror s f).mxe = s.mxe := rfl
@[simp] theorem setMirror_rxe (s : State) (f : Mirror → Mirror) : (setMirror s f).rxe = s.rxe := rfl
@[simp] theorem setMirror_safe (s : State) (f : Mirror → Mirror) : (setMirror s f).safe = s.safe := rfl
@[simp] theorem setMirror_mirror (s : State) (f : Mirror → Mirror) : (setMirror s f).mirror = f s.mirror := rfl
@[simp] theorem setMirror_agl (s : State) (f : Mirror → Mirror) : (setMirror s f).agl = s.agl := rfl
@[simp] theorem setMirror_keys (s : State) (f : Mirror → Mirror) : (setMirror s f).keys = s.keys := rfl
@[simp] theorem setMirror_lantern (s : State) (f : Mirror → Mirror) : (setMirror s f).lantern = s.lantern := rfl
@[simp] theorem setMirror_eth (s : State) (f : Mirror → Mirror) : (setMirror s f).eth = s.eth := rfl
@[simp] theorem setMirror_can (s : State) (f : Mirror → Mirror) : (setMirror s f).can = s.can := rfl
@[simp] theorem setMirror_handed (s : State) (f : Mirror → Mirror) : (setMirror s f).handed = s.handed := rfl
@[simp] theorem setMirror_hostErr (s : State) (f : Mirror → Mirror) : (setMirror s f).hostErr = s.hostErr := rfl
@[simp] theorem setMirror_swWrites (s : State) (f : Mirror → Mirror) : (setMirror s f).swWrites = s.swWrites := rfl
@[simp] theorem setMirror_l1 (s : State) (f : Mirror → Mirror) : (setMirror s f).l1 = s.l1 := rfl
@[simp] theorem setMirror_dmaIssue (s : State) (f : Mirror → Mirror) : (setMirror s f).dmaIssue = s.dmaIssue := rfl
@[simp] theorem setMirror_rd (s : State) (f : Mirror → Mirror) (x : Nat) : rd (setMirror s f) x = rd s x := rfl
@[simp] theorem setMirror_rdn (s : State) (f : Mirror → Mirror) (x : Nat) : rdn (setMirror s f) x = rdn s x := rfl
@[simp] theorem setMirror_fld (s : State) (f : Mirror → Mirror) (x : Nat) (h : Field) : fld (setMirror s f) x h = fld s x h := rfl
@[simp] theorem setMirror_flag (s : State) (f : Mirror → Mirror) (x : Nat) (h : Field) : flag (setMirror s f) x h = flag s x h := rfl

/-! ### setRtc -/

@[simp] theorem setRtc_pending (s : State) (f : Rtc → Rtc) : (setRtc s f).pending = s.pending := rfl
@[simp] theorem setRtc_now (s : State) (f : Rtc → Rtc) : (setRtc s f).now = s.now := rfl
@[simp] theorem setRtc_free (s : State) (f : Rtc → Rtc) : (setRtc s f).free = s.free := rfl
@[simp] theorem setRtc_rdata (s : State) (f : Rtc → Rtc) : (setRtc s f).rdata = s.rdata := rfl
@[simp] theorem setRtc_regs (s : State) (f : Rtc → Rtc) : (setRtc s f).regs = s.regs := rfl
@[simp] theorem setRtc_mem (s : State) (f : Rtc → Rtc) : (setRtc s f).mem = s.mem := rfl
@[simp] theorem setRtc_cleRam (s : State) (f : Rtc → Rtc) : (setRtc s f).cleRam = s.cleRam := rfl
@[simp] theorem setRtc_canRam (s : State) (f : Rtc → Rtc) : (setRtc s f).canRam = s.canRam := rfl
@[simp] theorem setRtc_pkey (s : State) (f : Rtc → Rtc) : (setRtc s f).pkey = s.pkey := rfl
@[simp] theorem setRtc_sem (s : State) (f : Rtc → Rtc) : (setRtc s f).sem = s.sem := rfl
@[simp] theorem setRtc_arb (s : State) (f : Rtc → Rtc) : (setRtc s f).arb = s.arb := rfl
@[simp] theorem setRtc_start (s : State) (f : Rtc → Rtc) : (setRtc s f).start = s.start := rfl
@[simp] theorem setRtc_efuse (s : State) (f : Rtc → Rtc) : (setRtc s f).efuse = s.efuse := rfl
@[simp] theorem setRtc_boot (s : State) (f : Rtc → Rtc) : (setRtc s f).boot = s.boot := rfl
@[simp] theorem setRtc_power (s : State) (f : Rtc → Rtc) : (setRtc s f).power = s.power := rfl
@[simp] theorem setRtc_clock (s : State) (f : Rtc → Rtc) : (setRtc s f).clock = s.clock := rfl
@[simp] theorem setRtc_rtc (s : State) (f : Rtc → Rtc) : (setRtc s f).rtc = f s.rtc := rfl
@[simp] theorem setRtc_cyc (s : State) (f : Rtc → Rtc) : (setRtc s f).cyc = s.cyc := rfl
@[simp] theorem setRtc_cle (s : State) (f : Rtc → Rtc) : (setRtc s f).cle = s.cle := rfl
@[simp] theorem setRtc_ecc (s : State) (f : Rtc → Rtc) : (setRtc s f).ecc = s.ecc := rfl
@[simp] theorem setRtc_memSys (s : State) (f : Rtc → Rtc) : (setRtc s f).memSys = s.memSys := rfl
@[simp] theorem setRtc_mmu (s : State) (f : Rtc → Rtc) : (setRtc s f).mmu = s.mmu := rfl
@[simp] theorem setRtc_dma (s : State) (f : Rtc → Rtc) : (setRtc s f).dma = s.dma := rfl
@[simp] theorem setRtc_cores (s : State) (f : Rtc → Rtc) : (setRtc s f).cores = s.cores := rfl
@[simp] theorem setRtc_prism (s : State) (f : Rtc → Rtc) : (setRtc s f).prism = s.prism := rfl
@[simp] theorem setRtc_mtr (s : State) (f : Rtc → Rtc) : (setRtc s f).mtr = s.mtr := rfl
@[simp] theorem setRtc_mxe (s : State) (f : Rtc → Rtc) : (setRtc s f).mxe = s.mxe := rfl
@[simp] theorem setRtc_rxe (s : State) (f : Rtc → Rtc) : (setRtc s f).rxe = s.rxe := rfl
@[simp] theorem setRtc_safe (s : State) (f : Rtc → Rtc) : (setRtc s f).safe = s.safe := rfl
@[simp] theorem setRtc_mirror (s : State) (f : Rtc → Rtc) : (setRtc s f).mirror = s.mirror := rfl
@[simp] theorem setRtc_agl (s : State) (f : Rtc → Rtc) : (setRtc s f).agl = s.agl := rfl
@[simp] theorem setRtc_keys (s : State) (f : Rtc → Rtc) : (setRtc s f).keys = s.keys := rfl
@[simp] theorem setRtc_lantern (s : State) (f : Rtc → Rtc) : (setRtc s f).lantern = s.lantern := rfl
@[simp] theorem setRtc_eth (s : State) (f : Rtc → Rtc) : (setRtc s f).eth = s.eth := rfl
@[simp] theorem setRtc_can (s : State) (f : Rtc → Rtc) : (setRtc s f).can = s.can := rfl
@[simp] theorem setRtc_handed (s : State) (f : Rtc → Rtc) : (setRtc s f).handed = s.handed := rfl
@[simp] theorem setRtc_hostErr (s : State) (f : Rtc → Rtc) : (setRtc s f).hostErr = s.hostErr := rfl
@[simp] theorem setRtc_swWrites (s : State) (f : Rtc → Rtc) : (setRtc s f).swWrites = s.swWrites := rfl
@[simp] theorem setRtc_l1 (s : State) (f : Rtc → Rtc) : (setRtc s f).l1 = s.l1 := rfl
@[simp] theorem setRtc_dmaIssue (s : State) (f : Rtc → Rtc) : (setRtc s f).dmaIssue = s.dmaIssue := rfl
@[simp] theorem setRtc_rd (s : State) (f : Rtc → Rtc) (x : Nat) : rd (setRtc s f) x = rd s x := rfl
@[simp] theorem setRtc_rdn (s : State) (f : Rtc → Rtc) (x : Nat) : rdn (setRtc s f) x = rdn s x := rfl
@[simp] theorem setRtc_fld (s : State) (f : Rtc → Rtc) (x : Nat) (h : Field) : fld (setRtc s f) x h = fld s x h := rfl
@[simp] theorem setRtc_flag (s : State) (f : Rtc → Rtc) (x : Nat) (h : Field) : flag (setRtc s f) x h = flag s x h := rfl

/-! ### setRxe -/

@[simp] theorem setRxe_pending (s : State) (f : Rxe → Rxe) : (setRxe s f).pending = s.pending := rfl
@[simp] theorem setRxe_now (s : State) (f : Rxe → Rxe) : (setRxe s f).now = s.now := rfl
@[simp] theorem setRxe_free (s : State) (f : Rxe → Rxe) : (setRxe s f).free = s.free := rfl
@[simp] theorem setRxe_rdata (s : State) (f : Rxe → Rxe) : (setRxe s f).rdata = s.rdata := rfl
@[simp] theorem setRxe_regs (s : State) (f : Rxe → Rxe) : (setRxe s f).regs = s.regs := rfl
@[simp] theorem setRxe_mem (s : State) (f : Rxe → Rxe) : (setRxe s f).mem = s.mem := rfl
@[simp] theorem setRxe_cleRam (s : State) (f : Rxe → Rxe) : (setRxe s f).cleRam = s.cleRam := rfl
@[simp] theorem setRxe_canRam (s : State) (f : Rxe → Rxe) : (setRxe s f).canRam = s.canRam := rfl
@[simp] theorem setRxe_pkey (s : State) (f : Rxe → Rxe) : (setRxe s f).pkey = s.pkey := rfl
@[simp] theorem setRxe_sem (s : State) (f : Rxe → Rxe) : (setRxe s f).sem = s.sem := rfl
@[simp] theorem setRxe_arb (s : State) (f : Rxe → Rxe) : (setRxe s f).arb = s.arb := rfl
@[simp] theorem setRxe_start (s : State) (f : Rxe → Rxe) : (setRxe s f).start = s.start := rfl
@[simp] theorem setRxe_efuse (s : State) (f : Rxe → Rxe) : (setRxe s f).efuse = s.efuse := rfl
@[simp] theorem setRxe_boot (s : State) (f : Rxe → Rxe) : (setRxe s f).boot = s.boot := rfl
@[simp] theorem setRxe_power (s : State) (f : Rxe → Rxe) : (setRxe s f).power = s.power := rfl
@[simp] theorem setRxe_clock (s : State) (f : Rxe → Rxe) : (setRxe s f).clock = s.clock := rfl
@[simp] theorem setRxe_rtc (s : State) (f : Rxe → Rxe) : (setRxe s f).rtc = s.rtc := rfl
@[simp] theorem setRxe_cyc (s : State) (f : Rxe → Rxe) : (setRxe s f).cyc = s.cyc := rfl
@[simp] theorem setRxe_cle (s : State) (f : Rxe → Rxe) : (setRxe s f).cle = s.cle := rfl
@[simp] theorem setRxe_ecc (s : State) (f : Rxe → Rxe) : (setRxe s f).ecc = s.ecc := rfl
@[simp] theorem setRxe_memSys (s : State) (f : Rxe → Rxe) : (setRxe s f).memSys = s.memSys := rfl
@[simp] theorem setRxe_mmu (s : State) (f : Rxe → Rxe) : (setRxe s f).mmu = s.mmu := rfl
@[simp] theorem setRxe_dma (s : State) (f : Rxe → Rxe) : (setRxe s f).dma = s.dma := rfl
@[simp] theorem setRxe_cores (s : State) (f : Rxe → Rxe) : (setRxe s f).cores = s.cores := rfl
@[simp] theorem setRxe_prism (s : State) (f : Rxe → Rxe) : (setRxe s f).prism = s.prism := rfl
@[simp] theorem setRxe_mtr (s : State) (f : Rxe → Rxe) : (setRxe s f).mtr = s.mtr := rfl
@[simp] theorem setRxe_mxe (s : State) (f : Rxe → Rxe) : (setRxe s f).mxe = s.mxe := rfl
@[simp] theorem setRxe_rxe (s : State) (f : Rxe → Rxe) : (setRxe s f).rxe = f s.rxe := rfl
@[simp] theorem setRxe_safe (s : State) (f : Rxe → Rxe) : (setRxe s f).safe = s.safe := rfl
@[simp] theorem setRxe_mirror (s : State) (f : Rxe → Rxe) : (setRxe s f).mirror = s.mirror := rfl
@[simp] theorem setRxe_agl (s : State) (f : Rxe → Rxe) : (setRxe s f).agl = s.agl := rfl
@[simp] theorem setRxe_keys (s : State) (f : Rxe → Rxe) : (setRxe s f).keys = s.keys := rfl
@[simp] theorem setRxe_lantern (s : State) (f : Rxe → Rxe) : (setRxe s f).lantern = s.lantern := rfl
@[simp] theorem setRxe_eth (s : State) (f : Rxe → Rxe) : (setRxe s f).eth = s.eth := rfl
@[simp] theorem setRxe_can (s : State) (f : Rxe → Rxe) : (setRxe s f).can = s.can := rfl
@[simp] theorem setRxe_handed (s : State) (f : Rxe → Rxe) : (setRxe s f).handed = s.handed := rfl
@[simp] theorem setRxe_hostErr (s : State) (f : Rxe → Rxe) : (setRxe s f).hostErr = s.hostErr := rfl
@[simp] theorem setRxe_swWrites (s : State) (f : Rxe → Rxe) : (setRxe s f).swWrites = s.swWrites := rfl
@[simp] theorem setRxe_l1 (s : State) (f : Rxe → Rxe) : (setRxe s f).l1 = s.l1 := rfl
@[simp] theorem setRxe_dmaIssue (s : State) (f : Rxe → Rxe) : (setRxe s f).dmaIssue = s.dmaIssue := rfl
@[simp] theorem setRxe_rd (s : State) (f : Rxe → Rxe) (x : Nat) : rd (setRxe s f) x = rd s x := rfl
@[simp] theorem setRxe_rdn (s : State) (f : Rxe → Rxe) (x : Nat) : rdn (setRxe s f) x = rdn s x := rfl
@[simp] theorem setRxe_fld (s : State) (f : Rxe → Rxe) (x : Nat) (h : Field) : fld (setRxe s f) x h = fld s x h := rfl
@[simp] theorem setRxe_flag (s : State) (f : Rxe → Rxe) (x : Nat) (h : Field) : flag (setRxe s f) x h = flag s x h := rfl

/-! ### setClock -/

@[simp] theorem setClock_pending (s : State) (f : Clock → Clock) : (setClock s f).pending = s.pending := rfl
@[simp] theorem setClock_now (s : State) (f : Clock → Clock) : (setClock s f).now = s.now := rfl
@[simp] theorem setClock_free (s : State) (f : Clock → Clock) : (setClock s f).free = s.free := rfl
@[simp] theorem setClock_rdata (s : State) (f : Clock → Clock) : (setClock s f).rdata = s.rdata := rfl
@[simp] theorem setClock_regs (s : State) (f : Clock → Clock) : (setClock s f).regs = s.regs := rfl
@[simp] theorem setClock_mem (s : State) (f : Clock → Clock) : (setClock s f).mem = s.mem := rfl
@[simp] theorem setClock_cleRam (s : State) (f : Clock → Clock) : (setClock s f).cleRam = s.cleRam := rfl
@[simp] theorem setClock_canRam (s : State) (f : Clock → Clock) : (setClock s f).canRam = s.canRam := rfl
@[simp] theorem setClock_pkey (s : State) (f : Clock → Clock) : (setClock s f).pkey = s.pkey := rfl
@[simp] theorem setClock_sem (s : State) (f : Clock → Clock) : (setClock s f).sem = s.sem := rfl
@[simp] theorem setClock_arb (s : State) (f : Clock → Clock) : (setClock s f).arb = s.arb := rfl
@[simp] theorem setClock_start (s : State) (f : Clock → Clock) : (setClock s f).start = s.start := rfl
@[simp] theorem setClock_efuse (s : State) (f : Clock → Clock) : (setClock s f).efuse = s.efuse := rfl
@[simp] theorem setClock_boot (s : State) (f : Clock → Clock) : (setClock s f).boot = s.boot := rfl
@[simp] theorem setClock_power (s : State) (f : Clock → Clock) : (setClock s f).power = s.power := rfl
@[simp] theorem setClock_clock (s : State) (f : Clock → Clock) : (setClock s f).clock = f s.clock := rfl
@[simp] theorem setClock_rtc (s : State) (f : Clock → Clock) : (setClock s f).rtc = s.rtc := rfl
@[simp] theorem setClock_cyc (s : State) (f : Clock → Clock) : (setClock s f).cyc = s.cyc := rfl
@[simp] theorem setClock_cle (s : State) (f : Clock → Clock) : (setClock s f).cle = s.cle := rfl
@[simp] theorem setClock_ecc (s : State) (f : Clock → Clock) : (setClock s f).ecc = s.ecc := rfl
@[simp] theorem setClock_memSys (s : State) (f : Clock → Clock) : (setClock s f).memSys = s.memSys := rfl
@[simp] theorem setClock_mmu (s : State) (f : Clock → Clock) : (setClock s f).mmu = s.mmu := rfl
@[simp] theorem setClock_dma (s : State) (f : Clock → Clock) : (setClock s f).dma = s.dma := rfl
@[simp] theorem setClock_cores (s : State) (f : Clock → Clock) : (setClock s f).cores = s.cores := rfl
@[simp] theorem setClock_prism (s : State) (f : Clock → Clock) : (setClock s f).prism = s.prism := rfl
@[simp] theorem setClock_mtr (s : State) (f : Clock → Clock) : (setClock s f).mtr = s.mtr := rfl
@[simp] theorem setClock_mxe (s : State) (f : Clock → Clock) : (setClock s f).mxe = s.mxe := rfl
@[simp] theorem setClock_rxe (s : State) (f : Clock → Clock) : (setClock s f).rxe = s.rxe := rfl
@[simp] theorem setClock_safe (s : State) (f : Clock → Clock) : (setClock s f).safe = s.safe := rfl
@[simp] theorem setClock_mirror (s : State) (f : Clock → Clock) : (setClock s f).mirror = s.mirror := rfl
@[simp] theorem setClock_agl (s : State) (f : Clock → Clock) : (setClock s f).agl = s.agl := rfl
@[simp] theorem setClock_keys (s : State) (f : Clock → Clock) : (setClock s f).keys = s.keys := rfl
@[simp] theorem setClock_lantern (s : State) (f : Clock → Clock) : (setClock s f).lantern = s.lantern := rfl
@[simp] theorem setClock_eth (s : State) (f : Clock → Clock) : (setClock s f).eth = s.eth := rfl
@[simp] theorem setClock_can (s : State) (f : Clock → Clock) : (setClock s f).can = s.can := rfl
@[simp] theorem setClock_handed (s : State) (f : Clock → Clock) : (setClock s f).handed = s.handed := rfl
@[simp] theorem setClock_hostErr (s : State) (f : Clock → Clock) : (setClock s f).hostErr = s.hostErr := rfl
@[simp] theorem setClock_swWrites (s : State) (f : Clock → Clock) : (setClock s f).swWrites = s.swWrites := rfl
@[simp] theorem setClock_l1 (s : State) (f : Clock → Clock) : (setClock s f).l1 = s.l1 := rfl
@[simp] theorem setClock_dmaIssue (s : State) (f : Clock → Clock) : (setClock s f).dmaIssue = s.dmaIssue := rfl
@[simp] theorem setClock_rd (s : State) (f : Clock → Clock) (x : Nat) : rd (setClock s f) x = rd s x := rfl
@[simp] theorem setClock_rdn (s : State) (f : Clock → Clock) (x : Nat) : rdn (setClock s f) x = rdn s x := rfl
@[simp] theorem setClock_fld (s : State) (f : Clock → Clock) (x : Nat) (h : Field) : fld (setClock s f) x h = fld s x h := rfl
@[simp] theorem setClock_flag (s : State) (f : Clock → Clock) (x : Nat) (h : Field) : flag (setClock s f) x h = flag s x h := rfl

/-! ### setTask -/

@[simp] theorem setTask_pending (s : State) (t : Nat) (f : Task → Task) : (setTask s t f).pending = s.pending := rfl
@[simp] theorem setTask_now (s : State) (t : Nat) (f : Task → Task) : (setTask s t f).now = s.now := rfl
@[simp] theorem setTask_free (s : State) (t : Nat) (f : Task → Task) : (setTask s t f).free = s.free := rfl
@[simp] theorem setTask_rdata (s : State) (t : Nat) (f : Task → Task) : (setTask s t f).rdata = s.rdata := rfl
@[simp] theorem setTask_regs (s : State) (t : Nat) (f : Task → Task) : (setTask s t f).regs = s.regs := rfl
@[simp] theorem setTask_mem (s : State) (t : Nat) (f : Task → Task) : (setTask s t f).mem = s.mem := rfl
@[simp] theorem setTask_cleRam (s : State) (t : Nat) (f : Task → Task) : (setTask s t f).cleRam = s.cleRam := rfl
@[simp] theorem setTask_canRam (s : State) (t : Nat) (f : Task → Task) : (setTask s t f).canRam = s.canRam := rfl
@[simp] theorem setTask_pkey (s : State) (t : Nat) (f : Task → Task) : (setTask s t f).pkey = s.pkey := rfl
@[simp] theorem setTask_sem (s : State) (t : Nat) (f : Task → Task) : (setTask s t f).sem = s.sem := rfl
@[simp] theorem setTask_arb (s : State) (t : Nat) (f : Task → Task) : (setTask s t f).arb = s.arb := rfl
@[simp] theorem setTask_start (s : State) (t : Nat) (f : Task → Task) : (setTask s t f).start = s.start := rfl
@[simp] theorem setTask_efuse (s : State) (t : Nat) (f : Task → Task) : (setTask s t f).efuse = s.efuse := rfl
@[simp] theorem setTask_boot (s : State) (t : Nat) (f : Task → Task) : (setTask s t f).boot = s.boot := rfl
@[simp] theorem setTask_power (s : State) (t : Nat) (f : Task → Task) : (setTask s t f).power = s.power := rfl
@[simp] theorem setTask_clock (s : State) (t : Nat) (f : Task → Task) : (setTask s t f).clock = s.clock := rfl
@[simp] theorem setTask_rtc (s : State) (t : Nat) (f : Task → Task) : (setTask s t f).rtc = s.rtc := rfl
@[simp] theorem setTask_cle (s : State) (t : Nat) (f : Task → Task) : (setTask s t f).cle = s.cle := rfl
@[simp] theorem setTask_ecc (s : State) (t : Nat) (f : Task → Task) : (setTask s t f).ecc = s.ecc := rfl
@[simp] theorem setTask_memSys (s : State) (t : Nat) (f : Task → Task) : (setTask s t f).memSys = s.memSys := rfl
@[simp] theorem setTask_mmu (s : State) (t : Nat) (f : Task → Task) : (setTask s t f).mmu = s.mmu := rfl
@[simp] theorem setTask_dma (s : State) (t : Nat) (f : Task → Task) : (setTask s t f).dma = s.dma := rfl
@[simp] theorem setTask_cores (s : State) (t : Nat) (f : Task → Task) : (setTask s t f).cores = s.cores := rfl
@[simp] theorem setTask_prism (s : State) (t : Nat) (f : Task → Task) : (setTask s t f).prism = s.prism := rfl
@[simp] theorem setTask_mtr (s : State) (t : Nat) (f : Task → Task) : (setTask s t f).mtr = s.mtr := rfl
@[simp] theorem setTask_mxe (s : State) (t : Nat) (f : Task → Task) : (setTask s t f).mxe = s.mxe := rfl
@[simp] theorem setTask_rxe (s : State) (t : Nat) (f : Task → Task) : (setTask s t f).rxe = s.rxe := rfl
@[simp] theorem setTask_safe (s : State) (t : Nat) (f : Task → Task) : (setTask s t f).safe = s.safe := rfl
@[simp] theorem setTask_mirror (s : State) (t : Nat) (f : Task → Task) : (setTask s t f).mirror = s.mirror := rfl
@[simp] theorem setTask_agl (s : State) (t : Nat) (f : Task → Task) : (setTask s t f).agl = s.agl := rfl
@[simp] theorem setTask_keys (s : State) (t : Nat) (f : Task → Task) : (setTask s t f).keys = s.keys := rfl
@[simp] theorem setTask_lantern (s : State) (t : Nat) (f : Task → Task) : (setTask s t f).lantern = s.lantern := rfl
@[simp] theorem setTask_eth (s : State) (t : Nat) (f : Task → Task) : (setTask s t f).eth = s.eth := rfl
@[simp] theorem setTask_can (s : State) (t : Nat) (f : Task → Task) : (setTask s t f).can = s.can := rfl
@[simp] theorem setTask_handed (s : State) (t : Nat) (f : Task → Task) : (setTask s t f).handed = s.handed := rfl
@[simp] theorem setTask_hostErr (s : State) (t : Nat) (f : Task → Task) : (setTask s t f).hostErr = s.hostErr := rfl
@[simp] theorem setTask_swWrites (s : State) (t : Nat) (f : Task → Task) : (setTask s t f).swWrites = s.swWrites := rfl
@[simp] theorem setTask_l1 (s : State) (t : Nat) (f : Task → Task) : (setTask s t f).l1 = s.l1 := rfl
@[simp] theorem setTask_dmaIssue (s : State) (t : Nat) (f : Task → Task) : (setTask s t f).dmaIssue = s.dmaIssue := rfl
@[simp] theorem setTask_rd (s : State) (t : Nat) (f : Task → Task) (x : Nat) : rd (setTask s t f) x = rd s x := rfl
@[simp] theorem setTask_rdn (s : State) (t : Nat) (f : Task → Task) (x : Nat) : rdn (setTask s t f) x = rdn s x := rfl
@[simp] theorem setTask_fld (s : State) (t : Nat) (f : Task → Task) (x : Nat) (h : Field) : fld (setTask s t f) x h = fld s x h := rfl
@[simp] theorem setTask_flag (s : State) (t : Nat) (f : Task → Task) (x : Nat) (h : Field) : flag (setTask s t f) x h = flag s x h := rfl

/-! ### setRunning -/

@[simp] theorem setRunning_pending (s : State) (c : Nat) (t : Option Nat) : (setRunning s c t).pending = s.pending := rfl
@[simp] theorem setRunning_now (s : State) (c : Nat) (t : Option Nat) : (setRunning s c t).now = s.now := rfl
@[simp] theorem setRunning_free (s : State) (c : Nat) (t : Option Nat) : (setRunning s c t).free = s.free := rfl
@[simp] theorem setRunning_rdata (s : State) (c : Nat) (t : Option Nat) : (setRunning s c t).rdata = s.rdata := rfl
@[simp] theorem setRunning_regs (s : State) (c : Nat) (t : Option Nat) : (setRunning s c t).regs = s.regs := rfl
@[simp] theorem setRunning_mem (s : State) (c : Nat) (t : Option Nat) : (setRunning s c t).mem = s.mem := rfl
@[simp] theorem setRunning_cleRam (s : State) (c : Nat) (t : Option Nat) : (setRunning s c t).cleRam = s.cleRam := rfl
@[simp] theorem setRunning_canRam (s : State) (c : Nat) (t : Option Nat) : (setRunning s c t).canRam = s.canRam := rfl
@[simp] theorem setRunning_pkey (s : State) (c : Nat) (t : Option Nat) : (setRunning s c t).pkey = s.pkey := rfl
@[simp] theorem setRunning_sem (s : State) (c : Nat) (t : Option Nat) : (setRunning s c t).sem = s.sem := rfl
@[simp] theorem setRunning_arb (s : State) (c : Nat) (t : Option Nat) : (setRunning s c t).arb = s.arb := rfl
@[simp] theorem setRunning_start (s : State) (c : Nat) (t : Option Nat) : (setRunning s c t).start = s.start := rfl
@[simp] theorem setRunning_efuse (s : State) (c : Nat) (t : Option Nat) : (setRunning s c t).efuse = s.efuse := rfl
@[simp] theorem setRunning_boot (s : State) (c : Nat) (t : Option Nat) : (setRunning s c t).boot = s.boot := rfl
@[simp] theorem setRunning_power (s : State) (c : Nat) (t : Option Nat) : (setRunning s c t).power = s.power := rfl
@[simp] theorem setRunning_clock (s : State) (c : Nat) (t : Option Nat) : (setRunning s c t).clock = s.clock := rfl
@[simp] theorem setRunning_rtc (s : State) (c : Nat) (t : Option Nat) : (setRunning s c t).rtc = s.rtc := rfl
@[simp] theorem setRunning_cle (s : State) (c : Nat) (t : Option Nat) : (setRunning s c t).cle = s.cle := rfl
@[simp] theorem setRunning_ecc (s : State) (c : Nat) (t : Option Nat) : (setRunning s c t).ecc = s.ecc := rfl
@[simp] theorem setRunning_memSys (s : State) (c : Nat) (t : Option Nat) : (setRunning s c t).memSys = s.memSys := rfl
@[simp] theorem setRunning_mmu (s : State) (c : Nat) (t : Option Nat) : (setRunning s c t).mmu = s.mmu := rfl
@[simp] theorem setRunning_dma (s : State) (c : Nat) (t : Option Nat) : (setRunning s c t).dma = s.dma := rfl
@[simp] theorem setRunning_cores (s : State) (c : Nat) (t : Option Nat) : (setRunning s c t).cores = s.cores := rfl
@[simp] theorem setRunning_prism (s : State) (c : Nat) (t : Option Nat) : (setRunning s c t).prism = s.prism := rfl
@[simp] theorem setRunning_mtr (s : State) (c : Nat) (t : Option Nat) : (setRunning s c t).mtr = s.mtr := rfl
@[simp] theorem setRunning_mxe (s : State) (c : Nat) (t : Option Nat) : (setRunning s c t).mxe = s.mxe := rfl
@[simp] theorem setRunning_rxe (s : State) (c : Nat) (t : Option Nat) : (setRunning s c t).rxe = s.rxe := rfl
@[simp] theorem setRunning_safe (s : State) (c : Nat) (t : Option Nat) : (setRunning s c t).safe = s.safe := rfl
@[simp] theorem setRunning_mirror (s : State) (c : Nat) (t : Option Nat) : (setRunning s c t).mirror = s.mirror := rfl
@[simp] theorem setRunning_agl (s : State) (c : Nat) (t : Option Nat) : (setRunning s c t).agl = s.agl := rfl
@[simp] theorem setRunning_keys (s : State) (c : Nat) (t : Option Nat) : (setRunning s c t).keys = s.keys := rfl
@[simp] theorem setRunning_lantern (s : State) (c : Nat) (t : Option Nat) : (setRunning s c t).lantern = s.lantern := rfl
@[simp] theorem setRunning_eth (s : State) (c : Nat) (t : Option Nat) : (setRunning s c t).eth = s.eth := rfl
@[simp] theorem setRunning_can (s : State) (c : Nat) (t : Option Nat) : (setRunning s c t).can = s.can := rfl
@[simp] theorem setRunning_handed (s : State) (c : Nat) (t : Option Nat) : (setRunning s c t).handed = s.handed := rfl
@[simp] theorem setRunning_hostErr (s : State) (c : Nat) (t : Option Nat) : (setRunning s c t).hostErr = s.hostErr := rfl
@[simp] theorem setRunning_swWrites (s : State) (c : Nat) (t : Option Nat) : (setRunning s c t).swWrites = s.swWrites := rfl
@[simp] theorem setRunning_l1 (s : State) (c : Nat) (t : Option Nat) : (setRunning s c t).l1 = s.l1 := rfl
@[simp] theorem setRunning_dmaIssue (s : State) (c : Nat) (t : Option Nat) : (setRunning s c t).dmaIssue = s.dmaIssue := rfl
@[simp] theorem setRunning_rd (s : State) (c : Nat) (t : Option Nat) (x : Nat) : rd (setRunning s c t) x = rd s x := rfl
@[simp] theorem setRunning_rdn (s : State) (c : Nat) (t : Option Nat) (x : Nat) : rdn (setRunning s c t) x = rdn s x := rfl
@[simp] theorem setRunning_fld (s : State) (c : Nat) (t : Option Nat) (x : Nat) (h : Field) : fld (setRunning s c t) x h = fld s x h := rfl
@[simp] theorem setRunning_flag (s : State) (c : Nat) (t : Option Nat) (x : Nat) (h : Field) : flag (setRunning s c t) x h = flag s x h := rfl

/-! ### setCore -/

@[simp] theorem setCore_pending (s : State) (c : Nat) (f : CoreCtx → CoreCtx) : (setCore s c f).pending = s.pending := rfl
@[simp] theorem setCore_now (s : State) (c : Nat) (f : CoreCtx → CoreCtx) : (setCore s c f).now = s.now := rfl
@[simp] theorem setCore_free (s : State) (c : Nat) (f : CoreCtx → CoreCtx) : (setCore s c f).free = s.free := rfl
@[simp] theorem setCore_rdata (s : State) (c : Nat) (f : CoreCtx → CoreCtx) : (setCore s c f).rdata = s.rdata := rfl
@[simp] theorem setCore_regs (s : State) (c : Nat) (f : CoreCtx → CoreCtx) : (setCore s c f).regs = s.regs := rfl
@[simp] theorem setCore_mem (s : State) (c : Nat) (f : CoreCtx → CoreCtx) : (setCore s c f).mem = s.mem := rfl
@[simp] theorem setCore_cleRam (s : State) (c : Nat) (f : CoreCtx → CoreCtx) : (setCore s c f).cleRam = s.cleRam := rfl
@[simp] theorem setCore_canRam (s : State) (c : Nat) (f : CoreCtx → CoreCtx) : (setCore s c f).canRam = s.canRam := rfl
@[simp] theorem setCore_pkey (s : State) (c : Nat) (f : CoreCtx → CoreCtx) : (setCore s c f).pkey = s.pkey := rfl
@[simp] theorem setCore_sem (s : State) (c : Nat) (f : CoreCtx → CoreCtx) : (setCore s c f).sem = s.sem := rfl
@[simp] theorem setCore_arb (s : State) (c : Nat) (f : CoreCtx → CoreCtx) : (setCore s c f).arb = s.arb := rfl
@[simp] theorem setCore_start (s : State) (c : Nat) (f : CoreCtx → CoreCtx) : (setCore s c f).start = s.start := rfl
@[simp] theorem setCore_efuse (s : State) (c : Nat) (f : CoreCtx → CoreCtx) : (setCore s c f).efuse = s.efuse := rfl
@[simp] theorem setCore_boot (s : State) (c : Nat) (f : CoreCtx → CoreCtx) : (setCore s c f).boot = s.boot := rfl
@[simp] theorem setCore_power (s : State) (c : Nat) (f : CoreCtx → CoreCtx) : (setCore s c f).power = s.power := rfl
@[simp] theorem setCore_clock (s : State) (c : Nat) (f : CoreCtx → CoreCtx) : (setCore s c f).clock = s.clock := rfl
@[simp] theorem setCore_rtc (s : State) (c : Nat) (f : CoreCtx → CoreCtx) : (setCore s c f).rtc = s.rtc := rfl
@[simp] theorem setCore_cyc (s : State) (c : Nat) (f : CoreCtx → CoreCtx) : (setCore s c f).cyc = s.cyc := rfl
@[simp] theorem setCore_cle (s : State) (c : Nat) (f : CoreCtx → CoreCtx) : (setCore s c f).cle = s.cle := rfl
@[simp] theorem setCore_ecc (s : State) (c : Nat) (f : CoreCtx → CoreCtx) : (setCore s c f).ecc = s.ecc := rfl
@[simp] theorem setCore_memSys (s : State) (c : Nat) (f : CoreCtx → CoreCtx) : (setCore s c f).memSys = s.memSys := rfl
@[simp] theorem setCore_mmu (s : State) (c : Nat) (f : CoreCtx → CoreCtx) : (setCore s c f).mmu = s.mmu := rfl
@[simp] theorem setCore_dma (s : State) (c : Nat) (f : CoreCtx → CoreCtx) : (setCore s c f).dma = s.dma := rfl
@[simp] theorem setCore_prism (s : State) (c : Nat) (f : CoreCtx → CoreCtx) : (setCore s c f).prism = s.prism := rfl
@[simp] theorem setCore_mtr (s : State) (c : Nat) (f : CoreCtx → CoreCtx) : (setCore s c f).mtr = s.mtr := rfl
@[simp] theorem setCore_mxe (s : State) (c : Nat) (f : CoreCtx → CoreCtx) : (setCore s c f).mxe = s.mxe := rfl
@[simp] theorem setCore_rxe (s : State) (c : Nat) (f : CoreCtx → CoreCtx) : (setCore s c f).rxe = s.rxe := rfl
@[simp] theorem setCore_safe (s : State) (c : Nat) (f : CoreCtx → CoreCtx) : (setCore s c f).safe = s.safe := rfl
@[simp] theorem setCore_mirror (s : State) (c : Nat) (f : CoreCtx → CoreCtx) : (setCore s c f).mirror = s.mirror := rfl
@[simp] theorem setCore_agl (s : State) (c : Nat) (f : CoreCtx → CoreCtx) : (setCore s c f).agl = s.agl := rfl
@[simp] theorem setCore_keys (s : State) (c : Nat) (f : CoreCtx → CoreCtx) : (setCore s c f).keys = s.keys := rfl
@[simp] theorem setCore_lantern (s : State) (c : Nat) (f : CoreCtx → CoreCtx) : (setCore s c f).lantern = s.lantern := rfl
@[simp] theorem setCore_eth (s : State) (c : Nat) (f : CoreCtx → CoreCtx) : (setCore s c f).eth = s.eth := rfl
@[simp] theorem setCore_can (s : State) (c : Nat) (f : CoreCtx → CoreCtx) : (setCore s c f).can = s.can := rfl
@[simp] theorem setCore_handed (s : State) (c : Nat) (f : CoreCtx → CoreCtx) : (setCore s c f).handed = s.handed := rfl
@[simp] theorem setCore_hostErr (s : State) (c : Nat) (f : CoreCtx → CoreCtx) : (setCore s c f).hostErr = s.hostErr := rfl
@[simp] theorem setCore_swWrites (s : State) (c : Nat) (f : CoreCtx → CoreCtx) : (setCore s c f).swWrites = s.swWrites := rfl
@[simp] theorem setCore_l1 (s : State) (c : Nat) (f : CoreCtx → CoreCtx) : (setCore s c f).l1 = s.l1 := rfl
@[simp] theorem setCore_dmaIssue (s : State) (c : Nat) (f : CoreCtx → CoreCtx) : (setCore s c f).dmaIssue = s.dmaIssue := rfl
@[simp] theorem setCore_rd (s : State) (c : Nat) (f : CoreCtx → CoreCtx) (x : Nat) : rd (setCore s c f) x = rd s x := rfl
@[simp] theorem setCore_rdn (s : State) (c : Nat) (f : CoreCtx → CoreCtx) (x : Nat) : rdn (setCore s c f) x = rdn s x := rfl
@[simp] theorem setCore_fld (s : State) (c : Nat) (f : CoreCtx → CoreCtx) (x : Nat) (h : Field) : fld (setCore s c f) x h = fld s x h := rfl
@[simp] theorem setCore_flag (s : State) (c : Nat) (f : CoreCtx → CoreCtx) (x : Nat) (h : Field) : flag (setCore s c f) x h = flag s x h := rfl

/-! ### setChan -/

@[simp] theorem setChan_pending (s : State) (ch : Nat) (c : DmaChan) : (setChan s ch c).pending = s.pending := rfl
@[simp] theorem setChan_now (s : State) (ch : Nat) (c : DmaChan) : (setChan s ch c).now = s.now := rfl
@[simp] theorem setChan_free (s : State) (ch : Nat) (c : DmaChan) : (setChan s ch c).free = s.free := rfl
@[simp] theorem setChan_rdata (s : State) (ch : Nat) (c : DmaChan) : (setChan s ch c).rdata = s.rdata := rfl
@[simp] theorem setChan_regs (s : State) (ch : Nat) (c : DmaChan) : (setChan s ch c).regs = s.regs := rfl
@[simp] theorem setChan_mem (s : State) (ch : Nat) (c : DmaChan) : (setChan s ch c).mem = s.mem := rfl
@[simp] theorem setChan_cleRam (s : State) (ch : Nat) (c : DmaChan) : (setChan s ch c).cleRam = s.cleRam := rfl
@[simp] theorem setChan_canRam (s : State) (ch : Nat) (c : DmaChan) : (setChan s ch c).canRam = s.canRam := rfl
@[simp] theorem setChan_pkey (s : State) (ch : Nat) (c : DmaChan) : (setChan s ch c).pkey = s.pkey := rfl
@[simp] theorem setChan_sem (s : State) (ch : Nat) (c : DmaChan) : (setChan s ch c).sem = s.sem := rfl
@[simp] theorem setChan_arb (s : State) (ch : Nat) (c : DmaChan) : (setChan s ch c).arb = s.arb := rfl
@[simp] theorem setChan_start (s : State) (ch : Nat) (c : DmaChan) : (setChan s ch c).start = s.start := rfl
@[simp] theorem setChan_efuse (s : State) (ch : Nat) (c : DmaChan) : (setChan s ch c).efuse = s.efuse := rfl
@[simp] theorem setChan_boot (s : State) (ch : Nat) (c : DmaChan) : (setChan s ch c).boot = s.boot := rfl
@[simp] theorem setChan_power (s : State) (ch : Nat) (c : DmaChan) : (setChan s ch c).power = s.power := rfl
@[simp] theorem setChan_clock (s : State) (ch : Nat) (c : DmaChan) : (setChan s ch c).clock = s.clock := rfl
@[simp] theorem setChan_rtc (s : State) (ch : Nat) (c : DmaChan) : (setChan s ch c).rtc = s.rtc := rfl
@[simp] theorem setChan_cyc (s : State) (ch : Nat) (c : DmaChan) : (setChan s ch c).cyc = s.cyc := rfl
@[simp] theorem setChan_cle (s : State) (ch : Nat) (c : DmaChan) : (setChan s ch c).cle = s.cle := rfl
@[simp] theorem setChan_ecc (s : State) (ch : Nat) (c : DmaChan) : (setChan s ch c).ecc = s.ecc := rfl
@[simp] theorem setChan_memSys (s : State) (ch : Nat) (c : DmaChan) : (setChan s ch c).memSys = s.memSys := rfl
@[simp] theorem setChan_mmu (s : State) (ch : Nat) (c : DmaChan) : (setChan s ch c).mmu = s.mmu := rfl
@[simp] theorem setChan_cores (s : State) (ch : Nat) (c : DmaChan) : (setChan s ch c).cores = s.cores := rfl
@[simp] theorem setChan_prism (s : State) (ch : Nat) (c : DmaChan) : (setChan s ch c).prism = s.prism := rfl
@[simp] theorem setChan_mtr (s : State) (ch : Nat) (c : DmaChan) : (setChan s ch c).mtr = s.mtr := rfl
@[simp] theorem setChan_mxe (s : State) (ch : Nat) (c : DmaChan) : (setChan s ch c).mxe = s.mxe := rfl
@[simp] theorem setChan_rxe (s : State) (ch : Nat) (c : DmaChan) : (setChan s ch c).rxe = s.rxe := rfl
@[simp] theorem setChan_safe (s : State) (ch : Nat) (c : DmaChan) : (setChan s ch c).safe = s.safe := rfl
@[simp] theorem setChan_mirror (s : State) (ch : Nat) (c : DmaChan) : (setChan s ch c).mirror = s.mirror := rfl
@[simp] theorem setChan_agl (s : State) (ch : Nat) (c : DmaChan) : (setChan s ch c).agl = s.agl := rfl
@[simp] theorem setChan_keys (s : State) (ch : Nat) (c : DmaChan) : (setChan s ch c).keys = s.keys := rfl
@[simp] theorem setChan_lantern (s : State) (ch : Nat) (c : DmaChan) : (setChan s ch c).lantern = s.lantern := rfl
@[simp] theorem setChan_eth (s : State) (ch : Nat) (c : DmaChan) : (setChan s ch c).eth = s.eth := rfl
@[simp] theorem setChan_can (s : State) (ch : Nat) (c : DmaChan) : (setChan s ch c).can = s.can := rfl
@[simp] theorem setChan_handed (s : State) (ch : Nat) (c : DmaChan) : (setChan s ch c).handed = s.handed := rfl
@[simp] theorem setChan_hostErr (s : State) (ch : Nat) (c : DmaChan) : (setChan s ch c).hostErr = s.hostErr := rfl
@[simp] theorem setChan_swWrites (s : State) (ch : Nat) (c : DmaChan) : (setChan s ch c).swWrites = s.swWrites := rfl
@[simp] theorem setChan_l1 (s : State) (ch : Nat) (c : DmaChan) : (setChan s ch c).l1 = s.l1 := rfl
@[simp] theorem setChan_dmaIssue (s : State) (ch : Nat) (c : DmaChan) : (setChan s ch c).dmaIssue = s.dmaIssue := rfl
@[simp] theorem setChan_rd (s : State) (ch : Nat) (c : DmaChan) (x : Nat) : rd (setChan s ch c) x = rd s x := rfl
@[simp] theorem setChan_rdn (s : State) (ch : Nat) (c : DmaChan) (x : Nat) : rdn (setChan s ch c) x = rdn s x := rfl
@[simp] theorem setChan_fld (s : State) (ch : Nat) (c : DmaChan) (x : Nat) (h : Field) : fld (setChan s ch c) x h = fld s x h := rfl
@[simp] theorem setChan_flag (s : State) (ch : Nat) (c : DmaChan) (x : Nat) (h : Field) : flag (setChan s ch c) x h = flag s x h := rfl

/-! ### setEcc -/

@[simp] theorem setEcc_pending (s : State) (w : Nat) (e : EccWord) : (setEcc s w e).pending = s.pending := rfl
@[simp] theorem setEcc_now (s : State) (w : Nat) (e : EccWord) : (setEcc s w e).now = s.now := rfl
@[simp] theorem setEcc_free (s : State) (w : Nat) (e : EccWord) : (setEcc s w e).free = s.free := rfl
@[simp] theorem setEcc_rdata (s : State) (w : Nat) (e : EccWord) : (setEcc s w e).rdata = s.rdata := rfl
@[simp] theorem setEcc_regs (s : State) (w : Nat) (e : EccWord) : (setEcc s w e).regs = s.regs := rfl
@[simp] theorem setEcc_mem (s : State) (w : Nat) (e : EccWord) : (setEcc s w e).mem = s.mem := rfl
@[simp] theorem setEcc_cleRam (s : State) (w : Nat) (e : EccWord) : (setEcc s w e).cleRam = s.cleRam := rfl
@[simp] theorem setEcc_canRam (s : State) (w : Nat) (e : EccWord) : (setEcc s w e).canRam = s.canRam := rfl
@[simp] theorem setEcc_pkey (s : State) (w : Nat) (e : EccWord) : (setEcc s w e).pkey = s.pkey := rfl
@[simp] theorem setEcc_sem (s : State) (w : Nat) (e : EccWord) : (setEcc s w e).sem = s.sem := rfl
@[simp] theorem setEcc_arb (s : State) (w : Nat) (e : EccWord) : (setEcc s w e).arb = s.arb := rfl
@[simp] theorem setEcc_start (s : State) (w : Nat) (e : EccWord) : (setEcc s w e).start = s.start := rfl
@[simp] theorem setEcc_efuse (s : State) (w : Nat) (e : EccWord) : (setEcc s w e).efuse = s.efuse := rfl
@[simp] theorem setEcc_boot (s : State) (w : Nat) (e : EccWord) : (setEcc s w e).boot = s.boot := rfl
@[simp] theorem setEcc_power (s : State) (w : Nat) (e : EccWord) : (setEcc s w e).power = s.power := rfl
@[simp] theorem setEcc_clock (s : State) (w : Nat) (e : EccWord) : (setEcc s w e).clock = s.clock := rfl
@[simp] theorem setEcc_rtc (s : State) (w : Nat) (e : EccWord) : (setEcc s w e).rtc = s.rtc := rfl
@[simp] theorem setEcc_cyc (s : State) (w : Nat) (e : EccWord) : (setEcc s w e).cyc = s.cyc := rfl
@[simp] theorem setEcc_cle (s : State) (w : Nat) (e : EccWord) : (setEcc s w e).cle = s.cle := rfl
@[simp] theorem setEcc_memSys (s : State) (w : Nat) (e : EccWord) : (setEcc s w e).memSys = s.memSys := rfl
@[simp] theorem setEcc_mmu (s : State) (w : Nat) (e : EccWord) : (setEcc s w e).mmu = s.mmu := rfl
@[simp] theorem setEcc_dma (s : State) (w : Nat) (e : EccWord) : (setEcc s w e).dma = s.dma := rfl
@[simp] theorem setEcc_cores (s : State) (w : Nat) (e : EccWord) : (setEcc s w e).cores = s.cores := rfl
@[simp] theorem setEcc_prism (s : State) (w : Nat) (e : EccWord) : (setEcc s w e).prism = s.prism := rfl
@[simp] theorem setEcc_mtr (s : State) (w : Nat) (e : EccWord) : (setEcc s w e).mtr = s.mtr := rfl
@[simp] theorem setEcc_mxe (s : State) (w : Nat) (e : EccWord) : (setEcc s w e).mxe = s.mxe := rfl
@[simp] theorem setEcc_rxe (s : State) (w : Nat) (e : EccWord) : (setEcc s w e).rxe = s.rxe := rfl
@[simp] theorem setEcc_safe (s : State) (w : Nat) (e : EccWord) : (setEcc s w e).safe = s.safe := rfl
@[simp] theorem setEcc_mirror (s : State) (w : Nat) (e : EccWord) : (setEcc s w e).mirror = s.mirror := rfl
@[simp] theorem setEcc_agl (s : State) (w : Nat) (e : EccWord) : (setEcc s w e).agl = s.agl := rfl
@[simp] theorem setEcc_keys (s : State) (w : Nat) (e : EccWord) : (setEcc s w e).keys = s.keys := rfl
@[simp] theorem setEcc_lantern (s : State) (w : Nat) (e : EccWord) : (setEcc s w e).lantern = s.lantern := rfl
@[simp] theorem setEcc_eth (s : State) (w : Nat) (e : EccWord) : (setEcc s w e).eth = s.eth := rfl
@[simp] theorem setEcc_can (s : State) (w : Nat) (e : EccWord) : (setEcc s w e).can = s.can := rfl
@[simp] theorem setEcc_handed (s : State) (w : Nat) (e : EccWord) : (setEcc s w e).handed = s.handed := rfl
@[simp] theorem setEcc_hostErr (s : State) (w : Nat) (e : EccWord) : (setEcc s w e).hostErr = s.hostErr := rfl
@[simp] theorem setEcc_swWrites (s : State) (w : Nat) (e : EccWord) : (setEcc s w e).swWrites = s.swWrites := rfl
@[simp] theorem setEcc_l1 (s : State) (w : Nat) (e : EccWord) : (setEcc s w e).l1 = s.l1 := rfl
@[simp] theorem setEcc_dmaIssue (s : State) (w : Nat) (e : EccWord) : (setEcc s w e).dmaIssue = s.dmaIssue := rfl
@[simp] theorem setEcc_rd (s : State) (w : Nat) (e : EccWord) (x : Nat) : rd (setEcc s w e) x = rd s x := rfl
@[simp] theorem setEcc_rdn (s : State) (w : Nat) (e : EccWord) (x : Nat) : rdn (setEcc s w e) x = rdn s x := rfl
@[simp] theorem setEcc_fld (s : State) (w : Nat) (e : EccWord) (x : Nat) (h : Field) : fld (setEcc s w e) x h = fld s x h := rfl
@[simp] theorem setEcc_flag (s : State) (w : Nat) (e : EccWord) (x : Nat) (h : Field) : flag (setEcc s w e) x h = flag s x h := rfl

/-! ### setCan -/

@[simp] theorem setCan_pending (s : State) (c : Nat) (f : CanChan → CanChan) : (setCan s c f).pending = s.pending := rfl
@[simp] theorem setCan_now (s : State) (c : Nat) (f : CanChan → CanChan) : (setCan s c f).now = s.now := rfl
@[simp] theorem setCan_free (s : State) (c : Nat) (f : CanChan → CanChan) : (setCan s c f).free = s.free := rfl
@[simp] theorem setCan_rdata (s : State) (c : Nat) (f : CanChan → CanChan) : (setCan s c f).rdata = s.rdata := rfl
@[simp] theorem setCan_regs (s : State) (c : Nat) (f : CanChan → CanChan) : (setCan s c f).regs = s.regs := rfl
@[simp] theorem setCan_mem (s : State) (c : Nat) (f : CanChan → CanChan) : (setCan s c f).mem = s.mem := rfl
@[simp] theorem setCan_cleRam (s : State) (c : Nat) (f : CanChan → CanChan) : (setCan s c f).cleRam = s.cleRam := rfl
@[simp] theorem setCan_canRam (s : State) (c : Nat) (f : CanChan → CanChan) : (setCan s c f).canRam = s.canRam := rfl
@[simp] theorem setCan_pkey (s : State) (c : Nat) (f : CanChan → CanChan) : (setCan s c f).pkey = s.pkey := rfl
@[simp] theorem setCan_sem (s : State) (c : Nat) (f : CanChan → CanChan) : (setCan s c f).sem = s.sem := rfl
@[simp] theorem setCan_arb (s : State) (c : Nat) (f : CanChan → CanChan) : (setCan s c f).arb = s.arb := rfl
@[simp] theorem setCan_start (s : State) (c : Nat) (f : CanChan → CanChan) : (setCan s c f).start = s.start := rfl
@[simp] theorem setCan_efuse (s : State) (c : Nat) (f : CanChan → CanChan) : (setCan s c f).efuse = s.efuse := rfl
@[simp] theorem setCan_boot (s : State) (c : Nat) (f : CanChan → CanChan) : (setCan s c f).boot = s.boot := rfl
@[simp] theorem setCan_power (s : State) (c : Nat) (f : CanChan → CanChan) : (setCan s c f).power = s.power := rfl
@[simp] theorem setCan_clock (s : State) (c : Nat) (f : CanChan → CanChan) : (setCan s c f).clock = s.clock := rfl
@[simp] theorem setCan_rtc (s : State) (c : Nat) (f : CanChan → CanChan) : (setCan s c f).rtc = s.rtc := rfl
@[simp] theorem setCan_cyc (s : State) (c : Nat) (f : CanChan → CanChan) : (setCan s c f).cyc = s.cyc := rfl
@[simp] theorem setCan_cle (s : State) (c : Nat) (f : CanChan → CanChan) : (setCan s c f).cle = s.cle := rfl
@[simp] theorem setCan_ecc (s : State) (c : Nat) (f : CanChan → CanChan) : (setCan s c f).ecc = s.ecc := rfl
@[simp] theorem setCan_memSys (s : State) (c : Nat) (f : CanChan → CanChan) : (setCan s c f).memSys = s.memSys := rfl
@[simp] theorem setCan_mmu (s : State) (c : Nat) (f : CanChan → CanChan) : (setCan s c f).mmu = s.mmu := rfl
@[simp] theorem setCan_dma (s : State) (c : Nat) (f : CanChan → CanChan) : (setCan s c f).dma = s.dma := rfl
@[simp] theorem setCan_cores (s : State) (c : Nat) (f : CanChan → CanChan) : (setCan s c f).cores = s.cores := rfl
@[simp] theorem setCan_prism (s : State) (c : Nat) (f : CanChan → CanChan) : (setCan s c f).prism = s.prism := rfl
@[simp] theorem setCan_mtr (s : State) (c : Nat) (f : CanChan → CanChan) : (setCan s c f).mtr = s.mtr := rfl
@[simp] theorem setCan_mxe (s : State) (c : Nat) (f : CanChan → CanChan) : (setCan s c f).mxe = s.mxe := rfl
@[simp] theorem setCan_rxe (s : State) (c : Nat) (f : CanChan → CanChan) : (setCan s c f).rxe = s.rxe := rfl
@[simp] theorem setCan_safe (s : State) (c : Nat) (f : CanChan → CanChan) : (setCan s c f).safe = s.safe := rfl
@[simp] theorem setCan_mirror (s : State) (c : Nat) (f : CanChan → CanChan) : (setCan s c f).mirror = s.mirror := rfl
@[simp] theorem setCan_agl (s : State) (c : Nat) (f : CanChan → CanChan) : (setCan s c f).agl = s.agl := rfl
@[simp] theorem setCan_keys (s : State) (c : Nat) (f : CanChan → CanChan) : (setCan s c f).keys = s.keys := rfl
@[simp] theorem setCan_lantern (s : State) (c : Nat) (f : CanChan → CanChan) : (setCan s c f).lantern = s.lantern := rfl
@[simp] theorem setCan_eth (s : State) (c : Nat) (f : CanChan → CanChan) : (setCan s c f).eth = s.eth := rfl
@[simp] theorem setCan_handed (s : State) (c : Nat) (f : CanChan → CanChan) : (setCan s c f).handed = s.handed := rfl
@[simp] theorem setCan_hostErr (s : State) (c : Nat) (f : CanChan → CanChan) : (setCan s c f).hostErr = s.hostErr := rfl
@[simp] theorem setCan_swWrites (s : State) (c : Nat) (f : CanChan → CanChan) : (setCan s c f).swWrites = s.swWrites := rfl
@[simp] theorem setCan_l1 (s : State) (c : Nat) (f : CanChan → CanChan) : (setCan s c f).l1 = s.l1 := rfl
@[simp] theorem setCan_dmaIssue (s : State) (c : Nat) (f : CanChan → CanChan) : (setCan s c f).dmaIssue = s.dmaIssue := rfl
@[simp] theorem setCan_rd (s : State) (c : Nat) (f : CanChan → CanChan) (x : Nat) : rd (setCan s c f) x = rd s x := rfl
@[simp] theorem setCan_rdn (s : State) (c : Nat) (f : CanChan → CanChan) (x : Nat) : rdn (setCan s c f) x = rdn s x := rfl
@[simp] theorem setCan_fld (s : State) (c : Nat) (f : CanChan → CanChan) (x : Nat) (h : Field) : fld (setCan s c f) x h = fld s x h := rfl
@[simp] theorem setCan_flag (s : State) (c : Nat) (f : CanChan → CanChan) (x : Nat) (h : Field) : flag (setCan s c f) x h = flag s x h := rfl

/-! ### answer -/

@[simp] theorem answer_pending (s : State) (ws : List Word) : (answer s ws).pending = s.pending := rfl
@[simp] theorem answer_now (s : State) (ws : List Word) : (answer s ws).now = s.now := rfl
@[simp] theorem answer_free (s : State) (ws : List Word) : (answer s ws).free = s.free := rfl
@[simp] theorem answer_rdata (s : State) (ws : List Word) : (answer s ws).rdata = ws := rfl
@[simp] theorem answer_regs (s : State) (ws : List Word) : (answer s ws).regs = s.regs := rfl
@[simp] theorem answer_mem (s : State) (ws : List Word) : (answer s ws).mem = s.mem := rfl
@[simp] theorem answer_cleRam (s : State) (ws : List Word) : (answer s ws).cleRam = s.cleRam := rfl
@[simp] theorem answer_canRam (s : State) (ws : List Word) : (answer s ws).canRam = s.canRam := rfl
@[simp] theorem answer_pkey (s : State) (ws : List Word) : (answer s ws).pkey = s.pkey := rfl
@[simp] theorem answer_sem (s : State) (ws : List Word) : (answer s ws).sem = s.sem := rfl
@[simp] theorem answer_arb (s : State) (ws : List Word) : (answer s ws).arb = s.arb := rfl
@[simp] theorem answer_start (s : State) (ws : List Word) : (answer s ws).start = s.start := rfl
@[simp] theorem answer_efuse (s : State) (ws : List Word) : (answer s ws).efuse = s.efuse := rfl
@[simp] theorem answer_boot (s : State) (ws : List Word) : (answer s ws).boot = s.boot := rfl
@[simp] theorem answer_power (s : State) (ws : List Word) : (answer s ws).power = s.power := rfl
@[simp] theorem answer_clock (s : State) (ws : List Word) : (answer s ws).clock = s.clock := rfl
@[simp] theorem answer_rtc (s : State) (ws : List Word) : (answer s ws).rtc = s.rtc := rfl
@[simp] theorem answer_cyc (s : State) (ws : List Word) : (answer s ws).cyc = s.cyc := rfl
@[simp] theorem answer_cle (s : State) (ws : List Word) : (answer s ws).cle = s.cle := rfl
@[simp] theorem answer_ecc (s : State) (ws : List Word) : (answer s ws).ecc = s.ecc := rfl
@[simp] theorem answer_memSys (s : State) (ws : List Word) : (answer s ws).memSys = s.memSys := rfl
@[simp] theorem answer_mmu (s : State) (ws : List Word) : (answer s ws).mmu = s.mmu := rfl
@[simp] theorem answer_dma (s : State) (ws : List Word) : (answer s ws).dma = s.dma := rfl
@[simp] theorem answer_cores (s : State) (ws : List Word) : (answer s ws).cores = s.cores := rfl
@[simp] theorem answer_prism (s : State) (ws : List Word) : (answer s ws).prism = s.prism := rfl
@[simp] theorem answer_mtr (s : State) (ws : List Word) : (answer s ws).mtr = s.mtr := rfl
@[simp] theorem answer_mxe (s : State) (ws : List Word) : (answer s ws).mxe = s.mxe := rfl
@[simp] theorem answer_rxe (s : State) (ws : List Word) : (answer s ws).rxe = s.rxe := rfl
@[simp] theorem answer_safe (s : State) (ws : List Word) : (answer s ws).safe = s.safe := rfl
@[simp] theorem answer_mirror (s : State) (ws : List Word) : (answer s ws).mirror = s.mirror := rfl
@[simp] theorem answer_agl (s : State) (ws : List Word) : (answer s ws).agl = s.agl := rfl
@[simp] theorem answer_keys (s : State) (ws : List Word) : (answer s ws).keys = s.keys := rfl
@[simp] theorem answer_lantern (s : State) (ws : List Word) : (answer s ws).lantern = s.lantern := rfl
@[simp] theorem answer_eth (s : State) (ws : List Word) : (answer s ws).eth = s.eth := rfl
@[simp] theorem answer_can (s : State) (ws : List Word) : (answer s ws).can = s.can := rfl
@[simp] theorem answer_handed (s : State) (ws : List Word) : (answer s ws).handed = s.handed := rfl
@[simp] theorem answer_hostErr (s : State) (ws : List Word) : (answer s ws).hostErr = s.hostErr := rfl
@[simp] theorem answer_swWrites (s : State) (ws : List Word) : (answer s ws).swWrites = s.swWrites := rfl
@[simp] theorem answer_l1 (s : State) (ws : List Word) : (answer s ws).l1 = s.l1 := rfl
@[simp] theorem answer_dmaIssue (s : State) (ws : List Word) : (answer s ws).dmaIssue = s.dmaIssue := rfl
@[simp] theorem answer_rd (s : State) (ws : List Word) (x : Nat) : rd (answer s ws) x = rd s x := rfl
@[simp] theorem answer_rdn (s : State) (ws : List Word) (x : Nat) : rdn (answer s ws) x = rdn s x := rfl
@[simp] theorem answer_fld (s : State) (ws : List Word) (x : Nat) (h : Field) : fld (answer s ws) x h = fld s x h := rfl
@[simp] theorem answer_flag (s : State) (ws : List Word) (x : Nat) (h : Field) : flag (answer s ws) x h = flag s x h := rfl

/-! ### setQueue -/

@[simp] theorem setQueue_pending (s : State) (k q : Nat) (fs : List TxFrame) : (setQueue s k q fs).pending = s.pending := rfl
@[simp] theorem setQueue_now (s : State) (k q : Nat) (fs : List TxFrame) : (setQueue s k q fs).now = s.now := rfl
@[simp] theorem setQueue_free (s : State) (k q : Nat) (fs : List TxFrame) : (setQueue s k q fs).free = s.free := rfl
@[simp] theorem setQueue_rdata (s : State) (k q : Nat) (fs : List TxFrame) : (setQueue s k q fs).rdata = s.rdata := rfl
@[simp] theorem setQueue_regs (s : State) (k q : Nat) (fs : List TxFrame) : (setQueue s k q fs).regs = s.regs := rfl
@[simp] theorem setQueue_mem (s : State) (k q : Nat) (fs : List TxFrame) : (setQueue s k q fs).mem = s.mem := rfl
@[simp] theorem setQueue_cleRam (s : State) (k q : Nat) (fs : List TxFrame) : (setQueue s k q fs).cleRam = s.cleRam := rfl
@[simp] theorem setQueue_canRam (s : State) (k q : Nat) (fs : List TxFrame) : (setQueue s k q fs).canRam = s.canRam := rfl
@[simp] theorem setQueue_pkey (s : State) (k q : Nat) (fs : List TxFrame) : (setQueue s k q fs).pkey = s.pkey := rfl
@[simp] theorem setQueue_sem (s : State) (k q : Nat) (fs : List TxFrame) : (setQueue s k q fs).sem = s.sem := rfl
@[simp] theorem setQueue_arb (s : State) (k q : Nat) (fs : List TxFrame) : (setQueue s k q fs).arb = s.arb := rfl
@[simp] theorem setQueue_start (s : State) (k q : Nat) (fs : List TxFrame) : (setQueue s k q fs).start = s.start := rfl
@[simp] theorem setQueue_efuse (s : State) (k q : Nat) (fs : List TxFrame) : (setQueue s k q fs).efuse = s.efuse := rfl
@[simp] theorem setQueue_boot (s : State) (k q : Nat) (fs : List TxFrame) : (setQueue s k q fs).boot = s.boot := rfl
@[simp] theorem setQueue_power (s : State) (k q : Nat) (fs : List TxFrame) : (setQueue s k q fs).power = s.power := rfl
@[simp] theorem setQueue_clock (s : State) (k q : Nat) (fs : List TxFrame) : (setQueue s k q fs).clock = s.clock := rfl
@[simp] theorem setQueue_rtc (s : State) (k q : Nat) (fs : List TxFrame) : (setQueue s k q fs).rtc = s.rtc := rfl
@[simp] theorem setQueue_cyc (s : State) (k q : Nat) (fs : List TxFrame) : (setQueue s k q fs).cyc = s.cyc := rfl
@[simp] theorem setQueue_cle (s : State) (k q : Nat) (fs : List TxFrame) : (setQueue s k q fs).cle = s.cle := rfl
@[simp] theorem setQueue_ecc (s : State) (k q : Nat) (fs : List TxFrame) : (setQueue s k q fs).ecc = s.ecc := rfl
@[simp] theorem setQueue_memSys (s : State) (k q : Nat) (fs : List TxFrame) : (setQueue s k q fs).memSys = s.memSys := rfl
@[simp] theorem setQueue_mmu (s : State) (k q : Nat) (fs : List TxFrame) : (setQueue s k q fs).mmu = s.mmu := rfl
@[simp] theorem setQueue_dma (s : State) (k q : Nat) (fs : List TxFrame) : (setQueue s k q fs).dma = s.dma := rfl
@[simp] theorem setQueue_cores (s : State) (k q : Nat) (fs : List TxFrame) : (setQueue s k q fs).cores = s.cores := rfl
@[simp] theorem setQueue_prism (s : State) (k q : Nat) (fs : List TxFrame) : (setQueue s k q fs).prism = s.prism := rfl
@[simp] theorem setQueue_mtr (s : State) (k q : Nat) (fs : List TxFrame) : (setQueue s k q fs).mtr = s.mtr := rfl
@[simp] theorem setQueue_mxe (s : State) (k q : Nat) (fs : List TxFrame) : (setQueue s k q fs).mxe = s.mxe := rfl
@[simp] theorem setQueue_rxe (s : State) (k q : Nat) (fs : List TxFrame) : (setQueue s k q fs).rxe = s.rxe := rfl
@[simp] theorem setQueue_safe (s : State) (k q : Nat) (fs : List TxFrame) : (setQueue s k q fs).safe = s.safe := rfl
@[simp] theorem setQueue_mirror (s : State) (k q : Nat) (fs : List TxFrame) : (setQueue s k q fs).mirror = s.mirror := rfl
@[simp] theorem setQueue_agl (s : State) (k q : Nat) (fs : List TxFrame) : (setQueue s k q fs).agl = s.agl := rfl
@[simp] theorem setQueue_keys (s : State) (k q : Nat) (fs : List TxFrame) : (setQueue s k q fs).keys = s.keys := rfl
@[simp] theorem setQueue_lantern (s : State) (k q : Nat) (fs : List TxFrame) : (setQueue s k q fs).lantern = s.lantern := rfl
@[simp] theorem setQueue_eth (s : State) (k q : Nat) (fs : List TxFrame) : (setQueue s k q fs).eth = s.eth := rfl
@[simp] theorem setQueue_can (s : State) (k q : Nat) (fs : List TxFrame) : (setQueue s k q fs).can = s.can := rfl
@[simp] theorem setQueue_rd (s : State) (k q : Nat) (fs : List TxFrame) (x : Nat) : rd (setQueue s k q fs) x = rd s x := rfl
@[simp] theorem setQueue_rdn (s : State) (k q : Nat) (fs : List TxFrame) (x : Nat) : rdn (setQueue s k q fs) x = rdn s x := rfl
@[simp] theorem setQueue_fld (s : State) (k q : Nat) (fs : List TxFrame) (x : Nat) (h : Field) : fld (setQueue s k q fs) x h = fld s x h := rfl
@[simp] theorem setQueue_flag (s : State) (k q : Nat) (fs : List TxFrame) (x : Nat) (h : Field) : flag (setQueue s k q fs) x h = flag s x h := rfl

/-! ### bad -/

@[simp] theorem bad_pending (s : State) (rule : Nat) : (bad s rule).pending = s.pending := rfl
@[simp] theorem bad_now (s : State) (rule : Nat) : (bad s rule).now = s.now := rfl
@[simp] theorem bad_free (s : State) (rule : Nat) : (bad s rule).free = s.free := rfl
@[simp] theorem bad_rdata (s : State) (rule : Nat) : (bad s rule).rdata = s.rdata := rfl
@[simp] theorem bad_mem (s : State) (rule : Nat) : (bad s rule).mem = s.mem := rfl
@[simp] theorem bad_cleRam (s : State) (rule : Nat) : (bad s rule).cleRam = s.cleRam := rfl
@[simp] theorem bad_canRam (s : State) (rule : Nat) : (bad s rule).canRam = s.canRam := rfl
@[simp] theorem bad_pkey (s : State) (rule : Nat) : (bad s rule).pkey = s.pkey := rfl
@[simp] theorem bad_sem (s : State) (rule : Nat) : (bad s rule).sem = s.sem := rfl
@[simp] theorem bad_arb (s : State) (rule : Nat) : (bad s rule).arb = s.arb := rfl
@[simp] theorem bad_start (s : State) (rule : Nat) : (bad s rule).start = s.start := rfl
@[simp] theorem bad_efuse (s : State) (rule : Nat) : (bad s rule).efuse = s.efuse := rfl
@[simp] theorem bad_boot (s : State) (rule : Nat) : (bad s rule).boot = s.boot := rfl
@[simp] theorem bad_power (s : State) (rule : Nat) : (bad s rule).power = s.power := rfl
@[simp] theorem bad_clock (s : State) (rule : Nat) : (bad s rule).clock = s.clock := rfl
@[simp] theorem bad_rtc (s : State) (rule : Nat) : (bad s rule).rtc = s.rtc := rfl
@[simp] theorem bad_cyc (s : State) (rule : Nat) : (bad s rule).cyc = s.cyc := rfl
@[simp] theorem bad_cle (s : State) (rule : Nat) : (bad s rule).cle = s.cle := rfl
@[simp] theorem bad_ecc (s : State) (rule : Nat) : (bad s rule).ecc = s.ecc := rfl
@[simp] theorem bad_memSys (s : State) (rule : Nat) : (bad s rule).memSys = s.memSys := rfl
@[simp] theorem bad_mmu (s : State) (rule : Nat) : (bad s rule).mmu = s.mmu := rfl
@[simp] theorem bad_dma (s : State) (rule : Nat) : (bad s rule).dma = s.dma := rfl
@[simp] theorem bad_cores (s : State) (rule : Nat) : (bad s rule).cores = s.cores := rfl
@[simp] theorem bad_prism (s : State) (rule : Nat) : (bad s rule).prism = s.prism := rfl
@[simp] theorem bad_mtr (s : State) (rule : Nat) : (bad s rule).mtr = s.mtr := rfl
@[simp] theorem bad_mxe (s : State) (rule : Nat) : (bad s rule).mxe = s.mxe := rfl
@[simp] theorem bad_rxe (s : State) (rule : Nat) : (bad s rule).rxe = s.rxe := rfl
@[simp] theorem bad_safe (s : State) (rule : Nat) : (bad s rule).safe = s.safe := rfl
@[simp] theorem bad_mirror (s : State) (rule : Nat) : (bad s rule).mirror = s.mirror := rfl
@[simp] theorem bad_agl (s : State) (rule : Nat) : (bad s rule).agl = s.agl := rfl
@[simp] theorem bad_keys (s : State) (rule : Nat) : (bad s rule).keys = s.keys := rfl
@[simp] theorem bad_lantern (s : State) (rule : Nat) : (bad s rule).lantern = s.lantern := rfl
@[simp] theorem bad_eth (s : State) (rule : Nat) : (bad s rule).eth = s.eth := rfl
@[simp] theorem bad_can (s : State) (rule : Nat) : (bad s rule).can = s.can := rfl
@[simp] theorem bad_handed (s : State) (rule : Nat) : (bad s rule).handed = s.handed := rfl
@[simp] theorem bad_swWrites (s : State) (rule : Nat) : (bad s rule).swWrites = s.swWrites := rfl
@[simp] theorem bad_l1 (s : State) (rule : Nat) : (bad s rule).l1 = s.l1 := rfl
@[simp] theorem bad_dmaIssue (s : State) (rule : Nat) : (bad s rule).dmaIssue = s.dmaIssue := rfl
@[simp] theorem bad_regs (s : State) (rule : Nat) : (bad s rule).regs = s.regs := rfl

/-! ### badIf -/

@[simp] theorem badIf_pending (s : State) (e : Option Nat) : (badIf s e).pending = s.pending := by cases e <;> rfl
@[simp] theorem badIf_now (s : State) (e : Option Nat) : (badIf s e).now = s.now := by cases e <;> rfl
@[simp] theorem badIf_free (s : State) (e : Option Nat) : (badIf s e).free = s.free := by cases e <;> rfl
@[simp] theorem badIf_rdata (s : State) (e : Option Nat) : (badIf s e).rdata = s.rdata := by cases e <;> rfl
@[simp] theorem badIf_mem (s : State) (e : Option Nat) : (badIf s e).mem = s.mem := by cases e <;> rfl
@[simp] theorem badIf_cleRam (s : State) (e : Option Nat) : (badIf s e).cleRam = s.cleRam := by cases e <;> rfl
@[simp] theorem badIf_canRam (s : State) (e : Option Nat) : (badIf s e).canRam = s.canRam := by cases e <;> rfl
@[simp] theorem badIf_pkey (s : State) (e : Option Nat) : (badIf s e).pkey = s.pkey := by cases e <;> rfl
@[simp] theorem badIf_sem (s : State) (e : Option Nat) : (badIf s e).sem = s.sem := by cases e <;> rfl
@[simp] theorem badIf_arb (s : State) (e : Option Nat) : (badIf s e).arb = s.arb := by cases e <;> rfl
@[simp] theorem badIf_start (s : State) (e : Option Nat) : (badIf s e).start = s.start := by cases e <;> rfl
@[simp] theorem badIf_efuse (s : State) (e : Option Nat) : (badIf s e).efuse = s.efuse := by cases e <;> rfl
@[simp] theorem badIf_boot (s : State) (e : Option Nat) : (badIf s e).boot = s.boot := by cases e <;> rfl
@[simp] theorem badIf_power (s : State) (e : Option Nat) : (badIf s e).power = s.power := by cases e <;> rfl
@[simp] theorem badIf_clock (s : State) (e : Option Nat) : (badIf s e).clock = s.clock := by cases e <;> rfl
@[simp] theorem badIf_rtc (s : State) (e : Option Nat) : (badIf s e).rtc = s.rtc := by cases e <;> rfl
@[simp] theorem badIf_cyc (s : State) (e : Option Nat) : (badIf s e).cyc = s.cyc := by cases e <;> rfl
@[simp] theorem badIf_cle (s : State) (e : Option Nat) : (badIf s e).cle = s.cle := by cases e <;> rfl
@[simp] theorem badIf_ecc (s : State) (e : Option Nat) : (badIf s e).ecc = s.ecc := by cases e <;> rfl
@[simp] theorem badIf_memSys (s : State) (e : Option Nat) : (badIf s e).memSys = s.memSys := by cases e <;> rfl
@[simp] theorem badIf_mmu (s : State) (e : Option Nat) : (badIf s e).mmu = s.mmu := by cases e <;> rfl
@[simp] theorem badIf_dma (s : State) (e : Option Nat) : (badIf s e).dma = s.dma := by cases e <;> rfl
@[simp] theorem badIf_cores (s : State) (e : Option Nat) : (badIf s e).cores = s.cores := by cases e <;> rfl
@[simp] theorem badIf_prism (s : State) (e : Option Nat) : (badIf s e).prism = s.prism := by cases e <;> rfl
@[simp] theorem badIf_mtr (s : State) (e : Option Nat) : (badIf s e).mtr = s.mtr := by cases e <;> rfl
@[simp] theorem badIf_mxe (s : State) (e : Option Nat) : (badIf s e).mxe = s.mxe := by cases e <;> rfl
@[simp] theorem badIf_rxe (s : State) (e : Option Nat) : (badIf s e).rxe = s.rxe := by cases e <;> rfl
@[simp] theorem badIf_safe (s : State) (e : Option Nat) : (badIf s e).safe = s.safe := by cases e <;> rfl
@[simp] theorem badIf_mirror (s : State) (e : Option Nat) : (badIf s e).mirror = s.mirror := by cases e <;> rfl
@[simp] theorem badIf_agl (s : State) (e : Option Nat) : (badIf s e).agl = s.agl := by cases e <;> rfl
@[simp] theorem badIf_keys (s : State) (e : Option Nat) : (badIf s e).keys = s.keys := by cases e <;> rfl
@[simp] theorem badIf_lantern (s : State) (e : Option Nat) : (badIf s e).lantern = s.lantern := by cases e <;> rfl
@[simp] theorem badIf_eth (s : State) (e : Option Nat) : (badIf s e).eth = s.eth := by cases e <;> rfl
@[simp] theorem badIf_can (s : State) (e : Option Nat) : (badIf s e).can = s.can := by cases e <;> rfl
@[simp] theorem badIf_handed (s : State) (e : Option Nat) : (badIf s e).handed = s.handed := by cases e <;> rfl
@[simp] theorem badIf_swWrites (s : State) (e : Option Nat) : (badIf s e).swWrites = s.swWrites := by cases e <;> rfl
@[simp] theorem badIf_l1 (s : State) (e : Option Nat) : (badIf s e).l1 = s.l1 := by cases e <;> rfl
@[simp] theorem badIf_dmaIssue (s : State) (e : Option Nat) : (badIf s e).dmaIssue = s.dmaIssue := by cases e <;> rfl
@[simp] theorem badIf_regs (s : State) (e : Option Nat) : (badIf s e).regs = s.regs := by cases e <;> rfl

/-! ### fabric -/

/-- An access over the fabric changes the arbiter pointers, or is a host error; nothing else. -/
theorem fabric_eq (s : State) (ini a n : Nat) :
    fabric s ini a n = { s with hostErr := (fabric s ini a n).hostErr, arb := (fabric s ini a n).arb } := by
  unfold fabric bad
  split
  · rfl
  · split
    · rfl
    · split <;> rfl

@[simp] theorem fabric_pending (s : State) (ini a n : Nat) : (fabric s ini a n).pending = s.pending := by rw [fabric_eq]
@[simp] theorem fabric_now (s : State) (ini a n : Nat) : (fabric s ini a n).now = s.now := by rw [fabric_eq]
@[simp] theorem fabric_free (s : State) (ini a n : Nat) : (fabric s ini a n).free = s.free := by rw [fabric_eq]
@[simp] theorem fabric_rdata (s : State) (ini a n : Nat) : (fabric s ini a n).rdata = s.rdata := by rw [fabric_eq]
@[simp] theorem fabric_mem (s : State) (ini a n : Nat) : (fabric s ini a n).mem = s.mem := by rw [fabric_eq]
@[simp] theorem fabric_cleRam (s : State) (ini a n : Nat) : (fabric s ini a n).cleRam = s.cleRam := by rw [fabric_eq]
@[simp] theorem fabric_canRam (s : State) (ini a n : Nat) : (fabric s ini a n).canRam = s.canRam := by rw [fabric_eq]
@[simp] theorem fabric_pkey (s : State) (ini a n : Nat) : (fabric s ini a n).pkey = s.pkey := by rw [fabric_eq]
@[simp] theorem fabric_sem (s : State) (ini a n : Nat) : (fabric s ini a n).sem = s.sem := by rw [fabric_eq]
@[simp] theorem fabric_start (s : State) (ini a n : Nat) : (fabric s ini a n).start = s.start := by rw [fabric_eq]
@[simp] theorem fabric_efuse (s : State) (ini a n : Nat) : (fabric s ini a n).efuse = s.efuse := by rw [fabric_eq]
@[simp] theorem fabric_boot (s : State) (ini a n : Nat) : (fabric s ini a n).boot = s.boot := by rw [fabric_eq]
@[simp] theorem fabric_power (s : State) (ini a n : Nat) : (fabric s ini a n).power = s.power := by rw [fabric_eq]
@[simp] theorem fabric_clock (s : State) (ini a n : Nat) : (fabric s ini a n).clock = s.clock := by rw [fabric_eq]
@[simp] theorem fabric_rtc (s : State) (ini a n : Nat) : (fabric s ini a n).rtc = s.rtc := by rw [fabric_eq]
@[simp] theorem fabric_cyc (s : State) (ini a n : Nat) : (fabric s ini a n).cyc = s.cyc := by rw [fabric_eq]
@[simp] theorem fabric_cle (s : State) (ini a n : Nat) : (fabric s ini a n).cle = s.cle := by rw [fabric_eq]
@[simp] theorem fabric_ecc (s : State) (ini a n : Nat) : (fabric s ini a n).ecc = s.ecc := by rw [fabric_eq]
@[simp] theorem fabric_memSys (s : State) (ini a n : Nat) : (fabric s ini a n).memSys = s.memSys := by rw [fabric_eq]
@[simp] theorem fabric_mmu (s : State) (ini a n : Nat) : (fabric s ini a n).mmu = s.mmu := by rw [fabric_eq]
@[simp] theorem fabric_dma (s : State) (ini a n : Nat) : (fabric s ini a n).dma = s.dma := by rw [fabric_eq]
@[simp] theorem fabric_cores (s : State) (ini a n : Nat) : (fabric s ini a n).cores = s.cores := by rw [fabric_eq]
@[simp] theorem fabric_prism (s : State) (ini a n : Nat) : (fabric s ini a n).prism = s.prism := by rw [fabric_eq]
@[simp] theorem fabric_mtr (s : State) (ini a n : Nat) : (fabric s ini a n).mtr = s.mtr := by rw [fabric_eq]
@[simp] theorem fabric_mxe (s : State) (ini a n : Nat) : (fabric s ini a n).mxe = s.mxe := by rw [fabric_eq]
@[simp] theorem fabric_rxe (s : State) (ini a n : Nat) : (fabric s ini a n).rxe = s.rxe := by rw [fabric_eq]
@[simp] theorem fabric_safe (s : State) (ini a n : Nat) : (fabric s ini a n).safe = s.safe := by rw [fabric_eq]
@[simp] theorem fabric_mirror (s : State) (ini a n : Nat) : (fabric s ini a n).mirror = s.mirror := by rw [fabric_eq]
@[simp] theorem fabric_agl (s : State) (ini a n : Nat) : (fabric s ini a n).agl = s.agl := by rw [fabric_eq]
@[simp] theorem fabric_keys (s : State) (ini a n : Nat) : (fabric s ini a n).keys = s.keys := by rw [fabric_eq]
@[simp] theorem fabric_lantern (s : State) (ini a n : Nat) : (fabric s ini a n).lantern = s.lantern := by rw [fabric_eq]
@[simp] theorem fabric_eth (s : State) (ini a n : Nat) : (fabric s ini a n).eth = s.eth := by rw [fabric_eq]
@[simp] theorem fabric_can (s : State) (ini a n : Nat) : (fabric s ini a n).can = s.can := by rw [fabric_eq]
@[simp] theorem fabric_handed (s : State) (ini a n : Nat) : (fabric s ini a n).handed = s.handed := by rw [fabric_eq]
@[simp] theorem fabric_swWrites (s : State) (ini a n : Nat) : (fabric s ini a n).swWrites = s.swWrites := by rw [fabric_eq]
@[simp] theorem fabric_l1 (s : State) (ini a n : Nat) : (fabric s ini a n).l1 = s.l1 := by rw [fabric_eq]
@[simp] theorem fabric_dmaIssue (s : State) (ini a n : Nat) : (fabric s ini a n).dmaIssue = s.dmaIssue := by rw [fabric_eq]
@[simp] theorem fabric_regs (s : State) (ini a n : Nat) : (fabric s ini a n).regs = s.regs := by rw [fabric_eq]

/-! ### granted -/

@[simp] theorem granted_pending (s : State) (ini : Fin 16) : (granted s ini).pending = s.pending := by
  unfold granted arbGrant; simp only; split <;> rfl
@[simp] theorem granted_now (s : State) (ini : Fin 16) : (granted s ini).now = s.now := by
  unfold granted arbGrant; simp only; split <;> rfl
@[simp] theorem granted_free (s : State) (ini : Fin 16) : (granted s ini).free = s.free := by
  unfold granted arbGrant; simp only; split <;> rfl
@[simp] theorem granted_rdata (s : State) (ini : Fin 16) : (granted s ini).rdata = s.rdata := by
  unfold granted arbGrant; simp only; split <;> rfl
@[simp] theorem granted_mem (s : State) (ini : Fin 16) : (granted s ini).mem = s.mem := by
  unfold granted arbGrant; simp only; split <;> rfl
@[simp] theorem granted_cleRam (s : State) (ini : Fin 16) : (granted s ini).cleRam = s.cleRam := by
  unfold granted arbGrant; simp only; split <;> rfl
@[simp] theorem granted_canRam (s : State) (ini : Fin 16) : (granted s ini).canRam = s.canRam := by
  unfold granted arbGrant; simp only; split <;> rfl
@[simp] theorem granted_pkey (s : State) (ini : Fin 16) : (granted s ini).pkey = s.pkey := by
  unfold granted arbGrant; simp only; split <;> rfl
@[simp] theorem granted_sem (s : State) (ini : Fin 16) : (granted s ini).sem = s.sem := by
  unfold granted arbGrant; simp only; split <;> rfl
@[simp] theorem granted_start (s : State) (ini : Fin 16) : (granted s ini).start = s.start := by
  unfold granted arbGrant; simp only; split <;> rfl
@[simp] theorem granted_efuse (s : State) (ini : Fin 16) : (granted s ini).efuse = s.efuse := by
  unfold granted arbGrant; simp only; split <;> rfl
@[simp] theorem granted_boot (s : State) (ini : Fin 16) : (granted s ini).boot = s.boot := by
  unfold granted arbGrant; simp only; split <;> rfl
@[simp] theorem granted_power (s : State) (ini : Fin 16) : (granted s ini).power = s.power := by
  unfold granted arbGrant; simp only; split <;> rfl
@[simp] theorem granted_clock (s : State) (ini : Fin 16) : (granted s ini).clock = s.clock := by
  unfold granted arbGrant; simp only; split <;> rfl
@[simp] theorem granted_rtc (s : State) (ini : Fin 16) : (granted s ini).rtc = s.rtc := by
  unfold granted arbGrant; simp only; split <;> rfl
@[simp] theorem granted_cyc (s : State) (ini : Fin 16) : (granted s ini).cyc = s.cyc := by
  unfold granted arbGrant; simp only; split <;> rfl
@[simp] theorem granted_cle (s : State) (ini : Fin 16) : (granted s ini).cle = s.cle := by
  unfold granted arbGrant; simp only; split <;> rfl
@[simp] theorem granted_ecc (s : State) (ini : Fin 16) : (granted s ini).ecc = s.ecc := by
  unfold granted arbGrant; simp only; split <;> rfl
@[simp] theorem granted_memSys (s : State) (ini : Fin 16) : (granted s ini).memSys = s.memSys := by
  unfold granted arbGrant; simp only; split <;> rfl
@[simp] theorem granted_mmu (s : State) (ini : Fin 16) : (granted s ini).mmu = s.mmu := by
  unfold granted arbGrant; simp only; split <;> rfl
@[simp] theorem granted_dma (s : State) (ini : Fin 16) : (granted s ini).dma = s.dma := by
  unfold granted arbGrant; simp only; split <;> rfl
@[simp] theorem granted_cores (s : State) (ini : Fin 16) : (granted s ini).cores = s.cores := by
  unfold granted arbGrant; simp only; split <;> rfl
@[simp] theorem granted_prism (s : State) (ini : Fin 16) : (granted s ini).prism = s.prism := by
  unfold granted arbGrant; simp only; split <;> rfl
@[simp] theorem granted_mtr (s : State) (ini : Fin 16) : (granted s ini).mtr = s.mtr := by
  unfold granted arbGrant; simp only; split <;> rfl
@[simp] theorem granted_mxe (s : State) (ini : Fin 16) : (granted s ini).mxe = s.mxe := by
  unfold granted arbGrant; simp only; split <;> rfl
@[simp] theorem granted_rxe (s : State) (ini : Fin 16) : (granted s ini).rxe = s.rxe := by
  unfold granted arbGrant; simp only; split <;> rfl
@[simp] theorem granted_safe (s : State) (ini : Fin 16) : (granted s ini).safe = s.safe := by
  unfold granted arbGrant; simp only; split <;> rfl
@[simp] theorem granted_mirror (s : State) (ini : Fin 16) : (granted s ini).mirror = s.mirror := by
  unfold granted arbGrant; simp only; split <;> rfl
@[simp] theorem granted_agl (s : State) (ini : Fin 16) : (granted s ini).agl = s.agl := by
  unfold granted arbGrant; simp only; split <;> rfl
@[simp] theorem granted_keys (s : State) (ini : Fin 16) : (granted s ini).keys = s.keys := by
  unfold granted arbGrant; simp only; split <;> rfl
@[simp] theorem granted_lantern (s : State) (ini : Fin 16) : (granted s ini).lantern = s.lantern := by
  unfold granted arbGrant; simp only; split <;> rfl
@[simp] theorem granted_eth (s : State) (ini : Fin 16) : (granted s ini).eth = s.eth := by
  unfold granted arbGrant; simp only; split <;> rfl
@[simp] theorem granted_can (s : State) (ini : Fin 16) : (granted s ini).can = s.can := by
  unfold granted arbGrant; simp only; split <;> rfl
@[simp] theorem granted_handed (s : State) (ini : Fin 16) : (granted s ini).handed = s.handed := by
  unfold granted arbGrant; simp only; split <;> rfl
@[simp] theorem granted_hostErr (s : State) (ini : Fin 16) : (granted s ini).hostErr = s.hostErr := by
  unfold granted arbGrant; simp only; split <;> rfl
@[simp] theorem granted_swWrites (s : State) (ini : Fin 16) : (granted s ini).swWrites = s.swWrites := by
  unfold granted arbGrant; simp only; split <;> rfl
@[simp] theorem granted_l1 (s : State) (ini : Fin 16) : (granted s ini).l1 = s.l1 := by
  unfold granted arbGrant; simp only; split <;> rfl
@[simp] theorem granted_dmaIssue (s : State) (ini : Fin 16) : (granted s ini).dmaIssue = s.dmaIssue := by
  unfold granted arbGrant; simp only; split <;> rfl
@[simp] theorem granted_regs (s : State) (ini : Fin 16) : (granted s ini).regs = s.regs := by
  unfold granted arbGrant; simp only; split <;> rfl

end Sys2Proof.Machine
end

