-- ==== Sys2Proof/Laws/Registers.lean ====
section
/-!
SUPPORT. Registers and their fields: what is read after a write, and the shared operations of an access, said once.
-/

namespace Sys2Proof.Machine

@[simp] theorem rd_wr_self (s : State) (a : Nat) (v : Word) : rd (wr s a v) a = v := mget_mput_self _ v a s.regs

theorem rd_wr_ne (s : State) {a b : Nat} (v : Word) (h : b ≠ a) : rd (wr s a v) b = rd s b := mget_mput_ne _ _ v h s.regs

theorem rd_wr (s : State) (a b : Nat) (v : Word) : rd (wr s a v) b = if b = a then v else rd s b := by
  split
  · rename_i h
    rw [h, rd_wr_self]
  · rename_i h
    exact rd_wr_ne s v h

theorem rd_wrn (s : State) (a b v : Nat) : rd (wrn s a v) b = if b = a then BitVec.ofNat 32 v else rd s b := rd_wr s a b _

theorem rd_orReg (s : State) (a b : Nat) (m : Word) : rd (orReg s a m) b = if b = a then rd s a ||| m else rd s b :=
  rd_wr s a b _

theorem rd_setFld (s : State) (a b : Nat) (f : Field) (v : Nat) :
    rd (setFld s a f v) b = if b = a then fieldPut f (rd s a) v else rd s b := rd_wr s a b _

theorem rd_raise (s : State) (pg bit b : Nat) :
    rd (raise s pg bit) b = if b = Reg.INT_RAW pg then rd s (Reg.INT_RAW pg) ||| (1#32 <<< bit) else rd s b := rd_wr s _ b _

/-- Raising an interrupt sets its bit. -/
theorem bitAt_raise (s : State) (pg bit : Nat) (h : bit < 32) : bitAt (rd (raise s pg bit) (Reg.INT_RAW pg)) bit = true := by
  rw [rd_raise, if_pos rfl, bitAt, BitVec.getLsbD_or, BitVec.getLsbD_shiftLeft]
  simp [h]

/-! ### Fields -/

theorem fieldPut_testBit (f : Field) (w : Word) (v k : Nat) (hf : f.lo + f.width ≤ 32) (hk : k < 32) :
    (fieldPut f w v).getLsbD k =
      if f.lo ≤ k ∧ k < f.lo + f.width then v.testBit (k - f.lo) else w.getLsbD k := by
  rw [fieldPut]
  simp only [BitVec.getLsbD_or, BitVec.getLsbD_and, BitVec.getLsbD_not, BitVec.getLsbD_ofNat, Nat.testBit_shiftLeft,
    Nat.testBit_two_pow_sub_one, Nat.testBit_mod_two_pow, hk, decide_true, Bool.true_and]
  by_cases h1 : f.lo ≤ k
  · by_cases h2 : k < f.lo + f.width
    · have h3 : k - f.lo < f.width := by omega
      simp [h1, h2, h3]
    · have h3 : ¬ k - f.lo < f.width := by omega
      simp [h1, h2, h3]
  · have h3 : ¬ f.lo ≤ k := h1
    simp [h3]

theorem fieldGet_testBit (f : Field) (w : Word) (k : Nat) :
    (fieldGet f w).testBit k = (decide (k < f.width) && w.getLsbD (f.lo + k)) := by
  rw [fieldGet, Nat.testBit_mod_two_pow, Nat.testBit_shiftRight]
  rfl

/-- A field holds what was put, modulo its width. -/
theorem fieldGet_fieldPut (f : Field) (w : Word) (v : Nat) (hf : f.lo + f.width ≤ 32) :
    fieldGet f (fieldPut f w v) = v % 2 ^ f.width := by
  apply Nat.eq_of_testBit_eq
  intro k
  rw [fieldGet_testBit, Nat.testBit_mod_two_pow]
  by_cases hk : k < f.width
  · rw [fieldPut_testBit f w v _ hf (by omega), if_pos (by omega)]
    have : f.lo + k - f.lo = k := by omega
    rw [this]
  · simp [hk]

/-- A field that does not meet the one put stays. -/
theorem fieldGet_fieldPut_ne (f g : Field) (w : Word) (v : Nat) (hf : f.lo + f.width ≤ 32) (hg : g.lo + g.width ≤ 32)
    (h : g.lo + g.width ≤ f.lo ∨ f.lo + f.width ≤ g.lo) : fieldGet g (fieldPut f w v) = fieldGet g w := by
  apply Nat.eq_of_testBit_eq
  intro k
  rw [fieldGet_testBit, fieldGet_testBit]
  by_cases hk : k < g.width
  · rw [fieldPut_testBit f w v _ hf (by omega), if_neg (by omega)]
  · simp [hk]

theorem fld_setFld_self (s : State) (a : Nat) (f : Field) (v : Nat) (hf : f.lo + f.width ≤ 32) :
    fld (setFld s a f v) a f = v % 2 ^ f.width := by
  rw [fld, rd_setFld, if_pos rfl, fieldGet_fieldPut f _ v hf]

theorem fld_setFld_other (s : State) (a : Nat) (f g : Field) (v : Nat) (hf : f.lo + f.width ≤ 32) (hg : g.lo + g.width ≤ 32)
    (h : g.lo + g.width ≤ f.lo ∨ f.lo + f.width ≤ g.lo) : fld (setFld s a f v) a g = fld s a g := by
  rw [fld, rd_setFld, if_pos rfl, fieldGet_fieldPut_ne f g _ v hf hg h, fld]

theorem fld_wr_ne (s : State) {a b : Nat} (g : Field) (v : Word) (h : b ≠ a) : fld (wr s a v) b g = fld s b g := by
  rw [fld, rd_wr_ne s v h, fld]

theorem flag_setFlag_self (s : State) (a : Nat) (f : Field) (b : Bool) (hf : f.lo + f.width ≤ 32) (hw : 0 < f.width) :
    flag (setFlag s a f b) a f = b := by
  rw [flag, setFlag, fld_setFld_self s a f _ hf]
  have h : 1 < 2 ^ f.width := Nat.one_lt_two_pow (by omega)
  cases b
  · simp
  · simp [Nat.mod_eq_of_lt h]

/-! ### Frames -/

theorem KeepsRegs.rfl' (l : List Nat) (s : State) : KeepsRegs l s s := fun _ _ => rfl

theorem KeepsRegs.trans' {l : List Nat} {s t u : State} (h : KeepsRegs l s t) (k : KeepsRegs l t u) : KeepsRegs l s u :=
  fun a ha => (k a ha).trans (h a ha)

theorem KeepsRegs.mono' {l m : List Nat} {s t : State} (h : KeepsRegs l s t) (hm : ∀ a ∈ l, a ∈ m) : KeepsRegs m s t :=
  fun a ha => h a (fun q => ha (hm a q))

theorem KeepsRegs.wr' (l : List Nat) (s : State) (a : Nat) (v : Word) (h : a ∈ l) : KeepsRegs l s (wr s a v) :=
  fun _ hb => rd_wr_ne s v (fun q => hb (q ▸ h))

theorem KeepsRegs.same (l : List Nat) {s t : State} (h : t.regs = s.regs) : KeepsRegs l s t :=
  fun a _ => by rw [rd, rd, h]

theorem KeepsBlocks.trans' {l : List Nat} {s t u : State} (h : KeepsBlocks l s t) (k : KeepsBlocks l t u) : KeepsBlocks l s u :=
  fun a ha => (k a ha).trans (h a ha)

theorem KeepsBlocks.wr' (l : List Nat) (s : State) (a : Nat) (v : Word) (h : InBlocks l a) : KeepsBlocks l s (wr s a v) :=
  fun _ hb => rd_wr_ne s v (fun q => hb (q ▸ h))

theorem KeepsBlocks.same (l : List Nat) {s t : State} (h : t.regs = s.regs) : KeepsBlocks l s t :=
  fun a _ => by rw [rd, rd, h]

/-! ### Accesses -/

/-- A check answers a next state exactly where it finds no host error and what follows does. -/
theorem check_next (e : Option Nat) (r : Result) (t : State) : check e r = .next t ↔ e = none ∧ r = .next t := by
  cases e <;> simp [check]

/-- An event answers the state after it where it is due, and the state as it was otherwise. -/
theorem whenDue_next (c : Bool) (s t u : State) : whenDue c s t = .next u ↔ u = if c then t else s := by
  rw [whenDue, Host.Outcome.next.injEq, eq_comm]

/-- All that a write by software can do: a host error of the page or of the register, else its effect after the access
is granted. -/
theorem softWrite_next (ini : Fin 16) (pg off : Nat) (e : Option Nat) (s t : State) (f : State → State) :
    softWrite ini pg off e s f = .next t ↔ pageErr s pg off = none ∧ e = none ∧ t = f (granted s ini) := by
  rw [softWrite, check_next]
  cases pageErr s pg off <;> cases e <;> simp [eq_comm]

/-- A write to a page of R308 by another initiator after the release is ignored and counted; any other is as above. -/
theorem safeWrite_next (ini : Fin 16) (pg off : Nat) (e : Option Nat) (s t : State) (f : State → State) :
    safeWrite ini pg off e s f = .next t ↔ pageErr s pg off = none ∧
      ((foreignPage s ini pg = true ∧ t = safeForeign (granted s ini)) ∨
        (foreignPage s ini pg = false ∧ e = none ∧ t = f (granted s ini))) := by
  rw [safeWrite]
  cases hp : pageErr s pg off with
  | none =>
    cases hf : foreignPage s ini pg
    · simp [softWrite_next, hp]
    · simp [eq_comm]
  | some r => simp [softWrite, hp, check]

/-- An access to the registers moves an arbiter pointer and nothing else (R34). -/
theorem granted_eq (s : State) (ini : Fin 16) : granted s ini = { s with arb := (granted s ini).arb } := by
  rw [granted, arbGrant]
  split <;> rfl

@[simp] theorem granted_rd (s : State) (ini : Fin 16) (a : Nat) : rd (granted s ini) a = rd s a := by rw [rd, rd, granted_regs]

end Sys2Proof.Machine
end

