-- ==== Sys2Proof/Laws/MemOps.lean ====
section
/-!
SUPPORT. The read and the write path of memory: which parts leave memory as it is, and that stores, reads with their error
scan and flushes keep its canonical form.
-/

namespace Sys2Proof.Machine

/-- A fold of steps that leave memory leaves memory. -/
theorem foldl_mem {α : Type} (f : State → α → State) (h : ∀ s x, (f s x).mem = s.mem) (l : List α) :
    ∀ s, (l.foldl f s).mem = s.mem := by
  induction l with
  | nil => intro s; rfl
  | cons x l ih => intro s; rw [List.foldl_cons, ih, h]

/-- A fold of steps that keep the canonical form keeps it. -/
theorem foldl_wf {α : Type} (f : State → α → State) (h : ∀ s x, Memory.wf s.mem = true → Memory.wf (f s x).mem = true) (l : List α) :
    ∀ s, Memory.wf s.mem = true → Memory.wf (l.foldl f s).mem = true := by
  induction l with
  | nil => intro s hs; exact hs
  | cons x l ih => intro s hs; exact ih _ (h s x hs)

/-! ### Afterglow and the give-up -/

@[simp] theorem aglWr_mem (n : Nat) : ∀ (s : State) (r off v : Nat), (aglWr s r off n v).mem = s.mem := by
  induction n with
  | zero => intro s r off v; rfl
  | succ n ih => intro s r off v; rw [aglWr, ih]; rfl

@[simp] theorem aglPut_mem (s : State) (r off n v : Nat) : (aglPut s r off n v).mem = s.mem := aglWr_mem n s r _ v

@[simp] theorem aglPend_mem (s : State) : (aglPend s).mem = s.mem := rfl

@[simp] theorem aglTouch_mem (s : State) (r : Nat) : (aglTouch s r).mem = s.mem := by simp [aglTouch]

@[simp] theorem aglBump_mem (s : State) (r off n v : Nat) : (aglBump s r off n v).mem = s.mem := aglPut_mem s r off n _

@[simp] theorem aglExtreme_mem (s : State) (r off at0 v : Nat) : (aglExtreme s r off at0 v).mem = s.mem := by simp [aglExtreme]

theorem aglDie_mem (s : State) (t : Int) : (aglDie s t).mem = s.mem := by
  unfold aglDie
  simp only
  repeat' split
  all_goals simp

theorem aglSupply_mem (new : Bool) (s : State) (k v : Nat) : (aglSupply new s k v).mem = s.mem := by
  unfold aglSupply
  simp only
  repeat' split
  all_goals simp

@[simp] theorem aglApply_mem (s : State) (e : AglOp) : (aglApply s e).mem = s.mem := by
  cases e with
  | add r off n v => simp [aglApply]
  | put r off n v => simp [aglApply]
  | lasting e => simp only [aglApply]; split <;> simp
  | mark region row bit => simp only [aglApply]; split <;> simp
  | sample t vs =>
    simp only [aglApply]
    exact (foldl_mem (fun q (v : Nat × Nat) => aglSupply (aglFresh (aglDie s t) 4) q v.2 v.1)
      (fun q v => aglSupply_mem _ q v.2 v.1) _ _).trans (aglDie_mem s t)
  | clear r =>
    simp only [aglApply, aglTouch_mem]
    exact foldl_mem (fun q k => aglPut q r k 1 0) (fun q k => aglPut_mem q r k 1 0) _ s

/-- An event of Afterglow leaves memory, whether it is applied or waits for the load. -/
@[simp] theorem aglEvent_mem (s : State) (e : AglOp) : (aglEvent s e).mem = s.mem := by
  rw [aglEvent]
  split
  · exact aglApply_mem s e
  · rfl

@[simp] theorem aglLasting_mem (s : State) (region addr : Nat) : (aglLasting s region addr).mem = s.mem := by
  simp [aglLasting]

@[simp] theorem mirrorSend_mem (s : State) (kind extra task : Nat) (n : Option Nat) (p : List Byte) :
    (mirrorSend s kind extra task n p).mem = s.mem := by simp [mirrorSend]

@[simp] theorem setRole_mem (s : State) (r : Nat) : (setRole s r).mem = s.mem := by
  unfold setRole
  split
  · rfl
  · simp only [setMirrorFlag, raise_mem, setFlag_mem, setFld_mem]
    split <;> rfl

@[simp] theorem giveUp_mem (s : State) (cause : Nat) : (giveUp s cause).mem = s.mem := by
  unfold giveUp
  simp only
  split
  · rfl
  · rw [setMirror_mem, foldl_mem _ (fun s _ => mirrorSend_mem s 7 0 0 none []), aglEvent_mem, setMirrorFlag, setFlag_mem]
    split <;> simp

/-! ### Error words and trackers -/

@[simp] theorem setTrk_mem (s : State) (r i : Nat) (e : TrackEntry) : (setTrk s r i e).mem = s.mem := by simp [setTrk]

@[simp] theorem trkSync_mem (s : State) (r : Nat) : (trkSync s r).mem = s.mem := by simp [trkSync]

@[simp] theorem trkCheck_mem (s : State) (r i : Nat) : (trkCheck s r i).mem = s.mem := by
  unfold trkCheck
  simp only
  split <;> simp

@[simp] theorem trkCorrect_mem (s : State) (r w : Nat) : (trkCorrect s r w).mem = s.mem := by
  unfold trkCorrect
  simp only [trkSync_mem]
  repeat' split
  all_goals simp

@[simp] theorem trkArm_mem (s : State) (w : Nat) : (trkArm s w).mem = s.mem := by
  unfold trkArm
  repeat' split
  all_goals simp

@[simp] theorem recordCe_mem (s : State) (w : Nat) : (recordCe s w).mem = s.mem := by
  unfold recordCe
  split <;> simp

@[simp] theorem recordUe_mem (s : State) (w ini kind : Nat) : (recordUe s w ini kind).mem = s.mem := by
  unfold recordUe
  simp only
  repeat' split
  all_goals simp

/-- Bytes put at a word keep the canonical form of memory. -/
theorem putWord_wf (s : State) (w : Nat) (bs : List Byte) (h : Memory.wf s.mem = true) : Memory.wf (putWord s w bs).mem = true := by
  unfold putWord
  simp only
  split
  · exact putBytes_wf _ _ _ h
  · split <;> exact h

/-- Reading a word changes memory only where its errors are beyond its code: then its bytes are free values. -/
theorem scanWord_wf (s : State) (ini kind w : Nat) (h : Memory.wf s.mem = true) : Memory.wf (scanWord s ini kind w).2.mem = true := by
  unfold scanWord
  simp only
  split
  · exact h
  · rw [recordCe_mem]; exact h
  · rw [recordUe_mem]; exact h
  · split
    · rw [recordUe_mem]; exact h
    · split
      · rw [recordCe_mem]; exact putWord_wf _ _ _ h
      · exact putWord_wf _ _ _ h

theorem scanWords_wf (ini kind : Nat) (ws : List Nat) : ∀ s : State, Memory.wf s.mem = true →
    Memory.wf (scanWords ini kind ws s).2.mem = true := by
  induction ws with
  | nil => intro s h; exact h
  | cons w ws ih =>
    intro s h
    rw [scanWords]
    split
    · exact scanWord_wf s ini kind w h
    · exact ih _ (scanWord_wf s ini kind w h)

theorem readScan_wf (s : State) (ini a n : Nat) (h : Memory.wf s.mem = true) : Memory.wf (readScan s ini a n).2.mem = true :=
  scanWords_wf ini ueRead _ _ (by rw [fabric_mem]; exact h)

/-- Where no word that is read holds an error, reading is the access over the fabric and nothing else. -/
theorem readScan_clean (s : State) (ini a n : Nat) (h : eccIn s a n = []) : readScan s ini a n = (none, fabric s ini a n) := by
  rw [readScan, h, scanWords]

/-! ### The write path -/

/-- The start of a write changes the arbiter pointers, or is a host error; nothing else. -/
theorem writeBegin_eq (s : State) (ini a : Nat) (bs : List Byte) :
    writeBegin s ini a bs = { s with hostErr := (writeBegin s ini a bs).hostErr, arb := (writeBegin s ini a bs).arb } := by
  unfold writeBegin
  rw [fabric_eq]
  generalize Option.orElse _ _ = e
  cases e <;> rfl

@[simp] theorem writeBegin_mem (s : State) (ini a : Nat) (bs : List Byte) : (writeBegin s ini a bs).mem = s.mem := by
  rw [writeBegin_eq]

@[simp] theorem safeForeign_mem (s : State) : (safeForeign s).mem = s.mem := by simp [safeForeign]

@[simp] theorem flipWrite_mem (s : State) (w : Nat) (b : Bool) : (flipWrite s w b).mem = s.mem := by
  unfold flipWrite
  split
  · rfl
  · dsimp only
    rw [apply_ite State.mem, raise_mem, wrn_mem, setFlag_mem, setFlag_mem, setEcc_mem, ite_self]

@[simp] theorem wordWritten_mem (s : State) (w : Nat) : (wordWritten s w).mem = s.mem := by simp [wordWritten]

@[simp] theorem wholeWord_mem (s : State) (w : Nat) (b : Bool) : (wholeWord s w b).mem = s.mem := by simp [wholeWord]

theorem modifyWord_wf (s : State) (w ini : Nat) (b : Bool) (h : Memory.wf s.mem = true) :
    Memory.wf (modifyWord s w ini b).mem = true := by
  unfold modifyWord
  simp only [flipWrite_mem, wordWritten_mem, setEcc_mem]
  repeat' split
  all_goals first | exact h | exact scanWord_wf s ini ueRmw w h

theorem flushEntry_wf (s : State) (e : MergeEntry) (h : Memory.wf s.mem = true) : Memory.wf (flushEntry s e).mem = true := by
  unfold flushEntry
  simp only
  split
  · simpa using h
  · exact modifyWord_wf _ _ _ _ (by simpa using h)

theorem mergeWrite_wf (s : State) (ini w mask : Nat) (h : Memory.wf s.mem = true) : Memory.wf (mergeWrite s ini w mask).mem = true := by
  unfold mergeWrite
  simp only
  repeat' split
  all_goals first | simpa using h | (rw [setMem_mem]; exact flushEntry_wf _ _ h)

theorem touchWord_wf (a n ini : Nat) (s : State) (w : Nat) (h : Memory.wf s.mem = true) :
    Memory.wf (touchWord a n ini s w).mem = true := by
  unfold touchWord
  simp only
  repeat' split
  · simpa using h
  · exact mergeWrite_wf _ _ _ _ h
  · exact modifyWord_wf _ _ _ _ h

/-- A store keeps the canonical form. -/
theorem store_wf (s : State) (ini a : Nat) (bs : List Byte) (h : Memory.wf s.mem = true) : Memory.wf (store s ini a bs).mem = true := by
  have hb : Memory.wf (writeBegin s ini a bs).mem = true := by rw [writeBegin_mem]; exact h
  unfold store
  simp only
  repeat' split
  · exact hb
  · rw [safeForeign_mem]; exact hb
  · exact foldl_wf _ (fun s w => touchWord_wf a _ ini s w) _ _ (wrBytes_wf bs _ a hb)

theorem storeMram_wf (s : State) (ini a : Nat) (bs : List Byte) (h : Memory.wf s.mem = true) :
    Memory.wf (storeMram s ini a bs).mem = true :=
  foldl_wf _ (fun s w => touchWord_wf a _ ini s w) _ _ (putBytes_wf bs _ a (by rw [writeBegin_mem]; exact h))

theorem copyChecked_wf (s : State) (ini src dst n : Nat) (h : Memory.wf s.mem = true) :
    Memory.wf (copyChecked s ini src dst n).2.mem = true := by
  unfold copyChecked
  simp only
  split <;> exact store_wf _ _ _ _ (readScan_wf s ini src n h)

/-- A flush of everything an initiator has written. -/
theorem flushFor_wf (s : State) (ini : Nat) (h : Memory.wf s.mem = true) : Memory.wf (flushFor s ini).mem = true :=
  foldl_wf _ (fun s e => flushEntry_wf s e) _ s h

end Sys2Proof.Machine
end

