-- ==== Sys2Proof/Laws/Tasks.lean ====
section
/-! SUPPORT. What a task's fault does to the lists of the cyclic machine and to the host-error latch: it ends no access with a
host error, and with no other task ready it gives the core to none. -/

namespace Sys2Proof.Machine

theorem foldl_keeps {α β : Type} (g : State → β) (f : State → α → State) (h : ∀ s a, g (f s a) = g s) (l : List α) :
    ∀ s, g (l.foldl f s) = g s := by
  induction l with
  | nil => intro s; rfl
  | cons a l ih => intro s; rw [List.foldl_cons, ih, h]

theorem ifWr64_hostErr (c : Prop) [Decidable c] (s : State) (lo hi v : Nat) :
    (if c then wr64 s lo hi v else s).hostErr = s.hostErr := by
  split <;> rfl

theorem recordTrap_hostErr (s : State) (c code pc va : Nat) : (recordTrap s c code pc va).hostErr = s.hostErr := by
  rw [recordTrap, raise_hostErr, ifWr64_hostErr, wr64_hostErr, wrn_hostErr]

theorem ifWr64_cyc (c : Prop) [Decidable c] (s : State) (lo hi v : Nat) :
    (if c then wr64 s lo hi v else s).cyc = s.cyc := by
  split <;> rfl

theorem recordTrap_cyc (s : State) (c code pc va : Nat) : (recordTrap s c code pc va).cyc = s.cyc := by
  rw [recordTrap, raise_cyc, ifWr64_cyc, wr64_cyc, wrn_cyc]

theorem setDma_hostErr (s : State) (ch st : Nat) : (setDma s ch st).hostErr = s.hostErr := by
  unfold setDma
  dsimp only
  split <;> rfl

theorem dmaEnd_hostErr (s : State) (ch e : Nat) : (dmaEnd s ch e).hostErr = s.hostErr := setFld_hostErr _ _ _ _

theorem setDma_cyc (s : State) (ch st : Nat) : (setDma s ch st).cyc = s.cyc := by
  unfold setDma
  dsimp only
  split <;> rfl

theorem dmaEnd_cyc (s : State) (ch e : Nat) : (dmaEnd s ch e).cyc = s.cyc := setFld_cyc _ _ _ _

theorem dmaSettle_hostErr (s : State) (ch : Nat) : (dmaSettle s ch).hostErr = s.hostErr := by
  unfold dmaSettle
  dsimp only
  split
  · rfl
  · split
    · rfl
    · rw [setDma_hostErr, setChan_hostErr]
    · rw [dmaEnd_hostErr, setDma_hostErr, setChan_hostErr]
    · rw [dmaEnd_hostErr, setDma_hostErr, setChan_hostErr]
    · rw [wr64_hostErr, setFld_hostErr, dmaEnd_hostErr, setDma_hostErr, setChan_hostErr]

theorem dmaSettle_cyc (s : State) (ch : Nat) : (dmaSettle s ch).cyc = s.cyc := by
  unfold dmaSettle
  dsimp only
  split
  · rfl
  · split
    · rfl
    · rw [setDma_cyc, setChan_cyc]
    · rw [dmaEnd_cyc, setDma_cyc, setChan_cyc]
    · rw [dmaEnd_cyc, setDma_cyc, setChan_cyc]
    · rw [wr64_cyc, setFld_cyc, dmaEnd_cyc, setDma_cyc, setChan_cyc]

theorem dmaStop_hostErr (s : State) (ch : Nat) (x : DmaStop) : (dmaStop s ch x).hostErr = s.hostErr := by
  unfold dmaStop dmaShow dmaOut
  split
  · rfl
  · rw [setFld_hostErr, dmaSettle_hostErr, setChan_hostErr]

theorem dmaStop_cyc (s : State) (ch : Nat) (x : DmaStop) : (dmaStop s ch x).cyc = s.cyc := by
  unfold dmaStop dmaShow dmaOut
  split
  · rfl
  · rw [setFld_cyc, dmaSettle_cyc, setChan_cyc]

theorem dmaTaskCut_hostErr (s : State) (t code : Nat) : (dmaTaskCut s t code).hostErr = s.hostErr := by
  unfold dmaTaskCut
  refine foldl_keeps State.hostErr _ (fun s ch => ?_) _ s
  dsimp only
  split
  · exact dmaStop_hostErr s ch _
  · rfl

theorem dmaTaskCut_cyc (s : State) (t code : Nat) : (dmaTaskCut s t code).cyc = s.cyc := by
  unfold dmaTaskCut
  refine foldl_keeps State.cyc _ (fun s ch => ?_) _ s
  dsimp only
  split
  · exact dmaStop_cyc s ch _
  · rfl

theorem setTaskState_hostErr (s : State) (t x : Nat) : (setTaskState s t x).hostErr = s.hostErr := by
  unfold setTaskState
  dsimp only
  split
  · rfl
  · split
    · rfl
    · split <;> rfl

theorem setTaskState_cyc (s : State) (t x : Nat) : (setTaskState s t x).cyc = s.cyc := by
  unfold setTaskState
  dsimp only
  split
  · rfl
  · split
    · rfl
    · split <;> rfl

theorem stopOutputs_hostErr (s : State) (t : Nat) : (stopOutputs s t).hostErr = s.hostErr := by
  unfold stopOutputs
  split <;> rfl

theorem stopOutputs_tasks (s : State) (t : Nat) : (stopOutputs s t).cyc.tasks = s.cyc.tasks := by
  unfold stopOutputs
  split <;> rfl

theorem checkStopped_hostErr (s : State) : (checkStopped s).hostErr = s.hostErr := by
  unfold checkStopped
  split <;> rfl

theorem coreSync_hostErr (s : State) (c : Nat) : (coreSync s c).hostErr = s.hostErr := by
  unfold coreSync
  split
  · split <;> rfl
  · rfl

theorem coreSync_cyc (s : State) (c : Nat) : (coreSync s c).cyc = s.cyc := by
  unfold coreSync
  split
  · split <;> rfl
  · rfl

/-- With no task ready there is none to run. -/
theorem bestOn_none (s : State) (c : Nat) (h : ∀ t, (task s t).ready = false) : bestOn s c = none := by
  have hf : allTasks.filter (fun t => taskState s t == tActive && (task s t).ready && !(task s t).ended && taskCore s t == c) = [] :=
    List.filter_eq_nil_iff.mpr (fun t _ => by simp [h t])
  rw [bestOn, hf, List.foldl_nil]

theorem schedule_idle (s : State) (c : Nat) (h : ∀ t, (task s t).ready = false) : schedule s c = s := by
  unfold schedule
  rw [bestOn_none s c h]
  split
  · rfl
  · split <;> simp_all

theorem leaveCore_hostErr (s : State) (t : Nat) (h : ∀ k, (task s k).ready = false) : (leaveCore s t).hostErr = s.hostErr := by
  unfold leaveCore
  dsimp only
  split
  · rw [schedule_idle, coreSync_hostErr, setRunning_hostErr]
    intro k
    rw [task, coreSync_cyc]
    exact h k
  · rfl

/-- With no other task ready, a fault of a task is no host error (R103). -/
theorem faultTask_hostErr (s : State) (t : Nat) (h : ∀ k, (task s k).ready = false) : (faultTask s t).hostErr = s.hostErr := by
  unfold faultTask
  dsimp only
  rw [checkStopped_hostErr, leaveCore_hostErr, stopOutputs_hostErr, dmaTaskCut_hostErr, setTaskState_hostErr, setTask_hostErr]
  intro k
  rw [task, stopOutputs_tasks, dmaTaskCut_cyc, setTaskState_cyc]
  change (mget {} (mput {} s.cyc.tasks t _) k).ready = false
  rw [mget_mput]
  split
  · rfl
  · exact h k

/-- No task of the list is ready: a check on its entries. -/
theorem ready_none (s : State) (h : s.cyc.tasks.all (fun e => !e.2.ready) = true) (t : Nat) : (task s t).ready = false := by
  rw [task]
  revert h
  generalize s.cyc.tasks = l
  induction l with
  | nil => intro _; rfl
  | cons a l ih =>
    intro h
    rw [List.all_cons, Bool.and_eq_true] at h
    rw [mget]
    split
    · simpa using h.1
    · exact ih h.2

/-- A trap in a task, other than a fetch or a load that met a lasting UE, is no host error (R103, R472). -/
theorem takeTrap_hostErr (s : State) (c code pc va t : Nat) (hc : ¬(code = 3 ∨ code = 6)) (ht : inTask s c = some t)
    (h : s.cyc.tasks.all (fun e => !e.2.ready) = true) :
    (takeTrap s c code pc va).hostErr = s.hostErr := by
  have hu : trapUe s c code pc va = s := by unfold trapUe; rw [if_neg hc]
  unfold takeTrap
  rw [hu]
  simp only [ht]
  rw [faultTask_hostErr, recordTrap_hostErr]
  intro k
  rw [task, recordTrap_cyc]
  exact ready_none s h k

theorem fbCall_overflow_hostErr (s : State) (c t inst itype target ret : Nat) (hf : 64 ≤ (task s t).fbsp) (ht : inTask s c = some t)
    (h : s.cyc.tasks.all (fun e => !e.2.ready) = true) :
    (fbCall s c t inst itype target ret).hostErr = s.hostErr := by
  rw [fbCall, if_pos hf]
  exact takeTrap_hostErr (fresh s).2 c 0x0A _ 0 t (by omega) ht h

theorem fbCall_type_hostErr (s : State) (c t inst itype target ret w : Nat) (hf : (task s t).fbsp < 64)
    (hr : (coreLoad s c inst).1 = .inr w) (hw : w ≠ itype) (ht : inTask (coreLoad s c inst).2 c = some t)
    (h : (coreLoad s c inst).2.cyc.tasks.all (fun e => !e.2.ready) = true) :
    (fbCall s c t inst itype target ret).hostErr = (coreLoad s c inst).2.hostErr := by
  rw [fbCall, if_neg (by omega)]
  simp only [hr, beq_eq_false_iff_ne.mpr hw, Bool.false_eq_true, if_false]
  exact takeTrap_hostErr (fresh (coreLoad s c inst).2).2 c 0x09 _ 0 t (by omega) ht h

theorem fbCall_load_hostErr (s : State) (c t inst itype target ret code : Nat) (hf : (task s t).fbsp < 64)
    (hr : (coreLoad s c inst).1 = .inl code) (ht : inTask (coreLoad s c inst).2 c = some t)
    (h : (coreLoad s c inst).2.cyc.tasks.all (fun e => !e.2.ready) = true) :
    (fbCall s c t inst itype target ret).hostErr = (coreLoad s c inst).2.hostErr := by
  have ht' : inTask (fresh (coreLoad s c inst).2).2 c = some t := ht
  rw [fbCall, if_neg (by omega)]
  simp only [hr, ht']
  rw [faultTask_hostErr, recordTrap_hostErr]
  · rfl
  · intro k
    rw [task, recordTrap_cyc]
    exact ready_none _ h k

theorem fbReturn_empty_hostErr (s : State) (c t : Nat) (hf : (task s t).fbsp = 0) (ht : inTask s c = some t)
    (h : s.cyc.tasks.all (fun e => !e.2.ready) = true) :
    (fbReturn s c t).hostErr = s.hostErr := by
  unfold fbReturn
  dsimp only
  rw [if_pos hf]
  exact takeTrap_hostErr (fresh s).2 c 0x0A _ 0 t (by omega) ht h

theorem fbReturn_ue_hostErr (s : State) (c t : Nat) (hf : 0 < (task s t).fbsp)
    (hr : (readScan s c (fbFrame s t ((task s t).fbsp - 1)) 16).1.isSome = true)
    (h : (readScan s c (fbFrame s t ((task s t).fbsp - 1)) 16).2.cyc.tasks.all (fun e => !e.2.ready) = true) :
    (fbReturn s c t).hostErr = (readScan s c (fbFrame s t ((task s t).fbsp - 1)) 16).2.hostErr := by
  unfold fbReturn
  dsimp only
  rw [if_neg (by omega), if_pos hr, faultTask_hostErr, recordTrap_hostErr]
  · rfl
  · intro k
    rw [task, recordTrap_cyc]
    exact ready_none _ h k

end Sys2Proof.Machine
end

