-- ==== Sys2Proof/Laws/HostErr.lean ====
section
/-!
SUPPORT. Where the read and the write path of memory can be a host error: only in the access over the fabric and at the start
of a write. So whether a store or a scanned read is permitted is seen at its start, whatever it stores.
-/

namespace Sys2Proof.Machine

@[simp] theorem aglWr_hostErr (n : Nat) : ∀ (s : State) (r off v : Nat), (aglWr s r off n v).hostErr = s.hostErr := by
  induction n with
  | zero => intro s r off v; rfl
  | succ n ih => intro s r off v; rw [aglWr, ih]; rfl

@[simp] theorem aglPut_hostErr (s : State) (r off n v : Nat) : (aglPut s r off n v).hostErr = s.hostErr := aglWr_hostErr n s r _ v

@[simp] theorem aglPend_hostErr (s : State) : (aglPend s).hostErr = s.hostErr := rfl

@[simp] theorem aglTouch_hostErr (s : State) (r : Nat) : (aglTouch s r).hostErr = s.hostErr := by simp [aglTouch]

@[simp] theorem aglBump_hostErr (s : State) (r off n v : Nat) : (aglBump s r off n v).hostErr = s.hostErr := aglPut_hostErr s r off n _

@[simp] theorem aglExtreme_hostErr (s : State) (r off at0 v : Nat) : (aglExtreme s r off at0 v).hostErr = s.hostErr := by simp [aglExtreme]

theorem aglDie_hostErr (s : State) (t : Int) : (aglDie s t).hostErr = s.hostErr := by
  unfold aglDie
  simp only
  repeat' split
  all_goals simp

theorem aglSupply_hostErr (new : Bool) (s : State) (k v : Nat) : (aglSupply new s k v).hostErr = s.hostErr := by
  unfold aglSupply
  simp only
  repeat' split
  all_goals simp

@[simp] theorem aglApply_hostErr (s : State) (e : AglOp) : (aglApply s e).hostErr = s.hostErr := by
  cases e with
  | add r off n v => simp [aglApply]
  | put r off n v => simp [aglApply]
  | lasting e => simp only [aglApply]; split <;> simp
  | mark region row bit => simp only [aglApply]; split <;> simp
  | sample t vs =>
    simp only [aglApply]
    exact (foldl_keeps State.hostErr (fun q (v : Nat × Nat) => aglSupply (aglFresh (aglDie s t) 4) q v.2 v.1)
      (fun q v => aglSupply_hostErr _ q v.2 v.1) _ _).trans (aglDie_hostErr s t)
  | clear r =>
    simp only [aglApply, aglTouch_hostErr]
    exact foldl_keeps State.hostErr (fun q k => aglPut q r k 1 0) (fun q k => aglPut_hostErr q r k 1 0) _ s

/-- An event of Afterglow is no access, whether it is applied or waits for the load. -/
@[simp] theorem aglEvent_hostErr (s : State) (e : AglOp) : (aglEvent s e).hostErr = s.hostErr := by
  rw [aglEvent]
  split
  · exact aglApply_hostErr s e
  · rfl

@[simp] theorem aglLasting_hostErr (s : State) (region addr : Nat) : (aglLasting s region addr).hostErr = s.hostErr := by
  simp [aglLasting]

@[simp] theorem mirrorSend_hostErr (s : State) (kind extra task : Nat) (n : Option Nat) (p : List Byte) :
    (mirrorSend s kind extra task n p).hostErr = s.hostErr := by simp [mirrorSend]

@[simp] theorem setRole_hostErr (s : State) (r : Nat) : (setRole s r).hostErr = s.hostErr := by
  unfold setRole
  split
  · rfl
  · simp only [setMirrorFlag, raise_hostErr, setFlag_hostErr, setFld_hostErr]
    split <;> rfl

@[simp] theorem giveUp_hostErr (s : State) (cause : Nat) : (giveUp s cause).hostErr = s.hostErr := by
  unfold giveUp
  simp only
  split
  · rfl
  · rw [setMirror_hostErr, foldl_keeps State.hostErr _ (fun s _ => mirrorSend_hostErr s 7 0 0 none []), aglEvent_hostErr, setMirrorFlag, setFlag_hostErr]
    split <;> simp

@[simp] theorem setTrk_hostErr (s : State) (r i : Nat) (e : TrackEntry) : (setTrk s r i e).hostErr = s.hostErr := by simp [setTrk]

@[simp] theorem trkSync_hostErr (s : State) (r : Nat) : (trkSync s r).hostErr = s.hostErr := by simp [trkSync]

@[simp] theorem trkCheck_hostErr (s : State) (r i : Nat) : (trkCheck s r i).hostErr = s.hostErr := by
  unfold trkCheck
  simp only
  split <;> simp

@[simp] theorem trkCorrect_hostErr (s : State) (r w : Nat) : (trkCorrect s r w).hostErr = s.hostErr := by
  unfold trkCorrect
  simp only [trkSync_hostErr]
  repeat' split
  all_goals simp

@[simp] theorem trkArm_hostErr (s : State) (w : Nat) : (trkArm s w).hostErr = s.hostErr := by
  unfold trkArm
  repeat' split
  all_goals simp

@[simp] theorem recordCe_hostErr (s : State) (w : Nat) : (recordCe s w).hostErr = s.hostErr := by
  unfold recordCe
  split <;> simp

@[simp] theorem recordUe_hostErr (s : State) (w ini kind : Nat) : (recordUe s w ini kind).hostErr = s.hostErr := by
  unfold recordUe
  simp only
  repeat' split
  all_goals simp

@[simp] theorem putWord_hostErr (s : State) (w : Nat) (bs : List Byte) : (putWord s w bs).hostErr = s.hostErr := by
  unfold putWord
  simp only
  split
  · rw [putBytes_eq]
  · split <;> rfl

@[simp] theorem fresh_hostErr (s : State) : (fresh s).2.hostErr = s.hostErr := rfl

@[simp] theorem freeBytes_hostErr (s : State) (n : Nat) : (freeBytes s n).2.hostErr = s.hostErr := rfl

@[simp] theorem scanWord_hostErr (s : State) (ini kind w : Nat) : (scanWord s ini kind w).2.hostErr = s.hostErr := by
  unfold scanWord
  simp only
  repeat' split
  all_goals first | rfl | simp

@[simp] theorem scanWords_hostErr (ini kind : Nat) (ws : List Nat) : ∀ s : State, (scanWords ini kind ws s).2.hostErr = s.hostErr := by
  induction ws with
  | nil => intro s; rfl
  | cons w ws ih =>
    intro s
    rw [scanWords]
    split
    · exact scanWord_hostErr s ini kind w
    · rw [ih, scanWord_hostErr]

/-- A scanned read is a host error exactly where the access over the fabric is one. -/
@[simp] theorem readScan_hostErr (s : State) (ini a n : Nat) : (readScan s ini a n).2.hostErr = (fabric s ini a n).hostErr :=
  scanWords_hostErr _ _ _ _

@[simp] theorem safeForeign_hostErr (s : State) : (safeForeign s).hostErr = s.hostErr := by simp [safeForeign]

@[simp] theorem flipWrite_hostErr (s : State) (w : Nat) (b : Bool) : (flipWrite s w b).hostErr = s.hostErr := by
  unfold flipWrite
  split
  · rfl
  · dsimp only
    rw [apply_ite State.hostErr, raise_hostErr, wrn_hostErr, setFlag_hostErr, setFlag_hostErr, setEcc_hostErr, ite_self]

@[simp] theorem wordWritten_hostErr (s : State) (w : Nat) : (wordWritten s w).hostErr = s.hostErr := by simp [wordWritten]

@[simp] theorem wholeWord_hostErr (s : State) (w : Nat) (b : Bool) : (wholeWord s w b).hostErr = s.hostErr := by simp [wholeWord]

@[simp] theorem modifyWord_hostErr (s : State) (w ini : Nat) (b : Bool) : (modifyWord s w ini b).hostErr = s.hostErr := by
  unfold modifyWord
  simp only [flipWrite_hostErr, wordWritten_hostErr, setEcc_hostErr]
  repeat' split
  all_goals first | rfl | exact scanWord_hostErr s ini ueRmw w

@[simp] theorem flushEntry_hostErr (s : State) (e : MergeEntry) : (flushEntry s e).hostErr = s.hostErr := by
  unfold flushEntry
  simp only
  split <;> simp

@[simp] theorem mergeWrite_hostErr (s : State) (ini w mask : Nat) : (mergeWrite s ini w mask).hostErr = s.hostErr := by
  unfold mergeWrite
  simp only
  repeat' split
  all_goals simp

@[simp] theorem touchWord_hostErr (a n ini : Nat) (s : State) (w : Nat) : (touchWord a n ini s w).hostErr = s.hostErr := by
  unfold touchWord
  simp only
  repeat' split
  all_goals simp

/-- A store is a host error exactly where its start is one (R18, R38). -/
theorem store_hostErr (s : State) (ini a : Nat) (bs : List Byte) : (store s ini a bs).hostErr = (writeBegin s ini a bs).hostErr := by
  unfold store
  simp only
  repeat' split
  · rfl
  · rw [safeForeign_hostErr]
  · rw [foldl_keeps State.hostErr _ (fun s w => touchWord_hostErr a _ ini s w), wrBytes_eq]

theorem storeMram_hostErr (s : State) (ini a : Nat) (bs : List Byte) :
    (storeMram s ini a bs).hostErr = (writeBegin s ini a bs).hostErr := by
  unfold storeMram
  simp only
  rw [foldl_keeps State.hostErr _ (fun s w => touchWord_hostErr a _ ini s w), putBytes_eq]

/-- An access to a mapped range outside the cores' L1 areas is no host error (R18). -/
theorem fabric_permitted (s : State) (ini a n : Nat) (h : rangeMapped a n = true) (hl : isL1 a = false) :
    (fabric s ini a n).hostErr = s.hostErr := by
  unfold fabric
  rw [h, hl]
  split
  · rfl
  · rfl

/-- A write that no rule forbids, of a range that no unit holds, starts with the access over the fabric. -/
theorem writeBegin_permitted (s : State) (ini a : Nat) (bs : List Byte) (h : storeErr s ini a bs.length = none)
    (hs : sessionOwned s a bs.length = []) (ht : txOwned s = []) (hd : dmaOwned s = []) (hl : loadOwned s = []) (hm : mtrOwned s = []) :
    (writeBegin s ini a bs).hostErr = (fabric s ini a bs.length).hostErr := by
  unfold writeBegin ownedErr
  rw [h, hs, ht, hd, hl, hm]
  simp [errIf, badIf]

theorem foldl_keeps_mem {α β : Type} (g : State → β) (f : State → α → State) (l : List α) (h : ∀ s, ∀ a ∈ l, g (f s a) = g s) :
    ∀ s, g (l.foldl f s) = g s := by
  induction l with
  | nil => intro s; rfl
  | cons a l ih =>
    intro s
    rw [List.foldl_cons, ih (fun s b hb => h s b (List.mem_cons_of_mem a hb)), h s a List.mem_cons_self]

end Sys2Proof.Machine
end

