-- ==== Sys2Proof/Machine/Pins.lean ====
section
/-!
DEFINITION. The balls as a view of the state (R42, R507, R511, R528-R530, R537): where each ball lies, and what an output
ball drives. A ball that carries a bit stream shows `signal` while its block runs.
-/

namespace Sys2Proof.Machine

/-- A signal ball (R529). -/
inductive Ball where
  | rstN
  | pwrFailN
  | boot (k : Fin 3)
  | seal (k : Fin 8)
  | forceInd
  | xin
  | xout
  | rtcXi
  | rtcXo
  | dbgTck
  | dbgTms
  | dbgTdi
  | dbgTdo
  | dbgTrstN
  | ospiClk
  | ospiCsN
  | ospiDqs
  | ospiDq (k : Fin 8)
  | spiSck
  | spiMosi
  | spiMiso
  | spiCsN (k : Fin 4)
  | i2cScl (k : Fin 2)
  | i2cSda (k : Fin 2)
  | uartTx (k : Fin 2)
  | uartRx (k : Fin 2)
  | gpio (k : Fin 24)
  /-- port E0 or E1: TXP, TXN, RXP, RXN -/
  | serdes (port : Fin 2) (leg : Fin 4)
  | sdsRext
  /-- port E2 or E3 -/
  | rgTxc (port : Fin 2)
  | rgTxCtl (port : Fin 2)
  | rgTxd (port : Fin 2) (k : Fin 4)
  | rgRxc (port : Fin 2)
  | rgRxCtl (port : Fin 2)
  | rgRxd (port : Fin 2) (k : Fin 4)
  | mdc (port : Fin 2)
  | mdio (port : Fin 2)
  /-- MIR_TXP, MIR_TXN, MIR_RXP, MIR_RXN -/
  | mirror (leg : Fin 4)
  | arbHb
  | arbGrant
  | actOk
  | canTx (c : Fin 8)
  | canRx (c : Fin 8)
  | canStb (c : Fin 8)
  | mtrMclk
  | mtrMdat (k : Fin 28)
  | mtrHflow (k : Fin 16)
  | mtrHdir (k : Fin 16)
  | mtrSck
  | mtrMosi
  | mtrMiso
  | mtrCsN (k : Fin 8)
  | mtrPout (k : Fin 8)
  | mxeStep (n : Fin 16)
  | mxeDir (n : Fin 16)
  | mxeDen (n : Fin 16)
  | mxeDrdy (n : Fin 16)
  | mxeLimP (n : Fin 16)
  | mxeLimN (n : Fin 16)
  | mxeHome (n : Fin 16)
  | mxeEncA (e : Fin 4)
  | mxeEncB (e : Fin 4)
  | adlClk
  | adlMosi
  | adlMiso
  | adlLatchN
  | safeIn (k : Fin 16)
  /-- high outside its test pulse once SAFE runs -/
  | safeTp (k : Fin 4)
  /-- SAFE_OAk and SAFE_OBk, by output and channel (B: true) -/
  | safeOut (k : Fin 8) (channelB : Bool)
  | safeRead (k : Fin 8) (channelB : Bool)
  | lntSeg (k : Fin 48)
  | lntCom (k : Fin 8)
  | lntVlcdEn
  | lntVhvpEn
  | lntVhvnEn
  | lntBlEn
  | lntBclk
  | lntBdat
  | lntBlatN
  deriving DecidableEq, Repr

/-! ### The ball grid (R528-R530) -/

def allFin (n : Nat) [NeZero n] : List (Fin n) := (List.range n).map (fun k => Fin.ofNat n k)

/-- The groups of R529, in order; a group's balls in order. -/
def ballGroups : List (List (List Ball)) := [
  [[.rstN, .pwrFailN], (allFin 3).map Ball.boot, (allFin 8).map Ball.seal, [.forceInd, .xin, .xout, .rtcXi, .rtcXo]],
  [[.dbgTck, .dbgTms, .dbgTdi, .dbgTdo, .dbgTrstN]],
  [[.ospiClk, .ospiCsN, .ospiDqs], (allFin 8).map Ball.ospiDq],
  [[.spiSck, .spiMosi, .spiMiso], (allFin 4).map Ball.spiCsN, (allFin 2).flatMap (fun k => [Ball.i2cScl k, Ball.i2cSda k]),
    (allFin 2).flatMap (fun k => [Ball.uartTx k, Ball.uartRx k]), (allFin 24).map Ball.gpio],
  [(allFin 2).flatMap (fun p => (allFin 4).map (Ball.serdes p)), [.sdsRext]],
  (allFin 2).flatMap (fun p => [[Ball.rgTxc p, Ball.rgTxCtl p], (allFin 4).map (Ball.rgTxd p), [Ball.rgRxc p, Ball.rgRxCtl p],
    (allFin 4).map (Ball.rgRxd p), [Ball.mdc p, Ball.mdio p]]),
  [(allFin 4).map Ball.mirror, [.arbHb, .arbGrant, .actOk]],
  [(allFin 8).flatMap (fun c => [Ball.canTx c, Ball.canRx c, Ball.canStb c])],
  [[.mtrMclk], (allFin 28).map Ball.mtrMdat, (allFin 16).map Ball.mtrHflow, (allFin 16).map Ball.mtrHdir,
    [.mtrSck, .mtrMosi, .mtrMiso], (allFin 8).map Ball.mtrCsN, (allFin 8).map Ball.mtrPout],
  [(allFin 16).flatMap (fun n => [Ball.mxeStep n, Ball.mxeDir n, Ball.mxeDen n, Ball.mxeDrdy n, Ball.mxeLimP n, Ball.mxeLimN n, Ball.mxeHome n]),
    (allFin 4).flatMap (fun e => [Ball.mxeEncA e, Ball.mxeEncB e]), [.adlClk, .adlMosi, .adlMiso, .adlLatchN]],
  [(allFin 16).map Ball.safeIn, (allFin 4).map Ball.safeTp, (allFin 8).map (fun k => Ball.safeOut k false),
    (allFin 8).map (fun k => Ball.safeOut k true), (allFin 8).map (fun k => Ball.safeRead k false), (allFin 8).map (fun k => Ball.safeRead k true)],
  [(allFin 48).map Ball.lntSeg, (allFin 8).map Ball.lntCom,
    [.lntVlcdEn, .lntVhvpEn, .lntVhvnEn, .lntBlEn, .lntBclk, .lntBdat, .lntBlatN]]]

/-- The 460 signal balls in the order of R529. -/
def signalBalls : List Ball := (ballGroups.map List.flatten).flatten

/-- A supply (R530, R531). -/
inductive Supply where
  | vss
  | vddPll
  | vddSds
  | vbat
  | testen
  | vlcd
  | vddio18
  | vddio33
  | vddSram
  | vddCore
  deriving DecidableEq, Repr

/-- The supplies of the odd inner balls in row-major order. -/
def supplyRuns : List (Supply × Nat) :=
  [(.vddPll, 2), (.vddSds, 6), (.vbat, 1), (.testen, 1), (.vlcd, 2), (.vddio18, 8), (.vddio33, 20), (.vddSram, 24), (.vddCore, 98)]

/-- What stands at a place of a list of runs. -/
def runAt : List (Supply × Nat) → Nat → Option Supply
  | [], _ => none
  | (x, n) :: t, k => if k < n then some x else runAt t (k - n)

/-- A ball of the array. -/
inductive BallUse where
  | signal (b : Ball)
  | supply (p : Supply)
  deriving DecidableEq, Repr

/-- Place of a ball in the walk of the rings (R528): the balls of the rings outside its own, then the clockwise way from the
ring's first corner. -/
def ringPlace (row col : Nat) : Nat :=
  let k := min (min row col) (min (29 - row) (29 - col))
  let n := 29 - 2 * k
  let before := ((List.range (k - 1)).map (fun j => 4 * (27 - 2 * j))).foldl (· + ·) 0
  before + (if row = k then col - k else if col = 29 - k then n + (row - k) else if row = 29 - k then 2 * n + (29 - k - col)
    else 3 * n + (29 - k - row))

/-- The use of the ball at a row and column, each numbered 1 to 28 (R528-R530). (DEDUCED, log entry 100.) -/
def ballAt (row col : Nat) : Option BallUse :=
  if row < 1 ∨ 28 < row ∨ col < 1 ∨ 28 < col then none
  else if row < 6 ∨ 23 < row ∨ col < 6 ∨ 23 < col then signalBalls[ringPlace row col]?.map .signal
  else if (row + col) % 2 = 0 then some (.supply .vss)
  else (runAt supplyRuns (9 * (row - 6) + (col - 6) / 2)).map .supply

/-! ### Class T (R507) and the chain (R511) -/

/-- The frame since the class T drive began and the slot in it, which is the common driven now. -/
def lcdSlot (s : State) : Option (Nat × Nat) :=
  s.lantern.driveFrom.map (fun t =>
    let hz := fld s Reg.LANTERN_CFG F.LANTERN_CFG_FRAME_HZ
    let n := fld s Reg.LANTERN_CFG F.LANTERN_CFG_SIZE + 1
    let k := (s.now - t) * hz * n / 5000000000
    (k / n, k % n))

/-- The levels of a segment ball are reversed now, by INV: at each frame; at each slot too; odd segments opposite too. -/
def lcdReversed (s : State) (seg : Nat) : Bool :=
  match lcdSlot s with
  | none => false
  | some (f, c) =>
    let inv := fld s Reg.LANTERN_CFG F.LANTERN_CFG_INV
    (f + (if inv = 0 then 0 else c) + (if inv = 2 then seg else 0)) % 2 == 1

/-- A segment is shown on in the present frame pair. -/
def lcdShown (s : State) (c seg : Nat) : Bool := s.lantern.shown.testBit (48 * c + seg)

/-- The codes a chain load shifts, highest segment index first: 0 hold, 1 set, 2 clear. -/
def chainCodes (s : State) (c : ChainLoad) : List Nat :=
  let masks := if c.blank ≠ 0 then (0, 0) else
    let t := c.starts.foldl driveRect (c.ends.foldl holdRect s)
    (t.lantern.setMask, t.lantern.clearMask)
  (List.range (48 * (fld s Reg.LANTERN_CFG F.LANTERN_CFG_SIZE + 1))).reverse.map (fun k =>
    if masks.1.testBit k then 1 else if masks.2.testBit k then 2 else 0)

/-- LNT_BLAT_N is low in the last 200 ns of a load. -/
def latchPulse (s : State) : Bool :=
  match s.lantern.load with
  | some c => decide (c.since + loadTime s ≤ s.now + 1000)
  | none => false

/-! ### What a ball drives (R42, R537) -/

/-- What the device does at a ball. -/
inductive Drive where
  | low
  | high
  /-- high impedance, with no pull, a pull-up or a pull-down -/
  | open
  | pullUp
  | pullDown
  /-- electrical idle, both legs at common mode -/
  | idle
  /-- held at VSS -/
  | vss
  /-- carries its block's waveform: a clock, a bit stream, a bias level -/
  | signal
  deriving DecidableEq, Repr

def drive (b : Bool) : Drive := if b then .high else .low

/-- A level at reset, the block's waveform once it is enabled. -/
def runs (on : Bool) (d : Drive) : Drive := if on then .signal else d

/-- A page of the IO block is enabled; the spec has no chapter of its registers. -/
def ioRuns (s : State) : Bool := (List.range 8).any (fun k => pageEn s (0x120 + k))

def e0Page (port : Fin 2) : Nat := 0xD0 + 3 * port.val
def e2Page (port : Fin 2) : Nat := 0xD6 + 3 * port.val

/-- The drive of a ball. A channel of a safety output in its dark test is low (R321). (DEDUCED, log entry 100.) -/
def ballDrive (s : State) : Ball → Drive
  | .safeOut k b => drive (outOn s k.val && (match (sout s k.val).dark with | some (_, c) => c != b | none => true))
  | .safeTp k => drive (safeActs s && safeState s == 1 && !(s.safe.pulsing.testBit k.val))
  | .forceInd => drive (forceInd s)
  | .actOk => drive (mirrorFlag s F.MIRROR_STAT_ACT_OK)
  | .arbHb => drive s.mirror.hb
  | .mxeStep n => drive (stepLevel s n.val)
  | .mxeDir n =>
    drive ((mget {} s.mxe.axes n.val : Axis).dirNeg == flag s (Reg.ACFG n.val) F.ACFG_DIR_POL && flag s (Reg.ACFG n.val) F.ACFG_EN)
  | .mxeDen n => drive ((mget {} s.mxe.axes n.val : Axis).energised && !(axAdl s n.val))
  | .mtrPout k => drive (pulseLevel s k.val)
  | .canStb c => drive (!(pageEn s (0xE1 + c.val)) || (mget {} s.can c.val : CanChan).standby)
  | .canTx c => if (mget {} s.can c.val : CanChan).attempt.isSome then .signal else .high
  | .lntVlcdEn => drive s.lantern.vlcd
  | .lntVhvpEn => drive s.lantern.vhvp
  | .lntVhvnEn => drive s.lantern.vhvn
  | .lntBlEn => drive (flag s Reg.LANTERN_STAT F.LANTERN_STAT_BL_ON)
  | .lntBclk => runs (s.lantern.load.isSome && !(latchPulse s)) .low
  | .lntBdat => runs (s.lantern.load.isSome && !(latchPulse s)) .low
  | .lntBlatN => drive (!(latchPulse s))
  | .lntSeg _ => runs s.lantern.driveFrom.isSome .vss
  | .lntCom _ => runs s.lantern.driveFrom.isSome .vss
  | .adlClk => runs (mxeRuns s) .low
  | .adlMosi => runs (mxeRuns s) .low
  | .adlLatchN => runs (mxeRuns s) .high
  | .mtrMclk => runs (mtrEn s && !(pfail s)) .low
  | .mtrSck => .low
  | .mtrMosi => .low
  | .mtrCsN _ => .high
  | .ospiClk => runs (ioRuns s) .low
  | .ospiCsN => runs (ioRuns s) .high
  | .spiSck => runs (ioRuns s) .low
  | .spiMosi => runs (ioRuns s) .low
  | .spiCsN _ => runs (ioRuns s) .high
  | .uartTx _ => runs (ioRuns s) .high
  | .i2cScl _ => runs (ioRuns s) .pullUp
  | .i2cSda _ => runs (ioRuns s) .pullUp
  | .gpio _ => runs (ioRuns s) .pullUp
  | .ospiDq _ => runs (ioRuns s) .pullDown
  | .ospiDqs => runs (ioRuns s) .pullDown
  | .rgTxc p => runs (pageEn s (e2Page p)) .low
  | .rgTxCtl p => runs (pageEn s (e2Page p)) .low
  | .rgTxd p _ => runs (pageEn s (e2Page p)) .low
  | .mdc p => runs (port s (2 + p.val)).mdio.isSome .low
  | .mdio p => runs (port s (2 + p.val)).mdio.isSome .pullUp
  | .serdes p leg => if leg.val < 2 then runs (pageEn s (e0Page p)) .idle else .open
  | .mirror leg => if leg.val < 2 then runs (pageEn s 0xB0) .idle else .open
  | .xout => .signal
  | .rtcXo => .signal
  | .dbgTdo => .open
  | .rstN => .open
  | .pwrFailN => .open
  | .boot _ => .open
  | .seal _ => .open
  | .xin => .open
  | .rtcXi => .open
  | .dbgTck => .open
  | .dbgTms => .open
  | .dbgTdi => .open
  | .dbgTrstN => .open
  | .spiMiso => .open
  | .uartRx _ => .open
  | .sdsRext => .open
  | .rgRxc _ => .open
  | .rgRxCtl _ => .open
  | .rgRxd _ _ => .open
  | .arbGrant => .open
  | .canRx _ => .open
  | .mtrMdat _ => .open
  | .mtrHflow _ => .open
  | .mtrHdir _ => .open
  | .mtrMiso => .open
  | .mxeDrdy _ => .open
  | .mxeLimP _ => .open
  | .mxeLimN _ => .open
  | .mxeHome _ => .open
  | .mxeEncA _ => .open
  | .mxeEncB _ => .open
  | .adlMiso => .open
  | .safeIn _ => .open
  | .safeRead _ _ => .open

end Sys2Proof.Machine
end

