-- ==== Sys2Proof/WellFormed.lean ====
section
/-!
DEFINITION. Which commands are well formed: their operands lie in the ranges the spec gives them. The fixed-width and
`Fin` operands are well formed by their type; what is left is a register address (R18: register space is
0xF000_0000 to 0xF0FF_FFFF) and the lengths of what the world hands over.
-/

namespace Sys2Proof

/-- A command's operands lie in their ranges. -/
def Instr.wellFormed : Instr → Bool
  | .registerWrite _ addr _ _ => decide (0xF0000000 ≤ addr.toNat) && decide (addr.toNat ≤ 0xF0FFFFFF)
  | .pkeyWrite _ _ _ => true
  | .unlockWindowClose _ => true
  | .pctlEn _ _ _ => true
  | .srst _ _ => true
  | .softResetDone _ => true
  | .pageLock _ _ => true
  | .intSet _ _ _ => true
  | .clkRunWrite _ _ => true
  | .clkDrstWrite _ _ => true
  | .semaphoreRequest _ _ => true
  | .signalWindowWrite _ _ _ => true
  | .porRelease _ _ _ => true
  | .pllLock => true
  | .powerDomainEnable _ => true
  | .bankFillStart _ reads => decide (reads.length ≤ 256)
  | .bankFillDone _ => true
  | .fillComplete => true
  | .sv0Release => true
  | .pinReset => true
  | .swReset _ _ => true
  | .watchdogEnable _ _ => true
  | .watchdogKick _ _ => true
  | .watchdogExpiry => true
  | .coreRelease _ _ => true
  | .rootKeyRegeneration => true
  | .bootHeaderCheck _ => true
  | .bootSectionLoad => true
  | .bootDone => true
  | .bootFail => true
  | .uartRecoveryPrompt => true
  | .uartImageByte _ => true
  | .mirrorBootTimeout => true
  | .pwrFailNFall => true
  | .pwrFailQualified => true
  | .afterglowPowerFailRecord => true
  | .cycModesetWrite _ _ => true
  | .startCold _ => true
  | .startWarm _ => true
  | .cycStop _ => true
  | .taskHold _ _ => true
  | .taskResume _ _ => true
  | .retCommit _ => true
  | .faultClear _ _ => true
  | .taskRelease _ => true
  | .transferOpStart => true
  | .snapshotComplete => true
  | .cycEnd _ _ => true
  | .commitInstant => true
  | .distributionComplete => true
  | .forceEnableWrite _ _ _ => true
  | .retPeriodExpiry => true
  | .freezeCopyComplete => true
  | .retDataWritten => true
  | .retCommitComplete => true
  | .exch _ => true
  | .exchRevert _ => true
  | .exchAbort _ => true
  | .exchDiscard _ => true
  | .exchangeInstant => true
  | .exchangeTimeout => true
  | .gapEnd => true
  | .sessionEnable _ _ => true
  | .sessionDisable _ _ => true
  | .sessionResume _ _ => true
  | .resync _ _ => true
  | .cycInReceive => true
  | .imagePublish _ => true
  | .eventReceive => true
  | .bulkReceive => true
  | .lsxAckReceive => true
  | .sessionStale _ => true
  | .sessionLost _ => true
  | .freezePoint _ => true
  | .decisionPoint _ => true
  | .rxeCqHeadWrite _ _ => true
  | .rxeFreeRetWrite _ _ => true
  | .rxeTxqTailWrite _ _ => true
  | .requestTake => true
  | .retransmissionTimeout _ => true
  | .cleTick stalls => decide (stalls.length ≤ 256)
  | .pinExpire _ => true
  | .lctlWrite _ _ _ => true
  | .cleRamDataAccess _ _ => true
  | .cleGcmd _ _ => true
  | .gainCopyDone => true
  | .laneGroupWake => true
  | .prismLoad _ _ _ => true
  | .prismUnload _ _ => true
  | .loadStep => true
  | .prismJobqDoorWrite _ _ => true
  | .jobAccept => true
  | .jobStart => true
  | .segmentBoundary => true
  | .prismPublish => true
  | .completionRecord => true
  | .prismCqHeadWrite _ _ => true
  | .prismCancel _ _ => true
  | .mtrRestore _ => true
  | .ckptNow _ => true
  | .blockEnd _ => true
  | .blockCommit _ => true
  | .intervalRecordsWritten => true
  | .checkpointComplete => true
  | .bitstreamStuck _ _ => true
  | .bandChange _ _ => true
  | .heatFlowEdge _ _ => true
  | .flowTimeout _ => true
  | .rtdRead _ _ _ => true
  | .pulseStart _ => true
  | .pulseEnd _ => true
  | .accumulatorLoRead _ => true
  | .axisMove _ _ => true
  | .axisStop _ _ => true
  | .axisHome _ _ => true
  | .axisGear _ _ => true
  | .axisRatio _ _ => true
  | .axisFollow _ _ => true
  | .powerDown _ _ => true
  | .powerUp _ _ => true
  | .setPos _ _ => true
  | .axisClear _ _ => true
  | .profileTick => true
  | .startGridPoint => true
  | .stepIssue _ => true
  | .classPPulse _ => true
  | .encoderEdge _ _ _ => true
  | .hardLimit _ _ _ => true
  | .homeEdge _ _ => true
  | .homingUnstable _ => true
  | .ratioApply _ => true
  | .blendEnd _ => true
  | .legacyTimeout _ => true
  | .adlFrame words => decide (words.length ≤ 1024)
  | .driverSupplyLoss _ => true
  | .powerUpTimeout _ => true
  | .axisSignalWrite => true
  | .aposLoRead _ _ => true
  | .safeLoad _ => true
  | .safestate _ => true
  | .penAck _ _ => true
  | .iscRestart _ _ => true
  | .safetyCycleStart => true
  | .safeCycleEnd _ _ => true
  | .applicationInstant => true
  | .fatalFault _ => true
  | .clockMonitorWindow count => decide (count < 2 ^ 32)
  | .safeResetRequest => true
  | .sealRead _ => true
  | .safetyInputSample _ => true
  | .testPulseStart _ => true
  | .testPulseEnd _ => true
  | .discrepancyExpiry _ => true
  | .darkTestStart _ => true
  | .darkTestEnd _ _ => true
  | .readbackTimeout _ _ => true
  | .iscPduAccept => true
  | .iscWatchdog _ => true
  | .rxPut _ => true
  | .txGet _ => true
  | .penumbraExpire _ => true
  | .plannedSwap _ _ => true
  | .swapInstant => true
  | .swapTimeout => true
  | .mirrorGiveup _ => true
  | .forceActive _ => true
  | .peerReset _ => true
  | .mirrorHbKick _ _ => true
  | .heartbeatToggle => true
  | .arbGrantQualified _ => true
  | .initGrantLow => true
  | .pllLockLoss => true
  | .linkDown => true
  | .statusSend => true
  | .statusReceive frame => decide (frame.length ≤ 4124)
  | .setBeginReceive frame => decide (frame.length ≤ 4124)
  | .setDataReceive frame => decide (frame.length ≤ 4124)
  | .setEndReceive frame => decide (frame.length ≤ 4124)
  | .mirrorAckReceive frame => decide (frame.length ≤ 4124)
  | .nakReceive frame => decide (frame.length ≤ 4124)
  | .giveupReceive frame => decide (frame.length ≤ 4124)
  | .peerResetReceive frame => decide (frame.length ≤ 4124)
  | .axisStartReceive frame => decide (frame.length ≤ 4124)
  | .bootReqReceive frame => decide (frame.length ≤ 4124)
  | .bootReqSend => true
  | .bootDataReceive frame => decide (frame.length ≤ 4124)
  | .swapReceive frame => decide (frame.length ≤ 4124)
  | .freezeEnd => true
  | .setApply => true
  | .takeoverComplete => true
  | .ptpStep _ _ => true
  | .ptpSet _ _ => true
  | .forceNext _ => true
  | .ptpSlewWrite _ _ => true
  | .slewDone => true
  | .servoEnable _ _ => true
  | .offsetSampleSubmit _ _ => true
  | .holdoverTimeout => true
  | .ptpNowNsRead => true
  | .monoLoRead => true
  | .ptpEchoTagRead _ => true
  | .rtcCountRead _ => true
  | .shadowExpired => true
  | .rtcSet _ => true
  | .rtcSetDefer _ => true
  | .rtcCancel _ => true
  | .rtcCommit => true
  | .rtcSecond => true
  | .backupPowerLoss => true
  | .ethTqTailWrite _ _ _ _ => true
  | .frameTxStart _ => true
  | .frameTxEnd _ => true
  | .launchTimeReached _ _ => true
  | .frameReceive _ bytes _ => decide (bytes.length ≤ 2048)
  | .ethRqTailWrite _ _ _ _ => true
  | .linkChange _ _ _ => true
  | .gateEntryChange _ => true
  | .gateSwitch _ _ => true
  | .gateChangeInstant _ => true
  | .mdioCommand _ _ _ => true
  | .mdioComplete _ _ => true
  | .canRestart _ _ => true
  | .canSleep _ _ => true
  | .canWake _ _ => true
  | .canTxreqWrite _ _ _ => true
  | .canTxcancelWrite _ _ _ => true
  | .canFrameStart _ => true
  | .canAttemptEnd _ _ => true
  | .recoveryComplete _ => true
  | .canFrameReceive _ _ _ _ _ data => decide (data.length ≤ 64)
  | .canRxgrabWrite _ _ _ => true
  | .canRxrelWrite _ _ _ => true
  | .canFifoHeadWrite _ _ _ => true
  | .canRamDataAccess _ _ _ => true
  | .wakeEdge _ => true
  | .wakeFrame _ _ data => decide (data.length ≤ 2048)
  | .mergeFlush index => decide (index < 2 ^ 32)
  | .glintRead _ flips => decide (flips.length ≤ 256)
  | .glintWriteBack _ => true
  | .trackerWindowExpiry _ _ => true
  | .rowRemap => true
  | .repairMap _ _ => true
  | .flipArm _ _ _ => true
  | .invalAll _ => true
  | .invalContext _ _ => true
  | .invalPage _ _ => true
  | .invalDone => true
  | .fence _ l1 => decide (l1.length ≤ 256)
  | .ifence _ => true
  | .fbcall _ _ _ _ _ l1 => decide (l1.length ≤ 256)
  | .fbret _ => true
  | .trap _ _ _ _ l1 => decide (l1.length ≤ 256)
  | .breakTrap _ _ => true
  | .interruptEntry _ => true
  | .coreIackRead _ _ => true
  | .coreEoiWrite _ _ => true
  | .dmaStart _ _ => true
  | .dmaResume _ _ => true
  | .dmaAbort _ _ => true
  | .dmaBurstComplete _ burst => decide (burst < 2 ^ 32)
  | .dmaDescriptorComplete _ => true
  | .keyImport _ _ => true
  | .keyDerive _ _ => true
  | .keyStore _ _ => true
  | .keyErase _ _ => true
  | .keysClear _ _ => true
  | .keyEnroll _ _ => true
  | .keySecure _ _ => true
  | .keyDecommission _ _ => true
  | .gcmStart _ _ => true
  | .gcmFinal _ _ => true
  | .keysCommandDone => true
  | .gcmDinWrite _ _ => true
  | .keyStoreLoad => true
  | .lanternOn _ => true
  | .lanternOff _ => true
  | .rectSubmit _ _ => true
  | .railStep => true
  | .framePairStart => true
  | .journalWriteDone => true
  | .chainLoadLatch => true
  | .drivePulseEnd _ => true
  | .rectangleComplete _ => true
  | .aglAdd _ _ => true
  | .aglHist _ _ => true
  | .aglClear _ _ => true
  | .aglLoad => true
  | .aglRecordWrite _ => true
  | .aglSecond _ supplies => decide (supplies.length = 5)
  | .pwrFailNRise => true
  | .canReceiveError _ _ => true
  | .debugResume _ => true
  | .driverReady _ => true
  | .setSent => true
  | .linkFrameBadCrc => true

end Sys2Proof
end

