-- ==== Sys2Proof/Tests/Slice0.lean ====
section
/-!
SUPPORT. Tests of single steps, ill-formed commands that the check refuses, and for every statement states and operands
that meet its hypotheses.
-/

set_option Elab.async false

namespace Sys2Proof.Tests

open Sys2Proof.Machine

/-- The state after reset with some registers at other values. -/
def st (rs : List (Nat × Word)) : State := { regs := rs }

/-- A well-formed LSX datagram of session 0 with an empty or one-byte payload (R137). -/
def lsxIn (kind : Nat) : RxDatagram :=
  let n := if kind = 3 ∨ kind = 4 then 1 else 0
  let h := beBytes 2 0x4C58 ++ beBytes 1 1 ++ beBytes 1 kind ++ List.replicate 20 0 ++ beBytes 2 n ++ beBytes 2 0
  { bytes := h ++ beBytes 4 (crc32c h) ++ List.replicate n 7 }

/-- The Boot ROM before the one section of slot A: 16 bytes of 0 at 0x400 for 0x2000_0000, under the zero key and IV, with its
tag or another one (R59, R61). -/
def bootSt (good : Bool) : State :=
  let tag : List Byte := [168, 116, 80, 209, 115, 43, 10, 186, 77, 41, 107, 39, 134, 251, 215, 25]
  { start := { step := .running }, boot := { step := .sections 0 0 [1] },
    mem := [(0x10000006, 1), (0x10000081, 4), (0x10000084, 0x10), (0x1000008B, 0x20)] ++
      (if good then (List.range 16).map (fun k => (0x100000A0 + k, tag.getD k 0)) else []) }

/-- A job descriptor that keeps R214: type 1, slot 0, one refinement step, RTOL 1/2, PIV_EPS 2⁻²⁰. -/
def jobDesc : List Byte :=
  [1, 0, 0, 0, 0, 1, 0, 0] ++ List.replicate 40 0 ++ leBytes 8 0x3FE0000000000000 ++ leBytes 8 0x3EB0000000000000 ++ List.replicate 64 0

/-- Prism with slot 0 READY and that descriptor at the head of its ring, whose page the IOMMU has cached. -/
def jobSt : State :=
  { wrBytes (st [(0x60004, 1), (Reg.PRISM_JOBQ_DOOR, 1), (Reg.PRISM_SLOT_STAT 0, 2)]) 0x20000000 jobDesc with
    mmu := { tlb := [{ leaf := 0x20000087 }] } }

/-- MTR stopped, with a valid checkpoint set A of GENERATION 1 whose accumulators and debts are 0 (R266). -/
def ckptSt : State :=
  wrBytes (st [(Reg.MTR_CKPT_BASE, 0x20000000)]) 0x20000000 (leBytes 4 0x4D434B31 ++ [1, 0, 0, 0, 1] ++ List.replicate 19 0 ++ leBytes 4 0xB7844427)

/-- A bit of 0 through the CRC register of CRC-32C, a byte of 0, and `n` of them. -/
def crcZeroBit (r : Nat) : Nat := r / 2 ^^^ (0x82F63B78 * (r % 2))

def crcZeroByte (r : Nat) : Nat :=
  crcZeroBit (crcZeroBit (crcZeroBit (crcZeroBit (crcZeroBit (crcZeroBit (crcZeroBit (crcZeroBit r)))))))

def crcZeros : Nat → Nat → Nat
  | 0, r => r
  | n + 1, r => crcZeros n (crcZeroByte r)

theorem crcBitR_zero (r : Nat) : crcBitR 0x82F63B78 r false = crcZeroBit r := by
  rcases Nat.mod_two_eq_zero_or_one r with h | h <;> simp [crcBitR, crcZeroBit, h]

theorem crcByteR_zero (r : Nat) : crcByteR 0x82F63B78 r 0 = crcZeroByte r := by
  simp only [crcByteR, List.range, List.range.loop, List.foldl, BitVec.ofNat_eq_ofNat, BitVec.getLsbD_zero, crcBitR_zero, crcZeroByte]

theorem crcZeros_run (n : Nat) : ∀ r, (List.replicate n (0 : Byte)).foldl (crcByteR 0x82F63B78) r = crcZeros n r := by
  induction n with
  | zero => intro r; rfl
  | succ n ih => intro r; rw [List.replicate_succ, List.foldl_cons, crcByteR_zero, ih, crcZeros]

/-- Each value is the CRC register `n` bytes of 0 after the one before it. -/
def crcChain (n : Nat) : Nat → List Nat → Bool
  | _, [] => true
  | r, v :: vs => crcZeros n r == v && crcChain n v vs

theorem crcChain_run (n : Nat) (vs : List Nat) : ∀ r, crcChain n r vs = true →
    (List.replicate (n * vs.length) (0 : Byte)).foldl (crcByteR 0x82F63B78) r = vs.foldl (fun _ v => v) r := by
  induction vs with
  | nil => intro r _; rfl
  | cons v vs ih =>
    intro r h
    rw [crcChain, Bool.and_eq_true, beq_iff_eq] at h
    rw [List.length_cons, Nat.mul_add, Nat.mul_one, Nat.add_comm, ← List.replicate_append_replicate, List.foldl_append, crcZeros_run n, h.1, ih v h.2, List.foldl_cons]

def ckptParts : List Nat :=
  [0xB362B001, 0x102B9E14, 0x0C13AB3C, 0x42A43991, 0x7E6457FC, 0x28C76ABF, 0x692EDC26, 0x9E9BD620, 0xF893A6EF, 0x28DBB17D, 0xE6B1EE02, 0x3C8A974D,
    0xD82BE112, 0x87A0C678, 0x73E7A686, 0xF17FCEB6, 0x0DA3332C, 0x0F6FA3F9, 0xAE2174BC, 0xF84365E4, 0x4EA2DF63, 0xA9D352FF, 0x308FA2C6, 0xE1BDE88B,
    0x5C3BEC9A, 0x7C9A78D3, 0xC800E6A0, 0x34F89571, 0xA9FF1026, 0xE62CAD23, 0x68C4FB26, 0x487BBBD8]

theorem crcPart_chain : crcChain 127 0x8B4F524B ckptParts = true := by decide +kernel

theorem crcSet (n : Nat) (hn : n = 127 * ckptParts.length) :
    crc32c ([0x31, 0x4B, 0x43, 0x4D, 1, 0, 0, 0, 1] ++ List.replicate 19 0 ++ List.replicate n 0) = 0xB7844427 := by
  have h : ([0x31, 0x4B, 0x43, 0x4D, 1, 0, 0, 0, 1] ++ List.replicate 19 (0 : Byte)).foldl (crcByteR 0x82F63B78) 0xFFFFFFFF = 0x8B4F524B := by decide +kernel
  have hl : ckptParts.foldl (fun _ v => v) 0x8B4F524B = 0x487BBBD8 := by decide +kernel
  have hr := crcChain_run _ _ _ crcPart_chain
  rw [hl] at hr
  unfold crc32c crcR
  rw [List.foldl_append, h, hn, hr]
  decide +kernel

theorem rdBytes_zeros (s : State) (a n : Nat) (h : ∀ b, a ≤ b → b < a + n → rdByte s b = 0) : rdBytes s a n = List.replicate n 0 := by
  induction n generalizing a with
  | zero => rfl
  | succ n ih =>
    rw [rdBytes, h a (Nat.le_refl a) (by omega), ih (a + 1) (fun b hb hc => h b (by omega) (by omega)), List.replicate_succ]

theorem ckptSt_valid : ckptValid ckptSt 0 = true := by
  have hm : ckptSt.mem = [(0x20000000, 0x31), (0x20000001, 0x4B), (0x20000002, 0x43), (0x20000003, 0x4D), (0x20000004, 1), (0x20000008, 1),
      (0x2000001C, 0x27), (0x2000001D, 0x44), (0x2000001E, 0x84), (0x2000001F, 0xB7)] := by decide +kernel
  have hz : rdBytes ckptSt (0x20000000 + 0x20) 0xFE0 = List.replicate 4064 0 := by
    refine rdBytes_zeros _ _ _ (fun b hb hc => ?_)
    have ht : 0x20000020 ≤ tcmAlias b := by unfold tcmAlias; split <;> omega
    rw [rdByte, hm]
    simp only [mget]
    repeat rw [if_neg (by omega)]
  have ha : ckptAt ckptSt 0 = 0x20000000 := by decide +kernel
  have h1 : rdBytes ckptSt 0x20000000 0x1C = [0x31, 0x4B, 0x43, 0x4D, 1, 0, 0, 0, 1] ++ List.replicate 19 0 := by decide +kernel
  have h2 : (rdLE ckptSt 0x20000000 4 == 0x4D434B31 && rdLE ckptSt (0x20000000 + 4) 2 == 1 && ckptGenOf ckptSt 0 != 0 &&
      (eccIn ckptSt 0x20000000 4096).all (fun w => !(ueAt ckptSt w))) = true := by decide +kernel
  have h3 : rdLE ckptSt (0x20000000 + 0x1C) 4 = 0xB7844427 := by decide +kernel
  unfold ckptValid
  simp only [ha, hz, h1, h3, crcSet 4064 (by decide +kernel)]
  rw [h2]
  rfl

theorem ckptSt_newest : ckptNewest ckptSt = some 0 := by
  have h : ckptValid ckptSt 1 = false := by decide +kernel
  rw [ckptNewest, ckptSt_valid, h]

theorem setAcc_hostErr (s : State) (i v : Nat) : (setAcc s i v).hostErr = s.hostErr := rfl

theorem restoreAcc_hostErr (q : State) (b : Nat) (l : List Nat) :
    (l.foldl (fun s i => setAcc s i (rdLE s (b + 0x40 + 12 * i) 12 * 2 ^ 32)) q).hostErr = q.hostErr :=
  foldl_keeps State.hostErr _ (fun _ _ => setAcc_hostErr _ _ _) _ _

theorem restoreDebt_hostErr (q : State) (b : Nat) (l : List Nat) :
    (l.foldl (fun s i => setFld s (Reg.MTR_PDEBT i) F.MTR_PDEBT_D (rdLE s (b + 0xE80 + 4 * i) 2)) q).hostErr = q.hostErr :=
  foldl_keeps State.hostErr _ (fun _ _ => setFld_hostErr _ _ _ _) _ _

theorem clearAcc_hostErr (q : State) (l : List Nat) : (l.foldl (fun s i => setAcc s i 0) q).hostErr = q.hostErr :=
  foldl_keeps State.hostErr _ (fun _ _ => setAcc_hostErr _ _ _) _ _

theorem ckptRestore_hostErr (s : State) : (ckptRestore s).hostErr = (fabric s 12 (ckptAt s 0) 0x2000).hostErr := by
  have h2 : ∀ q, (ckptRefresh q).hostErr = q.hostErr := fun q => by simp only [ckptRefresh, wrn_hostErr, setFlag_hostErr]
  rw [← h2 (fabric s 12 (ckptAt s 0) 0x2000), ckptRestore]
  generalize ckptRefresh (fabric s 12 (ckptAt s 0) 0x2000) = q
  cases ckptNewest q with
  | none => rw [setFlag_hostErr, setFlag_hostErr, clearAcc_hostErr]
  | some k => simp only; rw [setFlag_hostErr, setFlag_hostErr, restoreDebt_hostErr, restoreAcc_hostErr]

/-- Reading the two sets of a checkpoint area in SRAM is no host error. -/
theorem ckptSt_permitted : Permitted ckptSt (ckptRestore (granted ckptSt 4)) := by
  unfold Permitted
  rw [ckptRestore_hostErr]
  decide +kernel

/-! ### A valid parameter set: SEAL 0x90, set 0 with a cycle of 500 us and nothing else configured (R309) -/

def safeHdr : List Byte :=
  [0x31, 0x53, 0x50, 0x53, 0x01, 0x00, 0x00, 0x00, 0x01, 0x00, 0x00, 0x00, 0x00, 0x00, 0x00, 0x00, 0xF4, 0x01, 0x00, 0x00, 0x3C, 0x00, 0x00, 0x00, 0x04, 0x00, 0x00, 0x00, 0xC7, 0x4B, 0x67, 0x48, 0x00, 0x00, 0x00, 0x00, 0x00, 0x00, 0x00, 0x00, 0x00, 0x00, 0x00, 0x00, 0x00, 0x00, 0x00, 0x00, 0x00, 0x00, 0x00, 0x00, 0x00, 0x00, 0x00, 0x00, 0x00, 0x00, 0x00, 0x00]

def safeSt : State := wrBytes (st [(Reg.STRAP_LATCH, 0x9000)]) 0x40194000 (safeHdr ++ leBytes 4 0x71DA5CE0)

def safeSet : List Byte := safeHdr ++ (leBytes 4 0x71DA5CE0 ++ List.replicate 12224 0)

def setParts : List Nat :=
  [0xD5729177, 0xF34E6571, 0x02F89F4D, 0x5CF44291, 0x80809B43, 0x543E74A5, 0x44A0041C, 0xD3950907, 0xF1DB92A0, 0x79879DD1, 0x23935442, 0x3CAE343F,
    0x7DCD64FA, 0xACE89A7B, 0xC3A5135B, 0x1B01AC3D, 0x90685CD9, 0x78F39779, 0x6935E50B, 0xE1E59A64, 0x8533BA3A, 0x48497D2C, 0x5923DCC3, 0xD49F2159,
    0x3B3E26EF, 0xC51B33E4, 0xB8685029, 0x9F2F72BA, 0xC79F6BBB, 0x31A63417, 0x50D2F91D, 0x57A82C19, 0x6EE1F5F2, 0x805DD7BD, 0xD1D8759E, 0x8F9EBF16,
    0x0D7C63F3, 0x93E3EA55, 0x958EE0F1, 0xFACA1FE5, 0x806A765F, 0xF62F0774, 0x9589EDC7, 0x0E7C765B, 0xAB4D0B78, 0x7B048321, 0xE17DF8DC, 0x4F21F5E9,
    0x4DA2F54A, 0xD058A8A2, 0x50316CA1, 0x7AF503C4, 0x70BFFA21, 0x808B1AAA, 0x361DBA3D, 0xA67C4807, 0x3BE803C8, 0x9B1365C6, 0xF56A8C20, 0x1463A603,
    0x98DF91AB, 0x15861A54, 0x1EF41C1D, 0x8E25A31F]

theorem setPart_chain : crcChain 191 0x1A92EFCB setParts = true := by decide +kernel

theorem crcSafeSet (n : Nat) (hn : n = 191 * setParts.length) : crc32c (safeHdr ++ List.replicate n 0) = 0x71DA5CE0 := by
  have h : safeHdr.foldl (crcByteR 0x82F63B78) 0xFFFFFFFF = 0x1A92EFCB := by decide +kernel
  have hl : setParts.foldl (fun _ v => v) 0x1A92EFCB = 0x8E25A31F := by decide +kernel
  have hr := crcChain_run _ _ _ setPart_chain
  rw [hl] at hr
  unfold crc32c crcR
  rw [List.foldl_append, h, hn, hr]
  decide +kernel

theorem rdBytes_add (s : State) (n m : Nat) : ∀ a, rdBytes s a (n + m) = rdBytes s a n ++ rdBytes s (a + n) m := by
  induction n with
  | zero => intro a; rw [Nat.zero_add]; rfl
  | succ n ih =>
    intro a
    rw [Nat.succ_add, rdBytes, rdBytes, ih, List.cons_append, show a + 1 + n = a + (n + 1) by omega]

theorem safeSt_bytes : rdBytes safeSt (0x40194000 + 0x3000 * 0) 0x3000 = safeSet := by
  have hk : (safeSt.mem.all (fun e => decide (e.1 < 0x40194040))) = true := by decide +kernel
  have hz : rdBytes safeSt (0x40194000 + 64) 12224 = List.replicate 12224 0 := by
    refine rdBytes_zeros _ _ _ (fun b hb hc => ?_)
    have hf : ∀ (m : List Host.Cell) (c : Nat), m.all (fun e => decide (e.1 < 0x40194040)) = true → 0x40194040 ≤ c → mget 0 m c = (0 : Byte) := by
      intro m c h hc
      induction m with
      | nil => rfl
      | cons e m ih =>
        obtain ⟨k, v⟩ := e
        rw [List.all_cons, Bool.and_eq_true, decide_eq_true_eq] at h
        rw [mget, if_neg (by have := h.1; omega), ih h.2]
    rw [rdByte, tcmAlias, if_neg (by omega), hf _ b hk (by omega)]
  have h64 : rdBytes safeSt 0x40194000 64 = safeHdr ++ leBytes 4 0x71DA5CE0 := by decide +kernel
  rw [show (0x3000 : Nat) = 64 + 12224 from rfl, rdBytes_add, hz, Nat.mul_zero, Nat.add_zero, h64, safeSet, List.append_assoc]

theorem drop_safeSet (off : Nat) (h : 64 ≤ off) : safeSet.drop off = List.replicate (12288 - off) 0 := by
  have hl : (safeHdr ++ leBytes 4 0x71DA5CE0).length = 64 := by decide +kernel
  rw [safeSet, ← List.append_assoc, List.drop_append, hl, List.drop_eq_nil_of_le (by omega), List.nil_append, List.drop_replicate,
    show 12224 - (off - 64) = 12288 - off by omega]

theorem leNat_zeros (n : Nat) : leNat (List.replicate n 0) = 0 := by
  induction n with
  | zero => rfl
  | succ n ih => rw [List.replicate_succ, leNat, ih]; rfl

theorem safeSet_take : safeSet.take 0x3C = safeHdr := by
  have h : safeHdr.length = 0x3C := by decide +kernel
  rw [safeSet, ← h, List.take_left]

theorem safeSet_fields (R : List Byte) : (((safeHdr ++ (leBytes 4 0x71DA5CE0 ++ R)).drop 0).take 4 = [0x31, 0x53, 0x50, 0x53] ∧ ((safeHdr ++ (leBytes 4 0x71DA5CE0 ++ R)).drop 4).take 2 = [1, 0] ∧
    ((safeHdr ++ (leBytes 4 0x71DA5CE0 ++ R)).drop 6).take 1 = [0] ∧ ((safeHdr ++ (leBytes 4 0x71DA5CE0 ++ R)).drop 0x3C).take 4 = leBytes 4 0x71DA5CE0 ∧
    ((safeHdr ++ (leBytes 4 0x71DA5CE0 ++ R)).drop 0x18).take 4 = [4, 0, 0, 0] ∧ ((safeHdr ++ (leBytes 4 0x71DA5CE0 ++ R)).drop 0x1C).take 4 = leBytes 4 0x48674BC7) :=
  ⟨rfl, rfl, rfl, rfl, rfl, rfl⟩

theorem safeSt_tcm (a : Nat) (ha : a = 0x50200000 ∨ a = 0x50210000) :
    (eccIn safeSt a 4).any (ueAt safeSt) = false ∧ crc32c (rdBytes safeSt a 4) = 0x48674BC7 := by
  rcases ha with rfl | rfl <;> decide +kernel

theorem safeSet_crc : crc32c (safeSet.take 0x3C ++ safeSet.drop 0x40) = 0x71DA5CE0 := by
  rw [safeSet_take, drop_safeSet _ (by decide)]
  exact crcSafeSet _ (by decide +kernel)

theorem loadCause_none (s : State) (set : List Byte) (c : Nat) (h9 : fld s Reg.STRAP_LATCH F.STRAP_LATCH_SEAL = 0x90)
    (g0 : leNat ((set.drop 0).take 4) = 0x53505331) (g4 : leNat ((set.drop 4).take 2) = 1) (g6 : leNat ((set.drop 6).take 1) = 0)
    (g3 : leNat ((set.drop 0x3C).take 4) = c) (g8 : leNat ((set.drop 0x18).take 4) = 4) (gC : leNat ((set.drop 0x1C).take 4) = 0x48674BC7)
    (hc : crc32c (set.take 0x3C ++ set.drop 0x40) = c)
    (ht : ∀ a, a = 0x50200000 ∨ a = 0x50210000 → (eccIn s a 4).any (ueAt s) = false ∧ crc32c (rdBytes s a 4) = 0x48674BC7) :
    loadCause s set false = none := by
  have h1 := ht _ (Or.inl rfl)
  have h2 := ht _ (Or.inr rfl)
  rw [List.drop_zero] at g0
  simp [loadCause, h9, g0, g4, g6, g3, g8, gC, hc, h1, h2, show min 4 65536 = 4 from rfl]

theorem safeSt_cause : loadCause safeSt (rdBytes safeSt (0x40194000 + 0x3000 * (fld safeSt Reg.STRAP_LATCH F.STRAP_LATCH_SEAL % 16)) 0x3000)
    (readScan safeSt 6 (0x40194000 + 0x3000 * (fld safeSt Reg.STRAP_LATCH F.STRAP_LATCH_SEAL % 16)) 0x3000).1.isSome = none := by
  have hs : fld safeSt Reg.STRAP_LATCH F.STRAP_LATCH_SEAL = 0x90 := by decide +kernel
  have hu : (readScan safeSt 6 (0x40194000 + 0x3000 * 0) 0x3000).1.isSome = false := by decide +kernel
  have hg := safeSet_fields (List.replicate 12224 0)
  rw [← safeSet] at hg
  obtain ⟨g0, g4, g6, g3C, g18, g1C⟩ := hg
  rw [hs, show (0x90 : Nat) % 16 = 0 from rfl, safeSt_bytes, hu]
  exact loadCause_none _ _ _ hs (by rw [g0]; decide +kernel) (by rw [g4]; decide +kernel) (by rw [g6]; decide +kernel)
    (by rw [g3C]; decide +kernel) (by rw [g18]; decide +kernel) (by rw [g1C]; decide +kernel) safeSet_crc safeSt_tcm

theorem setBad_safeSet (q : State) (hp : q.safe.params = safeSet) : setBad q = false := by
  have hz : ∀ off n, 64 ≤ off → parN q off n = 0 := by
    intro off n h
    rw [parN, hp, drop_safeSet off h, List.take_replicate, leNat_zeros]
  have ho : ∀ off n, 64 ≤ off → zeros safeSet off n = true := by
    intro off n h
    rw [zeros, drop_safeSet off h, List.take_replicate]
    induction (min n (12288 - off)) with
    | zero => rfl
    | succ n ih => rw [List.replicate_succ, List.all_cons, ih]; rfl
  have hg : ∀ R : List Byte, (((safeHdr ++ (leBytes 4 0x71DA5CE0 ++ R)).drop 7).take 1 = [0] ∧ ((safeHdr ++ (leBytes 4 0x71DA5CE0 ++ R)).drop 8).take 8 = [1, 0, 0, 0, 0, 0, 0, 0] ∧
      ((safeHdr ++ (leBytes 4 0x71DA5CE0 ++ R)).drop 0x10).take 4 = leBytes 4 500 ∧ ((safeHdr ++ (leBytes 4 0x71DA5CE0 ++ R)).drop 0x14).take 4 = leBytes 4 60 ∧
      ((safeHdr ++ (leBytes 4 0x71DA5CE0 ++ R)).drop 0x18).take 4 = leBytes 4 4 ∧ ((safeHdr ++ (leBytes 4 0x71DA5CE0 ++ R)).drop 0x20).take 28 = List.replicate 28 0) :=
    fun R => ⟨rfl, rfl, rfl, rfl, rfl, rfl⟩
  obtain ⟨g7, g8, g10, g14, g18, g20⟩ := hg (List.replicate 12224 0)
  rw [← safeSet] at g7 g8 g10 g14 g18 g20
  have hi : ∀ i, inBad q i = false := by
    intro i
    have h0 : ∀ j, inMode q j = 0 := fun j => hz _ _ (by unfold inAt; omega)
    simp [inBad, h0, paired, hp, ho (inAt i + 6) 10 (by unfold inAt; omega)]
  have hk : ∀ k, outBad q k = false := by
    intro k
    simp [outBad, outMode, hz (outAt k) 1 (by unfold outAt; omega), hp, ho (outAt k + 1) 1 (by unfold outAt; omega), ho (outAt k + 8) 8 (by unfold outAt; omega)]
  have hc : ∀ c, connBad q c = false := by
    intro c
    simp [connBad, connRole, hz (connAt c + 4) 1 (by unfold connAt; omega)]
  have hv : ∀ i, ovrLoop q i = 0 := fun i => hz _ _ (by omega)
  have hw : ∀ i, parN q (0x1C4 + 8 * i) 1 = 0 := fun i => hz _ _ (by omega)
  have hx : ∀ i, zeros safeSet (0x1C5 + 8 * i) 3 = true := fun i => ho _ _ (by omega)
  have z20 : zeros safeSet 0x20 28 = true := by rw [zeros, g20]; decide +kernel
  have p7 : parN q 7 1 = 0 := by rw [parN, hp, g7]; decide +kernel
  have p8 : parN q 8 8 = 1 := by rw [parN, hp, g8]; decide +kernel
  have p10 : parN q 0x10 4 = 500 := by rw [parN, hp, g10]; decide +kernel
  have p14 : parN q 0x14 4 = 60 := by rw [parN, hp, g14]; decide +kernel
  have p18 : parN q 0x18 4 = 4 := by rw [parN, hp, g18]; decide +kernel
  simp [setBad, cycleUs, hi, hk, hc, hv, hw, hx, p7, p8, p10, p14, p18, hp, z20, ho 0x3C2 62 (by omega)]

theorem safeSt_good : setBad (setSafe safeSt (fun z => { z with
    params := rdBytes safeSt (0x40194000 + 0x3000 * (fld safeSt Reg.STRAP_LATCH F.STRAP_LATCH_SEAL % 16)) 0x3000 })) = false := by
  have hs : fld safeSt Reg.STRAP_LATCH F.STRAP_LATCH_SEAL % 16 = 0 := by decide +kernel
  refine setBad_safeSet _ ?_
  rw [setSafe, hs]
  exact safeSt_bytes

/-- A safety PDU without data, of sequence number `n`, for a connection whose identity is 0 (R331). -/
def iscBytes (n : Nat) : List Byte :=
  let b := [0, 0] ++ beBytes 2 n ++ [0, 0]
  b ++ beBytes 4 (iscCrc 0 b)

/-- A parameter set with connection 0 between this unit, as initiator, and a partner reached through the mailbox. -/
def iscSt : State :=
  { st [(Reg.SAFE_STAT, 1), (0xA0004, 1)] with
    safe := { params := List.replicate 0x404 0 ++ [1, 2], conns := [(0, { has := true, seq := 7 })] } }

theorem penSt_witness : ∀ i, i / 2 = fieldGet F.SAFE_CMD_ARG 0x703 → inFailed { State.reset with safe := { penAt := [(7, 1)] } } i = true →
    3 ≤ (sin { State.reset with safe := { penAt := [(7, 1)] } } i).runs := by
  intro i h hf
  have h7 : fieldGet F.SAFE_CMD_ARG 0x703 = 7 := by decide +kernel
  have h : i = 14 ∨ i = 15 := by omega
  have hn : inFailed { State.reset with safe := { penAt := [(7, 1)] } } 14 = false ∧ inFailed { State.reset with safe := { penAt := [(7, 1)] } } 15 = false := by decide +kernel
  rcases h with rfl | rfl
  · rw [hn.1] at hf; cases hf
  · rw [hn.2] at hf; cases hf

/-- An enrolment record with an all-zero helper: 36 bytes of header and 4056 bytes of 0 before its CRC (R488). -/
def pufHdr : List Byte := [0x31, 0x46, 0x55, 0x50, 1, 0, 0, 0] ++ List.replicate 28 0

def pufParts : List Nat :=
  [0x3523CF95, 0x99F9BE2A, 0x455691EF, 0xF735128D, 0xBDF38DB5, 0x65ED4511, 0xCD356858, 0xF2229BE9, 0xDB66075F, 0x6B37F331, 0x16C670F1, 0x98B609DA,
    0xED81DEA8, 0x68FD7102, 0xE55F9363, 0xFB2B73DF, 0xC1A49ACD, 0xD94382C2, 0xBB8CDF51, 0xBD0CCD87, 0x99B254F5, 0x2B7C47CA, 0x868A072B, 0x5CBE4C6A]

theorem pufPart_chain : crcChain 169 0x18CC5632 pufParts = true := by decide +kernel

theorem crcPuf (n : Nat) (hn : n = 169 * pufParts.length) : crc32c (pufHdr ++ List.replicate n 0) = 0xA341B395 := by
  have h : pufHdr.foldl (crcByteR 0x82F63B78) 0xFFFFFFFF = 0x18CC5632 := by decide +kernel
  have hl : pufParts.foldl (fun _ v => v) 0x18CC5632 = 0x5CBE4C6A := by decide +kernel
  have hr := crcChain_run _ _ _ pufPart_chain
  rw [hl] at hr
  unfold crc32c crcR
  rw [List.foldl_append, h, hn, hr]
  decide +kernel

/-- The Boot ROM at the load of the key store, with that record in MRAM. -/
def pufSt : State :=
  wrBytes (wrBytes (st [(Reg.BOOT_STAT, BitVec.ofNat 32 (4 * 2 ^ F.BOOT_STAT_PHASE.lo))]) 0x40184000 [0x31, 0x46, 0x55, 0x50, 1]) 0x40184FFC (leBytes 4 0xA341B395)

def pufRec : List Byte := pufHdr ++ (List.replicate 4056 0 ++ leBytes 4 0xA341B395)

theorem pufSt_read : rdBytes pufSt keyArea 0x1000 = pufRec := by
  have hm : pufSt.mem = [(0x40184000, 0x31), (0x40184001, 0x46), (0x40184002, 0x55), (0x40184003, 0x50), (0x40184004, 1),
      (0x40184FFC, 0x95), (0x40184FFD, 0xB3), (0x40184FFE, 0x41), (0x40184FFF, 0xA3)] := by decide +kernel
  have hz : rdBytes pufSt (keyArea + 36) 4056 = List.replicate 4056 0 := by
    refine rdBytes_zeros _ _ _ (fun b hb hc => ?_)
    have hk : keyArea = 0x40184000 := rfl
    have ht : tcmAlias b = b := by unfold tcmAlias; rw [if_neg (by omega)]
    rw [rdByte, hm, ht]
    simp only [mget]
    repeat rw [if_neg (by omega)]
  have h1 : rdBytes pufSt keyArea 36 = pufHdr := by decide +kernel
  have h2 : rdBytes pufSt (keyArea + 36 + 4056) 4 = leBytes 4 0xA341B395 := by decide +kernel
  rw [show (0x1000 : Nat) = 36 + (4056 + 4) from rfl, rdBytes_add, rdBytes_add, h1, hz, h2]
  rfl

theorem pufSt_enrol : (enrolRead pufSt).1 = some pufRec := by
  have h0 : readScan pufSt 14 keyArea 0x1000 = (none, pufSt) := by decide +kernel
  have h1 : pufRec.take 0xFFC = pufHdr ++ List.replicate 4056 0 := by
    rw [pufRec, ← List.append_assoc, List.take_left']; decide +kernel
  have h2 : pufRec.drop 0xFFC = leBytes 4 0xA341B395 := by
    rw [pufRec, ← List.append_assoc, List.drop_left']; decide +kernel
  have h3 : leNat (pufRec.take 4) = 0x50554631 ∧ leNat ((pufRec.drop 4).take 2) = 1 := by decide +kernel
  unfold enrolRead
  simp only [h0, pufSt_read, h1, h2, h3.1, h3.2, crcPuf 4056 (by decide +kernel)]
  exact if_pos (by decide +kernel)

/-- A takeover that has applied its data: the role is TAKEOVER and its time is over. -/
def takeSt : State := { st [(Reg.MIRROR_STAT, 3)] with now := 200000, mirror := { applied := some 0 } }

theorem foldl_fixed {α β : Type} (f : β → α → β) (s : β) (l : List α) (h : ∀ a ∈ l, f s a = s) : l.foldl f s = s := by
  induction l with
  | nil => rfl
  | cons a l ih => rw [List.foldl_cons, h a List.mem_cons_self, ih (fun b hb => h b (List.mem_cons_of_mem a hb))]

theorem takeSession_disabled (s : State) (x : Nat) (h : rxeDisabled s x = true) : takeSession s x = s := by
  rw [takeSession, if_pos h]

/-- The registers of that state when the machine, the loops and the role are taken over. -/
def takeRegs : AMap Word := [(0x40048, 0x4E), (0x4505C, 8), (0x70004, 1), (0x70008, 1), (0xB000C, 1), (0xB0074, 0x804)]

theorem takeRegs_disabled : (List.range 1024).all (fun x => fieldGet F.SSTAT_STATE (mget (regReset (Reg.SSTAT x)) takeRegs (Reg.SSTAT x)) == 0) = true := by
  decide +kernel

theorem takeSt_regs : (takenOver takeSt).regs = takeRegs := by decide +kernel

theorem takeSt_sessions : (List.range 1024).foldl takeSession (takenOver takeSt) = takenOver takeSt := by
  refine foldl_fixed takeSession _ _ (fun x hx => takeSession_disabled _ x ?_)
  rw [rxeDisabled, sState, fld, rd, takeSt_regs]
  exact List.all_eq_true.mp takeRegs_disabled x hx

theorem takeSt_permitted : Permitted takeSt (takeoverDone takeSt) := by
  rw [Permitted, takeoverDone, takeSt_sessions]
  decide +kernel

theorem putSlot_hostErr (s : State) (i : Nat) (k : KeySlot) : (putSlot s i k).hostErr = s.hostErr := by
  unfold putSlot slotInfo
  dsimp only
  rw [wr_hostErr]
  split <;> rfl

theorem loadSlot_hostErr (root : List Byte) (s : State) (i : Nat) (hi : i < 128) : (loadSlot root s i).hostErr = s.hostErr := by
  have h : rangeMapped (slotRecordAt i) 64 = true ∧ isL1 (slotRecordAt i) = false := by
    revert i
    decide +kernel
  have hr (q : State) : (redraw q i).hostErr = q.hostErr := by
    unfold redraw
    dsimp only
    split <;> rfl
  unfold loadSlot
  dsimp only
  rw [hr, putSlot_hostErr, readScan_hostErr, fabric_permitted _ _ _ _ h.1 h.2]

theorem rootPresent_hostErr (s : State) (root : List Byte) : (rootPresent s root).hostErr = s.hostErr := by
  unfold rootPresent
  dsimp only
  rw [setFlag_hostErr, foldl_keeps_mem State.hostErr _ _ (fun s i hi => loadSlot_hostErr root s i (List.mem_range.mp hi)), setRoot,
    setFld_hostErr, setKeys_hostErr]

/-- A write of the key store by the key unit in a state whose memory no unit holds. -/
theorem keyWrite_hostErr (s : State) (a n : Nat) (bs : List Byte) (hn : bs.length = n) (h : storeErr s 14 a n = none)
    (hs : sessionOwned s a n = []) (ho : txOwned s = [] ∧ dmaOwned s = [] ∧ loadOwned s = [] ∧ mtrOwned s = [])
    (hm : rangeMapped a n = true ∧ isL1 a = false) : (keyWrite s a bs).2.hostErr = s.hostErr := by
  subst hn
  unfold keyWrite
  split
  · rfl
  · dsimp only
    rw [store_hostErr, writeBegin_permitted s 14 a bs h hs ho.1 ho.2.1 ho.2.2.1 ho.2.2.2, fabric_permitted _ _ _ _ hm.1 hm.2]

theorem keysEnd_hostErr (s : State) (v : Word) : (keysEnd s v).hostErr = (keysDo s v).2.hostErr := by
  unfold keysEnd
  dsimp only
  rw [raise_hostErr, setFlag_hostErr, setFld_hostErr, setKeys_hostErr]

/-- DECOMMISSION waits: the label is written. -/
def decomSt : State := { st [(Reg.KEYS_LABEL, 0x4445434D)] with keys := { cmd := some 8 } }

theorem erasedKeys_length : erasedKeys.length = 0x10000 := by unfold erasedKeys; exact List.length_replicate

theorem decomSt_erase : (keyWrite decomSt keyArea erasedKeys).2.hostErr = decomSt.hostErr :=
  keyWrite_hostErr _ _ 0x10000 _ erasedKeys_length (by decide +kernel) (by decide +kernel) (by decide +kernel) (by decide +kernel)

theorem decomSt_do : (doDecommission decomSt).2.hostErr = decomSt.hostErr := by
  have hp : ∀ (n : Nat) (q : State) (e : Efuse), ((n, { q with efuse := e }) : Nat × State).2.hostErr = q.hostErr := fun _ _ _ => rfl
  unfold doDecommission
  rw [if_neg (by decide +kernel)]
  refine (hp _ _ _).trans ?_
  rw [setRoot, setFld_hostErr, setKeys_hostErr, foldl_keeps State.hostErr _ (fun s i => putSlot_hostErr s i {})]
  exact decomSt_erase

theorem decomSt_keysDo : keysDo decomSt 8 = doDecommission decomSt := by
  unfold keysDo
  rw [show cmdField 8 F.KEYS_CMD_CMD = 8 from by decide +kernel]
  rfl

theorem decomSt_permitted : Permitted decomSt (keysEnd decomSt 8) := by
  rw [Permitted, keysEnd_hostErr, decomSt_keysDo, decomSt_do]

theorem leBytes_length (n : Nat) : ∀ v, (leBytes n v).length = n := by
  induction n with
  | zero => intro v; rfl
  | succ n ih => intro v; rw [leBytes, List.length_cons, ih]

/-- ENROLL waits in a part with no record in its key store. -/
def enrolSt : State := { st [] with keys := { cmd := some 6 } }

theorem enrolSt_permitted : Permitted enrolSt (keysEnd enrolSt 6) := by
  have hc : keysDo enrolSt 6 = doEnroll enrolSt := by
    unfold keysDo
    rw [show cmdField 6 F.KEYS_CMD_CMD = 6 from by decide +kernel]
    rfl
  have he : (enrolRead enrolSt).2 = fabric enrolSt 14 keyArea 0x1000 := by
    unfold enrolRead
    dsimp only
    rw [readScan_clean _ _ _ _ (by decide +kernel)]
  rw [Permitted, keysEnd_hostErr, hc]
  unfold doEnroll
  dsimp only
  rw [if_neg (by decide +kernel), rootPresent_hostErr, setFlag_hostErr, he]
  generalize hb : rootCheck _ = b
  have hlen : b.length < 33 := Nat.lt_succ_of_le (by rw [← hb]; exact List.length_take_le _ _)
  have hall : ∀ k < 33, storeErr (fabric enrolSt 14 keyArea 0x1000) 14 keyArea (4064 + k) = none ∧
      sessionOwned (fabric enrolSt 14 keyArea 0x1000) keyArea (4064 + k) = [] ∧
      rangeMapped keyArea (4064 + k) = true ∧ isL1 keyArea = false := by decide +kernel
  have hk := hall b.length hlen
  refine (keyWrite_hostErr _ _ (4064 + b.length) _ ?_ hk.1 hk.2.1 (by decide +kernel) hk.2.2).trans (by decide +kernel)
  simp only [List.length_append, List.length_map, List.length_range, leBytes_length]
  omega

/-- Afterglow's record 5 with GENERATION 1 in copy A, its payload zero (R520). -/
def aglSt : State :=
  { wrBytes (wrBytes State.reset 0x40080A00 [1, 0, 0, 0, 5]) 0x40080AF8 (leBytes 4 0x91DB2BD2) with start := { step := .filled } }

theorem aglPart_chain : crcChain 120 0x9C8CAB19 [0x3FED62B4, 0x6E24D42D] = true := by decide +kernel

theorem aglSt_bytes : rdBytes aglSt 0x40080A00 0xF8 = [1, 0, 0, 0, 5, 0, 0, 0] ++ List.replicate 240 0 := by
  have hm : aglSt.mem = [(0x40080A00, 1), (0x40080A04, 5), (0x40080AF8, 0xD2), (0x40080AF9, 0x2B), (0x40080AFA, 0xDB), (0x40080AFB, 0x91)] := by
    decide +kernel
  have hz : rdBytes aglSt (0x40080A00 + 8) 240 = List.replicate 240 0 := by
    refine rdBytes_zeros _ _ _ (fun b hb hc => ?_)
    have ht : tcmAlias b = b := by unfold tcmAlias; rw [if_neg (by omega)]
    rw [rdByte, hm, ht]
    simp only [mget]
    repeat rw [if_neg (by omega)]
  rw [show (0xF8 : Nat) = 8 + 240 from rfl, rdBytes_add, hz]
  exact congrArg (· ++ List.replicate 240 0) (by decide +kernel)

theorem crcAgl (n : Nat) (hn : n = 120 * [0x3FED62B4, 0x6E24D42D].length) : crc32c ([1, 0, 0, 0, 5, 0, 0, 0] ++ List.replicate n 0) = 0x91DB2BD2 := by
  have h : ([1, 0, 0, 0, 5, 0, 0, 0] : List Byte).foldl (crcByteR 0x82F63B78) 0xFFFFFFFF = 0x9C8CAB19 := by decide +kernel
  have hr := crcChain_run _ _ _ aglPart_chain
  rw [show [0x3FED62B4, 0x6E24D42D].foldl (fun _ v => v) 0x9C8CAB19 = 0x6E24D42D from rfl] at hr
  unfold crc32c crcR
  rw [List.foldl_append, h, hn, hr]
  decide +kernel

theorem aglSt_newer : aglNewer aglSt 5 = some false := by
  have ha : aglCopyAt 5 false = 0x40080A00 := by decide +kernel
  have hb : aglValid aglSt 5 true = false := by decide +kernel
  have hv : aglValid aglSt 5 false = true := by
    have h1 : rdLE aglSt (0x40080A00 + 4) 2 = 5 ∧ rdLE aglSt (0x40080A00 + 0xF8) 4 = 0x91DB2BD2 ∧ aglGenOf aglSt 5 false = 1 ∧
        (eccIn aglSt 0x40080A00 256).any (ueAt aglSt) = false := by decide +kernel
    unfold aglValid
    simp only [ha, aglSt_bytes, crcAgl 240 (by decide +kernel), h1.1, h1.2.1, h1.2.2.1, h1.2.2.2]
    decide +kernel
  rw [aglNewer, hv, hb]

theorem wit_PkeySequenceOpensAndClosesWindow_1 : ∃ (ini : Fin 16) (page : Fin 4096) (s : State),
    (Reachable s ini page.val 0x1C) ∧
    (flag s (Reg.PCTL page.val) F.PCTL_LOCK = false) :=
  ⟨4, 0x40, State.reset, by decide +kernel⟩

theorem wit_PkeySequenceOpensAndClosesWindow_2 : ∃ (ini : Fin 16) (page : Fin 4096) (s : State),
    (Reachable s ini page.val 0x1C) ∧
    (flag s (Reg.PCTL page.val) F.PCTL_LOCK = false) ∧
    ((mget ({} : PageKey) s.pkey page.val).half = true) :=
  ⟨4, 0, { State.reset with pkey := [(0, { half := true })] }, by decide +kernel⟩

theorem wit_PkeySequenceOpensAndClosesWindow_3 : ∃ (ini : Fin 16) (page : Fin 4096) (value : Word) (s : State),
    (Reachable s ini page.val 0x1C) ∧
    (flag s (Reg.PCTL page.val) F.PCTL_LOCK = false) ∧
    (value &&& 0xFFFF0000#32 = 0) ∧
    (value ≠ 0xA5C3#32) ∧
    (value ≠ 0x3C5A#32 ∨ (mget ({} : PageKey) s.pkey page.val).half = false) :=
  ⟨15, 0x127, 0x3C5A#32, State.reset, by decide +kernel⟩

theorem wit_PkeySequenceOpensAndClosesWindow_4 : ∃ (ini : Fin 16) (page : Fin 4096) (value : Word) (s : State),
    (Reachable s ini page.val 0x1C) ∧
    (flag s (Reg.PCTL page.val) F.PCTL_LOCK = true) ∧
    (value &&& 0xFFFF0000#32 = 0) :=
  ⟨0, 0, 0xA5C3#32, st [(4, 5)], by decide +kernel⟩

theorem wit_PkeySequenceOpensAndClosesWindow_5 : ∃ (page : Fin 4096) (at0 : Nat) (s : State),
    ((mget ({} : PageKey) s.pkey page.val).closeAt = some at0) ∧
    (at0 ≤ s.now) :=
  ⟨0x17, 8192, { State.reset with now := 8192, pkey := [(0x17, { closeAt := some 8192 })] }, by decide +kernel⟩

theorem wit_PageControlWrites_1 : ∃ (ini : Fin 16) (page : Fin 4096) (en : Bool) (s : State),
    (Reachable s ini page.val 4) ∧
    (Unlocked s page.val) ∧
    (enErr s page.val en = none) ∧
    (Permitted s (setEn (granted s ini) page.val en)) ∧
    (page.val ≠ 0x50 ∧ page.val ≠ 0x60 ∧ page.val ≠ 0x70 ∧ page.val ≠ 0x80 ∧ page.val ≠ 0x90 ∧ page.val ≠ 0xA0 ∧ page.val ≠ 0xB0) ∧
    (page.val < 0xD0 ∨ (0xF0 ≤ page.val ∧ page.val ≠ 0x110)) :=
  ⟨4, 0x40, true, { State.reset with pkey := [(0x40, { closeAt := some 8192 })] }, by decide +kernel⟩

theorem wit_PageControlWrites_2 : ∃ (ini : Fin 16) (page : Fin 4096) (en : Bool) (s : State),
    (Reachable s ini page.val 4) ∧
    (Unlocked s page.val) ∧
    (enErr s page.val en = none) ∧
    (Permitted s (setEn (granted s ini) page.val en)) :=
  ⟨4, 0x70, false, { State.reset with pkey := [(0x70, { closeAt := some 8192 })] }, by decide +kernel⟩

theorem wit_PageControlWrites_3 : ∃ (ini : Fin 16) (page : Fin 4096) (s : State),
    (Reachable s ini page.val 4) ∧
    (Unlocked s page.val) :=
  ⟨4, 0, { State.reset with pkey := [(0, { closeAt := some 8192 })] }, by decide +kernel⟩

theorem wit_PageControlWrites_4 : ∃ (ini : Fin 16) (page : Fin 4096) (s : State),
    (Reachable s ini page.val 4) ∧
    (Unlocked s page.val) ∧
    (Permitted s (beginSrst (granted s ini) page.val)) :=
  ⟨4, 0x23, { State.reset with pkey := [(0x23, { closeAt := some 8192 })] }, by decide +kernel⟩

theorem wit_PageControlWrites_5 : ∃ (ini : Fin 16) (page : Fin 4096) (s : State),
    (Reachable s ini page.val 4) ∧
    (Unlocked s page.val) ∧
    (Permitted s (beginSrst (granted s ini) page.val)) ∧
    (page.val ∈ [0x17, 0x23, 0x30, 0xF0, 0x100, 0x110]) :=
  ⟨4, 0x110, { State.reset with pkey := [(0x110, { closeAt := some 8192 })] }, by decide +kernel⟩

theorem wit_PageControlWrites_6 : ∃ (page : Fin 4096) (s : State),
    (flag s (Reg.PSTAT page.val) F.PSTAT_SRST_BUSY = true) :=
  ⟨0x23, st [(0x23008, 3)], by decide +kernel⟩

theorem wit_PageControlWrites_7 : ∃ (ini : Fin 16) (page : Fin 4096) (value : Word) (s : State),
    (Reachable s ini page.val 0x18) ∧
    (intErr page.val value = none) :=
  ⟨15, 2, 1, State.reset, by decide +kernel⟩

theorem wit_ClockDomainCommands_1 : ∃ (ini : Fin 16) (value : Word) (s : State),
    (Reachable s ini 1 0x40) ∧
    (Unlocked s 1) ∧
    (value &&& 0xFFFFF800#32 = 0) ∧
    (gateErr s (rd s Reg.CLK_RUN &&& gateable &&& ~~~value) = none) :=
  ⟨4, 0x77F#32, { State.reset with pkey := [(1, { closeAt := some 8192 })] }, by decide +kernel⟩

theorem wit_ClockDomainCommands_2 : ∃ (ini : Fin 16) (value : Word) (s : State),
    (Reachable s ini 1 0x44) ∧
    (Unlocked s 1) ∧
    (value &&& 0xFFFFF800#32 = 0) ∧
    (gateErr s (value &&& gateable &&& ~~~rd s Reg.CLK_DRST) = none) ∧
    (rd s Reg.CLK_DRST &&& ~~~(value &&& 0x7B4#32) = 0) :=
  ⟨4, 0x080#32, { State.reset with pkey := [(1, { closeAt := some 8192 })] }, by decide +kernel⟩

theorem wit_ClockDomainCommands_3 : ∃ (ini : Fin 16) (value : Word) (s : State),
    (Reachable s ini 1 0x44) ∧
    (Unlocked s 1) ∧
    (value &&& 0xFFFFF800#32 = 0) ∧
    (gateErr s (value &&& gateable &&& ~~~rd s Reg.CLK_DRST) = none) ∧
    (rd s Reg.CLK_DRST &&& ~~~0x7B4#32 = 0) ∧
    (Permitted s (((List.range 11).filter (fun d => bitAt (rd s Reg.CLK_DRST) d && !(bitAt (value &&& 0x7B4#32) d))).foldl (fun u d => domainReset d u) (wr (granted s ini) Reg.CLK_DRST (value &&& 0x7B4#32)))) :=
  ⟨4, 0, { st [(Reg.CLK_DRST, 0x7B4)] with pkey := [(1, { closeAt := some 8192 })] }, by decide +kernel⟩

theorem wit_SemaphoreGoesToLowestCore_1 : ∃ (n : Fin 64) (requesters : BitVec 7) (c : Nat) (s : State),
    (c < 7) ∧
    (requesters.getLsbD c = true) ∧
    (∀ j < c, requesters.getLsbD j = false) ∧
    (mget 0 s.sem n.val = 0) :=
  ⟨63, 0x60#7, 5, State.reset, by decide +kernel⟩

theorem wit_SemaphoreGoesToLowestCore_2 : ∃ (n : Fin 64) (requesters : BitVec 7) (s : State),
    (requesters ≠ 0) ∧
    (mget 0 s.sem n.val ≠ 0) :=
  ⟨0, 1, { State.reset with sem := [(0, 3)] }, by decide +kernel⟩

theorem wit_StartSequenceCommands_2 : ∃ (s : State),
    (s.start.step = .pllWait) :=
  ⟨{ State.reset with start := { step := .pllWait } }, by decide +kernel⟩

theorem wit_StartSequenceCommands_3 : ∃ (s : State),
    (s.start.step = .filling) ∧
    (s.clock.running = false) :=
  ⟨{ State.reset with start := { step := .filling } }, by decide +kernel⟩

theorem wit_StartSequenceCommands_4 : ∃ (k : Fin 8) (s : State),
    (s.start.step = .filling) ∧
    (s.clock.running = true) ∧
    (s.start.domains = k.val) ∧
    (s.start.lockAt + 20 * 5000 * k.val ≤ s.now) :=
  ⟨7, { State.reset with now := 700000, clock := { running := true }, start := { step := .filling, domains := 7 } }, by decide +kernel⟩

theorem wit_StartSequenceCommands_5 : ∃ (i : Fin 160) (reads : List Nat) (s : State),
    (s.start.step = .filling) ∧
    (s.start.domains = 8) ∧
    (s.start.banksStarted = i.val) ∧
    (s.start.fillAt + 14336 * 8 * i.val ≤ s.now) :=
  ⟨159, [0x30FC0004, 5], { State.reset with now := 18235392, start := { step := .filling, domains := 8, banksStarted := 159 } }, by decide +kernel⟩

theorem wit_StartSequenceCommands_6 : ∃ (i : Fin 160) (s : State),
    (s.start.step = .filling) ∧
    (s.start.banksDone = i.val) ∧
    (i.val < s.start.banksStarted) ∧
    (s.start.fillAt + 14336 * 8 * i.val + 32768 * 8 ≤ s.now) :=
  ⟨0, { State.reset with now := 262144, start := { step := .filling, banksStarted := 1, debugStalled := [0x20000007] } }, by decide +kernel⟩

theorem wit_StartSequenceCommands_7 : ∃ (s : State),
    (s.start.step = .filling) ∧
    (s.start.banksDone = 160) :=
  ⟨{ State.reset with start := { step := .filling, banksDone := 160 } }, by decide +kernel⟩

theorem wit_StartSequenceCommands_8 : ∃ (s : State),
    (s.start.step = .filled) ∧
    (s.power.low = false) ∧
    (shut s = false) :=
  ⟨{ State.reset with start := { step := .filled } }, by decide +kernel⟩

theorem wit_ResetsOfTheDevice_1 : ∃ (s : State),
    (s.start.step ≠ .porActive) :=
  ⟨{ State.reset with start := { step := .running } }, by decide +kernel⟩

theorem wit_ResetsOfTheDevice_2 : ∃ (ini : Fin 16) (s : State),
    (Reachable s ini 0 0x48) ∧
    (s.start.step ≠ .porActive) ∧
    (shut s = false) :=
  ⟨4, { State.reset with start := { step := .running } }, by decide +kernel⟩

theorem wit_ResetsOfTheDevice_3 : ∃ (ini : Fin 16) (key : Word) (s : State),
    (Reachable s ini 0 0x48) ∧
    (key ≠ 0x8A21#32) :=
  ⟨4, 0x8A22#32, State.reset, by decide +kernel⟩

theorem wit_ResetsOfTheDevice_4 : ∃ (s : State),
    (s.start.step ≠ .porActive) ∧
    (shut s = false) ∧
    (flag s Reg.SYS_WDG_CFG F.SYS_WDG_CFG_EN = true) ∧
    (s.start.wdgFrom + 1000000 * fld s Reg.SYS_WDG_CFG F.SYS_WDG_CFG_PERIOD ≤ monoNs s) :=
  ⟨{ st [(0x6C, 0x80000001)] with start := { step := .running }, clock := { mono := 1000000 } }, by decide +kernel⟩

theorem wit_ResetsOfTheDevice_5 : ∃ (t0 : Nat) (s : State),
    (s.safe.fatalAt = some t0) ∧
    (t0 + 5000000 ≤ s.now) ∧
    ((parN s 7 1).testBit 0 = true) ∧
    (s.start.step ≠ .porActive) ∧
    (shut s = false) :=
  ⟨0, { State.reset with now := 5000000, start := { step := .running }, safe := { fatalAt := some 0, params := [0, 0, 0, 0, 0, 0, 0, 1] } }, by decide +kernel⟩

theorem wit_WatchdogAndCoreRelease_1 : ∃ (ini : Fin 16) (value : Word) (s : State),
    (Reachable s ini 0 0x6C) ∧
    (Unlocked s 0) ∧
    (value &&& 0x7FFF0000#32 = 0) ∧
    (fieldGet F.SYS_WDG_CFG_PERIOD value ≠ 0) :=
  ⟨4, 0x8000FFFF#32, { State.reset with pkey := [(0, { closeAt := some 8192 })] }, by decide +kernel⟩

theorem wit_WatchdogAndCoreRelease_2 : ∃ (ini : Fin 16) (s : State),
    (Reachable s ini 0 0x70) ∧
    (flag s Reg.SYS_WDG_CFG F.SYS_WDG_CFG_EN = true) ∧
    (monoNs s < s.start.wdgFrom + 1000000 * fld s Reg.SYS_WDG_CFG F.SYS_WDG_CFG_PERIOD) :=
  ⟨4, st [(0x6C, 0x80000001)], by decide +kernel⟩

theorem wit_WatchdogAndCoreRelease_3 : ∃ (ini : Fin 16) (key : Word) (s : State),
    (Reachable s ini 0 0x70) ∧
    (key ≠ 0x4B1D#32) :=
  ⟨4, 0, State.reset, by decide +kernel⟩

theorem wit_WatchdogAndCoreRelease_4 : ∃ (ini : Fin 16) (value : Word) (s : State),
    (Reachable s ini 0 0x4C) ∧
    (value &&& 0xFFFFFF80#32 = 0) ∧
    (s.boot.step = .done) ∧
    (Permitted s (([0, 1, 2, 3, 5, 6].filter (fun n => bitAt value n && !(bitAt (rd (granted s ini) Reg.SYS_CORE_REL) n))).foldl releaseCore (orReg (granted s ini) Reg.SYS_CORE_REL (value &&& 0x6F#32)))) :=
  ⟨4, 0x6F#32, { State.reset with start := { step := .running }, boot := { step := .done } }, by decide +kernel⟩

theorem wit_WatchdogAndCoreRelease_5 : ∃ (ini : Fin 16) (value : Word) (s : State),
    (Reachable s ini 0 0x4C) ∧
    (value &&& 0xFFFFFF80#32 = 0) ∧
    (s.boot.step ≠ .done) :=
  ⟨4, 0x6F#32, State.reset, by decide +kernel⟩

theorem wit_BootRomFlow_1 : ∃ (slot : Fin 2) (left : List Nat) (s : State),
    (bootRuns s = true) ∧
    (s.boot.step = .headers (slot.val :: left)) ∧
    (slotHas s 1024 = true) :=
  ⟨1, [], { st [] with start := { step := .running }, boot := { step := .headers [1] } }, by decide +kernel⟩

theorem wit_BootRomFlow_2 : ∃ (s : State),
    (bootRuns s = true) ∧
    (s.boot.step = .puf) :=
  ⟨{ st [] with start := { step := .running }, boot := { step := .puf } }, by decide +kernel⟩

theorem wit_BootRomFlow_3 : ∃ (slot : Nat) (i : Nat) (others : List Nat) (s : State),
    (bootRuns s = true) ∧
    (s.boot.step = .sections slot i others) ∧
    (i < hdrCount (slotHeader s slot)) ∧
    (slotHas s (sectSrc (slotHeader s slot) i + sectLen (slotHeader s slot) i) = true) ∧
    (Permitted s (loadSection s slot i others (slotHeader s slot))) ∧
    (sectOk (slotHeader s slot) i = true) ∧
    (s.hostErr = none) ∧
    (safeReleased s = false) ∧
    (gcmTag (sectionKey (slotFetch s slot (sectSrc (slotHeader s slot) i) (sectLen (slotHeader s slot) i)) (slotHeader s slot)).1 (sectIv (slotHeader s slot) i) [] (slotBytes s slot (sectSrc (slotHeader s slot) i) (sectLen (slotHeader s slot) i)) = sectTag (slotHeader s slot) i) :=
  ⟨0, 0, [1], bootSt true, by decide +kernel⟩

theorem wit_BootRomFlow_4 : ∃ (slot : Nat) (i : Nat) (others : List Nat) (s : State),
    (bootRuns s = true) ∧
    (s.boot.step = .sections slot i others) ∧
    (i < hdrCount (slotHeader s slot)) ∧
    (slotHas s (sectSrc (slotHeader s slot) i + sectLen (slotHeader s slot) i) = true) ∧
    (Permitted s (loadSection s slot i others (slotHeader s slot))) ∧
    (gcmTag (sectionKey (slotFetch s slot (sectSrc (slotHeader s slot) i) (sectLen (slotHeader s slot) i)) (slotHeader s slot)).1 (sectIv (slotHeader s slot) i) [] (slotBytes s slot (sectSrc (slotHeader s slot) i) (sectLen (slotHeader s slot) i)) ≠ sectTag (slotHeader s slot) i) :=
  ⟨0, 0, [1], bootSt false, by decide +kernel⟩

theorem wit_BootRomFlow_5 : ∃ (slot : Nat) (i : Nat) (others : List Nat) (s : State),
    (bootRuns s = true) ∧
    (s.boot.step = .sections slot i others) ∧
    (i = hdrCount (slotHeader s slot)) :=
  ⟨1, 0, [], { st [] with start := { step := .running }, boot := { step := .sections 1 0 [] } }, by decide +kernel⟩

theorem wit_BootRomFlow_6 : ∃ (code : Nat) (s : State),
    (bootRuns s = true) ∧
    (s.boot.step = .failing code) :=
  ⟨2, { st [] with start := { step := .running }, boot := { step := .failing 2 } }, by decide +kernel⟩

theorem wit_BootRomFlow_7 : ∃ (s : State),
    (bootRuns s = true) ∧
    (bootSource s = 1) ∧
    (bootLoads s = true) ∧
    (s.boot.image = []) ∧
    (s.boot.promptMono = none) :=
  ⟨{ st [(0x3040, 1)] with start := { step := .running }, boot := { step := .headers [0] } }, by decide +kernel⟩

theorem wit_BootRomFlow_8 : ∃ (m : Nat) (s : State),
    (bootRuns s = true) ∧
    (bootSource s = 1) ∧
    (bootLoads s = true) ∧
    (s.boot.image = []) ∧
    (s.boot.promptMono = some m) ∧
    (m + 100000000 ≤ monoNs s) :=
  ⟨0, { st [(0x3040, 1)] with start := { step := .running }, clock := { mono := 100000000 }, boot := { step := .headers [0], promptMono := some 0 } }, by decide +kernel⟩

theorem wit_BootRomFlow_9 : ∃ (value : Byte) (s : State),
    (bootRuns s = true) ∧
    (bootSource s = 1) ∧
    (bootLoads s = true) ∧
    (s.boot.image.length < 1024 ∨ s.boot.image.length < imageEnd (slotHeader s 0)) :=
  ⟨0x48, { st [(0x3040, 1)] with start := { step := .running }, boot := { step := .headers [0] } }, by decide +kernel⟩

theorem wit_BootRomFlow_10 : ∃ (s : State),
    (bootRuns s = true) ∧
    (bootSource s = 2) ∧
    (bootLoads s = true) ∧
    (s.boot.image = []) ∧
    (s.boot.startMono + 10000000000 ≤ monoNs s) :=
  ⟨{ st [(0x3040, 2)] with start := { step := .running }, clock := { mono := 10000000000 }, boot := { step := .headers [0] } }, by decide +kernel⟩

theorem wit_PowerFailAndShutdown_1 : ∃ (s : State),
    (s.power.low = false) :=
  ⟨State.reset, by decide +kernel⟩

theorem wit_PowerFailAndShutdown_3 : ∃ (t0 : Nat) (s : State),
    (s.power.low = true) ∧
    (s.power.fellAt = some t0) ∧
    (s.power.qualifiedAt = none) ∧
    (t0 + 10000 ≤ s.now) ∧
    (s.start.step ≠ .porActive) :=
  ⟨0, { State.reset with now := 10000, power := { low := true, fellAt := some 0 }, start := { step := .running } }, by decide +kernel⟩

theorem wit_PowerFailAndShutdown_4 : ∃ (t0 : Nat) (s : State),
    (s.power.qualifiedAt = some t0) ∧
    (s.cyc.ret.phase = .idle) ∧
    (lanternWriting s = false) ∧
    (shut s = false) ∧
    (max t0 s.power.writeEnd + 20000 ≤ s.now) ∧
    (Permitted s (enterShut (shutRecord s))) :=
  ⟨0, { State.reset with now := 20000, power := { low := true, fellAt := some 0, qualifiedAt := some 0 }, start := { step := .running } }, by decide +kernel⟩

theorem wit_CyclicMachineCommands_1 : ∃ (ini : Fin 16) (value : Word) (s : State),
    (Reachable s ini 0x40 0x40) ∧
    (value.toNat < 4) ∧
    (value ≠ 0) ∧
    (modeSet s = 0) ∧
    (flag s Reg.CYC_FORCE_EN F.CYC_FORCE_EN_EN = false) ∧
    (flag s Reg.CYC_STAT F.CYC_STAT_FORCE_IND = false) :=
  ⟨4, 3, State.reset, by decide +kernel⟩

theorem wit_CyclicMachineCommands_2 : ∃ (ini : Fin 16) (value : Word) (s : State),
    (Reachable s ini 0x40 0x40) ∧
    (value.toNat < 4) ∧
    (modeSet s ≠ 0) ∧
    (forcing s = flag s Reg.CYC_STAT F.CYC_STAT_FORCE_IND) :=
  ⟨4, 3, st [(0x40040, 1)], by decide +kernel⟩

theorem wit_CyclicMachineCommands_3 : ∃ (ini : Fin 16) (s : State),
    (Reachable s ini 0x40 0x44) ∧
    (modeSet s ≠ 0) ∧
    (machine s = 0 ∨ machine s = 1) ∧
    (pageEn s 0x40 = true) ∧
    (programErr s = none) ∧
    (Permitted s (coldStart (granted s ini))) :=
  ⟨4, st [(0x40004, 1), (0x40040, 1), (0x40048, 1)], by decide +kernel⟩

theorem wit_CyclicMachineCommands_4 : ∃ (ini : Fin 16) (n : Nat) (s : State),
    (Reachable s ini 0x40 0x44) ∧
    (modeSet s ≠ 0) ∧
    (machine s = 0 ∨ machine s = 1) ∧
    (pageEn s 0x40 = true) ∧
    (programErr s = some n) :=
  ⟨4, 38, st [(0x40004, 1), (0x40040, 1), (0x40048, 1), (Reg.TCFG 0, 0x80000000)], by decide +kernel⟩

theorem wit_CyclicMachineCommands_5 : ∃ (ini : Fin 16) (s : State),
    (Reachable s ini 0x40 0x44) ∧
    (modeSet s ≠ 0) ∧
    (machine s = 0 ∨ machine s = 1) ∧
    (pageEn s 0x40 = true) ∧
    (programErr s = none) ∧
    (Permitted s (warmStart (granted s ini))) :=
  ⟨4, st [(0x40004, 1), (0x40040, 1), (0x40048, 1)], by decide +kernel⟩

theorem wit_CyclicMachineCommands_6 : ∃ (ini : Fin 16) (k : Fin 16) (s : State),
    (Reachable s ini 0x40 0x44) ∧
    (modeSet s = 1 ∨ modeSet s = 3) ∧
    (taskState s k.val = 1) :=
  ⟨4, 15, st [(0x40040, 1), (Reg.TSTAT 15, 1)], by decide +kernel⟩

theorem wit_CyclicMachineCommands_7 : ∃ (ini : Fin 16) (k : Fin 16) (s : State),
    (Reachable s ini 0x40 0x44) ∧
    (modeSet s = 1 ∨ modeSet s = 3) ∧
    (taskState s k.val = 2) :=
  ⟨4, 0, st [(0x40040, 1), (Reg.TSTAT 0, 2)], by decide +kernel⟩

theorem wit_CyclicMachineCommands_8 : ∃ (ini : Fin 16) (k : Fin 16) (s : State),
    (Reachable s ini 0x40 0x44) ∧
    (modeSet s = 1 ∨ modeSet s = 3) ∧
    (taskState s k.val = 3) ∧
    ((task s k.val).saved = false) :=
  ⟨4, 0, st [(0x40040, 1), (Reg.TSTAT 0, 3)], by decide +kernel⟩

theorem wit_CyclicMachineCommands_9 : ∃ (ini : Fin 16) (k : Fin 16) (s : State),
    (Reachable s ini 0x40 0x44) ∧
    (modeSet s ≠ 0) ∧
    (machine s = 2) ∧
    (taskState s k.val = 4) :=
  ⟨4, 0, st [(0x40040, 1), (0x40048, 2), (Reg.TSTAT 0, 4)], by decide +kernel⟩

theorem wit_CyclicMachineCommands_10 : ∃ (ini : Fin 16) (s : State),
    (Reachable s ini 0x40 0x44) ∧
    (modeSet s ≠ 0) ∧
    (flag s Reg.CYC_RET_STAT F.CYC_RET_STAT_BUSY = false) ∧
    (fld s Reg.CYC_XSTAT F.CYC_XSTAT_STATE ≠ 2) ∧
    (s.cyc.ret.blockedBy = none) ∧
    (held s = false) :=
  ⟨4, st [(0x40040, 1)], by decide +kernel⟩

theorem wit_CyclicMachineCommands_11 : ∃ (ini : Fin 16) (s : State),
    (Reachable s ini 0x40 0x44) ∧
    (modeSet s ≠ 0) ∧
    (flag s Reg.CYC_RET_STAT F.CYC_RET_STAT_BUSY = true) :=
  ⟨4, st [(0x40040, 1), (0x4505C, 0x08)], by decide +kernel⟩

theorem wit_TaskReleaseAndTransferEngine_1 : ∃ (k : Fin 16) (s : State),
    (releaseDue s k.val = true) ∧
    (taskState s k.val = 1) ∧
    (Permitted s (mirrorGap (releaseTask (setTask s k.val (fun q => { q with gridFrom := nextGrid s k.val + 1 })) k.val) k.val)) :=
  ⟨0, { st [(0x40048, 2), (Reg.TCFG 0, 0x80000000), (Reg.TPERIOD 0, 4), (Reg.TSTAT 0, 1)] with clock := { mono := 1000000 }, cyc := { tasks := [(0, { imap := List.replicate 8 0 ++ leBytes 4 0x20000000 ++ leBytes 4 64 })] } }, by decide +kernel⟩

theorem wit_TaskReleaseAndTransferEngine_2 : ∃ (k : Fin 16) (s : State),
    (releaseDue s k.val = true) ∧
    (taskState s k.val = 2) ∧
    (fld s (Reg.TCFG k.val) F.TCFG_OVR_LIMIT = 0) :=
  ⟨15, { st [(0x40048, 2), (Reg.TCFG 15, 0x80000000), (Reg.TPERIOD 15, 4), (Reg.TSTAT 15, 2)] with clock := { mono := 1000000 } }, by decide +kernel⟩

theorem wit_TaskReleaseAndTransferEngine_3 : ∃ (o : XferOp) (s : State),
    (s.cyc.current = none) ∧
    (xferBest s (s.cyc.waiting.filter (fun o => !(frozen s o))) = some o) ∧
    (held s = false) :=
  ⟨.snapshot 3, { State.reset with cyc := { waiting := [.snapshot 3] } }, by decide +kernel⟩

theorem wit_TaskReleaseAndTransferEngine_4 : ∃ (k : Nat) (s : State),
    (s.cyc.current = some (.snapshot k)) ∧
    (xferRan s (.snapshot k) = true) ∧
    (forceErr s k 0 (mapImgLen (inMap s k)) = false) ∧
    (Permitted s (snapshotDone s k)) :=
  ⟨0, { State.reset with now := 2000, cyc := { current := some (.snapshot 0) } }, by decide +kernel⟩

theorem wit_TaskReleaseAndTransferEngine_5 : ∃ (core : Fin 4) (value : Word) (s : State),
    (pageErr s 0x40 0x54 = none) ∧
    (value.toNat < 16) ∧
    (runningOn s core.val = some value.toNat) ∧
    (held (flushFor (granted s (Fin.ofNat 16 core.val)) core.val) = false) ∧
    (inContext (flushFor (granted s (Fin.ofNat 16 core.val)) core.val) core.val value.toNat = true) ∧
    (Permitted s (endCycle (granted s (Fin.ofNat 16 core.val)) core.val value.toNat)) :=
  ⟨0, 0, { st [(Reg.SYS_CORE_REL, 1), (Reg.CORE_STAT 0, BitVec.ofNat 32 (2 ^ F.CORE_STAT_TMODE.lo))] with start := { step := .running }, cyc := { running := [(0, some 0)] } }, by decide +kernel⟩

theorem wit_TaskReleaseAndTransferEngine_6 : ∃ (k : Nat) (img : List Byte) (s : State),
    (s.cyc.current = some (.stopCommit k img)) ∧
    (xferRan s (.stopCommit k img) = true) ∧
    ((readScan s 13 (mapImg (outMap s k)) (mapImgLen (outMap s k))).1 = none) ∧
    ((commitAll s).1 = false) ∧
    (Permitted s (commitAll s).2) :=
  ⟨0, [], { State.reset with cyc := { current := some (.stopCommit 0 []) } }, by decide +kernel⟩

theorem wit_TaskReleaseAndTransferEngine_7 : ∃ (k : Nat) (s : State),
    (s.cyc.current = some (.commit k)) ∧
    (xferRan s (.commit k) = true) ∧
    (dmaTaskQuiet s k = true) ∧
    ((commitAll s).1 = false) ∧
    (Permitted s (commitAll s).2) :=
  ⟨0, { State.reset with cyc := { current := some (.commit 0) } }, by decide +kernel⟩

theorem wit_TaskReleaseAndTransferEngine_8 : ∃ (k : Nat) (s : State),
    (s.cyc.current = some (.distribution k)) ∧
    (xferRan s (.distribution k) = true) ∧
    (forceErr s k 1 (mapImgLen (outMap s k)) = false) ∧
    (beyondOut s k = false) ∧
    (Permitted s (distDone s k)) :=
  ⟨0, { State.reset with cyc := { current := some (.distribution 0) } }, by decide +kernel⟩

theorem wit_ForcingAndRetentiveCommits_1 : ∃ (ini : Fin 16) (value : Word) (s : State),
    (Reachable s ini 0x45 0x78) ∧
    (value.toNat < 2) ∧
    (modeSet s = 2 ∨ modeSet s = 3) :=
  ⟨4, 1, st [(0x40040, 2)], by decide +kernel⟩

theorem wit_ForcingAndRetentiveCommits_2 : ∃ (ini : Fin 16) (value : Word) (s : State),
    (Reachable s ini 0x45 0x78) ∧
    (value.toNat < 2) ∧
    (modeSet s = 0 ∨ modeSet s = 1) :=
  ⟨4, 1, st [(0x40040, 1)], by decide +kernel⟩

theorem wit_ForcingAndRetentiveCommits_3 : ∃ (ini : Fin 16) (value : Word) (s : State),
    (Reachable s ini 0x45 0x74) ∧
    (Unlocked s 0x45) ∧
    (value.toNat ≤ 1024) :=
  ⟨4, 1024, { State.reset with pkey := [(0x45, { closeAt := some 8192 })] }, by decide +kernel⟩

theorem wit_ForcingAndRetentiveCommits_4 : ∃ (s : State),
    (s.cyc.ret.deferred = true) ∧
    (retPeriodEnd s ≤ monoNs s) ∧
    (held s = false) ∧
    (flag s Reg.CYC_RET_STAT F.CYC_RET_STAT_BUSY = false) ∧
    (fld s Reg.CYC_XSTAT F.CYC_XSTAT_STATE ≠ 2) ∧
    (s.cyc.ret.blockedBy = none) :=
  ⟨{ State.reset with cyc := { ret := { deferred := true } } }, by decide +kernel⟩

theorem wit_ForcingAndRetentiveCommits_5 : ∃ (s : State),
    (s.cyc.current = some .freeze) ∧
    (s.cyc.currentSince + xferTime s .freeze ≤ s.now) ∧
    (held s = false) ∧
    (Permitted s (freezeDone s)) :=
  ⟨{ State.reset with cyc := { current := some .freeze } }, by decide +kernel⟩

theorem wit_ForcingAndRetentiveCommits_6 : ∃ (s : State),
    (s.cyc.ret.phase = .data) ∧
    (s.cyc.ret.since + 20 * retLen s ≤ s.now) ∧
    (Permitted s (retDataDone s)) ∧
    ((readScan s 13 (rdn s Reg.CYC_RET_BASE + 2 * retLen s) (retLen s)).1 = none) :=
  ⟨{ State.reset with cyc := { ret := { phase := .data } } }, by decide +kernel⟩

theorem wit_ForcingAndRetentiveCommits_7 : ∃ (s : State),
    (s.cyc.ret.phase = .data) ∧
    (s.cyc.ret.since + 20 * retLen s ≤ s.now) ∧
    (Permitted s (retDataDone s)) ∧
    ((readScan s 13 (rdn s Reg.CYC_RET_BASE + 2 * retLen s) (retLen s)).1 ≠ none) ∧
    (flag s Reg.CYC_RET_STAT F.CYC_RET_STAT_PEND = false) :=
  ⟨{ st [(Reg.CYC_RET_LEN, 64)] with now := 1280, ecc := [(0x80, { poisoned := true })], cyc := { ret := { phase := .data } } }, by decide +kernel⟩

theorem wit_ForcingAndRetentiveCommits_8 : ∃ (s : State),
    (s.cyc.ret.phase = .header) ∧
    (s.cyc.ret.since + 20 * 64 ≤ s.now) ∧
    (flag s Reg.CYC_RET_STAT F.CYC_RET_STAT_PEND = false) ∧
    (Permitted s (writeEnds (retComplete s))) :=
  ⟨{ State.reset with now := 1280, cyc := { ret := { phase := .header } } }, by decide +kernel⟩

theorem wit_ExchangeCommands_1 : ∃ (ini : Fin 16) (s : State),
    (Reachable s ini 0x40 0x98) ∧
    (role s ≠ 2) ∧
    (machine s = 2) ∧
    (xState s = 0) ∧
    (groupOk s (rdn s Reg.CYC_XDESC) = true) :=
  ⟨4, st [(0x40048, 2)], by decide +kernel⟩

theorem wit_ExchangeCommands_2 : ∃ (ini : Fin 16) (s : State),
    (Reachable s ini 0x40 0x98) ∧
    (role s ≠ 2) ∧
    (machine s = 2) ∧
    (xState s = 0) ∧
    (flag s Reg.CYC_XSTAT F.CYC_XSTAT_REVERT_OK = true) ∧
    (groupOk s (rdn s Reg.CYC_XPREV) = true) :=
  ⟨4, st [(0x40048, 2), (0x4009C, 0x100)], by decide +kernel⟩

theorem wit_ExchangeCommands_3 : ∃ (ini : Fin 16) (s : State),
    (Reachable s ini 0x40 0x98) ∧
    (xState s = 1) ∧
    (Permitted s (endWait (granted s ini) 3)) :=
  ⟨4, st [(0x40040, 1), (0x4009C, 1), (Reg.CYC_XREP, 0x20000000)], by decide +kernel⟩

theorem wit_ExchangeCommands_4 : ∃ (ini : Fin 16) (s : State),
    (Reachable s ini 0x40 0x98) ∧
    (xState s ≠ 1) :=
  ⟨4, st [(0x40040, 1), (0x4009C, 2)], by decide +kernel⟩

theorem wit_ExchangeCommands_5 : ∃ (ini : Fin 16) (s : State),
    (Reachable s ini 0x40 0x98) :=
  ⟨4, st [(0x40040, 1), (0x4009C, 0x100)], by decide +kernel⟩

theorem wit_ExchangeCommands_6 : ∃ (ini : Fin 16) (s : State),
    (Reachable s ini 0x40 0x44) ∧
    (modeSet s ≠ 0) ∧
    (xState s = 2) :=
  ⟨4, st [(0x40040, 1), (0x40048, 2), (0x4009C, 2)], by decide +kernel⟩

theorem wit_ExchangeCommands_7 : ∃ (ini : Fin 16) (s : State),
    (Reachable s ini 0x40 0x44) ∧
    (modeSet s ≠ 0) ∧
    (xState s ≠ 2) ∧
    (Permitted s (stopMachine (if xState s == xWaiting then endWait (granted s ini) 3 else granted s ini))) :=
  ⟨4, st [(0x40040, 1), (0x40048, 2)], by decide +kernel⟩

theorem wit_ExchangeCommands_8 : ∃ (s : State),
    (instantReady s = true) ∧
    (exchExpired s (monoBefore s) = false) ∧
    (held s = false) :=
  ⟨{ st [(0x4009C, 1), (Reg.CYC_XCFG, BitVec.ofNat 32 (2 ^ F.CYC_XCFG_EXCH_TMO.lo))] with now := 8 }, by decide +kernel⟩

theorem wit_ExchangeCommands_9 : ∃ (s : State),
    (xState s = 1) ∧
    (instantReady s = false ∨ exchExpired s (monoBefore s) = true) ∧
    (Permitted s (endWait s 2)) ∧
    (s.cyc.exch.acceptedMono + fld s Reg.CYC_XCFG F.CYC_XCFG_EXCH_TMO * 1000000 ≤ monoNs s) :=
  ⟨st [(0x4005C, 0), (0x4009C, 1), (Reg.CYC_XREP, 0x20000000), (0x4505C, 8)], by decide +kernel⟩

theorem wit_ExchangeCommands_10 : ∃ (n : Nat) (s : State),
    (xState s = 2) ∧
    (held s = false) ∧
    (s.cyc.current = none) ∧
    (s.cyc.exch.instantAt + gapTime s ≤ s.now) ∧
    ((tablesScan s (xIn s) (xOut s)).1 = false) ∧
    (exchErr s (xIn s) (xOut s) = some n) :=
  ⟨122, { st [(0x4009C, 2)] with now := 1000000 }, by decide +kernel⟩

theorem wit_ExchangeCommands_11 : ∃ (s : State),
    (xState s = 2) ∧
    (held s = false) ∧
    (s.cyc.current = none) ∧
    (s.cyc.exch.instantAt + gapTime s ≤ s.now) ∧
    ((tablesScan s (xIn s) (xOut s)).1 = true ∨ exchErr s (xIn s) (xOut s) = none) ∧
    (Permitted s (gapEnd s)) :=
  ⟨{ wrBytes (wrBytes (st [(0x4009C, 2), (Reg.CYC_XDESC, 0x20001000), (Reg.CYC_XACT, 0x20000000), (Reg.CYC_XREP, 0x20002000)]) 0x20000000 [0x31, 0x44, 0x58, 0x4C, 1]) 0x20001000 [0x31, 0x44, 0x58, 0x4C, 1] with now := 1000000 }, by decide +kernel⟩

theorem wit_SessionCommands_1 : ∃ (ini : Fin 16) (x : Fin 1024) (s : State),
    (Reachable s ini 0x50 0x8C) ∧
    (rxeRuns s = true) ∧
    (sState s x.val = 0) ∧
    (sessionErr s x.val = none) ∧
    ((readScan (granted s ini) 8 (stabAt s x.val) 64).1 = none) ∧
    (Permitted s (enableSession (granted s ini) x.val)) :=
  ⟨4, 1023, wrBytes (st [(0x50004, 1), (0x50040, 0x300), (Reg.RXE_STAB, 0x20000000), (Reg.RXE_POOL_HI, 1), (Reg.RXE_TXA_HI, 2), (Reg.RXE_CQ_HI, 3), (Reg.RXE_TXQ_HI, 4)]) 0x2000FFC0 [0, 0, 2, 1, 1, 0, 0, 0, 0, 0, 1, 0, 1, 0, 1, 0], by decide +kernel⟩

theorem wit_SessionCommands_2 : ∃ (ini : Fin 16) (x : Fin 1024) (n : Nat) (s : State),
    (Reachable s ini 0x50 0x8C) ∧
    (rxeRuns s = true) ∧
    (sState s x.val = 0) ∧
    (sessionErr s x.val = some n) :=
  ⟨4, 1023, 144, st [(0x50004, 1), (0x50040, 0x300)], by decide +kernel⟩

theorem wit_SessionCommands_3 : ∃ (ini : Fin 16) (x : Fin 1024) (s : State),
    (Reachable s ini 0x50 0x8C) ∧
    (sState s x.val ≠ 0) :=
  ⟨4, 0, st [(0x50004, 1), (Reg.SSTAT 0, 1)], by decide +kernel⟩

theorem wit_SessionCommands_4 : ∃ (ini : Fin 16) (x : Fin 1024) (s : State),
    (Reachable s ini 0x50 0x8C) ∧
    (rxeRuns s = true) ∧
    (sState s x.val ≠ 0) ∧
    (Permitted s (disableSession (granted s ini) x.val)) :=
  ⟨4, 0, st [(0x50004, 1), (Reg.SSTAT 0, 1)], by decide +kernel⟩

theorem wit_SessionCommands_5 : ∃ (ini : Fin 16) (x : Fin 1024) (s : State),
    (Reachable s ini 0x50 0x8C) ∧
    (rxeRuns s = true) ∧
    (sState s x.val = 0) :=
  ⟨4, 0, st [(0x50004, 1)], by decide +kernel⟩

theorem wit_SessionCommands_6 : ∃ (ini : Fin 16) (x : Fin 1024) (s : State),
    (Reachable s ini 0x50 0x8C) ∧
    (rxeRuns s = true) ∧
    (sState s x.val = 4) ∧
    (Permitted s (changeState (setSess (granted s ini) x.val (fun k => { k with freezeFrom := max k.freezeFrom (ptpNs s) })) x.val 1)) :=
  ⟨4, 0, st [(0x50004, 1), (Reg.SSTAT 0, 4)], by decide +kernel⟩

theorem wit_SessionCommands_7 : ∃ (ini : Fin 16) (x : Fin 1024) (s : State),
    (Reachable s ini 0x50 0x8C) ∧
    (sState s x.val ≠ 4) :=
  ⟨4, 0, st [(0x50004, 1), (Reg.SSTAT 0, 3)], by decide +kernel⟩

theorem wit_SessionCommands_8 : ∃ (ini : Fin 16) (x : Fin 1024) (s : State),
    (Reachable s ini 0x50 0x8C) ∧
    (rxeRuns s = true) ∧
    (sState s x.val = 1 ∨ sState s x.val = 2 ∨ sState s x.val = 3) ∧
    (Permitted s (prepareResync (granted s ini) x.val)) :=
  ⟨4, 0, st [(0x50004, 1), (Reg.SSTAT 0, 3)], by decide +kernel⟩

theorem wit_SessionCommands_9 : ∃ (ini : Fin 16) (x : Fin 1024) (s : State) (img : List Byte),
    (Reachable s ini 0x50 0x8C) ∧
    (rxeSends s = true) ∧
    (sState s x.val = 1 ∨ sState s x.val = 2 ∨ sState s x.val = 3) ∧
    (Permitted s (prepareResync (granted s ini) x.val)) ∧
    (xCmac s x.val = false) ∧
    ((vread (granted s ini) 1 (rxeCtx s) 0 (xOutBuf s x.val + newestBuf s x.val * xOutSize s x.val) (xOutLen s x.val)).1 = .inr img) :=
  ⟨4, 0, { st [(0x50004, 1), (Reg.SSTAT 0, 3)] with mmu := { tlb := [{ leaf := 0x20000087 }] }, rxe := { sessions := [(0, { desc := List.replicate 14 0 ++ [1] })] } }, [0], by decide +kernel⟩

theorem wit_SessionCommands_10 : ∃ (ini : Fin 16) (x : Fin 1024) (s : State),
    (Reachable s ini 0x50 0x8C) ∧
    (sState s x.val = 0 ∨ sState s x.val = 4) :=
  ⟨4, 0, st [(0x50004, 1), (Reg.SSTAT 0, 4)], by decide +kernel⟩

theorem wit_StationReception_1 : ∃ (d : RxDatagram) (rest : List RxDatagram) (s : State),
    (rxeReceives s = true) ∧
    (s.rxe.inbox = d :: rest) ∧
    (rxForm d = false) :=
  ⟨{}, [], { st [(0x50004, 1)] with rxe := { inbox := [{}] } }, by decide +kernel⟩

theorem wit_StationReception_2 : ∃ (d : RxDatagram) (rest : List RxDatagram) (s : State),
    (rxeReceives s = true) ∧
    (s.rxe.inbox = d :: rest) ∧
    (rxForm d = true) ∧
    (rxType d = 1) ∧
    (1024 ≤ rxSession d ∨ sState s (rxSession d) = 0 ∨ sState s (rxSession d) = 4) :=
  ⟨lsxIn 1, [], { st [(0x50004, 1)] with rxe := { inbox := [lsxIn 1] } }, by decide +kernel⟩

theorem wit_StationReception_3 : ∃ (d : RxDatagram) (rest : List RxDatagram) (s : State),
    (rxeReceives s = true) ∧
    (s.rxe.inbox = d :: rest) ∧
    (rxForm d = true) ∧
    (rxType d = 3) ∧
    (1024 ≤ rxSession d ∨ sState s (rxSession d) = 0 ∨ sState s (rxSession d) = 4) :=
  ⟨lsxIn 3, [], { st [(0x50004, 1)] with rxe := { inbox := [lsxIn 3] } }, by decide +kernel⟩

theorem wit_StationReception_4 : ∃ (d : RxDatagram) (rest : List RxDatagram) (s : State),
    (rxeReceives s = true) ∧
    (s.rxe.inbox = d :: rest) ∧
    (rxForm d = true) ∧
    (rxType d = 4) ∧
    (1024 ≤ rxSession d ∨ sState s (rxSession d) = 0 ∨ sState s (rxSession d) = 4) :=
  ⟨lsxIn 4, [], { st [(0x50004, 1)] with rxe := { inbox := [lsxIn 4] } }, by decide +kernel⟩

theorem wit_StationReception_5 : ∃ (d : RxDatagram) (rest : List RxDatagram) (s : State),
    (rxeReceives s = true) ∧
    (s.rxe.inbox = d :: rest) ∧
    (rxForm d = true) ∧
    (rxType d = 6) ∧
    (1024 ≤ rxSession d ∨ sState s (rxSession d) = 0 ∨ sState s (rxSession d) = 4) :=
  ⟨lsxIn 6, [], { st [(0x50004, 1)] with rxe := { inbox := [lsxIn 6] } }, by decide +kernel⟩

theorem wit_StationReception_6 : ∃ (d : RxDatagram) (rest : List RxDatagram) (s : State),
    (rxeReceives s = true) ∧
    (s.rxe.inbox = d :: rest) ∧
    (rxForm d = true) ∧
    (rxType d = 1) ∧
    (Permitted s (takeDatagram s d receiveCycIn)) :=
  ⟨lsxIn 1, [], { st [(0x50004, 1)] with rxe := { inbox := [lsxIn 1] } }, by decide +kernel⟩

theorem wit_StationReception_7 : ∃ (d : RxDatagram) (rest : List RxDatagram) (s : State),
    (rxeReceives s = true) ∧
    (s.rxe.inbox = d :: rest) ∧
    (rxForm d = true) ∧
    (rxType d = 3) ∧
    (Permitted s (takeDatagram s d (fun s d => receiveEb s d false))) :=
  ⟨lsxIn 3, [], { st [(0x50004, 1)] with rxe := { inbox := [lsxIn 3] } }, by decide +kernel⟩

theorem wit_StationReception_8 : ∃ (d : RxDatagram) (rest : List RxDatagram) (s : State),
    (rxeReceives s = true) ∧
    (s.rxe.inbox = d :: rest) ∧
    (rxForm d = true) ∧
    (rxType d = 4) ∧
    (Permitted s (takeDatagram s d (fun s d => receiveEb s d true))) :=
  ⟨lsxIn 4, [], { st [(0x50004, 1)] with rxe := { inbox := [lsxIn 4] } }, by decide +kernel⟩

theorem wit_StationReception_9 : ∃ (d : RxDatagram) (rest : List RxDatagram) (s : State),
    (rxeReceives s = true) ∧
    (s.rxe.inbox = d :: rest) ∧
    (rxForm d = true) ∧
    (rxType d = 6) ∧
    (Permitted s (takeDatagram s d receiveAck)) :=
  ⟨lsxIn 6, [], { st [(0x50004, 1)] with rxe := { inbox := [lsxIn 6] } }, by decide +kernel⟩

theorem wit_StationReception_10 : ∃ (x : Fin 1024) (im : InImage) (k : Nat) (s : State),
    (rxeReceives s = true) ∧
    ((sess s x.val).waiting = some im) ∧
    (inFree s x.val = some k) ∧
    (sState s x.val ≠ 4) ∧
    (imageCurrent s x.val im = false) :=
  ⟨0, { seq := 5 }, 0, { st [(0x50004, 1), (Reg.SSTAT 0, 3), (Reg.SRX_SEQ 0, 5)] with rxe := { sessions := [(0, { waiting := some { seq := 5 } })] } }, by decide +kernel⟩

theorem wit_StationReception_11 : ∃ (x : Fin 1024) (im : InImage) (k : Nat) (s : State),
    (rxeReceives s = true) ∧
    ((sess s x.val).waiting = some im) ∧
    (inFree s x.val = some k) ∧
    (sState s x.val ≠ 4) ∧
    (imageCurrent s x.val im = true) ∧
    (scaleErr s x.val = false) ∧
    (Permitted s (publishInput s x.val k im)) :=
  ⟨1023, { seq := 6 }, 0, { st [(0x50004, 1), (Reg.SSTAT 1023, 1)] with rxe := { sessions := [(1023, { waiting := some { seq := 6 } })] } }, by decide +kernel⟩

theorem wit_StationTimingAndRequests_1 : ∃ (x : Fin 1024) (s : State),
    (freezeFirst s x.val = true) ∧
    (Permitted s (rxeServe (showMissed (prepareOut (setSess s x.val (fun k => { k with freezeFrom := nextLaunch s x.val - tickNs + 1 })) x.val 2 (nextLaunch s x.val)) x.val))) :=
  ⟨0, { st [(0x50004, 1), (Reg.SSTAT 0, 3)] with clock := { ptp := 20000000 * ptpUnit }, rxe := { sessions := [(0, { desc := [0, 0, 0, 0, 1] })] } }, by decide +kernel⟩

theorem wit_StationTimingAndRequests_2 : ∃ (x : Fin 1024) (f : OutFrame) (s : State),
    (rxeSends s = true) ∧
    (decisionFrame s = some f) ∧
    (f.session = x.val) ∧
    (sState s x.val = 0 ∨ sState s x.val = 4) ∧
    (Permitted s (rxeServe (dropFrames s (fun g => g == f)))) :=
  ⟨0, {}, { st [(0x50004, 1)] with rxe := { prepared := [{}] } }, by decide +kernel⟩

theorem wit_StationTimingAndRequests_3 : ∃ (x : Fin 1024) (f : OutFrame) (s : State),
    (rxeSends s = true) ∧
    (decisionFrame s = some f) ∧
    (f.session = x.val) ∧
    (f.late = true) ∧
    (sState s x.val = 1 ∨ sState s x.val = 2 ∨ sState s x.val = 3) ∧
    (Permitted s (rxeServe (decideFrame s f))) :=
  ⟨0, { late := true }, { st [(0x50004, 1), (Reg.SSTAT 0, 1)] with rxe := { prepared := [{ late := true }] } }, by decide +kernel⟩

theorem wit_StationTimingAndRequests_4 : ∃ (x : Fin 1024) (f : OutFrame) (s : State),
    (rxeSends s = true) ∧
    (decisionFrame s = some f) ∧
    (f.session = x.val) ∧
    (f.late = false) ∧
    (sState s x.val = 1) ∧
    (Permitted s (rxeServe (decideFrame s f))) :=
  ⟨0, {}, { st [(0x50004, 1), (Reg.SSTAT 0, 1)] with rxe := { prepared := [{}] } }, by decide +kernel⟩

theorem wit_StationTimingAndRequests_5 : ∃ (x : Fin 1024) (f : OutFrame) (s : State),
    (rxeSends s = true) ∧
    (decisionFrame s = some f) ∧
    (f.session = x.val) ∧
    (f.late = false) ∧
    (sState s x.val = 2 ∨ sState s x.val = 3) ∧
    (pageEn s (portPage (xPort s x.val)) = true) ∧
    (Permitted s (rxeServe (decideFrame s f))) :=
  ⟨0, {}, { st [(0x50004, 1), (0xD0004, 1), (Reg.SSTAT 0, 3)] with rxe := { prepared := [{}] } }, by decide +kernel⟩

theorem wit_StationTimingAndRequests_6 : ∃ (x : Fin 1024) (f : OutFrame) (s : State),
    (rxeSends s = true) ∧
    (decisionFrame s = some f) ∧
    (f.session = x.val) ∧
    (f.late = false) ∧
    (sState s x.val = 2 ∨ sState s x.val = 3) ∧
    (pageEn s (portPage (xPort s x.val)) = false) ∧
    (Permitted s (rxeServe (decideFrame s f))) :=
  ⟨0, {}, { st [(0x50004, 1), (Reg.SSTAT 0, 3)] with rxe := { prepared := [{}] } }, by decide +kernel⟩

theorem wit_StationTimingAndRequests_7 : ∃ (x : Fin 1024) (s : State),
    (rxeReceives s = true) ∧
    (sState s x.val = 3) ∧
    (ageExceeds s x.val (xPeriod s x.val) = true) ∧
    (Permitted s (showMissed (changeState s x.val 2) x.val)) :=
  ⟨0, { st [(0x50004, 1), (Reg.SSTAT 0, 3)] with clock := { ptp := 10000001 * ptpUnit }, rxe := { sessions := [(0, { desc := [0, 0, 0, 0, 1] })] } }, by decide +kernel⟩

theorem wit_StationTimingAndRequests_8 : ∃ (x : Fin 1024) (s : State),
    (rxeReceives s = true) ∧
    (sState s x.val = 2) ∧
    (ageExceeds s x.val (xTmo s x.val * xPeriod s x.val) = true) ∧
    (Permitted s (showMissed (raise (changeState s x.val 1) 0x50 1) x.val)) :=
  ⟨0, { st [(0x50004, 1), (Reg.SSTAT 0, 2)] with clock := { ptp := 10000001 * ptpUnit }, rxe := { sessions := [(0, { desc := [0, 0, 1, 0, 1] })] } }, by decide +kernel⟩

theorem wit_StationTimingAndRequests_9 : ∃ (ini : Fin 16) (value : Word) (s : State),
    (Reachable s ini 0x50 0x78) ∧
    (value.toNat < 4096) ∧
    ((value.toNat + 4096 - cqHead s) % 4096 ≤ cqUsed s) ∧
    (Permitted s (cqConsume (granted s ini) value)) :=
  ⟨4, 2048, st [(0x50004, 1), (Reg.RXE_CQ_TAIL, 2048)], by decide +kernel⟩

theorem wit_StationTimingAndRequests_10 : ∃ (ini : Fin 16) (value : Word) (s : State),
    (Reachable s ini 0x50 0x88) ∧
    (value.toNat < 2048) ∧
    (poolOwner s value.toNat = 3 ∨ poolOwner s value.toNat = 4) :=
  ⟨4, 2047, { st [(0x50004, 1)] with rxe := { pool := [(2047, 3)] } }, by decide +kernel⟩

theorem wit_StationTimingAndRequests_11 : ∃ (ini : Fin 16) (value : Word) (s : State),
    (Reachable s ini 0x50 0x80) ∧
    (value.toNat < 512) ∧
    ((value.toNat + 512 - txqHead s) % 512 ≤ 256) :=
  ⟨4, 256, st [(0x50004, 1)], by decide +kernel⟩

theorem wit_StationTimingAndRequests_12 : ∃ (s : State),
    (rxeSends s = true) ∧
    (txqHead s = txqTail s) ∧
    (s.rxe.requests = []) ∧
    (s.rxe.drafts = []) :=
  ⟨st [(0x50004, 1)], by decide +kernel⟩

theorem wit_StationTimingAndRequests_13 : ∃ (s : State),
    (rxeSends s = true) ∧
    (txqHead s ≠ txqTail s) ∧
    (s.rxe.requests.length < 64) ∧
    (requestErr s = false) ∧
    (Permitted s (takeRequest s)) :=
  ⟨st [(0x50004, 1), (Reg.RXE_TXQ_TAIL, 1)], by decide +kernel⟩

theorem wit_StationTimingAndRequests_14 : ∃ (x : Fin 1024) (s : State),
    (rxeSends s = true) ∧
    (retryDue s x.val = true) ∧
    (Permitted s (retry s x.val)) :=
  ⟨0, { st [(0x50004, 1)] with clock := { mono := 1000000000000 }, rxe := { requests := [{ sentAt := some 0 }] } }, by decide +kernel⟩

theorem wit_SignalTableWrites_1 : ∃ (ini : Fin 16) (g : Fin 4096) (value : Word) (s : State),
    (Reachable s ini (0x78 + g.val / 512) (0x40 + 4 * (g.val % 512))) ∧
    (fieldGet F.CLE_SIG_QUAL value ≠ 3) ∧
    (value &&& 0xFF0C0000#32 = 0) ∧
    (portUsed s 0 = false) ∧
    (∀ q ∈ s.cle.queued, q.cls ≠ 0) ∧
    ((sigMask s g.val).testBit 0 = false) :=
  ⟨0, 4095, 0x00028000#32, State.reset, by decide +kernel⟩

theorem wit_SignalTableWrites_2 : ∃ (ini : Fin 16) (g : Fin 4096) (value : Word) (s : State),
    (Reachable s ini (0x78 + g.val / 512) (0x40 + 4 * (g.val % 512))) ∧
    (fieldGet F.CLE_SIG_QUAL value ≠ 3) ∧
    (value &&& 0xFF0C0000#32 = 0) ∧
    (portUsed s 0 = false) ∧
    (∀ q ∈ s.cle.queued, q.cls ≠ 0) ∧
    ((sigMask s g.val).testBit 0 = true) ∧
    (∀ w ∈ sigWritesNow s, w.signal ≠ g.val) :=
  ⟨0, 4095, 0x00008000#32, { State.reset with cleRam := [(65522, 0xF0)] }, by decide +kernel⟩

theorem wit_SignalTableWrites_3 : ∃ (ini : Fin 16) (g : Fin 4096) (value : Word) (s : State),
    (Reachable s ini (0x78 + g.val / 512) (0x40 + 4 * (g.val % 512))) ∧
    (fieldGet F.CLE_SIG_QUAL value ≠ 3) ∧
    (value &&& 0xFF0C0000#32 = 0) ∧
    (portUsed s 0 = true ∨ ∃ q ∈ s.cle.queued, q.cls = 0) :=
  ⟨0, 4095, 0x00008000#32, { State.reset with cle := { queued := [{ cls := 0, signal := 0, value := none, qual := 0 }] } }, by decide +kernel, by decide +kernel, by decide +kernel, Or.inr (by decide +kernel)⟩

theorem wit_SignalTableWrites_4 : ∃ (cls : Nat) (g : Nat) (value : Option Nat) (q : Nat) (s : State),
    (cls < 4) ∧
    ((sigMask s g).testBit cls = false) :=
  ⟨3, 4095, none, 1, State.reset, by decide +kernel⟩

theorem wit_SignalTableWrites_5 : ∃ (cls : Nat) (q : SigRequest) (s : State),
    (cls < 4) ∧
    (s.cle.queued.find? (fun q => q.cls == cls) = some q) ∧
    ((sigMask s q.signal).testBit cls = false) :=
  ⟨3, { cls := 3, signal := 4095, value := none, qual := 0 }, { State.reset with cle := { queued := [{ cls := 3, signal := 4095, value := none, qual := 0 }] } }, by decide +kernel⟩

theorem wit_SignalTableWrites_6 : ∃ (ini : Fin 16) (g : Fin 4096) (value : Word) (s : State),
    (Reachable s ini (0x78 + g.val / 512) (0x40 + 4 * (g.val % 512))) ∧
    (fieldGet F.CLE_SIG_QUAL value = 3) :=
  ⟨0, 4095, 0x00030000#32, State.reset, by decide +kernel⟩

theorem wit_LoopEngineCommands_1 : ∃ (t0 : Nat) (stalls : List Nat) (s : State),
    (s.cle.nextTick = some t0) ∧
    (t0 ≤ monoNs s) ∧
    (held s = false) ∧
    (domainUp s 4 = true) ∧
    (tickErr s (t0 / 100000) = none) :=
  ⟨0, [], { st [(0x70004, 1)] with cle := { nextTick := some 0 } }, by decide +kernel⟩

theorem wit_LoopEngineCommands_2 : ∃ (t0 : Nat) (n : Nat) (stalls : List Nat) (s : State),
    (s.cle.nextTick = some t0) ∧
    (t0 ≤ monoNs s) ∧
    (held s = false) ∧
    (domainUp s 4 = true) ∧
    (tickErr s (t0 / 100000) = some n) :=
  ⟨0, 177, [], { st [(0x70004, 1), (Reg.LCTL 255, 1)] with cle := { nextTick := some 0 } }, by decide +kernel⟩

theorem wit_LoopEngineCommands_3 : ∃ (l : Fin 256) (s : State),
    (pinExpired s l.val = true) ∧
    (domainUp s 4 = true) :=
  ⟨255, { st [(Reg.LCTL 255, 0x10), (Reg.LSTAT 255, BitVec.ofNat 32 (2 ^ F.LSTAT_PIN_ACT.lo))] with cle := { expiring := [255] } }, by decide +kernel⟩

theorem wit_LoopEngineCommands_4 : ∃ (ini : Fin 16) (l : Fin 256) (value : Word) (s : State),
    (Reachable s ini (0x72 + l.val / 64) (0x40 + 16 * (l.val % 64))) ∧
    (value &&& 0x0000F8EC#32 = 0) ∧
    (fieldGet F.LCTL_MODE value ≠ 3) ∧
    (fieldGet F.LCTL_PIN_REG value < dRegions s l.val) :=
  ⟨4, 255, 0x7FFF0012#32, State.reset, by decide +kernel⟩

theorem wit_LoopEngineCommands_5 : ∃ (ini : Fin 16) (s : State),
    (Reachable s ini 0x70 0x60) ∧
    (eccFind s (cleEcc + fld s Reg.CLE_RAM_ADDR F.CLE_RAM_ADDR_ADDR / 8 * 8) = .clean) :=
  ⟨4, State.reset, by decide +kernel⟩

theorem wit_LoopEngineCommands_6 : ∃ (ini : Fin 16) (s : State),
    (Reachable s ini 0x70 0x60) ∧
    (eccFind s (cleEcc + fld s Reg.CLE_RAM_ADDR F.CLE_RAM_ADDR_ADDR / 8 * 8) = .uncorrectable) :=
  ⟨4, { State.reset with ecc := [(cleEcc, { poisoned := true })] }, by decide +kernel⟩

theorem wit_LoopEngineCommands_7 : ∃ (ini : Fin 16) (w : Word) (s : State),
    (Reachable s ini 0x70 0x60) ∧
    (cleRamWritable s (fld s Reg.CLE_RAM_ADDR F.CLE_RAM_ADDR_ADDR) = true) ∧
    (cleWordErr (fld s Reg.CLE_RAM_ADDR F.CLE_RAM_ADDR_ADDR) w = none) :=
  ⟨4, 0x12345678#32, st [(Reg.CLE_RAM_ADDR, 0x2FFE0)], by decide +kernel⟩

theorem wit_LoopEngineCommands_8 : ∃ (ini : Fin 16) (value : Word) (s : State),
    (Reachable s ini 0x70 0x64) ∧
    (value &&& 0xFFFFE800#32 = 0) ∧
    (flag s Reg.CLE_GSTAT F.CLE_GSTAT_BUSY = false) :=
  ⟨4, 0x17FF#32, State.reset, by decide +kernel⟩

theorem wit_LoopEngineCommands_9 : ∃ (cmd : Word) (s : State),
    (s.cle.copying = some cmd) ∧
    (domainUp s 4 = true) :=
  ⟨0x17FF#32, { State.reset with cle := { copying := some 0x17FF#32 } }, by decide +kernel⟩

theorem wit_PrismSlotsAndQueue_1 : ∃ (s : State),
    (prismEn s = true) ∧
    (domainUp s 2 = true) ∧
    (fld s Reg.PRISM_STAT F.PRISM_STAT_AWAKE < 4) ∧
    (s.prism.wakeAt ≤ s.now) :=
  ⟨st [(0x60004, 1), (Reg.PRISM_STAT, BitVec.ofNat 32 (3 * 2 ^ F.PRISM_STAT_AWAKE.lo))], by decide +kernel⟩

theorem wit_PrismSlotsAndQueue_2 : ∃ (ini : Fin 16) (slot : Fin 8) (ctx : Fin 64) (s : State),
    (Reachable s ini (0x62 + slot.val) 0x40) ∧
    (slotState s slot.val = 0) ∧
    (areaOk s slot.val = true) :=
  ⟨4, 7, 63, st [(Reg.PRISM_SLOT_MEM 7, 0x00F00000)], by decide +kernel⟩

theorem wit_PrismSlotsAndQueue_3 : ∃ (ini : Fin 16) (slot : Fin 8) (s : State),
    (Reachable s ini (0x62 + slot.val) 0x40) ∧
    (slotState s slot.val = 2 ∨ slotState s slot.val = 3) ∧
    (fld s (Reg.PRISM_SLOT_STAT slot.val) F.PRISM_SLOT_STAT_QUEUED = 0) :=
  ⟨4, 7, st [(Reg.PRISM_SLOT_STAT 7, 3)], by decide +kernel⟩

theorem wit_PrismSlotsAndQueue_4 : ∃ (ini : Fin 16) (value : Word) (s : State),
    (Reachable s ini 0x61 0x40) ∧
    (value.toNat < 128) ∧
    (ownBufferErr s value.toNat = false) :=
  ⟨4, 127, State.reset, by decide +kernel⟩

theorem wit_PrismSlotsAndQueue_5 : ∃ (ini : Fin 16) (value : Word) (s : State),
    (Reachable s ini 0x61 0x48) ∧
    (value.toNat < 128) :=
  ⟨4, 127, State.reset, by decide +kernel⟩

theorem wit_PrismSlotsAndQueue_6 : ∃ (ini : Fin 16) (value : Word) (s : State),
    (Reachable s ini 0x61 0x50) ∧
    (value &&& 0xFFFFFEF8#32 = 0) ∧
    (fieldGet F.PRISM_CANCEL_GO value = 0) :=
  ⟨4, 7, State.reset, by decide +kernel⟩

theorem wit_PrismSlotsAndQueue_7 : ∃ (ini : Fin 16) (value : Word) (s : State),
    (Reachable s ini 0x61 0x50) ∧
    (value &&& 0xFFFFFEF8#32 = 0) ∧
    (fieldGet F.PRISM_CANCEL_GO value = 1) :=
  ⟨4, 0x107, State.reset, by decide +kernel⟩

theorem wit_PrismSlotsAndQueue_8 : ∃ (f : AccFault) (s : State),
    (prismEn s = true) ∧
    (psqRuns s = true) ∧
    (fld s Reg.PRISM_JOBQ_HEAD F.PRISM_JOBQ_HEAD_IDX ≠ fld s Reg.PRISM_JOBQ_DOOR F.PRISM_JOBQ_DOOR_IDX) ∧
    ((heldJobs s).length < 64) ∧
    ((vread s 2 (fld s Reg.PRISM_CFG F.PRISM_CFG_CTX) 0 (ringVa s (fld s Reg.PRISM_JOBQ_HEAD F.PRISM_JOBQ_HEAD_IDX)) 128).1 = .inl f) ∧
    (Permitted s (vread s 2 (fld s Reg.PRISM_CFG F.PRISM_CFG_CTX) 0 (ringVa s (fld s Reg.PRISM_JOBQ_HEAD F.PRISM_JOBQ_HEAD_IDX)) 128).2) :=
  ⟨(1, 0), st [(0x60004, 1), (Reg.PRISM_JOBQ_DOOR, 1)], by decide +kernel⟩

theorem wit_PrismSlotsAndQueue_9 : ∃ (d : List Byte) (s : State),
    (prismEn s = true) ∧
    (psqRuns s = true) ∧
    (fld s Reg.PRISM_JOBQ_HEAD F.PRISM_JOBQ_HEAD_IDX ≠ fld s Reg.PRISM_JOBQ_DOOR F.PRISM_JOBQ_DOOR_IDX) ∧
    ((heldJobs s).length < 64) ∧
    ((vread s 2 (fld s Reg.PRISM_CFG F.PRISM_CFG_CTX) 0 (ringVa s (fld s Reg.PRISM_JOBQ_HEAD F.PRISM_JOBQ_HEAD_IDX)) 128).1 = .inr d) ∧
    (jobErr s d (jobOf d s.prism.nextSeq s.now) = false) ∧
    (Permitted s (vread s 2 (fld s Reg.PRISM_CFG F.PRISM_CFG_CTX) 0 (ringVa s (fld s Reg.PRISM_JOBQ_HEAD F.PRISM_JOBQ_HEAD_IDX)) 128).2) :=
  ⟨jobDesc, jobSt, by decide +kernel⟩

theorem wit_PrismSlotsAndQueue_10 : ∃ (j : PrismJob) (status : Nat) (cause : Nat) (gen : Nat) (s : State),
    (psqRuns s = true) ∧
    (held s = false) ∧
    (s.prism.jobs = [j]) ∧
    (j.state = .ended status cause gen) ∧
    (Permitted s (completeJob s j status cause gen)) :=
  ⟨{ state := .ended 0 0 0 }, 0, 0, 0, { State.reset with prism := { jobs := [{ state := .ended 0 0 0 }] } }, by decide +kernel⟩

theorem wit_PrismJobsRun_1 : ∃ (k : Nat) (n : Nat) (s : State),
    (nextLoad s = some (k, n)) ∧
    (psqFree s = true) ∧
    (candidates s = []) ∧
    (n ≠ 3 ∨ modelErr (pslot s k).desc (pslot s k).model = none) ∧
    ((prismRamHit s k).1 = none) ∧
    (Permitted s (loadStepAt (prismRamHit s k).2 k n)) :=
  ⟨0, 1, { st [(0x60004, 1), (Reg.PRISM_SLOT_STAT 0, 1)] with prism := { slots := [(0, { load := some 1 })] } }, by decide +kernel⟩

theorem wit_PrismJobsRun_2 : ∃ (j : PrismJob) (s : State),
    (choose s (fun _ => true) = some j) ∧
    (psqFree s = true) ∧
    (fld s Reg.PRISM_STAT F.PRISM_STAT_AWAKE = 4) ∧
    (j.state = .suspended) ∧
    (∀ i ∈ s.prism.jobs, i.seq = j.seq → i = j) :=
  ⟨{ state := .suspended }, { st [(0x60004, 1), (Reg.PRISM_STAT, BitVec.ofNat 32 (4 * 2 ^ F.PRISM_STAT_AWAKE.lo))] with prism := { jobs := [{ state := .suspended }] } }, by decide +kernel⟩

theorem wit_PrismJobsRun_3 : ∃ (j : PrismJob) (s : State),
    (choose s (fun _ => true) = some j) ∧
    (psqFree s = true) ∧
    (fld s Reg.PRISM_STAT F.PRISM_STAT_AWAKE = 4) ∧
    (j.state = .waiting) ∧
    (∀ i ∈ s.prism.jobs, i.seq = j.seq → i = j) ∧
    (Permitted s (startJob s j)) :=
  ⟨{ state := .waiting }, { st [(0x60004, 1), (Reg.PRISM_STAT, BitVec.ofNat 32 (4 * 2 ^ F.PRISM_STAT_AWAKE.lo))] with prism := { jobs := [{ state := .waiting }] } }, by decide +kernel⟩

theorem wit_PrismJobsRun_4 : ∃ (j : PrismJob) (s : State),
    (runningJob s = some j) ∧
    (j.run.phase ≠ .exporting) ∧
    (psqRuns s = true) ∧
    (held s = true) :=
  ⟨{ state := .running }, { State.reset with power := { qualifiedAt := some 0 }, prism := { jobs := [{ state := .running }] } }, by decide +kernel⟩

theorem wit_PrismJobsRun_5 : ∃ (j : PrismJob) (s : State),
    (runningJob s = some j) ∧
    (j.run.phase ≠ .exporting) ∧
    (psqRuns s = true) ∧
    (held s = false) ∧
    (j.cancel = false) ∧
    ((prismRamHit (noteSegment s j.run) j.slot).1 = none) ∧
    (boundaryErr (prismRamHit (noteSegment s j.run) j.slot).2 j = none) ∧
    (Permitted s (phaseEnd (prismRamHit (noteSegment s j.run) j.slot).2 j)) :=
  ⟨{ state := .running }, { State.reset with prism := { jobs := [{ state := .running }] } }, by decide +kernel⟩

theorem wit_PrismJobsRun_6 : ∃ (j : PrismJob) (s : State),
    (runningJob s = some j) ∧
    (j.run.phase ≠ .exporting) ∧
    (j.run.phase ≠ .bestWrite) ∧
    (psqRuns s = true) ∧
    (held s = false) ∧
    (j.cancel = true) ∧
    ((prismRamHit (noteSegment s j.run) j.slot).1 = none) ∧
    (boundaryErr (prismRamHit (noteSegment s j.run) j.slot).2 j = none) :=
  ⟨{ state := .running, cancel := true }, { State.reset with prism := { jobs := [{ state := .running, cancel := true }] } }, by decide +kernel⟩

theorem wit_PrismJobsRun_7 : ∃ (j : PrismJob) (s : State),
    (runningJob s = some j) ∧
    (j.run.phase = .exporting) ∧
    (psqRuns s = true) ∧
    (held s = false) ∧
    ((prismRamHit (noteSegment s j.run) j.slot).1 = none) ∧
    (Permitted s (prismQuiet (publishJob (prismRamHit (noteSegment s j.run) j.slot).2 j))) :=
  ⟨{ state := .running, run := { phase := .exporting } }, { State.reset with prism := { jobs := [{ state := .running, run := { phase := .exporting } }] } }, by decide +kernel⟩

theorem wit_MeteringCheckpointCommands_1 : ∃ (i : Fin 304) (s : State),
    (pageErr s (if i.val < 192 then 0x92 else 0x93) (accLoReg i.val % 0x1000) = none) :=
  ⟨303, State.reset, by decide +kernel⟩

theorem wit_MeteringCheckpointCommands_2 : ∃ (a : Nat) (h : List Byte) (s : State),
    (s.mtr.ckpt = some (a, h)) ∧
    (mtrLive s = true) ∧
    (Permitted s (ckptEnd s a h)) :=
  ⟨0x20000000, [1], { State.reset with mtr := { ckpt := some (0x20000000, [1]) } }, by decide +kernel⟩

theorem wit_MeteringCheckpointCommands_3 : ∃ (ini : Fin 16) (s : State),
    (Reachable s ini 0x90 0x64) :=
  ⟨4, State.reset, by decide +kernel⟩

theorem wit_MeteringCheckpointCommands_4 : ∃ (ini : Fin 16) (s : State),
    (Reachable s ini 0x90 0x64) ∧
    (mtrEn s = false) ∧
    (ckptNewest s = none) ∧
    (Permitted s (ckptRestore (granted s ini))) :=
  ⟨4, State.reset, by decide +kernel⟩

theorem wit_MeteringCheckpointCommands_5 : ∃ (ini : Fin 16) (k : Nat) (s : State),
    (Reachable s ini 0x90 0x64) ∧
    (mtrEn s = false) ∧
    (ckptNewest s = some k) ∧
    (Permitted s (ckptRestore (granted s ini))) :=
  ⟨4, 0, ckptSt, by decide +kernel, by decide +kernel, ckptSt_newest, ckptSt_permitted⟩

theorem wit_MeteringBlocksAndRecords_1 : ∃ (dir : BitVec 16) (s : State),
    (mtrLive s = true) ∧
    (s.mtr.ended = none) ∧
    (mtrRuns s = false) ∧
    (mtrEn s = true) ∧
    (flag s (Reg.PSTAT 0x90) F.PSTAT_ENABLED = true) ∧
    (s.mtr.blockEnd ≤ ptpNs s) :=
  ⟨0xFFFF, st [(0x90004, 1), (0x90008, 1)], by decide +kernel⟩

theorem wit_MeteringBlocksAndRecords_2 : ∃ (dir : BitVec 16) (s : State),
    (mtrLive s = true) ∧
    (s.mtr.ended = none) ∧
    (mtrRuns s = true) ∧
    (s.mtr.stepped = true ∨ s.mtr.blockEnd ≤ ptpNs s) :=
  ⟨0x8001, st [(0x90004, 1), (0x90008, 1), (Reg.MTR_STAT, 1)], by decide +kernel⟩

theorem wit_MeteringBlocksAndRecords_3 : ∃ (dir : BitVec 16) (s : State),
    (s.mtr.ended ≠ none ∨ (mtrRuns s = true ∧ s.mtr.stepped = false ∧ ptpNs s < s.mtr.blockEnd)) :=
  ⟨0, { State.reset with mtr := { ended := some {} } }, by decide +kernel⟩

theorem wit_MeteringBlocksAndRecords_4 : ∃ (bits : List (BitVec 28)) (b : MtrBlock) (s : State),
    (s.mtr.ended = some b) ∧
    (mtrLive s = true) ∧
    (periodsDue s bits = true) ∧
    (b.samples ≤ (mtrFeed s bits).mtr.rows.length) ∧
    (Permitted s (commitBlock (mtrFeed s bits) b)) :=
  ⟨[], { last := true }, { st [(Reg.MTR_CKPT_BASE, 0x20000000)] with mtr := { ended := some { last := true } } }, by decide +kernel⟩

theorem wit_MeteringBlocksAndRecords_5 : ∃ (s : State),
    (s.mtr.records ≠ []) ∧
    (mtrLive s = true) ∧
    (Permitted s (recordsOut s)) :=
  ⟨{ st [(Reg.MTR_IREC_BASE, 0x20000000)] with mtr := { records := [[]] } }, by decide +kernel⟩

theorem wit_MeteringInputsAndPulses_1 : ∃ (c : Fin 28) (bits : List (BitVec 28)) (s : State),
    (mtrLive s = true) ∧
    (mtrRuns s = true) ∧
    (feedOn s (c.val / 7) = true) ∧
    (periodsDue s bits = true) ∧
    (bits ≠ []) ∧
    ((mchan (mtrFeed s bits) c.val).held = 64) :=
  ⟨27, [0], { st [(Reg.MTR_STAT, 1), (Reg.MTR_CHEN, 0xF)] with now := 1000000, mtr := { chans := [(27, { held := 63 })] } }, by decide +kernel⟩

theorem wit_MeteringInputsAndPulses_2 : ∃ (c : Fin 28) (bits : List (BitVec 28)) (b : Nat) (s : State),
    (mtrLive s = true) ∧
    (mtrRuns s = true) ∧
    (periodsDue s bits = true) ∧
    ((mband s c.val).pending = some b) ∧
    ((mband (mtrFeed s bits) c.val).pending = none) :=
  ⟨27, [0], 15, { st [(Reg.MTR_STAT, 1), (Reg.MTR_CHEN, 0xF)] with now := 10000000000, mtr := { period := 5624, bands := [(27, { pending := some 15, dueFrom := some 0 })] } }, by decide +kernel⟩

theorem wit_MeteringInputsAndPulses_3 : ∃ (h : Fin 16) (level : Bool) (s : State),
    (mtrRuns s = true) ∧
    (heatOn s h.val = true) ∧
    (mtrLive s = true) ∧
    (∀ n ∈ (mflow s h.val).edgeAt, n + 40 * vcoUs ≤ s.now) ∧
    (dirReverse s h.val level = true) :=
  ⟨15, false, st [(Reg.MTR_STAT, 1), (Reg.MTR_CHEN, 0x00FFFF00)], by decide +kernel⟩

theorem wit_MeteringInputsAndPulses_4 : ∃ (h : Fin 16) (level : Bool) (s : State),
    (mtrRuns s = true) ∧
    (heatOn s h.val = true) ∧
    (mtrLive s = true) ∧
    (∀ n ∈ (mflow s h.val).edgeAt, n + 40 * vcoUs ≤ s.now) ∧
    (dirReverse s h.val level = false) :=
  ⟨15, true, st [(Reg.MTR_STAT, 1), (Reg.MTR_CHEN, 0x00FFFF00)], by decide +kernel⟩

theorem wit_MeteringInputsAndPulses_5 : ∃ (h : Fin 16) (e : Nat) (es : List Nat) (s : State),
    (mtrRuns s = true) ∧
    (mtrLive s = true) ∧
    ((mflow s h.val).edges = e :: es) ∧
    (e + 10 * 10 ^ 9 ≤ monoNs s) :=
  ⟨15, 1, [], { st [(Reg.MTR_STAT, 1)] with clock := { mono := 10000000001 }, mtr := { flows := [(15, { edges := [1] })] } }, by decide +kernel⟩

theorem wit_MeteringInputsAndPulses_6 : ∃ (i : Fin 32) (status : Byte) (code : BitVec 24) (h : Fin 16) (s : State),
    (mtrLive s = true) ∧
    (flag s (Reg.PSTAT 0x90) F.PSTAT_ENABLED = true) ∧
    (heatOn s h.val = true) ∧
    (cfgN s (heatAt h.val + 8) 1 = i.val ∨ cfgN s (heatAt h.val + 9) 1 = i.val) ∧
    ((mrtd s i.val).read = false ∨ (mrtd s i.val).block ≠ s.mtr.block) ∧
    (status.getLsbD 6 = false) :=
  ⟨0, 0x80, 0xFFFFFF, 15, st [(0x90008, 1), (Reg.MTR_CHEN, 0x00FFFF00)], by decide +kernel⟩

theorem wit_MeteringInputsAndPulses_7 : ∃ (i : Fin 32) (status : Byte) (code : BitVec 24) (h : Fin 16) (s : State),
    (mtrLive s = true) ∧
    (flag s (Reg.PSTAT 0x90) F.PSTAT_ENABLED = true) ∧
    (heatOn s h.val = true) ∧
    (cfgN s (heatAt h.val + 8) 1 = i.val ∨ cfgN s (heatAt h.val + 9) 1 = i.val) ∧
    ((mrtd s i.val).read = false ∨ (mrtd s i.val).block ≠ s.mtr.block) ∧
    (status.getLsbD 6 = true) :=
  ⟨0, 0x40, 0, 0, st [(0x90008, 1), (Reg.MTR_CHEN, 0x00FFFF00)], by decide +kernel⟩

theorem wit_MeteringInputsAndPulses_8 : ∃ (k : Fin 8) (s : State),
    (mtrRuns s = true) ∧
    (pulseOn s k.val = true) ∧
    (mtrLive s = true) ∧
    ((mpulse s k.val).active = false) ∧
    (1 ≤ pulseDebt s k.val) ∧
    (∀ n ∈ (mpulse s k.val).lastStart, n + 2 * fld s (Reg.MTR_PDEBT k.val) F.MTR_PDEBT_WIDTH * tenthMs ≤ s.now) :=
  ⟨7, st [(Reg.MTR_STAT, 1), (Reg.MTR_CHEN, 0xFF000000), (Reg.MTR_PDEBT 7, 0x00050001)], by decide +kernel⟩

theorem wit_MeteringInputsAndPulses_9 : ∃ (k : Fin 8) (n : Nat) (s : State),
    (domainUp s 9 = true) ∧
    ((mpulse s k.val).active = true) ∧
    ((mpulse s k.val).lastStart = some n) ∧
    (n + (mpulse s k.val).width * tenthMs ≤ s.now) :=
  ⟨7, 0, { State.reset with now := 500000, mtr := { pulses := [(7, { active := true, lastStart := some 0, width := 1 })] } }, by decide +kernel⟩

theorem wit_AxisMotionCommandsAccepted_1 : ∃ (ini : Fin 16) (a : Fin 16) (s : State),
    (Reachable s ini (0x81 + a.val / 2) (0x98 + 0x100 * (a.val % 2))) ∧
    (axState s a.val = 2) ∧
    (axSrc s a.val = 0 ∨ axSrc s a.val = 1) ∧
    (targetRefusal s a.val (axTarget s a.val) = none) :=
  ⟨4, 15, st [(Reg.ASTAT 15, BitVec.ofNat 32 (2 + 2 ^ F.ASTAT_HOMED.lo)), (Reg.ACFG 15, 0)], by decide +kernel⟩

theorem wit_AxisMotionCommandsAccepted_2 : ∃ (ini : Fin 16) (a : Fin 16) (s : State),
    (Reachable s ini (0x81 + a.val / 2) (0x98 + 0x100 * (a.val % 2))) ∧
    (axState s a.val = 3 ∨ axState s a.val = 5 ∨ axState s a.val = 6) :=
  ⟨4, 15, st [(Reg.ASTAT 15, BitVec.ofNat 32 (5)), (Reg.ACFG 15, 0)], by decide +kernel⟩

theorem wit_AxisMotionCommandsAccepted_3 : ∃ (ini : Fin 16) (a : Fin 16) (s : State),
    (Reachable s ini (0x81 + a.val / 2) (0x98 + 0x100 * (a.val % 2))) ∧
    (axState s a.val = 2) ∧
    (axFlag s a.val F.ASTAT_SAFE_STOP = false) :=
  ⟨4, 15, st [(Reg.ASTAT 15, BitVec.ofNat 32 (2)), (Reg.ACFG 15, 0)], by decide +kernel⟩

theorem wit_AxisMotionCommandsAccepted_4 : ∃ (ini : Fin 16) (a : Fin 16) (s : State),
    (Reachable s ini (0x81 + a.val / 2) (0x98 + 0x100 * (a.val % 2))) ∧
    (axState s a.val = 2) ∧
    (axSrc s a.val = 2) ∧
    (axFlag s a.val F.ASTAT_SAFE_STOP = false) ∧
    (axFlag s a.val F.ASTAT_HOMED = true) :=
  ⟨4, 15, st [(Reg.ASTAT 15, BitVec.ofNat 32 (2 + 2 ^ F.ASTAT_HOMED.lo)), (Reg.ACFG 15, BitVec.ofNat 32 (2 * 2 ^ F.ACFG_SRC.lo))], by decide +kernel⟩

theorem wit_AxisMotionCommandsAccepted_5 : ∃ (ini : Fin 16) (a : Fin 16) (s : State),
    (Reachable s ini (0x81 + a.val / 2) (0x98 + 0x100 * (a.val % 2))) ∧
    (axState s a.val = 6) :=
  ⟨4, 15, st [(Reg.ASTAT 15, BitVec.ofNat 32 (6)), (Reg.ACFG 15, 0)], by decide +kernel⟩

theorem wit_AxisMotionCommandsAccepted_6 : ∃ (ini : Fin 16) (a : Fin 16) (s : State),
    (Reachable s ini (0x81 + a.val / 2) (0x98 + 0x100 * (a.val % 2))) ∧
    (axState s a.val = 2) ∧
    (axSrc s a.val = 1 ∨ axSrc s a.val = 3) ∧
    (axFlag s a.val F.ASTAT_SAFE_STOP = false) ∧
    (axFlag s a.val F.ASTAT_HOMED = true) :=
  ⟨4, 15, st [(Reg.ASTAT 15, BitVec.ofNat 32 (2 + 2 ^ F.ASTAT_HOMED.lo)), (Reg.ACFG 15, BitVec.ofNat 32 (3 * 2 ^ F.ACFG_SRC.lo))], by decide +kernel⟩

theorem wit_AxisCommandsRefusedAndPower_1 : ∃ (ini : Fin 16) (a : Fin 16) (c : Nat) (s : State),
    (Reachable s ini (0x81 + a.val / 2) (0x98 + 0x100 * (a.val % 2))) ∧
    (axState s a.val = 2) ∧
    (axSrc s a.val = 0 ∨ axSrc s a.val = 1) ∧
    (targetRefusal s a.val (axTarget s a.val) = some c) :=
  ⟨4, 15, 2, st [(Reg.ASTAT 15, BitVec.ofNat 32 (2)), (Reg.ACFG 15, 0)], by decide +kernel⟩

theorem wit_AxisCommandsRefusedAndPower_2 : ∃ (ini : Fin 16) (a : Fin 16) (s : State),
    (Reachable s ini (0x81 + a.val / 2) (0x98 + 0x100 * (a.val % 2))) ∧
    (axState s a.val ≠ 0) ∧
    (axState s a.val ≠ 2) :=
  ⟨4, 15, st [(Reg.ASTAT 15, BitVec.ofNat 32 (7)), (Reg.ACFG 15, 0)], by decide +kernel⟩

theorem wit_AxisCommandsRefusedAndPower_3 : ∃ (ini : Fin 16) (a : Fin 16) (s : State),
    (Reachable s ini (0x81 + a.val / 2) (0x98 + 0x100 * (a.val % 2))) ∧
    (axState s a.val = 2 ∨ axState s a.val = 7) :=
  ⟨4, 15, st [(Reg.ASTAT 15, BitVec.ofNat 32 (2 + 2 ^ F.ASTAT_HOMED.lo)), (Reg.ACFG 15, 0)], by decide +kernel⟩

theorem wit_AxisCommandsRefusedAndPower_4 : ∃ (ini : Fin 16) (a : Fin 16) (s : State),
    (Reachable s ini (0x81 + a.val / 2) (0x98 + 0x100 * (a.val % 2))) ∧
    (axState s a.val = 1 ∨ axState s a.val = 7) ∧
    (axAdl s a.val = false) ∧
    (flag s (Reg.ACFG a.val) F.ACFG_DRDY_USE = false ∨ (axis s a.val).ready = true) :=
  ⟨4, 15, st [(Reg.ASTAT 15, BitVec.ofNat 32 (1)), (Reg.ACFG 15, 0)], by decide +kernel⟩

theorem wit_AxisCommandsRefusedAndPower_5 : ∃ (ini : Fin 16) (a : Fin 16) (s : State),
    (Reachable s ini (0x81 + a.val / 2) (0x98 + 0x100 * (a.val % 2))) ∧
    (axState s a.val = 1 ∨ axState s a.val = 7) ∧
    (axAdl s a.val = true) :=
  ⟨4, 15, st [(Reg.ASTAT 15, BitVec.ofNat 32 (1)), (Reg.ACFG 15, 5)], by decide +kernel⟩

theorem wit_AxisCommandsRefusedAndPower_6 : ∃ (ini : Fin 16) (a : Fin 16) (s : State),
    (Reachable s ini (0x81 + a.val / 2) (0x98 + 0x100 * (a.val % 2))) ∧
    (axState s a.val = 1 ∨ axState s a.val = 2) :=
  ⟨4, 15, st [(Reg.ASTAT 15, BitVec.ofNat 32 (2)), (Reg.ACFG 15, 0)], by decide +kernel⟩

theorem wit_AxisCommandsRefusedAndPower_7 : ∃ (ini : Fin 16) (a : Fin 16) (s : State),
    (Reachable s ini (0x81 + a.val / 2) (0x98 + 0x100 * (a.val % 2))) ∧
    (axState s a.val = 7) ∧
    (driverReady s a.val = true) :=
  ⟨4, 15, { st [(Reg.ASTAT 15, 7)] with mxe := { axes := [(15, { energised := true, ready := true })] } }, by decide +kernel⟩

theorem wit_AxisProfileStartsAndSteps_1 : ∃ (s : State),
    (mxeRuns s = true) ∧
    (held s = false) ∧
    (s.mxe.ticks < monoNs s / 20000) :=
  ⟨{ st [(0x80004, 1), (Reg.ASTAT 15, BitVec.ofNat 32 (3)), (Reg.ACFG 15, 0x80000000)] with now := 1000000, clock := { mono := 200000 }, mxe := { axes := [(15, {  })] } }, by decide +kernel⟩

theorem wit_AxisProfileStartsAndSteps_2 : ∃ (a : Fin 16) (s : State),
    (mxeRuns s = true) ∧
    (held s = false) ∧
    (s.mxe.grids < monoNs s / 50000) ∧
    ((axis s a.val).start ≠ none) ∧
    (∀ b, b < a.val → (axis s b).start = none) :=
  ⟨15, { st [(0x80004, 1), (Reg.ASTAT 15, BitVec.ofNat 32 (5)), (Reg.ACFG 15, 0)] with now := 1000000, clock := { mono := 200000 }, mxe := { axes := [(15, { start := some .home })] } }, by decide +kernel⟩

theorem wit_AxisProfileStartsAndSteps_3 : ∃ (s : State),
    (mxeRuns s = true) ∧
    (held s = false) ∧
    (s.mxe.grids < monoNs s / 50000) ∧
    (∀ b, b < 16 → (axis s b).start = none) :=
  ⟨{ st [(0x80004, 1), (Reg.ASTAT 15, BitVec.ofNat 32 (2)), (Reg.ACFG 15, 0)] with now := 1000000, clock := { mono := 200000 }, mxe := { axes := [(15, {  })] } }, by decide +kernel⟩

theorem wit_AxisProfileStartsAndSteps_4 : ∃ (a : Fin 16) (c : Nat) (s : State),
    (mxeRuns s = true) ∧
    (held s = false) ∧
    (axOn s a.val = true) ∧
    (axClass s a.val = 1) ∧
    ((axis s a.val).energised = true) ∧
    (axState s a.val ≠ 6) ∧
    (axAdl s a.val = false) ∧
    ((axis s a.val).timer = some c) ∧
    (c ≤ s.now / 25) ∧
    (∀ n ∈ (axis s a.val).stepAt, n + 2 * vcoUs ≤ s.now) ∧
    ((axis s a.val).dirNeg = decide ((axNow s a.val).p < ((axis s a.val).stepPos : Rat))) ∧
    (∀ n ∈ (axis s a.val).dirAt, n + vcoUs ≤ s.now) :=
  ⟨15, 0, { st [(0x80004, 1), (Reg.ASTAT 15, BitVec.ofNat 32 (2)), (Reg.ACFG 15, 0x80000001)] with now := 1000000, clock := { mono := 200000 }, mxe := { axes := [(15, { p := 10, energised := true, timer := some 0 })] } }, by decide +kernel⟩

theorem wit_AxisProfileStartsAndSteps_5 : ∃ (a : Fin 16) (c : Nat) (s : State),
    (mxeRuns s = true) ∧
    (held s = false) ∧
    (axOn s a.val = true) ∧
    (axClass s a.val = 1) ∧
    ((axis s a.val).energised = true) ∧
    (axState s a.val ≠ 6) ∧
    (axAdl s a.val = false) ∧
    ((axis s a.val).timer = some c) ∧
    (c ≤ s.now / 25) ∧
    (∀ n ∈ (axis s a.val).stepAt, n + 2 * vcoUs ≤ s.now) ∧
    ((axis s a.val).dirNeg ≠ decide ((axNow s a.val).p < ((axis s a.val).stepPos : Rat))) :=
  ⟨15, 0, { st [(0x80004, 1), (Reg.ASTAT 15, BitVec.ofNat 32 (2)), (Reg.ACFG 15, 0x80000001)] with now := 1000000, clock := { mono := 200000 }, mxe := { axes := [(15, { p := -10, energised := true, timer := some 0 })] } }, by decide +kernel⟩

theorem wit_AxisProfileStartsAndSteps_6 : ∃ (a : Fin 16) (s : State),
    (mxeRuns s = true) ∧
    (held s = false) ∧
    (axOn s a.val = true) ∧
    (axClass s a.val = 2) ∧
    ((axis s a.val).energised = true) ∧
    ((axis s a.val).pulses < ((axis s a.val).phase + (axis s a.val).inc * (s.now / 25 - (axis s a.val).phaseAt)) / 2 ^ 48) ∧
    ((axis s a.val).v < 0) ∧
    ((axis s a.val).dirNeg = true) ∧
    (∀ n ∈ (axis s a.val).dirAt, n + vcoUs / 5 ≤ s.now) :=
  ⟨15, { st [(0x80004, 1), (Reg.ASTAT 15, BitVec.ofNat 32 (2)), (Reg.ACFG 15, 0x80000002)] with now := 1000000, clock := { mono := 200000 }, mxe := { axes := [(15, { v := -1, energised := true, dirNeg := true, phase := 2 ^ 48 })] } }, by decide +kernel⟩

theorem wit_AxisProfileStartsAndSteps_7 : ∃ (s : State),
    (mxeRuns s = true) ∧
    (s.mxe.signals < (monoNs s + 50000) / 100000) ∧
    (∀ b, b < 16 → flag s (Reg.ASIG b) F.ASIG_SIG_EN = false) :=
  ⟨{ st [(0x80004, 1), (Reg.ASTAT 15, BitVec.ofNat 32 (2)), (Reg.ACFG 15, 0)] with now := 1000000, clock := { mono := 200000 }, mxe := { axes := [(15, {  })] } }, by decide +kernel⟩

theorem wit_AxisProfileStartsAndSteps_8 : ∃ (s : State),
    (mxeRuns s = true) ∧
    (s.mxe.signals < (monoNs s + 50000) / 100000) :=
  ⟨{ st [(0x80004, 1), (Reg.ASTAT 15, BitVec.ofNat 32 (2)), (Reg.ACFG 15, 0)] with now := 1000000, clock := { mono := 200000 }, mxe := { axes := [(15, {  })] } }, by decide +kernel⟩

theorem wit_AxisProfileStartsAndSteps_9 : ∃ (a : Fin 16) (s : State),
    (pageErr s (0x81 + a.val / 2) (Reg.APOS_LO a.val % 0x1000) = none) :=
  ⟨15, State.reset, by decide +kernel⟩

theorem wit_AxisProfileStartsAndSteps_10 : ∃ (a : Fin 16) (s : State),
    (pageErr s (0x81 + a.val / 2) (Reg.AHLATCH_LO a.val % 0x1000) = none) :=
  ⟨15, State.reset, by decide +kernel⟩

theorem wit_AxisGearingAndEncoders_1 : ∃ (e : Fin 4) (x : Bool) (y : Bool) (s : State),
    (mxeRuns s = true) ∧
    (encFiltered s e.val x y = true) ∧
    (encDelta s e.val x y ≠ 0) :=
  ⟨3, true, false, st [(0x80004, 1), (Reg.MXE_ENC_CFG, 0x01000000)], by decide +kernel⟩

theorem wit_AxisGearingAndEncoders_2 : ∃ (e : Fin 4) (x : Bool) (y : Bool) (s : State),
    (mxeRuns s = false ∨ encFiltered s e.val x y = false) :=
  ⟨3, true, false, State.reset, by decide +kernel⟩

theorem wit_AxisGearingAndEncoders_3 : ∃ (e : Fin 4) (x : Bool) (y : Bool) (s : State),
    (mxeRuns s = true) ∧
    (encFiltered s e.val x y = true) ∧
    (encDelta s e.val x y = 0) :=
  ⟨3, true, false, st [(0x80004, 1)], by decide +kernel⟩

theorem wit_AxisGearingAndEncoders_4 : ∃ (a : Fin 16) (r : AxisRatio) (s : State),
    (mxeRuns s = true) ∧
    (axState s a.val = 6) ∧
    ((axis s a.val).queued = some r) ∧
    (r.reached = true) ∧
    (r.late = false) ∧
    ((axis s a.val).blend = none) ∧
    ((axis s a.val).start = none) ∧
    (r.blend = 0) :=
  ⟨15, { num := -3, den := 2, reached := true }, { st [(0x80004, 1), (Reg.ASTAT 15, BitVec.ofNat 32 (6)), (Reg.ACFG 15, 0)] with now := 1000000, clock := { mono := 200000 }, mxe := { axes := [(15, { queued := some { num := -3, den := 2, reached := true } })] } }, by decide +kernel⟩

theorem wit_AxisGearingAndEncoders_5 : ∃ (a : Fin 16) (r : AxisRatio) (s : State),
    (mxeRuns s = true) ∧
    (axState s a.val = 6) ∧
    ((axis s a.val).queued = some r) ∧
    (r.reached = true) ∧
    (r.late = false) ∧
    ((axis s a.val).blend = none) ∧
    ((axis s a.val).start = none) ∧
    (r.blend ≠ 0) :=
  ⟨15, { num := -3, den := 2, blend := 5, reached := true }, { st [(0x80004, 1), (Reg.ASTAT 15, BitVec.ofNat 32 (6)), (Reg.ACFG 15, 0)] with now := 1000000, clock := { mono := 200000 }, mxe := { axes := [(15, { queued := some { num := -3, den := 2, blend := 5, reached := true } })] } }, by decide +kernel⟩

theorem wit_AxisGearingAndEncoders_6 : ∃ (a : Fin 16) (b : AxisBlend) (s : State),
    (mxeRuns s = true) ∧
    (axState s a.val = 6) ∧
    ((axis s a.val).blend = some b) ∧
    ((b.dist : Int) ≤ b.dir * (masterOf s a.val - b.p)) :=
  ⟨15, { p := 0, dir := 1, dist := 5, pos := 0, r1 := 0, r2 := 1 }, { st [(0x80004, 1), (Reg.ASTAT 15, BitVec.ofNat 32 (6)), (Reg.ACFG 15, 0)] with now := 1000000, clock := { mono := 200000 }, mxe := { axes := [(15, { blend := some { p := 0, dir := 1, dist := 5, pos := 0, r1 := 0, r2 := 1 } })], counts := [(0, 5)] } }, by decide +kernel⟩

theorem wit_AxisGearingAndEncoders_7 : ∃ (a : Fin 16) (n : Nat) (l : List Nat) (s : State),
    (mxeRuns s = true) ∧
    (axFollows s a.val = true) ∧
    (axSrc s a.val = 3) ∧
    ((axis s a.val).edges = n :: l) ∧
    (n + 100 * vcoMs < s.now) :=
  ⟨15, 1, [], { st [(0x80004, 1), (Reg.ASTAT 15, BitVec.ofNat 32 (6)), (Reg.ACFG 15, BitVec.ofNat 32 (3 * 2 ^ F.ACFG_SRC.lo))] with now := 500000002, clock := { mono := 200000 }, mxe := { axes := [(15, { edges := [1] })] } }, by decide +kernel⟩

theorem wit_AxisLimitsHomingAndDrivers_1 : ∃ (a : Fin 16) (positive : Bool) (level : Bool) (s : State),
    (mxeRuns s = true) ∧
    (axOn s a.val = true) ∧
    (settled s (if positive then (axis s a.val).limPAt else (axis s a.val).limNAt) 4 = true) ∧
    (level = flag s (Reg.ACFG a.val) F.ACFG_LIM_POL ∨ (axState s a.val < 3 ∧ (axis s a.val).start = none)) :=
  ⟨15, true, true, st [(0x80004, 1), (Reg.ACFG 15, 0x80000000), (Reg.ASTAT 15, 2)], by decide +kernel⟩

theorem wit_AxisLimitsHomingAndDrivers_2 : ∃ (a : Fin 16) (positive : Bool) (s : State),
    (mxeRuns s = true) ∧
    (axOn s a.val = true) ∧
    (settled s (if positive then (axis s a.val).limPAt else (axis s a.val).limNAt) 4 = true) ∧
    (axState s a.val = 3) ∧
    ((axis s a.val).start = none) ∧
    (if positive then 0 < (axNow s a.val).v else (axNow s a.val).v < 0) :=
  ⟨15, false, { st [(0x80004, 1), (Reg.ASTAT 15, BitVec.ofNat 32 (3)), (Reg.ACFG 15, 0x80000000)] with now := 1000000, clock := { mono := 200000 }, mxe := { axes := [(15, { v := -1, at0 := 1000000 })] } }, by decide +kernel⟩

theorem wit_AxisLimitsHomingAndDrivers_3 : ∃ (a : Fin 16) (level : Bool) (s : State),
    (mxeRuns s = true) ∧
    (axOn s a.val = true) ∧
    (settled s (axis s a.val).refAt (fld s (Reg.AHOME a.val) F.AHOME_HFILT) = true) ∧
    (flag s (Reg.AHOME a.val) F.AHOME_HSRC = false) ∧
    (axState s a.val ≠ 5 ∨ (axis s a.val).hstep ≠ 2) :=
  ⟨15, true, st [(0x80004, 1), (Reg.ACFG 15, 0x80000000)], by decide +kernel⟩

theorem wit_AxisLimitsHomingAndDrivers_4 : ∃ (a : Fin 16) (s : State),
    (mxeRuns s = true) ∧
    (axOn s a.val = true) ∧
    (settled s (axis s a.val).refAt (fld s (Reg.AHOME a.val) F.AHOME_HFILT) = true) ∧
    (flag s (Reg.AHOME a.val) F.AHOME_HSRC = false) ∧
    (axState s a.val = 5) ∧
    ((axis s a.val).hstep = 2) :=
  ⟨15, { st [(0x80004, 1), (Reg.ASTAT 15, BitVec.ofNat 32 (5)), (Reg.ACFG 15, 0x80000000)] with now := 1000000, clock := { mono := 200000 }, mxe := { axes := [(15, { hstep := 2 })] } }, by decide +kernel⟩

theorem wit_AxisLimitsHomingAndDrivers_5 : ∃ (a : Fin 16) (s : State),
    (mxeRuns s = true) ∧
    (axState s a.val = 5) ∧
    ((axis s a.val).hstep = 5) ∧
    ((axis s a.val).standAt + 100 * vcoMs ≤ s.now) :=
  ⟨15, { st [(0x80004, 1), (Reg.ASTAT 15, BitVec.ofNat 32 (5)), (Reg.ACFG 15, 0)] with now := 500000000, clock := { mono := 200000 }, mxe := { axes := [(15, { hstep := 5 })] } }, by decide +kernel⟩

theorem wit_AxisLimitsHomingAndDrivers_6 : ∃ (words : List Word) (s : State),
    (mxeRuns s = true) ∧
    (fld s Reg.MXE_ADL_CFG F.MXE_ADL_CFG_SLOTS ≠ 0) ∧
    (s.mxe.frames < monoNs s / 20000) :=
  ⟨[0], { st [(0x80004, 1), (Reg.MXE_ADL_CFG, BitVec.ofNat 32 (2 ^ F.MXE_ADL_CFG_SLOTS.lo))] with clock := { mono := 20000 } }, by decide +kernel⟩

theorem wit_AxisLimitsHomingAndDrivers_7 : ∃ (a : Fin 16) (s : State),
    (mxeRuns s = true) ∧
    (axOn s a.val = true) ∧
    (axAdl s a.val = false) ∧
    (settled s (axis s a.val).drdyAt 4 = true) ∧
    (flag s (Reg.ACFG a.val) F.ACFG_DRDY_USE = false) :=
  ⟨15, st [(0x80004, 1), (Reg.ACFG 15, 0x80000000)], by decide +kernel⟩

theorem wit_AxisLimitsHomingAndDrivers_8 : ∃ (a : Fin 16) (s : State),
    (mxeRuns s = true) ∧
    (axOn s a.val = true) ∧
    (axAdl s a.val = false) ∧
    (settled s (axis s a.val).drdyAt 4 = true) ∧
    (flag s (Reg.ACFG a.val) F.ACFG_DRDY_USE = true) ∧
    (axState s a.val < 2) :=
  ⟨15, st [(0x80004, 1), (Reg.ACFG 15, BitVec.ofNat 32 (2 ^ 31 + 2 ^ F.ACFG_DRDY_USE.lo)), (Reg.ASTAT 15, 1)], by decide +kernel⟩

theorem wit_AxisLimitsHomingAndDrivers_9 : ∃ (a : Fin 16) (s : State),
    (mxeRuns s = true) ∧
    (axOn s a.val = true) ∧
    (axAdl s a.val = false) ∧
    (settled s (axis s a.val).drdyAt 4 = true) ∧
    (flag s (Reg.ACFG a.val) F.ACFG_DRDY_USE = true) ∧
    (2 ≤ axState s a.val) ∧
    (axState s a.val ≠ 7) ∧
    (¬ (axFlag s a.val F.ASTAT_SAFE_STOP = true ∧ (axNow s a.val).v = 0 ∧ (axNow s a.val).segs = [])) :=
  ⟨15, st [(0x80004, 1), (Reg.ACFG 15, BitVec.ofNat 32 (2 ^ 31 + 2 ^ F.ACFG_DRDY_USE.lo)), (Reg.ASTAT 15, 3)], by decide +kernel⟩

theorem wit_AxisLimitsHomingAndDrivers_10 : ∃ (a : Fin 16) (s : State),
    (mxeRuns s = true) ∧
    (axOn s a.val = true) ∧
    (axAdl s a.val = false) ∧
    (settled s (axis s a.val).drdyAt 4 = true) ∧
    (flag s (Reg.ACFG a.val) F.ACFG_DRDY_USE = true) ∧
    (2 ≤ axState s a.val) ∧
    ((axFlag s a.val F.ASTAT_SAFE_STOP = true ∧ (axNow s a.val).v = 0 ∧ (axNow s a.val).segs = [])) :=
  ⟨15, st [(0x80004, 1), (Reg.ACFG 15, BitVec.ofNat 32 (2 ^ 31 + 2 ^ F.ACFG_DRDY_USE.lo)), (Reg.ASTAT 15, BitVec.ofNat 32 (2 + 2 ^ F.ASTAT_SAFE_STOP.lo))], by decide +kernel⟩

theorem wit_AxisLimitsHomingAndDrivers_11 : ∃ (a : Fin 16) (s : State),
    (mxeRuns s = true) ∧
    (axOn s a.val = true) ∧
    (axAdl s a.val = false) ∧
    ((axis s a.val).powerAt ≠ none) :=
  ⟨15, { st [(0x80004, 1), (Reg.ACFG 15, 0x80000000)] with mxe := { axes := [(15, { powerAt := some 0 })] } }, by decide +kernel⟩

theorem wit_AxisLimitsHomingAndDrivers_12 : ∃ (a : Fin 16) (s : State),
    (mxeRuns s = true) ∧
    (axOn s a.val = true) ∧
    (axAdl s a.val = false) ∧
    ((axis s a.val).powerAt = none) :=
  ⟨15, st [(0x80004, 1), (Reg.ACFG 15, 0x80000000)], by decide +kernel⟩

theorem wit_AxisLimitsHomingAndDrivers_13 : ∃ (a : Fin 16) (n : Nat) (s : State),
    (mxeRuns s = true) ∧
    ((axis s a.val).powerAt = some n) ∧
    (n + 100 * vcoMs ≤ s.now) :=
  ⟨15, 0, { st [(0x80004, 1)] with now := 500000000, mxe := { axes := [(15, { powerAt := some 0 })] } }, by decide +kernel⟩

theorem wit_SafetyStateCommands_1 : ∃ (ini : Fin 16) (s : State),
    (Reachable s ini 0xA0 0x40) ∧
    (safeState s = 0) ∧
    (loadCause s (rdBytes s (0x40194000 + 0x3000 * (fld s Reg.STRAP_LATCH F.STRAP_LATCH_SEAL % 16)) 0x3000) (readScan s 6 (0x40194000 + 0x3000 * (fld s Reg.STRAP_LATCH F.STRAP_LATCH_SEAL % 16)) 0x3000).1.isSome = none) ∧
    (setBad (setSafe s (fun z => { z with params := rdBytes s (0x40194000 + 0x3000 * (fld s Reg.STRAP_LATCH F.STRAP_LATCH_SEAL % 16)) 0x3000 })) = false) :=
  ⟨4, safeSt, by decide +kernel, by decide +kernel, safeSt_cause, safeSt_good⟩

theorem wit_SafetyStateCommands_2 : ∃ (ini : Fin 16) (c : Nat) (s : State),
    (Reachable s ini 0xA0 0x40) ∧
    (safeState s = 0) ∧
    (loadCause s (rdBytes s (0x40194000 + 0x3000 * (fld s Reg.STRAP_LATCH F.STRAP_LATCH_SEAL % 16)) 0x3000) (readScan s 6 (0x40194000 + 0x3000 * (fld s Reg.STRAP_LATCH F.STRAP_LATCH_SEAL % 16)) 0x3000).1.isSome = some c) :=
  ⟨4, 7, State.reset, by decide +kernel, by decide +kernel, rfl⟩

theorem wit_SafetyStateCommands_3 : ∃ (ini : Fin 16) (s : State),
    (Reachable s ini 0xA0 0x40) ∧
    (safeState s ≠ 2) :=
  ⟨4, st [(Reg.SAFE_STAT, 1)], by decide +kernel⟩

theorem wit_SafetyStateCommands_4 : ∃ (ini : Fin 16) (s : State),
    (Reachable s ini 0xA0 0x40) ∧
    (safeState s = 2) :=
  ⟨4, st [(Reg.SAFE_STAT, 2)], by decide +kernel⟩

theorem wit_SafetyStateCommands_5 : ∃ (ini : Fin 16) (s : State),
    (pageErr s 0xA0 0x40 = none) ∧
    (foreignPage s ini 0xA0 = true) :=
  ⟨4, st [(Reg.SYS_CORE_REL, 0x40)], by decide +kernel⟩

theorem wit_SafetyStateCommands_6 : ∃ (level : BitVec 8) (s : State),
    (safeState s ≠ 0) ∧
    (heldAll s = false) ∧
    (s.safe.seals < monoNs s / 10000000) ∧
    (level.toNat = fld s Reg.STRAP_LATCH F.STRAP_LATCH_SEAL) :=
  ⟨0, { st [(Reg.SAFE_STAT, 1)] with clock := { mono := 10000000 } }, by decide +kernel⟩

theorem wit_SafetyStateCommands_7 : ∃ (level : BitVec 8) (s : State),
    (safeState s = 1) ∧
    (heldAll s = false) ∧
    (s.safe.seals < monoNs s / 10000000) ∧
    (level.toNat ≠ fld s Reg.STRAP_LATCH F.STRAP_LATCH_SEAL) :=
  ⟨1, { st [(Reg.SAFE_STAT, 1)] with clock := { mono := 10000000 } }, by decide +kernel⟩

theorem wit_SafetyStateCommands_8 : ∃ (cause : Fin 4) (s : State),
    (safeState s ≠ 2) ∧
    (cause.val = 2 → cycleOverdue s = true) :=
  ⟨3, st [(Reg.SAFE_STAT, 1)], by decide +kernel⟩

theorem wit_SafetyStateCommands_9 : ∃ (count : Nat) (s : State),
    (s.safe.windowAt + refTime 2000 ≤ s.now) ∧
    (50000 ≤ count) ∧
    (count ≤ 75000) :=
  ⟨75000, { State.reset with now := 500000 }, by decide +kernel⟩

theorem wit_SafetyStateCommands_10 : ∃ (count : Nat) (s : State),
    (s.safe.windowAt + refTime 2000 ≤ s.now) ∧
    (count < 50000 ∨ 75000 < count) ∧
    (safeState s ≠ 2) :=
  ⟨49999, { st [(Reg.SAFE_STAT, 1)] with now := 500000 }, by decide +kernel⟩

theorem wit_SafetyCycleCommands_1 : ∃ (s : State),
    (safeState s ≠ 0) ∧
    (heldAll s = false) ∧
    (s.safe.params ≠ []) ∧
    (s.safe.cycle < cycleIndex s) ∧
    (s.safe.firstCycle ≤ cycleIndex s) ∧
    (s.safe.ended = true) :=
  ⟨{ st [(Reg.SAFE_STAT, 1)] with clock := { mono := 1000000000 }, safe := { params := List.replicate 16 0 ++ [0xE8, 3] ++ List.replicate 2 0, ended := true } }, by decide +kernel⟩

theorem wit_SafetyCycleCommands_2 : ∃ (s : State),
    (safeState s ≠ 0) ∧
    (heldAll s = false) ∧
    (s.safe.params ≠ []) ∧
    (s.safe.cycle < cycleIndex s) ∧
    (s.safe.firstCycle ≤ cycleIndex s) ∧
    (s.safe.ended = false) :=
  ⟨{ st [(Reg.SAFE_STAT, 1)] with clock := { mono := 1000000000 }, safe := { params := List.replicate 16 0 ++ [0xE8, 3] ++ List.replicate 2 0, ended := false } }, by decide +kernel⟩

theorem wit_SafetyCycleCommands_3 : ∃ (ini : Fin 16) (v : Word) (s : State),
    (Reachable s ini 0xA0 0x48) ∧
    (s.safe.ended = false) :=
  ⟨4, 0, { State.reset with safe := { ended := false } }, by decide +kernel⟩

theorem wit_SafetyCycleCommands_4 : ∃ (ini : Fin 16) (v : Word) (s : State),
    (Reachable s ini 0xA0 0x48) ∧
    (s.safe.ended = true) :=
  ⟨4, 0, State.reset, by decide +kernel⟩

theorem wit_SafetyCycleCommands_5 : ∃ (g : SafeStage) (s : State),
    (s.safe.staged = some g) ∧
    (heldAll s = false) :=
  ⟨{ outs := 255 }, { State.reset with safe := { staged := some { outs := 255 } } }, by decide +kernel⟩

theorem wit_SafetyCycleCommands_6 : ∃ (levels : BitVec 16) (s : State),
    (safeState s ≠ 0) ∧
    (heldAll s = false) ∧
    (s.safe.params ≠ []) ∧
    (s.safe.samples < monoNs s / 100000) :=
  ⟨0xFFFF, { st [(Reg.SAFE_STAT, 1)] with clock := { mono := 1000000000 }, safe := { params := List.replicate 16 0 ++ [0xE8, 3] ++ List.replicate 2 0, ended := true } }, by decide +kernel⟩

theorem wit_SafetyCycleCommands_7 : ∃ (k : Fin 4) (s : State),
    (heldAll s = false) ∧
    (mget 0 s.safe.pulses k.val < pulseIndex s k.val) ∧
    (pulsePhase (monoNs s) k.val < 200000) :=
  ⟨3, { State.reset with clock := { mono := 17500000 } }, by decide +kernel⟩

theorem wit_SafetyCycleCommands_8 : ∃ (k : Fin 4) (s : State),
    (s.safe.pulsing.testBit k.val = true) ∧
    (200000 ≤ pulsePhase (monoNs s) k.val) :=
  ⟨3, { State.reset with clock := { mono := 17700000 }, safe := { pulsing := 8 } }, by decide +kernel⟩

theorem wit_SafetyCycleCommands_9 : ∃ (j : Fin 8) (n : Nat) (s : State),
    (mget none s.safe.discFrom j.val = some n) ∧
    (n + pairDisc s j.val < monoNs s) ∧
    (bitAt (rd s Reg.SAFE_IN_DISC) j.val = false) :=
  ⟨7, 0, { State.reset with clock := { mono := 1 }, safe := { discFrom := [(7, some 0)] } }, by decide +kernel⟩

theorem wit_SafetyOutputsAndPenumbra_1 : ∃ (k : Fin 8) (s : State),
    (outOn s k.val = true) ∧
    (∀ j, j < 8 → (sout s j).dark = none) ∧
    ((sout s k.val).testFrom + outTestS s k.val ≤ monoNs s) :=
  ⟨7, st [(Reg.SAFE_OUT_ON, 0xFF)], by decide +kernel⟩

theorem wit_SafetyOutputsAndPenumbra_2 : ∃ (k : Fin 8) (n : Nat) (b : Bool) (s : State),
    ((sout s k.val).dark = some (n, b)) ∧
    (n + outTestUs s k.val * 1000 ≤ monoNs s) :=
  ⟨7, 0, true, { State.reset with safe := { outs := [(7, { dark := some (0, true) })] } }, by decide +kernel⟩

theorem wit_SafetyOutputsAndPenumbra_3 : ∃ (k : Fin 8) (b : Bool) (s : State),
    ((sout s k.val).onAgain = some b) ∧
    (∀ n ∈ (if b then (sout s k.val).chkB else (sout s k.val).chkA), n + outRbUs s k.val * vcoUs ≤ s.now) :=
  ⟨7, true, { State.reset with safe := { outs := [(7, { onAgain := some true })] } }, by decide +kernel⟩

theorem wit_SafetyOutputsAndPenumbra_4 : ∃ (k : Fin 8) (n : Nat) (s : State),
    ((sout s k.val).dark = some (n, false)) ∧
    (n + outTestUs s k.val * 1000 ≤ monoNs s) ∧
    (outFailed s k.val false = false) :=
  ⟨7, 0, { State.reset with safe := { outs := [(7, { dark := some (0, false) })] } }, by decide +kernel⟩

theorem wit_SafetyOutputsAndPenumbra_5 : ∃ (k : Fin 8) (b : Bool) (n : Nat) (s : State),
    ((if b then (sout s k.val).chkB else (sout s k.val).chkA) = some n) ∧
    (n + outRbUs s k.val * vcoUs ≤ s.now) ∧
    (outFailed s k.val b = false) :=
  ⟨7, true, 0, { State.reset with safe := { outs := [(7, { chkB := some 0 })] } }, by decide +kernel⟩

theorem wit_SafetyOutputsAndPenumbra_6 : ∃ (e : Fin 272) (s : State),
    (e.val < 8) ∧
    (mget 0 s.safe.penAt e.val ≠ 0) ∧
    (mget 0 s.safe.penAt e.val - 1 + penMax s ≤ monoNs s) :=
  ⟨7, { State.reset with safe := { penAt := [(7, 1)] } }, by decide +kernel⟩

theorem wit_SafetyOutputsAndPenumbra_7 : ∃ (e : Fin 272) (s : State),
    (8 ≤ e.val) ∧
    (e.val < 16) ∧
    (mget 0 s.safe.penAt e.val ≠ 0) ∧
    (mget 0 s.safe.penAt e.val - 1 + penMax s ≤ monoNs s) :=
  ⟨15, { State.reset with safe := { penAt := [(15, 1)] } }, by decide +kernel⟩

theorem wit_SafetyOutputsAndPenumbra_8 : ∃ (ini : Fin 16) (v : Word) (s : State),
    (Reachable s ini 0xA0 0x40) ∧
    (cmdBad v 3 = false) ∧
    (fieldGet F.SAFE_CMD_ARG v < 8) ∧
    (mget 0 s.safe.penAt (fieldGet F.SAFE_CMD_ARG v) ≠ 0) ∧
    (∀ i, i / 2 = fieldGet F.SAFE_CMD_ARG v → inFailed s i = true → 3 ≤ (sin s i).runs) :=
  ⟨4, 0x703, { State.reset with safe := { penAt := [(7, 1)] } }, by decide +kernel, by decide +kernel, by decide +kernel, by decide +kernel, penSt_witness⟩

theorem wit_SafetyOutputsAndPenumbra_9 : ∃ (ini : Fin 16) (v : Word) (s : State),
    (Reachable s ini 0xA0 0x40) ∧
    (cmdBad v 3 = false) ∧
    (16 ≤ fieldGet F.SAFE_CMD_ARG v) ∧
    (fieldGet F.SAFE_CMD_ARG v < 24) ∧
    (mget 0 s.safe.penAt (fieldGet F.SAFE_CMD_ARG v - 8) ≠ 0) ∧
    (3 ≤ (sout (creditTest s (fieldGet F.SAFE_CMD_ARG v - 16)) (fieldGet F.SAFE_CMD_ARG v - 16)).runs) :=
  ⟨4, 0x1703, { State.reset with safe := { penAt := [(15, 1)], outs := [(7, { runs := 3 })] } }, by decide +kernel⟩

theorem wit_SafetyOutputsAndPenumbra_10 : ∃ (ini : Fin 16) (v : Word) (s : State),
    (Reachable s ini 0xA0 0x40) ∧
    (cmdBad v 3 = false) ∧
    (8 ≤ fieldGet F.SAFE_CMD_ARG v ∧ fieldGet F.SAFE_CMD_ARG v < 16 ∨ 24 ≤ fieldGet F.SAFE_CMD_ARG v) :=
  ⟨4, 0x803, State.reset, by decide +kernel⟩

theorem wit_SafetyOutputsAndPenumbra_11 : ∃ (ini : Fin 16) (v : Word) (s : State),
    (Reachable s ini 0xA0 0x40) ∧
    (cmdBad v 3 = false) ∧
    (fieldGet F.SAFE_CMD_ARG v < 8) ∧
    (mget 0 s.safe.penAt (fieldGet F.SAFE_CMD_ARG v) = 0) :=
  ⟨4, 0x703, State.reset, by decide +kernel⟩

theorem wit_SafetyOutputsAndPenumbra_12 : ∃ (ini : Fin 16) (v : Word) (s : State),
    (Reachable s ini 0xA0 0x40) ∧
    (cmdBad v 3 = false) ∧
    (16 ≤ fieldGet F.SAFE_CMD_ARG v) ∧
    (fieldGet F.SAFE_CMD_ARG v < 24) ∧
    (mget 0 s.safe.penAt (fieldGet F.SAFE_CMD_ARG v - 8) = 0) :=
  ⟨4, 0x1703, State.reset, by decide +kernel⟩

theorem wit_SafetyChannelCommands_1 : ∃ (c : Fin 256) (bs : List Byte) (rest : List (Nat × List Byte)) (s : State),
    (s.safe.inbox = (c.val, bs) :: rest) ∧
    (connState s c.val = 0 ∨ connState s c.val = 3) :=
  ⟨255, [1], [], { State.reset with safe := { inbox := [(255, [1])] } }, by decide +kernel⟩

theorem wit_SafetyChannelCommands_2 : ∃ (c : Fin 256) (bs : List Byte) (rest : List (Nat × List Byte)) (s : State),
    (s.safe.inbox = (c.val, bs) :: rest) ∧
    (connState s c.val = 1 ∨ connState s c.val = 2) ∧
    (pduGood s c.val bs = false) :=
  ⟨255, [1], [], { st [(Reg.SAFE_ISC_ST 255, 2)] with safe := { inbox := [(255, [1])] } }, by decide +kernel⟩

theorem wit_SafetyChannelCommands_3 : ∃ (c : Fin 256) (bs : List Byte) (rest : List (Nat × List Byte)) (s : State),
    (s.safe.inbox = (c.val, bs) :: rest) ∧
    (connState s c.val = 1 ∨ connState s c.val = 2) ∧
    (pduGood s c.val bs = true) ∧
    (seqCheck s c.val (beNat ((bs.drop 2).take 2)) = .error) :=
  ⟨255, iscBytes 9, [], { st [(Reg.SAFE_ISC_ST 255, 2)] with safe := { inbox := [(255, iscBytes 9)] } }, by decide +kernel⟩

theorem wit_SafetyChannelCommands_4 : ∃ (c : Fin 256) (bs : List Byte) (rest : List (Nat × List Byte)) (s : State),
    (s.safe.inbox = (c.val, bs) :: rest) ∧
    (connState s c.val = 2) ∧
    (pduGood s c.val bs = true) ∧
    (seqCheck s c.val (beNat ((bs.drop 2).take 2)) = .accept) :=
  ⟨255, iscBytes 9, [], { st [(Reg.SAFE_ISC_ST 255, 2)] with safe := { inbox := [(255, iscBytes 9)], conns := [(255, { last := some 8 })] } }, by decide +kernel⟩

theorem wit_SafetyChannelCommands_5 : ∃ (c : Fin 256) (s : State),
    (connState s c.val = 1 ∨ connState s c.val = 2) ∧
    ((conn s c.val).since + connTexp s c.val * 500000 ≤ monoNs s) :=
  ⟨255, st [(Reg.SAFE_ISC_ST 255, 2)], by decide +kernel⟩

theorem wit_SafetyChannelCommands_6 : ∃ (ini : Fin 16) (s : State),
    (Reachable s ini 0xA3 0x44) ∧
    (connRole s (fld s Reg.SAFE_MB_SEL F.SAFE_MB_SEL_CONN) ≠ 0) ∧
    (connLsx s (fld s Reg.SAFE_MB_SEL F.SAFE_MB_SEL_CONN) = false) :=
  ⟨4, iscSt, by decide +kernel⟩

theorem wit_SafetyChannelCommands_7 : ∃ (ini : Fin 16) (c : Nat) (bs : List Byte) (s : State),
    (Reachable s ini 0xA3 0x44) ∧
    (c = fld s Reg.SAFE_MB_SEL F.SAFE_MB_SEL_CONN) ∧
    (safeActs s = true) ∧
    (connRole s c ≠ 0) ∧
    (connLsx s c = false) ∧
    (iscPdu s c = some bs) ∧
    (bs.length ≤ 80) :=
  ⟨4, 0, (iscPdu iscSt 0).getD [], iscSt, by decide +kernel⟩

theorem wit_SafetyChannelCommands_8 : ∃ (ini : Fin 16) (v : Word) (s : State),
    (Reachable s ini 0xA0 0x40) ∧
    (cmdBad v 4 = false) ∧
    (connState s (fieldGet F.SAFE_CMD_ARG v) = 3) :=
  ⟨4, 0xFF04, st [(Reg.SAFE_ISC_ST 255, 3)], by decide +kernel⟩

theorem wit_SafetyChannelCommands_9 : ∃ (ini : Fin 16) (v : Word) (s : State),
    (Reachable s ini 0xA0 0x40) ∧
    (cmdBad v 4 = false) ∧
    (connState s (fieldGet F.SAFE_CMD_ARG v) ≠ 3) :=
  ⟨4, 0xFF04, st [(Reg.SAFE_ISC_ST 255, 2)], by decide +kernel⟩

theorem wit_MirrorRoleChanges_1 : ∃ (s : State),
    (domainUp s 5 = true) ∧
    (role s = 4) :=
  ⟨st [(0xB0004, 1), (Reg.MIRROR_STAT, BitVec.ofNat 32 (4 + 0 + 2 ^ F.MIRROR_STAT_GRANT.lo + 2 ^ F.MIRROR_STAT_ACT_OK.lo))], by decide +kernel⟩

theorem wit_MirrorRoleChanges_2 : ∃ (s : State),
    (domainUp s 5 = true) ∧
    (role s = 2) ∧
    (syncOf s = 2) ∧
    (peerActive s = false) :=
  ⟨st [(0xB0004, 1), (Reg.MIRROR_STAT, BitVec.ofNat 32 (2 + 32))], by decide +kernel⟩

theorem wit_MirrorRoleChanges_3 : ∃ (s : State),
    (domainUp s 5 = true) ∧
    (role s = 1) ∧
    (peerActive s = false) :=
  ⟨st [(0xB0004, 1), (Reg.MIRROR_STAT, BitVec.ofNat 32 (1 + 0))], by decide +kernel⟩

theorem wit_MirrorRoleChanges_4 : ∃ (n : Nat) (s : State),
    (s.mirror.lowFrom = some n) ∧
    (role s = 1) ∧
    (grant s = false) ∧
    (n + 1000000 ≤ monoNs s) :=
  ⟨0, { st [(Reg.MIRROR_STAT, BitVec.ofNat 32 (1 + 0))] with clock := { mono := 1000000 }, mirror := { lowFrom := some 0 } }, by decide +kernel⟩

theorem wit_MirrorRoleChanges_5 : ∃ (ini : Fin 16) (s : State),
    (Reachable s ini 0xB0 0x6C) ∧
    (role s = 2) ∧
    (grant s = true) :=
  ⟨4, st [(Reg.MIRROR_STAT, BitVec.ofNat 32 (2 + 0 + 2 ^ F.MIRROR_STAT_GRANT.lo))], by decide +kernel⟩

theorem wit_MirrorRoleChanges_6 : ∃ (ini : Fin 16) (s : State),
    (Reachable s ini 0xB0 0x6C) ∧
    (role s ≠ 2 ∨ grant s = false) :=
  ⟨4, st [(Reg.MIRROR_STAT, BitVec.ofNat 32 (4 + 0 + 2 ^ F.MIRROR_STAT_GRANT.lo))], by decide +kernel⟩

theorem wit_MirrorRoleChanges_7 : ∃ (ini : Fin 16) (s : State),
    (Reachable s ini 0xB0 0x6C) ∧
    (role s ≠ 0) ∧
    (role s ≠ 5) :=
  ⟨4, st [(Reg.MIRROR_STAT, BitVec.ofNat 32 (4 + 0 + 2 ^ F.MIRROR_STAT_GRANT.lo))], by decide +kernel⟩

theorem wit_MirrorRoleChanges_8 : ∃ (s : State),
    (flag s Reg.CLK_STAT F.CLK_STAT_PLL_LOCK = true) ∧
    (resettable s = true) ∧
    (role s ≠ 0) ∧
    (role s ≠ 5) :=
  ⟨{ st [(Reg.MIRROR_STAT, BitVec.ofNat 32 (4 + 0 + 2 ^ F.MIRROR_STAT_GRANT.lo)), (Reg.CLK_STAT, BitVec.ofNat 32 (2 ^ F.CLK_STAT_PLL_LOCK.lo))] with start := { step := .running } }, by decide +kernel⟩

theorem wit_MirrorRoleChanges_9 : ∃ (ini : Fin 16) (value : Word) (s : State),
    (Reachable s ini 0xB0 0x70) :=
  ⟨4, 0x6B3D, State.reset, by decide +kernel⟩

theorem wit_MirrorRoleChanges_10 : ∃ (s : State),
    (s.mirror.hbTick < monoNs s / 1000000) :=
  ⟨{ State.reset with clock := { mono := 1000000 } }, by decide +kernel⟩

theorem wit_MirrorRoleChanges_11 : ∃ (n : Nat) (s : State),
    (s.mirror.applied = some n) ∧
    (role s = 3) ∧
    (s.mirror.journal = []) ∧
    (n + takeoverTime ≤ s.now) ∧
    (Permitted s (takeoverDone s)) :=
  ⟨0, takeSt, by decide +kernel, by decide +kernel, by decide +kernel, by decide +kernel, takeSt_permitted⟩

theorem wit_MirrorSwapCommands_1 : ∃ (ini : Fin 16) (s : State),
    (Reachable s ini 0xB0 0x6C) ∧
    (role s = 4) :=
  ⟨4, st [(Reg.MIRROR_STAT, BitVec.ofNat 32 (4 + 0))], by decide +kernel⟩

theorem wit_MirrorSwapCommands_2 : ∃ (ini : Fin 16) (s : State),
    (Reachable s ini 0xB0 0x6C) ∧
    (role s ≠ 4) :=
  ⟨4, State.reset, by decide +kernel⟩

theorem wit_MirrorSwapCommands_3 : ∃ (ini : Fin 16) (tmo : BitVec 16) (s : State),
    (Reachable s ini 0xB0 0x6C) ∧
    (tmo ≠ 0) ∧
    (pairSynced s = true) :=
  ⟨4, 0xFFFF, { st [(Reg.MIRROR_STAT, BitVec.ofNat 32 (4 + 0 + 2 ^ F.MIRROR_STAT_LINK_UP.lo))] with mirror := { peerRole := 2, peerSync := 2 } }, by decide +kernel⟩

theorem wit_MirrorSwapCommands_4 : ∃ (ini : Fin 16) (tmo : BitVec 16) (s : State),
    (Reachable s ini 0xB0 0x6C) ∧
    (tmo ≠ 0) ∧
    (pairSynced s = false) :=
  ⟨4, 1, State.reset, by decide +kernel⟩

theorem wit_MirrorSwapCommands_5 : ∃ (s : State),
    (swapWaits s = true) ∧
    (s.mirror.swapBy ≤ monoNs s) :=
  ⟨st [(Reg.MIRROR_STAT, BitVec.ofNat 32 (4 + 0 + 2 ^ F.MIRROR_STAT_SWAP_BUSY.lo))], by decide +kernel⟩

theorem wit_MirrorSwapCommands_6 : ∃ (s : State),
    (swapWaits s = false ∨ allAcked s = false ∨ ∃ k ∈ mirrored s, betweenCycles s k = false) :=
  ⟨State.reset, by decide +kernel⟩

theorem wit_MirrorSwapCommands_7 : ∃ (s : State),
    (swapWaits s = true) ∧
    (allAcked s = true) ∧
    (mirrored s = []) ∧
    (Permitted s (swapEnd (swapSets s).2)) :=
  ⟨st [(Reg.MIRROR_STAT, BitVec.ofNat 32 (4 + 0 + 2 ^ F.MIRROR_STAT_SWAP_BUSY.lo + 2 ^ F.MIRROR_STAT_ACT_OK.lo))], by decide +kernel⟩

theorem wit_MirrorSwapCommands_8 : ∃ (s : State),
    (swapWaits s = true) ∧
    (allAcked s = true) ∧
    (∀ k ∈ mirrored s, betweenCycles s k = true) ∧
    ((swapSets s).1 = false) ∧
    (Permitted s (swapEnd (swapSets s).2)) :=
  ⟨st [(Reg.MIRROR_STAT, BitVec.ofNat 32 (4 + 0 + 2 ^ F.MIRROR_STAT_SWAP_BUSY.lo + 2 ^ F.MIRROR_STAT_ACT_OK.lo)), (Reg.MIRROR_TXS, 0x20000000), (Reg.MIRROR_BUFLEN, BitVec.ofNat 32 (2 ^ F.MIRROR_BUFLEN_TXS_PG.lo)), (Reg.TCFG 1, BitVec.ofNat 32 (2 ^ F.TCFG_EN.lo + 2 ^ F.TCFG_MIRR.lo))], by decide +kernel⟩

theorem wit_MirrorLinkFrames_1 : ∃ (s : State),
    (linkRuns s = true) :=
  ⟨st [(0xB0004, 1)], by decide +kernel⟩

theorem wit_MirrorLinkFrames_2 : ∃ (s : State),
    (linkUp s = true) ∧
    (s.mirror.lastValid + 100 * vcoUs ≤ s.now) :=
  ⟨{ st [(Reg.MIRROR_STAT, BitVec.ofNat 32 (2 + 0 + 2 ^ F.MIRROR_STAT_LINK_UP.lo))] with now := 500000 }, by decide +kernel⟩

theorem wit_MirrorLinkFrames_3 : ∃ (s : State),
    (linkRuns s = true) ∧
    (s.mirror.lastSent + 10 * vcoUs ≤ s.now) :=
  ⟨{ st [(0xB0004, 1)] with now := 50000 }, by decide +kernel⟩

theorem wit_MirrorLinkFrames_4 : ∃ (f : List Byte) (h : State) (s : State),
    (linkRuns s = true) ∧
    (lkValid f = true) ∧
    (lkF f 0 1 = 1) ∧
    (headerSeen s f = h) ∧
    (Permitted s h) ∧
    (role h = 2) ∧
    (syncOf h = 0) ∧
    (linkUp h = true) ∧
    (h.mirror.peerRole = 4) ∧
    (lkF f 16 8 = imageId h) :=
  ⟨linkFrame (st [(Reg.MIRROR_STAT, 4)]) 1 0 0 0 (List.replicate 16 0), headerSeen (st [(0xB0004, 1), (Reg.MIRROR_STAT, BitVec.ofNat 32 (2 + 0 + 2 ^ F.MIRROR_STAT_LINK_UP.lo))]) (linkFrame (st [(Reg.MIRROR_STAT, 4)]) 1 0 0 0 (List.replicate 16 0)), st [(0xB0004, 1), (Reg.MIRROR_STAT, BitVec.ofNat 32 (2 + 0 + 2 ^ F.MIRROR_STAT_LINK_UP.lo))], by decide +kernel, by decide +kernel, by decide +kernel, rfl, by decide +kernel, by decide +kernel, by decide +kernel, by decide +kernel, by decide +kernel, by decide +kernel⟩

theorem wit_MirrorLinkFrames_5 : ∃ (f : List Byte) (h : State) (s : State),
    (linkRuns s = true) ∧
    (lkValid f = true) ∧
    (lkF f 0 1 = 1) ∧
    (headerSeen s f = h) ∧
    (Permitted s h) ∧
    (role h ≠ 2 ∨ syncOf h ≠ 0 ∨ linkUp h = false ∨ h.mirror.peerRole ≠ 4 ∨ lkF f 16 8 ≠ imageId h) :=
  ⟨linkFrame State.reset 1 0 0 0 (List.replicate 16 0), headerSeen (st [(0xB0004, 1), (Reg.MIRROR_STAT, BitVec.ofNat 32 (2 + 0))]) (linkFrame State.reset 1 0 0 0 (List.replicate 16 0)), st [(0xB0004, 1), (Reg.MIRROR_STAT, BitVec.ofNat 32 (2 + 0))], by decide +kernel, by decide +kernel, by decide +kernel, rfl, by decide +kernel, by decide +kernel⟩

theorem wit_MirrorLinkFrames_6 : ∃ (f : List Byte) (h : State) (u : Nat × Nat) (s : State),
    (linkRuns s = true) ∧
    (lkValid f = true) ∧
    (lkF f 0 1 = 5) ∧
    (headerSeen s f = h) ∧
    (Permitted s h) ∧
    (lkF f 4 4 = h.mirror.rxSeq) ∧
    (h.mirror.unacked.find? (fun v => v.1 == lkTask f) = some u) ∧
    (∀ x ∈ h.mirror.freezing ++ h.mirror.ready ++ h.mirror.sending.toList, x.task = lkTask f → x.number ≠ u.2) ∧
    (h.mirror.swapping = false) :=
  ⟨linkFrame State.reset 5 0 0 15 ([]), headerSeen ({ st [(0xB0004, 1)] with mirror := { unacked := [(15, 7)] } }) (linkFrame State.reset 5 0 0 15 ([])), (15, 7), { st [(0xB0004, 1)] with mirror := { unacked := [(15, 7)] } }, by decide +kernel, by decide +kernel, by decide +kernel, rfl, by decide +kernel, by decide +kernel, by decide +kernel, by decide +kernel, by decide +kernel⟩

theorem wit_MirrorLinkFrames_7 : ∃ (f : List Byte) (h : State) (s : State),
    (linkRuns s = true) ∧
    (lkValid f = true) ∧
    (lkF f 0 1 = 5) ∧
    (headerSeen s f = h) ∧
    (Permitted s h) ∧
    (lkF f 4 4 = h.mirror.rxSeq) ∧
    (h.mirror.unacked.find? (fun v => v.1 == lkTask f) = none) :=
  ⟨linkFrame State.reset 5 0 0 0 ([]), headerSeen (st [(0xB0004, 1), (Reg.MIRROR_STAT, BitVec.ofNat 32 (2 + 0))]) (linkFrame State.reset 5 0 0 0 ([])), st [(0xB0004, 1), (Reg.MIRROR_STAT, BitVec.ofNat 32 (2 + 0))], by decide +kernel, by decide +kernel, by decide +kernel, rfl, by decide +kernel, by decide +kernel, by decide +kernel⟩

theorem wit_MirrorLinkFrames_8 : ∃ (f : List Byte) (h : State) (s : State),
    (linkRuns s = true) ∧
    (lkValid f = true) ∧
    (lkF f 0 1 = 6) ∧
    (headerSeen s f = h) ∧
    (Permitted s h) :=
  ⟨linkFrame State.reset 6 0 0 0 ([]), headerSeen (st [(0xB0004, 1), (Reg.MIRROR_STAT, BitVec.ofNat 32 (2 + 0))]) (linkFrame State.reset 6 0 0 0 ([])), st [(0xB0004, 1), (Reg.MIRROR_STAT, BitVec.ofNat 32 (2 + 0))], by decide +kernel, by decide +kernel, by decide +kernel, rfl, by decide +kernel⟩

theorem wit_MirrorLinkFrames_9 : ∃ (f : List Byte) (h : State) (s : State),
    (linkRuns s = true) ∧
    (lkValid f = true) ∧
    (lkF f 0 1 = 7) ∧
    (headerSeen s f = h) ∧
    (Permitted s h) ∧
    (lkF f 4 4 = h.mirror.rxSeq) :=
  ⟨linkFrame State.reset 7 0 0 0 ([]), headerSeen (st [(0xB0004, 1), (Reg.MIRROR_STAT, BitVec.ofNat 32 (2 + 0))]) (linkFrame State.reset 7 0 0 0 ([])), st [(0xB0004, 1), (Reg.MIRROR_STAT, BitVec.ofNat 32 (2 + 0))], by decide +kernel, by decide +kernel, by decide +kernel, rfl, by decide +kernel, by decide +kernel⟩

theorem wit_MirrorLinkFrames_10 : ∃ (f : List Byte) (h : State) (s : State),
    (linkRuns s = true) ∧
    (lkValid f = true) ∧
    (lkF f 0 1 = 8) ∧
    (headerSeen s f = h) ∧
    (Permitted s h) ∧
    (lkF f 4 4 = h.mirror.rxSeq) ∧
    (role h ≠ 2) ∧
    (role h ≠ 5) :=
  ⟨linkFrame State.reset 8 0 0 0 ([]), headerSeen (st [(0xB0004, 1), (Reg.MIRROR_STAT, BitVec.ofNat 32 (1 + 0))]) (linkFrame State.reset 8 0 0 0 ([])), st [(0xB0004, 1), (Reg.MIRROR_STAT, BitVec.ofNat 32 (1 + 0))], by decide +kernel, by decide +kernel, by decide +kernel, rfl, by decide +kernel, by decide +kernel, by decide +kernel, by decide +kernel⟩

theorem wit_MirrorLinkFrames_11 : ∃ (f : List Byte) (h : State) (s : State),
    (linkRuns s = true) ∧
    (lkValid f = true) ∧
    (lkF f 0 1 = 8) ∧
    (headerSeen s f = h) ∧
    (Permitted s h) ∧
    (lkF f 4 4 = h.mirror.rxSeq) ∧
    (role h = 2 ∨ role h = 5) ∧
    (resettable h = true) ∧
    (shut h = false) :=
  ⟨linkFrame State.reset 8 0 0 0 ([]), headerSeen ({ st [(0xB0004, 1), (Reg.MIRROR_STAT, BitVec.ofNat 32 (2 + 0))] with start := { step := .running } }) (linkFrame State.reset 8 0 0 0 ([])), { st [(0xB0004, 1), (Reg.MIRROR_STAT, BitVec.ofNat 32 (2 + 0))] with start := { step := .running } }, by decide +kernel, by decide +kernel, by decide +kernel, rfl, by decide +kernel, by decide +kernel, by decide +kernel, by decide +kernel, by decide +kernel⟩

theorem wit_MirrorLinkFrames_12 : ∃ (f : List Byte) (h : State) (s : State),
    (linkRuns s = true) ∧
    (lkValid f = true) ∧
    (lkF f 0 1 = 9) ∧
    (headerSeen s f = h) ∧
    (Permitted s h) ∧
    (lkF f 4 4 = h.mirror.rxSeq) ∧
    (role h = 2) :=
  ⟨linkFrame State.reset 9 0 0 15 ([]), headerSeen (st [(0xB0004, 1), (Reg.MIRROR_STAT, BitVec.ofNat 32 (2 + 0))]) (linkFrame State.reset 9 0 0 15 ([])), st [(0xB0004, 1), (Reg.MIRROR_STAT, BitVec.ofNat 32 (2 + 0))], by decide +kernel, by decide +kernel, by decide +kernel, rfl, by decide +kernel, by decide +kernel, by decide +kernel⟩

theorem wit_MirrorLinkFrames_13 : ∃ (f : List Byte) (h : State) (s : State),
    (linkRuns s = true) ∧
    (lkValid f = true) ∧
    (lkF f 0 1 = 12) ∧
    (headerSeen s f = h) ∧
    (Permitted s h) ∧
    (lkF f 4 4 = h.mirror.rxSeq) :=
  ⟨linkFrame State.reset 12 0 0 0 ([]), headerSeen (st [(0xB0004, 1), (Reg.MIRROR_STAT, BitVec.ofNat 32 (2 + 0))]) (linkFrame State.reset 12 0 0 0 ([])), st [(0xB0004, 1), (Reg.MIRROR_STAT, BitVec.ofNat 32 (2 + 0))], by decide +kernel, by decide +kernel, by decide +kernel, rfl, by decide +kernel, by decide +kernel⟩

theorem wit_MirrorLinkFrames_14 : ∃ (f : List Byte) (h : State) (s : State),
    (linkRuns s = true) ∧
    (lkValid f = true) ∧
    (lkF f 0 1 = 10) ∧
    (headerSeen s f = h) ∧
    (Permitted s h) ∧
    (lkF f 4 4 = h.mirror.rxSeq) ∧
    (role h ≠ 4 ∨ rdn h Reg.MIRROR_BOOT_LEN = 0 ∨ s.now < h.mirror.bootUntil) :=
  ⟨linkFrame State.reset 10 0 0 0 ([]), headerSeen (st [(0xB0004, 1), (Reg.MIRROR_STAT, BitVec.ofNat 32 (4 + 0 + 2 ^ F.MIRROR_STAT_GRANT.lo))]) (linkFrame State.reset 10 0 0 0 ([])), st [(0xB0004, 1), (Reg.MIRROR_STAT, BitVec.ofNat 32 (4 + 0 + 2 ^ F.MIRROR_STAT_GRANT.lo))], by decide +kernel, by decide +kernel, by decide +kernel, rfl, by decide +kernel, by decide +kernel, by decide +kernel⟩

theorem wit_MirrorLinkFrames_15 : ∃ (f : List Byte) (h : State) (s : State),
    (linkRuns s = true) ∧
    (lkValid f = true) ∧
    (lkF f 0 1 = 10) ∧
    (headerSeen s f = h) ∧
    (Permitted s h) ∧
    (lkF f 4 4 = h.mirror.rxSeq) ∧
    (role h = 4) ∧
    (rdn h Reg.MIRROR_BOOT_LEN ≠ 0) ∧
    (h.mirror.bootUntil ≤ s.now) ∧
    (Permitted s (readScan (setMirror h (fun m => { m with rxSeq := seqNext32 m.rxSeq })) 10 (rdn h Reg.MIRROR_BOOT_SRC) (rdn h Reg.MIRROR_BOOT_LEN)).2) :=
  ⟨linkFrame State.reset 10 0 0 0 ([]), headerSeen (st [(0xB0004, 1), (Reg.MIRROR_STAT, BitVec.ofNat 32 (4 + 0 + 2 ^ F.MIRROR_STAT_GRANT.lo)), (Reg.MIRROR_BOOT_LEN, 3), (Reg.MIRROR_BOOT_SRC, 0x20000000)]) (linkFrame State.reset 10 0 0 0 ([])), st [(0xB0004, 1), (Reg.MIRROR_STAT, BitVec.ofNat 32 (4 + 0 + 2 ^ F.MIRROR_STAT_GRANT.lo)), (Reg.MIRROR_BOOT_LEN, 3), (Reg.MIRROR_BOOT_SRC, 0x20000000)], by decide +kernel, by decide +kernel, by decide +kernel, rfl, by decide +kernel, by decide +kernel, by decide +kernel, by decide +kernel, by decide +kernel, by decide +kernel⟩

theorem wit_MirrorLinkFrames_16 : ∃ (s : State),
    (linkRuns s = true) ∧
    (bootFromPeer s = true) ∧
    (s.boot.image = []) ∧
    (s.mirror.bootReqAt = 0) :=
  ⟨{ st [(0xB0004, 1), (Reg.STRAP_LATCH, 2)] with boot := { step := .headers [] } }, by decide +kernel⟩

theorem wit_MirrorLinkFrames_17 : ∃ (f : List Byte) (h : State) (s : State),
    (linkRuns s = true) ∧
    (lkValid f = true) ∧
    (lkF f 0 1 = 11) ∧
    (headerSeen s f = h) ∧
    (Permitted s h) ∧
    (lkF f 4 4 = h.mirror.rxSeq) ∧
    (bootFromPeer h = true) :=
  ⟨linkFrame State.reset 11 0 0 0 ([1, 2]), headerSeen ({ st [(0xB0004, 1), (Reg.STRAP_LATCH, 2)] with boot := { step := .headers [] } }) (linkFrame State.reset 11 0 0 0 ([1, 2])), { st [(0xB0004, 1), (Reg.STRAP_LATCH, 2)] with boot := { step := .headers [] } }, by decide +kernel, by decide +kernel, by decide +kernel, rfl, by decide +kernel, by decide +kernel, by decide +kernel⟩

theorem wit_MirrorCopySets_1 : ∃ (x : MirrorSet) (s : State),
    (firstFreeze s.mirror.freezing = some x) ∧
    (x.frozenAt ≤ s.now) ∧
    (mirrorRuns s = true) :=
  ⟨{}, { st [(0xB0004, 1)] with mirror := { freezing := [{}] } }, by decide +kernel⟩

theorem wit_MirrorCopySets_2 : ∃ (x : MirrorSet) (s : State),
    (s.mirror.sending = some x) ∧
    (x.frozenAt + linkTime x ≤ s.now) ∧
    (mirrorRuns s = true) :=
  ⟨{}, { st [(0xB0004, 1)] with now := 1000, mirror := { sending := some {} } }, by decide +kernel⟩

theorem wit_MirrorCopySets_3 : ∃ (f : List Byte) (h : State) (s : State),
    (linkRuns s = true) ∧
    (lkValid f = true) ∧
    (lkF f 0 1 = 2) ∧
    (headerSeen s f = h) ∧
    (Permitted s h) ∧
    (role h = 2) ∧
    (syncOf h = 1) ∧
    (lkTask f ∉ h.mirror.firstSeen) ∧
    (lkF f 16 8 = imageId h) :=
  ⟨linkFrame State.reset 2 0 0 15 (List.replicate 16 0), headerSeen (st [(0xB0004, 1), (Reg.MIRROR_STAT, BitVec.ofNat 32 (2 + 16))]) (linkFrame State.reset 2 0 0 15 (List.replicate 16 0)), st [(0xB0004, 1), (Reg.MIRROR_STAT, BitVec.ofNat 32 (2 + 16))], by decide +kernel, by decide +kernel, by decide +kernel, rfl, by decide +kernel, by decide +kernel, by decide +kernel, by decide +kernel, by decide +kernel⟩

theorem wit_MirrorCopySets_4 : ∃ (f : List Byte) (h : State) (s : State),
    (linkRuns s = true) ∧
    (lkValid f = true) ∧
    (lkF f 0 1 = 2) ∧
    (headerSeen s f = h) ∧
    (Permitted s h) ∧
    (role h = 2) ∧
    (syncOf h ≠ 0) ∧
    (lkF f 16 8 ≠ imageId h) :=
  ⟨linkFrame State.reset 2 0 0 15 ([1] ++ List.replicate 15 0), headerSeen (st [(0xB0004, 1), (Reg.MIRROR_STAT, BitVec.ofNat 32 (2 + 32))]) (linkFrame State.reset 2 0 0 15 ([1] ++ List.replicate 15 0)), st [(0xB0004, 1), (Reg.MIRROR_STAT, BitVec.ofNat 32 (2 + 32))], by decide +kernel, by decide +kernel, by decide +kernel, rfl, by decide +kernel, by decide +kernel, by decide +kernel, by decide +kernel⟩

theorem wit_MirrorCopySets_5 : ∃ (f : List Byte) (h : State) (x : MirrorSet) (s : State),
    (linkRuns s = true) ∧
    (lkValid f = true) ∧
    (lkF f 0 1 = 3) ∧
    (headerSeen s f = h) ∧
    (Permitted s h) ∧
    (lkF f 4 4 = h.mirror.rxSeq) ∧
    (h.mirror.receiving = some x) ∧
    (role h = 2) ∧
    (x.task = lkTask f) :=
  ⟨linkFrame State.reset 3 0 0 15 (List.replicate 9 1), headerSeen ({ st [(0xB0004, 1), (Reg.MIRROR_STAT, BitVec.ofNat 32 (2 + 16))] with mirror := { receiving := some { task := 15, number := 9 } } }) (linkFrame State.reset 3 0 0 15 (List.replicate 9 1)), { task := 15, number := 9 }, { st [(0xB0004, 1), (Reg.MIRROR_STAT, BitVec.ofNat 32 (2 + 16))] with mirror := { receiving := some { task := 15, number := 9 } } }, by decide +kernel, by decide +kernel, by decide +kernel, rfl, by decide +kernel, by decide +kernel, by decide +kernel, by decide +kernel, by decide +kernel⟩

theorem wit_MirrorCopySets_6 : ∃ (f : List Byte) (h : State) (x : MirrorSet) (s : State),
    (linkRuns s = true) ∧
    (lkValid f = true) ∧
    (lkF f 0 1 = 4) ∧
    (headerSeen s f = h) ∧
    (Permitted s h) ∧
    (lkF f 4 4 = h.mirror.rxSeq) ∧
    (h.mirror.receiving = some x) ∧
    (role h = 2) ∧
    (x.task = lkTask f) ∧
    (Permitted s (scribble (setMirror h (fun m => { m with rxSeq := seqNext32 m.rxSeq })) (rdn h Reg.MIRROR_JRNL) (setBytes x))) :=
  ⟨linkFrame State.reset 4 0 0 15 ([]), headerSeen ({ st [(0xB0004, 1), (Reg.MIRROR_STAT, BitVec.ofNat 32 (2 + 16))] with mirror := { receiving := some { task := 15, number := 9 } } }) (linkFrame State.reset 4 0 0 15 ([])), { task := 15, number := 9 }, { st [(0xB0004, 1), (Reg.MIRROR_STAT, BitVec.ofNat 32 (2 + 16))] with mirror := { receiving := some { task := 15, number := 9 } } }, by decide +kernel, by decide +kernel, by decide +kernel, rfl, by decide +kernel, by decide +kernel, by decide +kernel, by decide +kernel, by decide +kernel, by decide +kernel⟩

theorem wit_MirrorCopySets_7 : ∃ (x : MirrorSet) (l : List MirrorSet) (s : State),
    (s.mirror.journal = x :: l) ∧
    (mirrorRuns s = true) ∧
    (role s = 2 ∨ (role s = 3 ∧ syncOf s ≠ 1 ∧ x.exch = false)) ∧
    (x.frozenAt + (setBytes x + 1) / 2 ≤ s.now) ∧
    ((readScan s 10 (rdn s Reg.MIRROR_JRNL) (setBytes x)).1 = none) ∧
    (x.task < 16) ∧
    (Permitted s (applySet s x)) :=
  ⟨{ task := 15, number := 9 }, [], { st [(0xB0004, 1), (Reg.MIRROR_STAT, BitVec.ofNat 32 (2 + 32))] with mirror := { journal := [{ task := 15, number := 9 }] } }, by decide +kernel⟩

theorem wit_MirrorCopySets_8 : ∃ (x : MirrorSet) (l : List MirrorSet) (a : Nat) (s : State),
    (s.mirror.journal = x :: l) ∧
    (mirrorRuns s = true) ∧
    (role s = 2) ∧
    (x.frozenAt + (setBytes x + 1) / 2 ≤ s.now) ∧
    ((readScan s 10 (rdn s Reg.MIRROR_JRNL) (setBytes x)).1 = some a) ∧
    (Permitted s (applySet s x)) :=
  ⟨{ task := 15, number := 9, items := [(4, 0x20000000, [1])] }, [], 0x20000000, { st [(0xB0004, 1), (Reg.MIRROR_STAT, BitVec.ofNat 32 (2 + 32)), (Reg.MIRROR_JRNL, 0x20000000)] with now := 1, ecc := [(0x20000000, { data := 3 })], mirror := { journal := [{ task := 15, number := 9, items := [(4, 0x20000000, [1])] }] } }, by decide +kernel⟩

theorem wit_PtpTimeCommands_1 : ∃ (ini : Fin 16) (force : Bool) (s : State),
    (Reachable s ini 0xC0 0x84) ∧
    (stepTooFar s (stepOffset s) = false ∨ force = true) ∧
    (0 ≤ (s.clock.ptp : Int) + stepOffset s) ∧
    (Permitted s (ptpStepBy (granted s ini) (stepOffset (granted s ini)) force)) :=
  ⟨4, false, st [(Reg.PTP_STEP_LO, 5), (Reg.PTP_STEP_MAX, 5)], by decide +kernel⟩

theorem wit_PtpTimeCommands_2 : ∃ (ini : Fin 16) (s : State),
    (Reachable s ini 0xC0 0x84) ∧
    (stepTooFar s (stepOffset s) = true) :=
  ⟨4, st [(Reg.PTP_STEP_LO, 6), (Reg.PTP_STEP_MAX, 5)], by decide +kernel⟩

theorem wit_PtpTimeCommands_3 : ∃ (ini : Fin 16) (force : Bool) (s : State),
    (Reachable s ini 0xC0 0x84) ∧
    (stepTooFar s (setOffset s) = false ∨ force = true) ∧
    (Permitted s (ptpStepBy (granted s ini) (setOffset (granted s ini)) force)) :=
  ⟨4, true, st [(Reg.PTP_SET_SEC_LO, 5)], by decide +kernel⟩

theorem wit_PtpTimeCommands_4 : ∃ (ini : Fin 16) (s : State),
    (Reachable s ini 0xC0 0x84) :=
  ⟨4, State.reset, by decide +kernel⟩

theorem wit_PtpTimeCommands_5 : ∃ (ini : Fin 16) (value : Word) (s : State),
    (Reachable s ini 0xC0 0x64) ∧
    (servoEn s = false) :=
  ⟨4, 0xFFFFFFFF, State.reset, by decide +kernel⟩

theorem wit_PtpTimeCommands_6 : ∃ (s : State),
    (flag s Reg.PTP_STAT F.PTP_STAT_SLEW_BUSY = true) ∧
    (s.clock.slewLeft = 0) :=
  ⟨st [(Reg.PTP_STAT, BitVec.ofNat 32 (2 ^ F.PTP_STAT_SLEW_BUSY.lo))], by decide +kernel⟩

theorem wit_PtpTimeCommands_7 : ∃ (s : State),
    (pageErr s 0xC0 0x40 = none) :=
  ⟨State.reset, by decide +kernel⟩

theorem wit_PtpTimeCommands_8 : ∃ (s : State),
    (pageErr s 0xC0 0x58 = none) :=
  ⟨State.reset, by decide +kernel⟩

theorem wit_PtpTimeCommands_9 : ∃ (k : Fin 4) (s : State),
    (pageErr s (0xC1 + k.val) 0x48 = none) ∧
    (echoOf s k.val = []) :=
  ⟨3, State.reset, by decide +kernel⟩

theorem wit_PtpTimeCommands_10 : ∃ (k : Fin 4) (tag : Nat) (gen : Nat) (late : Bool) (n : Nat) (q : List (Nat × Nat × Bool × Nat)) (s : State),
    (pageErr s (0xC1 + k.val) 0x48 = none) ∧
    (echoOf s k.val = (tag, gen, late, n) :: q) ∧
    ((mget {} s.clock.echoLost k.val).cycle ≠ s.now / 20 + 1) :=
  ⟨3, 5, 1, true, 7, [], { State.reset with clock := { echo := [(3, [(5, 1, true, 7)])] } }, by decide +kernel⟩

theorem wit_PtpTimeCommands_11 : ∃ (k : Fin 4) (e : Nat × Nat × Bool × Nat) (q : List (Nat × Nat × Bool × Nat)) (s : State),
    (pageErr s (0xC1 + k.val) 0x48 = none) ∧
    (echoOf s k.val = e :: q) ∧
    ((mget {} s.clock.echoLost k.val).cycle = s.now / 20 + 1) :=
  ⟨3, (5, 1, true, 7), [], { State.reset with clock := { echo := [(3, [(5, 1, true, 7)])], echoLost := [(3, { cycle := 1, entry := (6, 0, false, 0) })] } }, by decide +kernel⟩

theorem wit_ServoCommands_1 : ∃ (ini : Fin 16) (value : Word) (s : State),
    (Reachable s ini 0xC0 0x8C) ∧
    (servoCfgErr value = none) ∧
    (servoEn s = false) ∧
    (fieldGet F.PTP_SERVO_CFG_EN value = 1) :=
  ⟨4, BitVec.ofNat 32 (1 + 2 ^ F.PTP_SERVO_CFG_QUAL_N.lo + 2 ^ F.PTP_SERVO_CFG_HOLD_TMO.lo), State.reset, by decide +kernel⟩

theorem wit_ServoCommands_2 : ∃ (ini : Fin 16) (value : Word) (s : State),
    (Reachable s ini 0xC0 0x8C) ∧
    (servoCfgErr value = none) ∧
    (servoEn s = true) ∧
    (fieldGet F.PTP_SERVO_CFG_EN value = 0) :=
  ⟨4, BitVec.ofNat 32 (2 ^ F.PTP_SERVO_CFG_QUAL_N.lo + 2 ^ F.PTP_SERVO_CFG_HOLD_TMO.lo), st [(Reg.PTP_SERVO_CFG, 1)], by decide +kernel⟩

theorem wit_ServoCommands_3 : ∃ (ini : Fin 16) (value : Word) (s : State),
    (Reachable s ini 0xC0 0xA4) ∧
    (fld s Reg.PTP_OFS_TAG F.PTP_OFS_TAG_STEP_GEN ≠ stepGen s) :=
  ⟨4, 0, st [(Reg.PTP_OFS_TAG, BitVec.ofNat 32 (2 ^ F.PTP_OFS_TAG_STEP_GEN.lo))], by decide +kernel⟩

theorem wit_ServoCommands_4 : ∃ (ini : Fin 16) (value : Word) (s : State),
    (Reachable s ini 0xC0 0xA4) ∧
    (fld s Reg.PTP_OFS_TAG F.PTP_OFS_TAG_STEP_GEN = stepGen s) ∧
    (sampleErr s (sampleOffset s value) = none) ∧
    (Permitted s (sampleIn (granted s ini) (fld s Reg.PTP_OFS_TAG F.PTP_OFS_TAG_MASTER) (sampleOffset s value))) :=
  ⟨4, 0, State.reset, by decide +kernel⟩

theorem wit_ServoCommands_5 : ∃ (ini : Fin 16) (value : Word) (s : State),
    (Reachable s ini 0xC0 0xA4) ∧
    (fld s Reg.PTP_OFS_TAG F.PTP_OFS_TAG_STEP_GEN = stepGen s) ∧
    (servo s = 1) ∧
    (fld s Reg.PTP_OFS_TAG F.PTP_OFS_TAG_MASTER = s.clock.prevTag) ∧
    (s.clock.qual + 1 < fld s Reg.PTP_SERVO_CFG F.PTP_SERVO_CFG_QUAL_N) :=
  ⟨4, 0, st [(Reg.PTP_STAT, BitVec.ofNat 32 (2 ^ F.PTP_STAT_SERVO.lo)), (Reg.PTP_SERVO_CFG, BitVec.ofNat 32 (3 * 2 ^ F.PTP_SERVO_CFG_QUAL_N.lo))], by decide +kernel⟩

theorem wit_ServoCommands_6 : ∃ (s : State),
    (servo s = 2 ∨ servo s = 3) ∧
    (s.clock.sampleAt + fld s Reg.PTP_SERVO_CFG F.PTP_SERVO_CFG_HOLD_TMO * 1000000 ≤ monoNs s) :=
  ⟨{ st [(Reg.PTP_STAT, BitVec.ofNat 32 (3 * 2 ^ F.PTP_STAT_SERVO.lo))] with clock := { mono := 10 ^ 12 } }, by decide +kernel⟩

theorem wit_RtcCommands_1 : ∃ (i : Fin 8) (s : State),
    (pageErr s 0xC5 (0x40 + 4 * i.val) = none) ∧
    (s.rtc.frozen = none) :=
  ⟨7, State.reset, by decide +kernel⟩

theorem wit_RtcCommands_2 : ∃ (i : Fin 8) (n : Nat) (w : List Word) (s : State),
    (pageErr s 0xC5 (0x40 + 4 * i.val) = none) ∧
    (s.rtc.frozen = some (n, w)) ∧
    (n + 250000000 ≤ monoNs s) :=
  ⟨0, 0, [5], { State.reset with clock := { mono := 250000000 }, rtc := { frozen := some (0, [5]) } }, by decide +kernel⟩

theorem wit_RtcCommands_3 : ∃ (i : Fin 8) (n : Nat) (w : List Word) (s : State),
    (pageErr s 0xC5 (0x40 + 4 * i.val) = none) ∧
    (s.rtc.frozen = some (n, w)) ∧
    (monoNs s < n + 250000000) :=
  ⟨7, 0, [5], { State.reset with rtc := { frozen := some (0, [5]) } }, by decide +kernel⟩

theorem wit_RtcCommands_4 : ∃ (n : Nat) (w : List Word) (s : State),
    (s.rtc.frozen = some (n, w)) ∧
    (n + 250000000 ≤ monoNs s) :=
  ⟨0, [5], { State.reset with clock := { mono := 250000000 }, rtc := { frozen := some (0, [5]) } }, by decide +kernel⟩

theorem wit_RtcCommands_5 : ∃ (ini : Fin 16) (s : State),
    (Reachable s ini 0xC5 0x7C) ∧
    (flag s Reg.RTC_STAT F.RTC_STAT_SET_PEND = false) ∧
    (stagedOk s = true) :=
  ⟨4, st [(Reg.RTC_STG_SEC + 16, 1), (Reg.RTC_STG_SEC + 20, 1)], by decide +kernel⟩

theorem wit_RtcCommands_6 : ∃ (ini : Fin 16) (s : State),
    (Reachable s ini 0xC5 0x7C) ∧
    (flag s Reg.RTC_STAT F.RTC_STAT_SET_PEND = false) ∧
    (stagedOk s = true) :=
  ⟨4, st [(Reg.RTC_STG_SEC + 16, 1), (Reg.RTC_STG_SEC + 20, 1)], by decide +kernel⟩

theorem wit_RtcCommands_7 : ∃ (ini : Fin 16) (s : State),
    (Reachable s ini 0xC5 0x7C) ∧
    (s.rtc.setPend ≠ none) :=
  ⟨4, { State.reset with rtc := { setPend := some 0 } }, by decide +kernel⟩

theorem wit_RtcCommands_8 : ∃ (n : Nat) (s : State),
    (s.rtc.setNow = some n) ∧
    (commitEdge n ≤ rtcEdges s.now) ∧
    (commitEdge n ≤ s.rtc.base + 32768) :=
  ⟨0, { State.reset with now := 200000, rtc := { setNow := some 0 } }, by decide +kernel⟩

theorem wit_RtcCommands_9 : ∃ (s : State),
    (s.rtc.base + 32768 ≤ rtcEdges s.now) ∧
    (∀ n, s.rtc.setNow = some n → s.rtc.base + 32768 < commitEdge n) :=
  ⟨{ State.reset with now := 5000000000 }, by decide +kernel, fun n h => absurd h (by simp [State.reset])⟩

theorem wit_EthernetTransmit_1 : ∃ (ini : Fin 16) (k : Fin 4) (q : Fin 8) (value : Word) (s : State),
    (Reachable s ini (portPage k.val + 1) (0x48 + 0x20 * q.val)) ∧
    (tailErr s k.val q.val value = none) ∧
    (Permitted s (fetchRing k.val q.val 2048 (creditSync (wr (granted s ini) (Reg.ETH_TQ_TAIL (8 * k.val + q.val)) value) k.val))) :=
  ⟨4, 3, 7, 0, State.reset, by decide +kernel⟩

theorem wit_EthernetTransmit_2 : ∃ (k : Fin 4) (q : Fin 8) (f : TxFrame) (fs : List TxFrame) (s : State),
    (queueOf s k.val q.val = f :: fs) ∧
    (portUp s k.val = true) ∧
    (heldAll s = false) ∧
    (f.launch ≠ none) ∧
    (f.reached = false) ∧
    (f.late = false) ∧
    (launchNow s k.val f = true) :=
  ⟨3, 7, { launch := some 0 }, [], { st [(0xD9004, 1)] with handed := [(31, [{ launch := some 0 }])] }, by decide +kernel⟩

theorem wit_EthernetTransmit_3 : ∃ (k : Fin 4) (q : Fin 8) (f : TxFrame) (fs : List TxFrame) (s : State),
    (queueOf s k.val q.val = f :: fs) ∧
    (portUp s k.val = true) ∧
    (heldAll s = false) ∧
    (f.launch ≠ none) ∧
    (f.reached = false) ∧
    (f.late = true) ∧
    (f.ring = none) ∧
    (Permitted s (lateDiscard (creditSync s k.val) k.val q.val f)) :=
  ⟨3, 7, { launch := some 0, late := true }, [], { st [(0xD9004, 1)] with handed := [(31, [{ launch := some 0, late := true }])] }, by decide +kernel⟩

theorem wit_EthernetTransmit_4 : ∃ (k : Fin 4) (q : Nat) (f : TxFrame) (fs : List TxFrame) (s : State),
    (nextQueue s k.val = some q) ∧
    (queueOf s k.val q = f :: fs) ∧
    (portUp s k.val = true) ∧
    (heldAll s = false) ∧
    ((port s k.val).sending = none) ∧
    ((port s k.val).freeAt ≤ s.now) ∧
    (f.ring = none) ∧
    (f.slot = none) ∧
    (f.pair = none) ∧
    (f.tcIn = none) ∧
    (secures s k.val f = false) ∧
    (Permitted s (startFrame (popHead (creditSync s k.val) k.val q) k.val q f)) :=
  ⟨3, 0, { bytes := [1, 2] }, [], { st [(0xD9004, 1), (Reg.ETH_TQ_CFG 24, 0x80000000)] with handed := [(24, [{ bytes := [1, 2] }])] }, by decide +kernel⟩

theorem wit_EthernetTransmit_5 : ∃ (k : Fin 4) (x : Sending) (s : State),
    ((port s k.val).sending = some x) ∧
    (x.until0 ≤ s.now) ∧
    (x.frame.ring = none) ∧
    (heldAll s = false) ∧
    (Permitted s (txEnd s k.val x)) :=
  ⟨3, {}, { State.reset with eth := { ports := [(3, { sending := some {} })] } }, by decide +kernel⟩

theorem wit_EthernetTransmit_6 : ∃ (k : Fin 4) (x : Sending) (s : State),
    ((port s k.val).sending = some x) ∧
    (x.until0 ≤ s.now) ∧
    (heldAll s = true) :=
  ⟨3, {}, { State.reset with power := { qualifiedAt := some 0 }, eth := { ports := [(3, { sending := some {} })] } }, by decide +kernel⟩

theorem wit_EthernetReceiveAndLinks_1 : ∃ (k : Fin 4) (bytes : List Byte) (s : State),
    (portUp s k.val = true) ∧
    (heldAll s = false) ∧
    (s.eth.second = s.now / (1000 * vcoMs)) ∧
    (s.eth.count < 4000000) :=
  ⟨3, [], st [(0xD9004, 1)], by decide +kernel⟩

theorem wit_EthernetReceiveAndLinks_2 : ∃ (k : Fin 4) (bytes : List Byte) (s : State),
    (portUp s k.val = true) ∧
    (heldAll s = false) ∧
    (s.eth.second = s.now / (1000 * vcoMs)) ∧
    (s.eth.count < 4000000) ∧
    (bytes.length < 60) :=
  ⟨3, List.replicate 59 0, st [(0xD9004, 1)], by decide +kernel⟩

theorem wit_EthernetReceiveAndLinks_3 : ∃ (k : Fin 4) (bytes : List Byte) (s : State),
    (portUp s k.val = true) ∧
    (heldAll s = false) ∧
    (s.eth.second = s.now / (1000 * vcoMs)) ∧
    (s.eth.count < 4000000) ∧
    (2 ≤ k.val) ∧
    (60 ≤ bytes.length) ∧
    (bytes.length ≤ 1518) ∧
    (fw bytes (typeAt bytes) 2 ≠ 0x8808) ∧
    (addressOk s k.val bytes = true) ∧
    (flag s (Reg.ETH_CFG k.val) F.ETH_CFG_SEC = false) ∧
    (steerRxe s bytes = none) ∧
    (∀ i < 16, steerMatch s k.val i bytes = false) ∧
    (flag s (Reg.ETH_RQ_CFG (8 * k.val)) F.ETH_RQ_CFG_EN = true) ∧
    (rqHead s k.val 0 ≠ rqTail s k.val 0) ∧
    (s.ecc = []) ∧
    (bytes.length ≤ rdLE s (rdn s (Reg.ETH_RQ_BASE (8 * k.val)) + 32 * (rqHead s k.val 0 % rqSize s k.val 0) + 4) 2) ∧
    (Permitted s (frameIn s k.val bytes true)) :=
  ⟨3, List.replicate 6 0xFF ++ List.replicate 54 0, { st [(0xD9004, 1), (Reg.ETH_RQ_CFG 24, 0x80000000), (Reg.ETH_RQ_TAIL 24, 1), (Reg.ETH_RQ_BASE 24, 0x20000000)] with mem := [(0x20000003, 0x20), (0x20000004, 60)] }, by decide +kernel⟩

theorem wit_EthernetReceiveAndLinks_4 : ∃ (ini : Fin 16) (k : Fin 4) (r : Fin 8) (value : Word) (s : State),
    (Reachable s ini (portPage k.val + 1) (0x148 + 0x10 * r.val)) ∧
    (value.toNat < 2 * rqSize s k.val r.val) ∧
    ((value.toNat + 2 * rqSize s k.val r.val - rqHead s k.val r.val) % (2 * rqSize s k.val r.val) ≤ rqSize s k.val r.val) ∧
    (rxDescErr s k.val r.val value.toNat = none) :=
  ⟨4, 3, 7, 1, { st [(Reg.ETH_RQ_BASE 31, 0x20000000)] with mem := [(0x20000004, 64)] }, by decide +kernel⟩

theorem wit_EthernetReceiveAndLinks_5 : ∃ (k : Fin 4) (up : Bool) (an : Bool) (s : State),
    (pageEn s (portPage k.val) = true) ∧
    (domainUp s 5 = true) :=
  ⟨3, true, true, st [(0xD9004, 1)], by decide +kernel⟩

theorem wit_EthernetReceiveAndLinks_6 : ∃ (ini : Fin 16) (k : Fin 4) (value : Word) (s : State),
    (Reachable s ini (portPage k.val) 0x94) ∧
    (2 ≤ k.val) ∧
    (flag s (Reg.ETH_MDIO_DATA k.val) F.ETH_MDIO_DATA_BUSY = false) ∧
    (fieldGet F.ETH_MDIO_CMD_OP value = 1 ∨ fieldGet F.ETH_MDIO_CMD_OP value = 2) ∧
    (value.toNat < 4096) :=
  ⟨4, 3, BitVec.ofNat 32 (2 * 2 ^ F.ETH_MDIO_CMD_OP.lo), State.reset, by decide +kernel⟩

theorem wit_EthernetReceiveAndLinks_7 : ∃ (k : Fin 4) (data : BitVec 16) (v : Word) (n : Nat) (s : State),
    ((port s k.val).mdio = some (v, n)) ∧
    (domainUp s 5 = true) ∧
    (n + 128000 ≤ s.now) :=
  ⟨3, 0xFFFF, 0, 0, { State.reset with now := 128000, eth := { ports := [(3, { mdio := some (0, 0) })] } }, by decide +kernel⟩

theorem wit_EthernetGates_1 : ∃ (ini : Fin 16) (k : Fin 4) (s : State),
    (Reachable s ini (portPage k.val + 2) 0x54) ∧
    (gateEn s k.val = true) ∧
    (gateUnset s k.val = false) :=
  ⟨4, 3, st [(Reg.ETH_GATE_CFG 3, BitVec.ofNat 32 (2 ^ F.ETH_GATE_CFG_EN.lo)), (Reg.ETH_GATE_CYCLE 3, 1000)], by decide +kernel⟩

theorem wit_EthernetGates_2 : ∃ (k : Fin 4) (s : State),
    (domainUp s 5 = true) ∧
    ((gatesAt s k.val s.clock.ptp).1 ≠ (port s k.val).gates) :=
  ⟨3, { State.reset with eth := { ports := [(3, { gates := 1 })] } }, by decide +kernel⟩

theorem wit_EthernetGates_3 : ∃ (k : Fin 4) (s : State),
    (domainUp s 5 = true) ∧
    (gatePend s k.val = true) ∧
    ((port s k.val).changeAt ≤ ptpNs s) :=
  ⟨3, st [(Reg.ETH_GATE_STAT 3, BitVec.ofNat 32 (2 ^ F.ETH_GATE_STAT_PEND.lo))], by decide +kernel⟩

theorem wit_CanStateCommands_1 : ∃ (ini : Fin 16) (c : Fin 8) (s : State),
    (Reachable s ini (canPage c.val) 0x4C) ∧
    (c.val < 6) ∧
    (fld s (Reg.CAN_CFG c.val) F.CAN_CFG_WAKE ≠ 0) ∧
    (canAsleep s c.val = false) ∧
    (canPending s c.val = 0) ∧
    ((canOf s c.val).attempt = none) ∧
    (canRuns s c.val = true) :=
  ⟨4, 5, st [(0xE0004, 1), (0xE6004, 1), (Reg.CAN_CFG 5, BitVec.ofNat 32 (2 ^ F.CAN_CFG_WAKE.lo))], by decide +kernel⟩

theorem wit_CanStateCommands_2 : ∃ (ini : Fin 16) (c : Fin 8) (s : State),
    (Reachable s ini (canPage c.val) 0x4C) ∧
    (c.val < 6) ∧
    (fld s (Reg.CAN_CFG c.val) F.CAN_CFG_WAKE ≠ 0) ∧
    (canAsleep s c.val = false) ∧
    (canPending s c.val ≠ 0) :=
  ⟨4, 5, st [(Reg.CAN_CFG 5, BitVec.ofNat 32 (2 ^ F.CAN_CFG_WAKE.lo)), (Reg.CAN_TXREQ 5, 1)], by decide +kernel⟩

theorem wit_CanStateCommands_3 : ∃ (ini : Fin 16) (c : Fin 8) (s : State),
    (Reachable s ini (canPage c.val) 0x4C) ∧
    (c.val < 6) ∧
    (fld s (Reg.CAN_CFG c.val) F.CAN_CFG_WAKE ≠ 0) ∧
    (canAsleep s c.val = true) :=
  ⟨4, 5, st [(Reg.CAN_STAT 5, BitVec.ofNat 32 (2 ^ F.CAN_STAT_SLEEP.lo)), (Reg.CAN_CFG 5, BitVec.ofNat 32 (2 ^ F.CAN_CFG_WAKE.lo))], by decide +kernel⟩

theorem wit_CanStateCommands_4 : ∃ (ini : Fin 16) (c : Fin 8) (s : State),
    (Reachable s ini (canPage c.val) 0x4C) ∧
    (canAsleep s c.val = true) :=
  ⟨4, 7, st [(Reg.CAN_STAT 7, BitVec.ofNat 32 (2 ^ F.CAN_STAT_SLEEP.lo))], by decide +kernel⟩

theorem wit_CanStateCommands_5 : ∃ (ini : Fin 16) (c : Fin 8) (s : State),
    (Reachable s ini (canPage c.val) 0x4C) ∧
    (canAsleep s c.val = false) :=
  ⟨4, 7, State.reset, by decide +kernel⟩

theorem wit_CanStateCommands_6 : ∃ (c : Fin 8) (s : State),
    (canRuns s c.val = true) ∧
    (canAsleep s c.val = true) ∧
    (fld s (Reg.CAN_CFG c.val) F.CAN_CFG_WAKE = 1) :=
  ⟨7, st [(0xE0004, 1), (0xE8004, 1), (Reg.CAN_STAT 7, BitVec.ofNat 32 (2 ^ F.CAN_STAT_SLEEP.lo)), (Reg.CAN_CFG 7, BitVec.ofNat 32 (2 ^ F.CAN_CFG_WAKE.lo))], by decide +kernel⟩

theorem wit_CanStateCommands_7 : ∃ (c : Fin 8) (id : BitVec 32) (data : List Byte) (s : State),
    (canRuns s c.val = true) ∧
    (canAsleep s c.val = true) ∧
    (fld s (Reg.CAN_CFG c.val) F.CAN_CFG_WAKE = 2) ∧
    (wakeMatch s c.val id data = true) :=
  ⟨7, 5, [], st [(0xE0004, 1), (0xE8004, 1), (Reg.CAN_STAT 7, BitVec.ofNat 32 (2 ^ F.CAN_STAT_SLEEP.lo)), (Reg.CAN_CFG 7, BitVec.ofNat 32 (2 * 2 ^ F.CAN_CFG_WAKE.lo))], by decide +kernel⟩

theorem wit_CanStateCommands_8 : ∃ (ini : Fin 16) (c : Fin 8) (s : State),
    (Reachable s ini (canPage c.val) 0x4C) ∧
    (canState s c.val = 2) :=
  ⟨4, 7, st [(Reg.CAN_STAT 7, BitVec.ofNat 32 (2 * 2 ^ F.CAN_STAT_STATE.lo))], by decide +kernel⟩

theorem wit_CanStateCommands_9 : ∃ (ini : Fin 16) (c : Fin 8) (s : State),
    (Reachable s ini (canPage c.val) 0x4C) ∧
    (canState s c.val ≠ 2) :=
  ⟨4, 7, State.reset, by decide +kernel⟩

theorem wit_CanStateCommands_10 : ∃ (c : Fin 8) (s : State),
    (canRuns s c.val = true) ∧
    (canState s c.val = 3) ∧
    ((canOf s c.val).restartAt + 1408 * canBit s c.val ≤ s.now) :=
  ⟨7, { st [(0xE0004, 1), (0xE8004, 1), (Reg.CAN_STAT 7, BitVec.ofNat 32 (3 * 2 ^ F.CAN_STAT_STATE.lo))] with now := 10 ^ 12 }, by decide +kernel⟩

theorem wit_CanStateCommands_11 : ∃ (c : Fin 8) (dominant : Bool) (s : State),
    (canOnBus s c.val = true) ∧
    (canListen s c.val = false) :=
  ⟨7, true, st [(0xE0004, 1), (0xE8004, 1)], by decide +kernel⟩

theorem wit_CanTransmission_1 : ∃ (ini : Fin 16) (c : Fin 8) (value : Word) (s : State),
    (Reachable s ini (canPage c.val) 0x54) ∧
    (canAsleep s c.val = false) :=
  ⟨4, 7, 0x80000001, State.reset, by decide +kernel⟩

theorem wit_CanTransmission_2 : ∃ (ini : Fin 16) (c : Fin 8) (value : Word) (s : State),
    (Reachable s ini (canPage c.val) 0x54) ∧
    (canAsleep s c.val = true) ∧
    (value ≠ 0) :=
  ⟨4, 7, 0x80000001, st [(Reg.CAN_STAT 7, BitVec.ofNat 32 (2 ^ F.CAN_STAT_SLEEP.lo))], by decide +kernel⟩

theorem wit_CanTransmission_3 : ∃ (ini : Fin 16) (c : Fin 8) (b : Fin 32) (s : State),
    (Reachable s ini (canPage c.val) 0x58) ∧
    (bitAt (canPending s c.val) b.val = true) ∧
    ((canOf s c.val).attempt ≠ some b.val) ∧
    ((canOf s c.val).sleepDue = false) :=
  ⟨4, 7, 31, st [(Reg.CAN_TXREQ 7, 0x80000000)], by decide +kernel⟩

theorem wit_CanTransmission_4 : ∃ (ini : Fin 16) (c : Fin 8) (b : Fin 32) (s : State),
    (Reachable s ini (canPage c.val) 0x58) ∧
    (bitAt (canPending s c.val) b.val = true) ∧
    ((canOf s c.val).attempt = some b.val) :=
  ⟨4, 7, 31, { st [(Reg.CAN_TXREQ 7, 0x80000000)] with can := [(7, { attempt := some 31 })] }, by decide +kernel⟩

theorem wit_CanTransmission_5 : ∃ (ini : Fin 16) (c : Fin 8) (value : Word) (s : State),
    (Reachable s ini (canPage c.val) 0x58) ∧
    (value &&& canPending s c.val = 0) ∧
    ((canOf s c.val).sleepDue = false) :=
  ⟨4, 7, 1, State.reset, by decide +kernel⟩

theorem wit_CanTransmission_6 : ∃ (c : Fin 8) (b : Nat) (s : State),
    (canSelect s c.val = some b) ∧
    (canOnBus s c.val = true) ∧
    (canListen s c.val = false) ∧
    ((canOf s c.val).attempt = none) ∧
    (eccIn s (canEcc + canAt c.val (72 * b)) 72 = []) :=
  ⟨7, 31, st [(0xE0004, 1), (0xE8004, 1), (Reg.CAN_TXREQ 7, 0x80000000)], by decide +kernel⟩

theorem wit_CanTransmission_7 : ∃ (c : Fin 8) (b : Nat) (s : State),
    (canSelect s c.val = some b) ∧
    (canOnBus s c.val = true) ∧
    (canListen s c.val = false) ∧
    ((canOf s c.val).attempt = none) ∧
    ((readScan s 0 (canEcc + canAt c.val (72 * b)) 72).1.isSome = true) :=
  ⟨7, 31, { st [(0xE0004, 1), (0xE8004, 1), (Reg.CAN_TXREQ 7, 0x80000000)] with ecc := [(canEcc + 0x1C8B8, { poisoned := true })] }, by decide +kernel⟩

theorem wit_CanTransmission_8 : ∃ (c : Fin 8) (b : Nat) (s : State),
    ((canOf s c.val).attempt = some b) ∧
    (b < 32) ∧
    (canRuns s c.val = true) :=
  ⟨7, 31, { st [(0xE0004, 1), (0xE8004, 1), (Reg.CAN_TXREQ 7, 0x80000000)] with can := [(7, { attempt := some 31 })] }, by decide +kernel⟩

theorem wit_CanTransmission_9 : ∃ (c : Fin 8) (b : Nat) (outcome : Fin 4) (s : State),
    ((canOf s c.val).attempt = some b) ∧
    (canRuns s c.val = true) ∧
    (outcome = 1 ∨ outcome = 3) ∧
    (bitAt (rd s (Reg.CAN_TXCANCEL c.val)) b = false) :=
  ⟨7, 31, 1, { st [(0xE0004, 1), (0xE8004, 1), (Reg.CAN_TXREQ 7, 0x80000000)] with can := [(7, { attempt := some 31 })] }, by decide +kernel⟩

theorem wit_CanTransmission_10 : ∃ (c : Fin 8) (b : Nat) (outcome : Fin 4) (s : State),
    ((canOf s c.val).attempt = some b) ∧
    (b < 32) ∧
    (canRuns s c.val = true) ∧
    (outcome ≠ 0) ∧
    (bitAt (rd s (Reg.CAN_TXCANCEL c.val)) b = true) :=
  ⟨7, 31, 1, { st [(0xE0004, 1), (0xE8004, 1), (Reg.CAN_TXREQ 7, 0x80000000), (Reg.CAN_TXCANCEL 7, 0x80000000)] with can := [(7, { attempt := some 31 })] }, by decide +kernel⟩

theorem wit_CanTransmission_11 : ∃ (c : Fin 8) (b : Nat) (s : State),
    ((canOf s c.val).attempt = some b) ∧
    (canRuns s c.val = true) ∧
    (bitAt (rd s (Reg.CAN_TXCANCEL c.val)) b = false) :=
  ⟨7, 31, { st [(0xE0004, 1), (0xE8004, 1), (Reg.CAN_TXREQ 7, 0x80000000)] with can := [(7, { attempt := some 31, txErr := 248 })] }, by decide +kernel⟩

theorem wit_CanReception_1 : ∃ (c : Fin 8) (id : BitVec 32) (dlc : BitVec 4) (flags : BitVec 3) (start : Nat) (data : List Byte) (n : Nat) (s : State),
    (canOnBus s c.val = true) ∧
    ((!(flags.getLsbD 0) || flag s (Reg.CAN_CFG c.val) F.CAN_CFG_FD_EN) = true) ∧
    (start ≤ monoNs s) ∧
    ((if bitAt id 30 && !(flags.getLsbD 0) then 0 else dlcBytes (flags.getLsbD 0) dlc.toNat) ≤ data.length) ∧
    (canAccept s c.val id = some n) ∧
    ((canOf s c.val).hold ≠ some n) ∧
    (objFull s c.val n = false) :=
  ⟨7, 5, 8, 0, 0, List.replicate 8 9, 63, st [(0xE0004, 1), (0xE8004, 1), (Reg.CAN_RXF_ID 511, 0x80000005), (Reg.CAN_RXF_MASK 511, 0x1FFFFFFF)], by decide +kernel⟩

theorem wit_CanReception_2 : ∃ (c : Fin 8) (id : BitVec 32) (dlc : BitVec 4) (flags : BitVec 3) (start : Nat) (data : List Byte) (n : Nat) (s : State),
    (canOnBus s c.val = true) ∧
    ((!(flags.getLsbD 0) || flag s (Reg.CAN_CFG c.val) F.CAN_CFG_FD_EN) = true) ∧
    (start ≤ monoNs s) ∧
    ((if bitAt id 30 && !(flags.getLsbD 0) then 0 else dlcBytes (flags.getLsbD 0) dlc.toNat) ≤ data.length) ∧
    (canAccept s c.val id = some n) ∧
    ((canOf s c.val).hold ≠ some n) ∧
    (objFull s c.val n = true) :=
  ⟨7, 5, 8, 0, 0, List.replicate 8 9, 63, st [(0xE0004, 1), (0xE8004, 1), (Reg.CAN_RXF_ID 511, 0x80000005), (Reg.CAN_RXF_MASK 511, 0x1FFFFFFF), (Reg.CAN_RXFULL1 7, 0x80000000)], by decide +kernel⟩

theorem wit_CanReception_3 : ∃ (c : Fin 8) (id : BitVec 32) (dlc : BitVec 4) (flags : BitVec 3) (start : Nat) (data : List Byte) (n : Nat) (s : State),
    (canOnBus s c.val = true) ∧
    ((!(flags.getLsbD 0) || flag s (Reg.CAN_CFG c.val) F.CAN_CFG_FD_EN) = true) ∧
    (start ≤ monoNs s) ∧
    ((if bitAt id 30 && !(flags.getLsbD 0) then 0 else dlcBytes (flags.getLsbD 0) dlc.toNat) ≤ data.length) ∧
    (canAccept s c.val id = some n) ∧
    ((canOf s c.val).hold = some n) :=
  ⟨7, 5, 8, 0, 0, List.replicate 8 9, 63, { st [(0xE0004, 1), (0xE8004, 1), (Reg.CAN_RXF_ID 511, 0x80000005), (Reg.CAN_RXF_MASK 511, 0x1FFFFFFF)] with can := [(7, { hold := some 63 })] }, by decide +kernel⟩

theorem wit_CanReception_4 : ∃ (c : Fin 8) (id : BitVec 32) (dlc : BitVec 4) (flags : BitVec 3) (start : Nat) (data : List Byte) (s : State),
    (canOnBus s c.val = true) ∧
    ((!(flags.getLsbD 0) || flag s (Reg.CAN_CFG c.val) F.CAN_CFG_FD_EN) = true) ∧
    (start ≤ monoNs s) ∧
    ((if bitAt id 30 && !(flags.getLsbD 0) then 0 else dlcBytes (flags.getLsbD 0) dlc.toNat) ≤ data.length) ∧
    (canAccept s c.val id = none) ∧
    (flag s (Reg.CAN_CFG c.val) F.CAN_CFG_FIFO_ALL = true) ∧
    ((fld s (Reg.CAN_FIFO_TAIL c.val) F.CAN_FIFO_TAIL_IDX + 128 - fld s (Reg.CAN_FIFO_HEAD c.val) F.CAN_FIFO_HEAD_IDX) % 128 ≠ 64) :=
  ⟨7, 5, 8, 0, 0, List.replicate 8 9, st [(0xE0004, 1), (0xE8004, 1), (Reg.CAN_CFG 7, BitVec.ofNat 32 (2 ^ F.CAN_CFG_FIFO_ALL.lo))], by decide +kernel⟩

theorem wit_CanReception_5 : ∃ (c : Fin 8) (id : BitVec 32) (dlc : BitVec 4) (flags : BitVec 3) (start : Nat) (data : List Byte) (s : State),
    (canOnBus s c.val = true) ∧
    ((!(flags.getLsbD 0) || flag s (Reg.CAN_CFG c.val) F.CAN_CFG_FD_EN) = true) ∧
    (start ≤ monoNs s) ∧
    ((if bitAt id 30 && !(flags.getLsbD 0) then 0 else dlcBytes (flags.getLsbD 0) dlc.toNat) ≤ data.length) ∧
    (canAccept s c.val id = none) ∧
    (flag s (Reg.CAN_CFG c.val) F.CAN_CFG_FIFO_ALL = true) ∧
    ((fld s (Reg.CAN_FIFO_TAIL c.val) F.CAN_FIFO_TAIL_IDX + 128 - fld s (Reg.CAN_FIFO_HEAD c.val) F.CAN_FIFO_HEAD_IDX) % 128 = 64) :=
  ⟨7, 5, 8, 0, 0, List.replicate 8 9, st [(0xE0004, 1), (0xE8004, 1), (Reg.CAN_CFG 7, BitVec.ofNat 32 (2 ^ F.CAN_CFG_FIFO_ALL.lo)), (Reg.CAN_FIFO_TAIL 7, 64)], by decide +kernel⟩

theorem wit_CanReception_6 : ∃ (c : Fin 8) (id : BitVec 32) (dlc : BitVec 4) (flags : BitVec 3) (start : Nat) (data : List Byte) (s : State),
    (canOnBus s c.val = true) ∧
    ((!(flags.getLsbD 0) || flag s (Reg.CAN_CFG c.val) F.CAN_CFG_FD_EN) = true) ∧
    (start ≤ monoNs s) ∧
    ((if bitAt id 30 && !(flags.getLsbD 0) then 0 else dlcBytes (flags.getLsbD 0) dlc.toNat) ≤ data.length) ∧
    (canAccept s c.val id = none) ∧
    (flag s (Reg.CAN_CFG c.val) F.CAN_CFG_FIFO_ALL = false) :=
  ⟨7, 5, 8, 0, 0, List.replicate 8 9, st [(0xE0004, 1), (0xE8004, 1)], by decide +kernel⟩

theorem wit_CanReception_7 : ∃ (ini : Fin 16) (c : Fin 8) (value : Word) (s : State),
    (Reachable s ini (canPage c.val) 0x6C) ∧
    (value.toNat < 64) ∧
    ((canOf s c.val).hold = some value.toNat ∨ ((canOf s c.val).hold = none ∧ canStoredNow s c.val value.toNat false = none)) ∧
    (objFull s c.val value.toNat = true) :=
  ⟨4, 7, 63, st [(Reg.CAN_RXFULL1 7, 0x80000000)], by decide +kernel⟩

theorem wit_CanReception_8 : ∃ (ini : Fin 16) (c : Fin 8) (value : Word) (s : State),
    (Reachable s ini (canPage c.val) 0x6C) ∧
    (value.toNat < 64) ∧
    ((canOf s c.val).hold = some value.toNat ∨ ((canOf s c.val).hold = none ∧ canStoredNow s c.val value.toNat false = none)) ∧
    (objFull s c.val value.toNat = false) :=
  ⟨4, 7, 63, State.reset, by decide +kernel⟩

theorem wit_CanReception_9 : ∃ (ini : Fin 16) (c : Fin 8) (value : Word) (w : CanStored) (s : State),
    (Reachable s ini (canPage c.val) 0x6C) ∧
    (value.toNat < 64) ∧
    ((canOf s c.val).hold = none) ∧
    (canStoredNow s c.val value.toNat false = some w) ∧
    (w.empty = true) :=
  ⟨4, 7, 63, { obj := 63, empty := true }, { st [(Reg.CAN_RXFULL1 7, 0x80000000)] with can := [(7, { stored := some { obj := 63, empty := true } })] }, by decide +kernel⟩

theorem wit_CanReception_10 : ∃ (ini : Fin 16) (c : Fin 8) (value : Word) (w : CanStored) (s : State),
    (Reachable s ini (canPage c.val) 0x6C) ∧
    (value.toNat < 64) ∧
    ((canOf s c.val).hold = none) ∧
    (canStoredNow s c.val value.toNat false = some w) ∧
    (w.empty = false) :=
  ⟨4, 7, 63, { obj := 63, empty := false }, { st [(Reg.CAN_RXFULL1 7, 0x80000000), (Reg.CAN_OVW 7, 1)] with can := [(7, { stored := some { obj := 63, empty := false } })] }, by decide +kernel⟩

theorem wit_CanReception_11 : ∃ (ini : Fin 16) (c : Fin 8) (value : Word) (w : CanStored) (s : State),
    (Reachable s ini (canPage c.val) 0x70) ∧
    (value.toNat < 64) ∧
    ((canOf s c.val).hold = some value.toNat) ∧
    ((canOf s c.val).shadow.testBit value.toNat = true) ∧
    (canStoredNow s c.val value.toNat true = some w) ∧
    (w.empty = true) :=
  ⟨4, 7, 63, { obj := 63, shadow := true, empty := true }, { State.reset with can := [(7, { hold := some 63, shadow := 2 ^ 63, stored := some { obj := 63, shadow := true, empty := true } })] }, by decide +kernel⟩

theorem wit_CanReception_12 : ∃ (ini : Fin 16) (c : Fin 8) (value : Word) (s : State),
    (Reachable s ini (canPage c.val) 0x70) ∧
    (value.toNat < 64) ∧
    ((canOf s c.val).hold = some value.toNat) ∧
    ((canOf s c.val).shadow.testBit value.toNat = false) ∧
    ((canStoredNow s c.val value.toNat true).filter (fun t => t.empty) = none) :=
  ⟨4, 7, 63, { State.reset with can := [(7, { hold := some 63 })] }, by decide +kernel⟩

theorem wit_CanReception_13 : ∃ (ini : Fin 16) (c : Fin 8) (value : Word) (s : State),
    (Reachable s ini (canPage c.val) 0x70) ∧
    (value.toNat < 64) ∧
    ((canOf s c.val).hold = some value.toNat) ∧
    ((canOf s c.val).shadow.testBit value.toNat = true) ∧
    ((canStoredNow s c.val value.toNat true).filter (fun t => t.empty) = none) :=
  ⟨4, 7, 63, { State.reset with can := [(7, { hold := some 63, shadow := 2 ^ 63 })] }, by decide +kernel⟩

theorem wit_CanReception_14 : ∃ (ini : Fin 16) (c : Fin 8) (value : Word) (s : State),
    (Reachable s ini (canPage c.val) 0x74) ∧
    (value.toNat < 128) ∧
    ((value.toNat + 128 - fld s (Reg.CAN_FIFO_HEAD c.val) F.CAN_FIFO_HEAD_IDX) % 128 ≤ (fld s (Reg.CAN_FIFO_TAIL c.val) F.CAN_FIFO_TAIL_IDX + 128 - fld s (Reg.CAN_FIFO_HEAD c.val) F.CAN_FIFO_HEAD_IDX) % 128) :=
  ⟨4, 7, 127, st [(Reg.CAN_FIFO_TAIL 7, 127)], by decide +kernel⟩

theorem wit_CanReception_15 : ∃ (ini : Fin 16) (c : Fin 8) (s : State),
    (Reachable s ini (canPage c.val) 0x80) ∧
    (eccIn s (canEcc + canAt c.val (fld s (Reg.CAN_RAM_ADDR c.val) F.CAN_RAM_ADDR_ADDR / 4 * 4)) 4 = []) :=
  ⟨4, 7, State.reset, by decide +kernel⟩

theorem wit_CanReception_16 : ∃ (ini : Fin 16) (c : Fin 8) (s : State),
    (Reachable s ini (canPage c.val) 0x80) ∧
    ((readScan s 0 (canEcc + canAt c.val (fld s (Reg.CAN_RAM_ADDR c.val) F.CAN_RAM_ADDR_ADDR / 4 * 4)) 4).1.isSome = true) :=
  ⟨4, 7, { State.reset with ecc := [(canEcc + 0x1C000, { poisoned := true })] }, by decide +kernel⟩

theorem wit_CanReception_17 : ∃ (ini : Fin 16) (c : Fin 8) (w : Word) (s : State),
    (Reachable s ini (canPage c.val) 0x80) ∧
    (fld s (Reg.CAN_RAM_ADDR c.val) F.CAN_RAM_ADDR_ADDR / 4 * 4 < 0x900) ∧
    (bitAt (canPending s c.val) (fld s (Reg.CAN_RAM_ADDR c.val) F.CAN_RAM_ADDR_ADDR / 4 * 4 / 72) = false) :=
  ⟨4, 7, 0x12345678, st [(Reg.CAN_RAM_ADDR 7, 0x8FC)], by decide +kernel⟩

theorem wit_MemoryErrorsAndGlint_1 : ∃ (i : Nat) (e : MergeEntry) (s : State),
    (s.memSys.merge[i]? = some e) ∧
    (e.mask % 256 = 255 ∨ eccFind s e.word = .clean) ∧
    (∀ r < 3, flag s (Reg.MEM_FLIP_CFG r) F.MEM_FLIP_CFG_ARM = false) :=
  ⟨0, { word := 0x20000008, mask := 255 }, { State.reset with memSys := { merge := [{ word := 0x20000008, mask := 255 }] } }, by decide +kernel⟩

theorem wit_MemoryErrorsAndGlint_2 : ∃ (i : Nat) (s : State),
    (s.memSys.merge[i]? = none) :=
  ⟨0, State.reset, by decide +kernel⟩

theorem wit_MemoryErrorsAndGlint_3 : ∃ (i : Fin 3) (s : State),
    (laneReady s i.val = true) ∧
    (s.memSys.remap = none) ∧
    (i ≠ 0 ∨ rowLasting s (rowOf (laneWord i.val (lane s i.val).next)) = false) ∧
    (eccFind s (laneWord i.val (lane s i.val).next) = .clean) :=
  ⟨2, { st [(Reg.GLINT_CFG, 7), (Reg.PCTL 0x23, 1)] with start := { step := .running }, memSys := { lanes := [(2, { next := 262143 })] } }, by decide +kernel⟩

theorem wit_MemoryErrorsAndGlint_4 : ∃ (i : Fin 3) (flips : List Nat) (s : State),
    (laneReady s i.val = true) ∧
    (s.memSys.remap = none) ∧
    (i ≠ 0 ∨ rowLasting s (rowOf (laneWord i.val (lane s i.val).next)) = false) ∧
    (eccFind (flipBits s (laneWord i.val (lane s i.val).next) flips) (laneWord i.val (lane s i.val).next) = .correctable) :=
  ⟨0, [3], { st [(Reg.GLINT_CFG, 7), (Reg.PCTL 0x23, 1)] with start := { step := .running } }, by decide +kernel⟩

theorem wit_MemoryErrorsAndGlint_5 : ∃ (i : Fin 3) (flips : List Nat) (s : State),
    (laneReady s i.val = true) ∧
    (s.memSys.remap = none) ∧
    (i ≠ 0 ∨ rowLasting s (rowOf (laneWord i.val (lane s i.val).next)) = false) ∧
    (eccFind (flipBits s (laneWord i.val (lane s i.val).next) flips) (laneWord i.val (lane s i.val).next) = .uncorrectable) ∧
    (criticalBank s (laneWord i.val (lane s i.val).next) = false) :=
  ⟨0, [3, 4], { st [(Reg.GLINT_CFG, 7), (Reg.PCTL 0x23, 1)] with start := { step := .running } }, by decide +kernel⟩

theorem wit_MemoryErrorsAndGlint_6 : ∃ (flips : List Nat) (s : State),
    (laneReady s 0 = true) ∧
    (s.memSys.remap = none) ∧
    (rowLasting s (rowOf (laneWord 0 (lane s 0).next)) = true) ∧
    (s.memSys.refused ≠ some (rowOf (laneWord 0 (lane s 0).next))) :=
  ⟨[], { st [(Reg.GLINT_CFG, 7), (Reg.PCTL 0x23, 1)] with start := { step := .running }, memSys := { track := [(0, { valid := true, lasting := true, addr := 0x20000010 })] } }, by decide +kernel⟩

theorem wit_MemoryErrorsAndGlint_7 : ∃ (i : Fin 3) (flips : List Nat) (s : State),
    (laneReady s i.val = false) :=
  ⟨0, [], State.reset, by decide +kernel⟩

theorem wit_MemoryErrorsAndGlint_8 : ∃ (i : Fin 3) (w : Nat) (s : State),
    ((lane s i.val).writeBack = some w) ∧
    (memoryUp s w = true) ∧
    ((isMram w && pfail s) = false) ∧
    (∀ e ∈ s.memSys.merge, e.word ≠ w) :=
  ⟨0, 0x20000000, { State.reset with memSys := { lanes := [(0, { writeBack := some 0x20000000 })] } }, by decide +kernel⟩

theorem wit_MemoryErrorsAndGlint_9 : ∃ (i : Fin 3) (w : Nat) (s : State),
    ((lane s i.val).writeBack = some w) ∧
    (memoryUp s w = true) ∧
    ((isMram w && pfail s) = true ∨ ∃ e ∈ s.memSys.merge, e.word = w) :=
  ⟨0, 0x20000000, { State.reset with memSys := { merge := [{ word := 0x20000000 }], lanes := [(0, { writeBack := some 0x20000000 })] } }, by decide +kernel⟩

theorem wit_MemoryErrorsAndGlint_10 : ∃ (e : Fin 32) (s : State),
    ((trk s 2 e.val).valid = true) ∧
    ((trk s 2 e.val).lasting = true) ∧
    ((trk s 2 e.val).last + trkWindow s 2 ≤ monoNs s) :=
  ⟨31, { State.reset with clock := { mono := 10 ^ 19 }, memSys := { track := [(95, { valid := true, lasting := true })] } }, by decide +kernel⟩

theorem wit_RowRepairInjectionAndInvalidation_1 : ∃ (ini : Fin 16) (b : Fin 160) (r : Fin 256) (s : State),
    (Reachable s ini 0x24 0x40) ∧
    (flag s Reg.REPAIR_STAT F.REPAIR_STAT_BUSY = false) ∧
    (mget 0 s.memSys.rows (256 * b.val + r.val) = 0) :=
  ⟨4, 159, 255, State.reset, by decide +kernel⟩

theorem wit_RowRepairInjectionAndInvalidation_2 : ∃ (ini : Fin 16) (b : Fin 160) (r : Fin 256) (s : State),
    (Reachable s ini 0x24 0x40) ∧
    (flag s Reg.REPAIR_STAT F.REPAIR_STAT_BUSY = false) ∧
    (mget 0 s.memSys.rows (256 * b.val + r.val) ≠ 0) :=
  ⟨4, 0, 5, { State.reset with memSys := { rows := [(5, 1)] } }, by decide +kernel⟩

theorem wit_RowRepairInjectionAndInvalidation_3 : ∃ (row : Nat) (s : State),
    (s.memSys.remap = some row) ∧
    (mget 0 s.memSys.rows row = 0) ∧
    (mget 0 s.memSys.spares (row / 256) < 32) ∧
    (eccIn s (rowBase row) 1024 = []) :=
  ⟨40959, { State.reset with memSys := { remap := some 40959, spares := [(159, 31)] } }, by decide +kernel⟩

theorem wit_RowRepairInjectionAndInvalidation_4 : ∃ (row : Nat) (s : State),
    (s.memSys.remap = some row) ∧
    (mget 0 s.memSys.rows row = 0) ∧
    (32 ≤ mget 0 s.memSys.spares (row / 256)) :=
  ⟨5, { State.reset with memSys := { remap := some 5, spares := [(0, 32)] } }, by decide +kernel⟩

theorem wit_RowRepairInjectionAndInvalidation_5 : ∃ (row : Nat) (s : State),
    (s.memSys.remap = some row) ∧
    (mget 0 s.memSys.rows row ≠ 0) :=
  ⟨5, { State.reset with memSys := { remap := some 5, rows := [(5, 1)] } }, by decide +kernel⟩

theorem wit_RowRepairInjectionAndInvalidation_6 : ∃ (s : State),
    (s.memSys.remap = none) :=
  ⟨State.reset, by decide +kernel⟩

theorem wit_RowRepairInjectionAndInvalidation_7 : ∃ (ini : Fin 16) (r : Fin 3) (value : Word) (s : State),
    (Reachable s ini (0x20 + r.val) 0x5C) ∧
    (value &&& 0xFFFFFCE0#32 = 0) ∧
    (fieldGet F.MEM_FLIP_CFG_PORT value ≤ (if r = 0 then 11 else if r = 1 then 1 else 0)) ∧
    (flag s (Reg.MEM_FLIP_CFG r.val) F.MEM_FLIP_CFG_ARM = false) :=
  ⟨4, 0, 0x0000030B, State.reset, by decide +kernel⟩

theorem wit_RowRepairInjectionAndInvalidation_8 : ∃ (ini : Fin 16) (s : State),
    (Reachable s ini 0x17 0x240) ∧
    (flag s Reg.MMU_INVAL_STAT F.MMU_INVAL_STAT_BUSY = false) :=
  ⟨4, State.reset, by decide +kernel⟩

theorem wit_RowRepairInjectionAndInvalidation_9 : ∃ (ini : Fin 16) (ctx : Fin 64) (s : State),
    (Reachable s ini 0x17 0x240) ∧
    (flag s Reg.MMU_INVAL_STAT F.MMU_INVAL_STAT_BUSY = false) :=
  ⟨4, 63, State.reset, by decide +kernel⟩

theorem wit_RowRepairInjectionAndInvalidation_10 : ∃ (ini : Fin 16) (ctx : Fin 64) (s : State),
    (Reachable s ini 0x17 0x240) ∧
    (flag s Reg.MMU_INVAL_STAT F.MMU_INVAL_STAT_BUSY = false) :=
  ⟨4, 63, State.reset, by decide +kernel⟩

theorem wit_RowRepairInjectionAndInvalidation_11 : ∃ (k : Nat × Nat × Nat) (s : State),
    (s.mmu.inval = some k) :=
  ⟨(1, 0, 0), { State.reset with mmu := { inval := some (1, 0, 0) } }, by decide +kernel⟩

theorem wit_RowRepairInjectionAndInvalidation_12 : ∃ (s : State),
    (s.mmu.inval = none) :=
  ⟨State.reset, by decide +kernel⟩

theorem wit_DmaChannels_1 : ∃ (ini : Fin 16) (ch : Fin 32) (va : Nat) (src : Nat) (dst : Nat) (n : Nat) (k : Nat) (e : TlbEntry) (f : TlbEntry) (g : TlbEntry) (s : State),
    (Reachable s ini (dmaPage ch.val) (dmaOff ch.val 0x0C)) ∧
    (dmaState s ch.val = dIdle) ∧
    (startErr481 ini ch.val s = none) ∧
    (Permitted s (dmaStart (granted s ini) ch.val)) ∧
    (va = (rd64 s (Reg.DMA_DESC_LO ch.val) (Reg.DMA_DESC_HI ch.val) % 2 ^ 40)) ∧
    (src = (leNat (rdBytes s (e.leaf % 2 ^ 32 / 4096 * 4096 + va % 4096) 8) % 2 ^ 40)) ∧
    (dst = (leNat (rdBytes s ((e.leaf % 2 ^ 32 / 4096 * 4096 + va % 4096) + 8) 8) % 2 ^ 40)) ∧
    (n = (leNat (rdBytes s ((e.leaf % 2 ^ 32 / 4096 * 4096 + va % 4096) + 16) 4))) ∧
    (va % 4096 + 32 ≤ 4096) ∧
    (eccIn s (e.leaf % 2 ^ 32 / 4096 * 4096 + va % 4096) 32 = []) ∧
    (tlbFind s 6 (dmaCtx s ch.val) (va / 4096) = some e) ∧
    (leafBit e.leaf 1 = true) ∧
    (k = 0) ∧
    (32 * k < n) ∧
    (tlbFind s 6 (dmaCtx s ch.val) ((src + 32 * k) / 4096) = some f) ∧
    (leafBit f.leaf 1 = true) ∧
    (tlbFind s 6 (dmaCtx s ch.val) ((dst + 32 * k) / 4096) = some g) ∧
    (leafBit g.leaf 2 = true ∧ leafBit g.leaf 5 = false ∧ leafBit g.leaf 7 = true) ∧
    (s.dmaIssue.cycle ≠ s.now / 8 + 1) ∧
    (dmaTaskRuns s ch.val = true) ∧
    (∀ c ∈ s.dma, c.2.out = []) ∧
    (∀ d < 32, d ≠ ch.val → dmaState s d ≠ dRun) :=
  ⟨4, 31, 0x100, 0, 0x40, 64, 0, { who := 6, leaf := 0x20000087 }, { who := 6, leaf := 0x20000087 }, { who := 6, leaf := 0x20000087 }, { wrBytes (st [(Reg.PCTL 0x30, 1), (Reg.DMA_DESC_LO 31, 0x100)]) 0x20000100 ([0, 0, 0, 0, 0, 0, 0, 0, 0x40, 0, 0, 0, 0, 0, 0, 0, 64] ++ List.replicate 15 0) with mmu := { tlb := [{ who := 6, leaf := 0x20000087 }] } }, by decide +kernel⟩

theorem wit_DmaChannels_2 : ∃ (ini : Fin 16) (ch : Fin 32) (va : Nat) (src : Nat) (dst : Nat) (n : Nat) (e : TlbEntry) (s : State),
    (Reachable s ini (dmaPage ch.val) (dmaOff ch.val 0x0C)) ∧
    (dmaState s ch.val = dIdle) ∧
    (startErr481 ini ch.val s = none) ∧
    (Permitted s (dmaStart (granted s ini) ch.val)) ∧
    (va = (rd64 s (Reg.DMA_DESC_LO ch.val) (Reg.DMA_DESC_HI ch.val) % 2 ^ 40)) ∧
    (src = (leNat (rdBytes s (e.leaf % 2 ^ 32 / 4096 * 4096 + va % 4096) 8) % 2 ^ 40)) ∧
    (dst = (leNat (rdBytes s ((e.leaf % 2 ^ 32 / 4096 * 4096 + va % 4096) + 8) 8) % 2 ^ 40)) ∧
    (n = (leNat (rdBytes s ((e.leaf % 2 ^ 32 / 4096 * 4096 + va % 4096) + 16) 4))) ∧
    (va % 4096 + 32 ≤ 4096) ∧
    (eccIn s (e.leaf % 2 ^ 32 / 4096 * 4096 + va % 4096) 32 = []) ∧
    (tlbFind s 6 (dmaCtx s ch.val) (va / 4096) = some e) ∧
    (leafBit e.leaf 1 = true) ∧
    (s.dmaIssue.cycle = s.now / 8 + 1) :=
  ⟨4, 31, 0x100, 0, 0x40, 64, { who := 6, leaf := 0x20000087 }, { wrBytes (st [(Reg.PCTL 0x30, 1), (Reg.DMA_DESC_LO 31, 0x100)]) 0x20000100 ([0, 0, 0, 0, 0, 0, 0, 0, 0x40, 0, 0, 0, 0, 0, 0, 0, 64] ++ List.replicate 15 0) with mmu := { tlb := [{ who := 6, leaf := 0x20000087 }] }, dmaIssue := { cycle := 1 } }, by decide +kernel⟩

theorem wit_DmaChannels_3 : ∃ (ini : Fin 16) (ch : Fin 32) (va : Nat) (src : Nat) (dst : Nat) (n : Nat) (k : Nat) (e : TlbEntry) (f : TlbEntry) (g : TlbEntry) (s : State),
    (Reachable s ini (dmaPage ch.val) (dmaOff ch.val 0x0C)) ∧
    (dmaState s ch.val = dFault) ∧
    (va < 2 ^ 40) ∧
    (Permitted s (dmaResume (granted s ini) ch.val)) ∧
    (va = rd64 s (Reg.DMA_CUR_LO ch.val) (Reg.DMA_CUR_HI ch.val)) ∧
    (src = (leNat (rdBytes s (e.leaf % 2 ^ 32 / 4096 * 4096 + va % 4096) 8) % 2 ^ 40)) ∧
    (dst = (leNat (rdBytes s ((e.leaf % 2 ^ 32 / 4096 * 4096 + va % 4096) + 8) 8) % 2 ^ 40)) ∧
    (n = (leNat (rdBytes s ((e.leaf % 2 ^ 32 / 4096 * 4096 + va % 4096) + 16) 4))) ∧
    (va % 4096 + 32 ≤ 4096) ∧
    (eccIn s (e.leaf % 2 ^ 32 / 4096 * 4096 + va % 4096) 32 = []) ∧
    (tlbFind s 6 (dmaCtx s ch.val) (va / 4096) = some e) ∧
    (leafBit e.leaf 1 = true) ∧
    (k = rdn s (Reg.DMA_DONE ch.val) / 32) ∧
    (32 * k < n) ∧
    (tlbFind s 6 (dmaCtx s ch.val) ((src + 32 * k) / 4096) = some f) ∧
    (leafBit f.leaf 1 = true) ∧
    (tlbFind s 6 (dmaCtx s ch.val) ((dst + 32 * k) / 4096) = some g) ∧
    (leafBit g.leaf 2 = true ∧ leafBit g.leaf 5 = false ∧ leafBit g.leaf 7 = true) ∧
    (s.dmaIssue.cycle ≠ s.now / 8 + 1) ∧
    (dmaTaskRuns s ch.val = true) ∧
    (∀ c ∈ s.dma, c.2.out = []) ∧
    (∀ d < 32, d ≠ ch.val → dmaState s d ≠ dRun) :=
  ⟨4, 31, 0x100, 0, 0x40, 64, 0, { who := 6, leaf := 0x20000087 }, { who := 6, leaf := 0x20000087 }, { who := 6, leaf := 0x20000087 }, { wrBytes (st [(Reg.PCTL 0x30, 1), (Reg.DMA_CUR_LO 31, 0x100), (Reg.DMA_STAT 31, 3)]) 0x20000100 ([0, 0, 0, 0, 0, 0, 0, 0, 0x40, 0, 0, 0, 0, 0, 0, 0, 64] ++ List.replicate 15 0) with mmu := { tlb := [{ who := 6, leaf := 0x20000087 }] } }, by decide +kernel⟩

theorem wit_DmaChannels_4 : ∃ (ini : Fin 16) (ch : Fin 32) (va : Nat) (src : Nat) (dst : Nat) (n : Nat) (e : TlbEntry) (s : State),
    (Reachable s ini (dmaPage ch.val) (dmaOff ch.val 0x0C)) ∧
    (dmaState s ch.val = dFault) ∧
    (va < 2 ^ 40) ∧
    (Permitted s (dmaResume (granted s ini) ch.val)) ∧
    (va = rd64 s (Reg.DMA_CUR_LO ch.val) (Reg.DMA_CUR_HI ch.val)) ∧
    (src = (leNat (rdBytes s (e.leaf % 2 ^ 32 / 4096 * 4096 + va % 4096) 8) % 2 ^ 40)) ∧
    (dst = (leNat (rdBytes s ((e.leaf % 2 ^ 32 / 4096 * 4096 + va % 4096) + 8) 8) % 2 ^ 40)) ∧
    (n = (leNat (rdBytes s ((e.leaf % 2 ^ 32 / 4096 * 4096 + va % 4096) + 16) 4))) ∧
    (va % 4096 + 32 ≤ 4096) ∧
    (eccIn s (e.leaf % 2 ^ 32 / 4096 * 4096 + va % 4096) 32 = []) ∧
    (tlbFind s 6 (dmaCtx s ch.val) (va / 4096) = some e) ∧
    (leafBit e.leaf 1 = true) ∧
    (s.dmaIssue.cycle = s.now / 8 + 1) :=
  ⟨4, 31, 0x100, 0, 0x40, 64, { who := 6, leaf := 0x20000087 }, { wrBytes (st [(Reg.PCTL 0x30, 1), (Reg.DMA_CUR_LO 31, 0x100), (Reg.DMA_STAT 31, 3)]) 0x20000100 ([0, 0, 0, 0, 0, 0, 0, 0, 0x40, 0, 0, 0, 0, 0, 0, 0, 64] ++ List.replicate 15 0) with mmu := { tlb := [{ who := 6, leaf := 0x20000087 }] }, dmaIssue := { cycle := 1 } }, by decide +kernel⟩

theorem wit_DmaChannels_5 : ∃ (ini : Fin 16) (ch : Fin 32) (s : State),
    (Reachable s ini (dmaPage ch.val) (dmaOff ch.val 0x0C)) ∧
    (startErr481 ini ch.val s = none) ∧
    (dmaState s ch.val ≠ dIdle) :=
  ⟨4, 31, st [(Reg.PCTL 0x30, 1), (Reg.DMA_STAT 31, 1)], by decide +kernel⟩

theorem wit_DmaChannels_6 : ∃ (ini : Fin 16) (ch : Fin 32) (s : State),
    (Reachable s ini (dmaPage ch.val) (dmaOff ch.val 0x0C)) ∧
    (dmaState s ch.val ≠ dFault) :=
  ⟨4, 31, st [(Reg.PCTL 0x30, 1), (Reg.DMA_STAT 31, 1)], by decide +kernel⟩

theorem wit_DmaChannels_7 : ∃ (ini : Fin 16) (ch : Fin 32) (va : Nat) (e : TlbEntry) (n : Nat) (s : State),
    (Reachable s ini (dmaPage ch.val) (dmaOff ch.val 0x0C)) ∧
    (dmaState s ch.val = dIdle) ∧
    (startErr481 ini ch.val s = none) ∧
    (s.hostErr = none) ∧
    (va = (rd64 s (Reg.DMA_DESC_LO ch.val) (Reg.DMA_DESC_HI ch.val) % 2 ^ 40)) ∧
    (va % 4096 + 32 ≤ 4096) ∧
    (tlbFind s 6 (dmaCtx s ch.val) (va / 4096) = some e) ∧
    (leafBit e.leaf 1 = true) ∧
    (rangeMapped (e.leaf % 2 ^ 32 / 4096 * 4096 + va % 4096) 32 = true) ∧
    ((e.leaf % 2 ^ 32 / 4096 * 4096 + va % 4096) < 0x50000000) ∧
    (eccIn s (e.leaf % 2 ^ 32 / 4096 * 4096 + va % 4096) 32 = []) ∧
    (dmaDescErr va (rdBytes s (e.leaf % 2 ^ 32 / 4096 * 4096 + va % 4096) 32) = some n) :=
  ⟨4, 31, 0x100, { who := 6, leaf := 0x20000087 }, 479, { wrBytes (st [(Reg.PCTL 0x30, 1), (Reg.DMA_DESC_LO 31, 0x100)]) 0x20000100 [1] with mmu := { tlb := [{ who := 6, leaf := 0x20000087 }] } }, by decide +kernel⟩

theorem wit_DmaChannels_8 : ∃ (ini : Fin 16) (ch : Fin 32) (s : State),
    (Reachable s ini (dmaPage ch.val) (dmaOff ch.val 0x0C)) ∧
    (startErr481 ini ch.val s = some 481) :=
  ⟨4, 31, st [(Reg.DMA_CFG 31, BitVec.ofNat 32 (2 ^ F.DMA_CFG_BOUND.lo))], by decide +kernel⟩

theorem wit_DmaChannels_9 : ∃ (ini : Fin 16) (ch : Fin 32) (s : State),
    (Reachable s ini (dmaPage ch.val) (dmaOff ch.val 0x0C)) ∧
    (dmaState s ch.val = dFault ∨ dmaState s ch.val = dDead) :=
  ⟨4, 31, st [(Reg.PCTL 0x30, 1), (Reg.DMA_STAT 31, 4)], by decide +kernel⟩

theorem wit_DmaChannels_10 : ∃ (ini : Fin 16) (ch : Fin 32) (s : State),
    (Reachable s ini (dmaPage ch.val) (dmaOff ch.val 0x0C)) ∧
    (dmaState s ch.val = dIdle ∨ dmaState s ch.val = dPaused) :=
  ⟨4, 31, State.reset, by decide +kernel⟩

theorem wit_DmaChannels_11 : ∃ (ini : Fin 16) (ch : Fin 32) (s : State),
    (Reachable s ini (dmaPage ch.val) (dmaOff ch.val 0x0C)) ∧
    (dmaState s ch.val = dRun) ∧
    ((chan s ch.val).stop ≠ some .dead) ∧
    ((chan s ch.val).out = []) :=
  ⟨4, 31, st [(Reg.PCTL 0x30, 1), (Reg.DMA_STAT 31, 1)], by decide +kernel⟩

theorem wit_DmaChannels_12 : ∃ (ini : Fin 16) (ch : Fin 32) (s : State),
    (Reachable s ini (dmaPage ch.val) (dmaOff ch.val 0x0C)) ∧
    (dmaState s ch.val = dRun) ∧
    ((chan s ch.val).stop ≠ some .dead) ∧
    ((chan s ch.val).out ≠ []) :=
  ⟨4, 31, { st [(Reg.PCTL 0x30, 1), (Reg.DMA_STAT 31, 1)] with dma := [(31, { out := [{}] })] }, by decide +kernel⟩

theorem wit_DmaChannels_13 : ∃ (ch : Fin 32) (b : DmaBurst) (s : State),
    ((chan s ch.val).out = [b]) ∧
    (b.data = none) ∧
    (eccIn s b.src 32 = []) ∧
    (Permitted s (dmaRead s ch.val 0 b)) ∧
    (0x20000000 ≤ b.dst ∧ b.dst + 32 ≤ 0x21800000) ∧
    (b.dst % 32 = 0) ∧
    (s.ecc = []) ∧
    (s.memSys.merge = []) ∧
    (∀ r < 3, flag s (Reg.MEM_FLIP_CFG r) F.MEM_FLIP_CFG_ARM = false) ∧
    ((chan s ch.val).stop = none) ∧
    (rdn s (Reg.DMA_DONE ch.val) + 32 < 2 ^ 32) ∧
    (s.dmaIssue.cycle = s.now / 8 + 1 ∨ ((chan s ch.val).len ≤ rdn s (Reg.DMA_DONE ch.val) / 32 * 32 + 32 ∧ ∀ d < 32, d ≠ ch.val → dmaState s d ≠ dRun)) :=
  ⟨31, { src := 0x20000000, dst := 0x20000040 }, { wrBytes (st [(Reg.DMA_STAT 31, 1)]) 0x20000000 (List.replicate 32 7) with dma := [(31, { len := 32, out := [{ src := 0x20000000, dst := 0x20000040 }] })] }, by decide +kernel⟩

theorem wit_DmaChannels_14 : ∃ (ch : Fin 32) (k : Nat) (b : DmaBurst) (c : DmaBurst) (q : List DmaBurst) (s : State),
    ((chan s ch.val).out = c :: q) ∧
    (c.data = none) ∧
    (q[k]? = some b) ∧
    (b.data = none) ∧
    (eccIn s b.src 32 = []) ∧
    (Permitted s (dmaRead s ch.val (k + 1) b)) ∧
    ((chan s ch.val).stop = none) ∧
    (s.dmaIssue.cycle = s.now / 8 + 1) :=
  ⟨31, 0, { src := 0x20000020, dst := 0x20000060 }, { src := 0x20000000, dst := 0x20000040 }, [{ src := 0x20000020, dst := 0x20000060 }], { wrBytes (st [(Reg.DMA_STAT 31, 1)]) 0x20000020 (List.replicate 32 7) with dma := [(31, { len := 64, out := [{ src := 0x20000000, dst := 0x20000040 }, { src := 0x20000020, dst := 0x20000060 }] })], dmaIssue := { cycle := 1 } }, by decide +kernel⟩

theorem wit_DmaChannels_15 : ∃ (ch : Fin 32) (b : DmaBurst) (w : Nat) (q : List DmaBurst) (s : State),
    ((chan s ch.val).out = b :: q) ∧
    (b.data = none) ∧
    ((readScan s 7 b.src 32).1 = some w) ∧
    (criticalBank s w = false) ∧
    (Permitted s (dmaRead s ch.val 0 b)) ∧
    (s.dmaIssue.cycle = s.now / 8 + 1) :=
  ⟨31, { src := 0x20000000, dst := 0x20000040 }, 0x20000000, [], { st [(Reg.DMA_STAT 31, 1)] with ecc := [(0x20000000, { poisoned := true })], dma := [(31, { len := 32, out := [{ src := 0x20000000, dst := 0x20000040 }] })], dmaIssue := { cycle := 1 } }, by decide +kernel⟩

theorem wit_DmaChannels_16 : ∃ (ch : Fin 32) (b : DmaBurst) (q : List DmaBurst) (s : State),
    ((chan s ch.val).out = b :: q) ∧
    (b.data = none) ∧
    (s.hostErr = none) ∧
    (rangeMapped b.src 32 = true) ∧
    (b.src < 0x50000000) ∧
    (eccIn s b.src 32 = []) ∧
    (0x40080000 ≤ b.dst ∧ b.dst ≤ 0x4017FFFF) ∧
    (b.dst % 32 = 0) ∧
    (inPrevious s b.dst 32 = false) :=
  ⟨31, { src := 0x20000000, dst := 0x40080000 }, [], { State.reset with dma := [(31, { len := 32, out := [{ src := 0x20000000, dst := 0x40080000 }] })] }, by decide +kernel⟩

theorem wit_DmaChannels_17 : ∃ (ch : Fin 32) (burst : Nat) (s : State),
    (burst < rdn s (Reg.DMA_DONE ch.val) / 32 ∨ (chan s ch.val).out[burst - rdn s (Reg.DMA_DONE ch.val) / 32]? = none) :=
  ⟨31, 0, State.reset, by decide +kernel⟩

theorem wit_DmaChannels_18 : ∃ (ch : Fin 32) (s : State),
    (dmaDescDone s ch.val = true) ∧
    ((chan s ch.val).flags.testBit 1 = false) :=
  ⟨31, { st [(Reg.DMA_STAT 31, 1), (Reg.DMA_DONE 31, 32)] with dma := [(31, { len := 32, flags := 1 })] }, by decide +kernel⟩

theorem wit_DmaChannels_19 : ∃ (ch : Fin 32) (va : Nat) (src : Nat) (dst : Nat) (n : Nat) (e : TlbEntry) (s : State),
    (dmaDescDone s ch.val = true) ∧
    ((chan s ch.val).flags.testBit 1 = true) ∧
    (va < 2 ^ 40) ∧
    (va = (chan s ch.val).next) ∧
    (src = (leNat (rdBytes s (e.leaf % 2 ^ 32 / 4096 * 4096 + va % 4096) 8) % 2 ^ 40)) ∧
    (dst = (leNat (rdBytes s ((e.leaf % 2 ^ 32 / 4096 * 4096 + va % 4096) + 8) 8) % 2 ^ 40)) ∧
    (n = (leNat (rdBytes s ((e.leaf % 2 ^ 32 / 4096 * 4096 + va % 4096) + 16) 4))) ∧
    (va % 4096 + 32 ≤ 4096) ∧
    (eccIn s (e.leaf % 2 ^ 32 / 4096 * 4096 + va % 4096) 32 = []) ∧
    (tlbFind s 6 (dmaCtx s ch.val) (va / 4096) = some e) ∧
    (leafBit e.leaf 1 = true) ∧
    (s.dmaIssue.cycle = s.now / 8 + 1) ∧
    (Permitted s (dmaDescEnd s ch.val)) :=
  ⟨31, 0x100, 0, 0x40, 64, { who := 6, leaf := 0x20000087 }, { wrBytes (st [(Reg.PCTL 0x30, 1), (Reg.DMA_STAT 31, 1), (Reg.DMA_DONE 31, 32)]) 0x20000100 ([0, 0, 0, 0, 0, 0, 0, 0, 0x40, 0, 0, 0, 0, 0, 0, 0, 64] ++ List.replicate 15 0) with mmu := { tlb := [{ who := 6, leaf := 0x20000087 }] }, dma := [(31, { len := 32, flags := 2, next := 0x100 })], dmaIssue := { cycle := 1 } }, by decide +kernel⟩

theorem wit_CoreFencesAndFunctionBlocks_1 : ∃ (core : Fin 7) (l1 : List L1Event) (u : State) (s : State),
    (l1Events s core.val l1 = u) ∧
    (u.ecc = []) ∧
    (∀ r < 3, flag u (Reg.MEM_FLIP_CFG r) F.MEM_FLIP_CFG_ARM = false) :=
  ⟨6, [], { State.reset with memSys := { merge := [{ word := 0x20000000, writers := 64 }] } }, { State.reset with memSys := { merge := [{ word := 0x20000000, writers := 64 }] } }, rfl, by decide +kernel, by decide +kernel⟩

theorem wit_CoreFencesAndFunctionBlocks_3 : ∃ (core : Fin 7) (inst : Bool) (a : Nat) (n : Nat) (s : State),
    (core.val < 6) ∧
    (n % 16 = 0 ∧ 0 < n) ∧
    (rangeMapped (a / n * n) n = true) ∧
    (∀ l ∈ s.l1, l.core = core.val → l.inst = inst → a / n * n + n ≤ l.addr ∨ l.addr + l.size ≤ a / n * n) ∧
    (s.memSys.merge = []) :=
  ⟨5, true, 0x20000047, 64, State.reset, by decide +kernel⟩

theorem wit_CoreFencesAndFunctionBlocks_5 : ∃ (core : Fin 4) (inst : BitVec 40) (itype : BitVec 40) (target : BitVec 40) (ret : BitVec 40) (n : Nat) (e : TlbEntry) (l1 : List L1Event) (u : State) (s : State),
    (l1Events s core.val l1 = u) ∧
    (coreRuns u core.val = true) ∧
    (inTask u core.val = some n) ∧
    (n < 16) ∧
    (taskCore u n < 4) ∧
    (inst.toNat % 32 = 0) ∧
    ((task u n).fbsp < 64) ∧
    (tlbFind u core.val (fld u (Reg.CORE_STAT core.val) F.CORE_STAT_CTX) (inst.toNat / 4096) = some e) ∧
    (leafBit e.leaf 1 = true) ∧
    (leafBit e.leaf 4 = true) ∧
    (reservedTcm (e.leaf % 2 ^ 32 / 4096 * 4096 + inst.toNat % 4096) = false) ∧
    (l1Find u core.val false (e.leaf % 2 ^ 32 / 4096 * 4096 + inst.toNat % 4096) = none) ∧
    (eccIn u (e.leaf % 2 ^ 32 / 4096 * 4096 + inst.toNat % 4096) 4 = []) ∧
    (rdLE u (e.leaf % 2 ^ 32 / 4096 * 4096 + inst.toNat % 4096) 4 = itype.toNat) ∧
    (Permitted s (fbCall u core.val n inst.toNat itype.toNat target.toNat ret.toNat)) :=
  ⟨3, 0x40, 7, 0x1000, 0x2004, 5, { who := 3, leaf := 0x20000017 }, [], { wrBytes (st [(Reg.SYS_CORE_REL, 127), (Reg.CORE_STAT 3, 0x10000001)]) 0x20000040 [7, 0, 0, 0] with start := { step := .running }, cyc := { running := [(3, some 5)] }, mmu := { tlb := [{ who := 3, leaf := 0x20000017 }] } }, { wrBytes (st [(Reg.SYS_CORE_REL, 127), (Reg.CORE_STAT 3, 0x10000001)]) 0x20000040 [7, 0, 0, 0] with start := { step := .running }, cyc := { running := [(3, some 5)] }, mmu := { tlb := [{ who := 3, leaf := 0x20000017 }] } }, rfl, by decide +kernel, by decide +kernel, by decide +kernel, by decide +kernel, by decide +kernel, by decide +kernel, by decide +kernel, by decide +kernel, by decide +kernel, by decide +kernel, by decide +kernel, by decide +kernel, by decide +kernel, by decide +kernel⟩

theorem wit_CoreFencesAndFunctionBlocks_6 : ∃ (core : Fin 4) (inst : BitVec 40) (itype : BitVec 40) (target : BitVec 40) (ret : BitVec 40) (n : Nat) (e : TlbEntry) (l : L1Line) (l1 : List L1Event) (u : State) (s : State),
    (l1Events s core.val l1 = u) ∧
    (coreRuns u core.val = true) ∧
    (inTask u core.val = some n) ∧
    (n < 16) ∧
    (taskCore u n < 4) ∧
    (inst.toNat % 32 = 0) ∧
    ((task u n).fbsp < 64) ∧
    (tlbFind u core.val (fld u (Reg.CORE_STAT core.val) F.CORE_STAT_CTX) (inst.toNat / 4096) = some e) ∧
    (leafBit e.leaf 1 = true) ∧
    (leafBit e.leaf 4 = true) ∧
    (reservedTcm (e.leaf % 2 ^ 32 / 4096 * 4096 + inst.toNat % 4096) = false) ∧
    (l1Find u core.val false (e.leaf % 2 ^ 32 / 4096 * 4096 + inst.toNat % 4096) = some l) ∧
    (l.dirty = false) ∧
    (eccCheck 1 (l1Ecc l (e.leaf % 2 ^ 32 / 4096 * 4096 + inst.toNat % 4096)) = .uncorrectable) ∧
    (eccIn u (e.leaf % 2 ^ 32 / 4096 * 4096 + inst.toNat % 4096) 4 = []) ∧
    (rdLE u (e.leaf % 2 ^ 32 / 4096 * 4096 + inst.toNat % 4096) 4 = itype.toNat) ∧
    (Permitted s (fbCall u core.val n inst.toNat itype.toNat target.toNat ret.toNat)) :=
  ⟨3, 0x40, 7, 0x1000, 0x2004, 5, { who := 3, leaf := 0x20000017 }, { core := 3, addr := 0x20000040, size := 32, words := [(0x20000040, { data := 3 })] }, [], { wrBytes (st [(Reg.SYS_CORE_REL, 127), (Reg.CORE_STAT 3, 0x10000001)]) 0x20000040 [7, 0, 0, 0] with start := { step := .running }, cyc := { running := [(3, some 5)] }, mmu := { tlb := [{ who := 3, leaf := 0x20000017 }] }, l1 := [{ core := 3, addr := 0x20000040, size := 32, words := [(0x20000040, { data := 3 })] }] }, { wrBytes (st [(Reg.SYS_CORE_REL, 127), (Reg.CORE_STAT 3, 0x10000001)]) 0x20000040 [7, 0, 0, 0] with start := { step := .running }, cyc := { running := [(3, some 5)] }, mmu := { tlb := [{ who := 3, leaf := 0x20000017 }] }, l1 := [{ core := 3, addr := 0x20000040, size := 32, words := [(0x20000040, { data := 3 })] }] }, rfl, by decide +kernel, by decide +kernel, by decide +kernel, by decide +kernel, by decide +kernel, by decide +kernel, by decide +kernel, by decide +kernel, by decide +kernel, by decide +kernel, by decide +kernel, by decide +kernel, by decide +kernel, by decide +kernel, by decide +kernel, by decide +kernel⟩

theorem wit_CoreFencesAndFunctionBlocks_7 : ∃ (core : Fin 4) (inst : BitVec 40) (itype : BitVec 40) (target : BitVec 40) (ret : BitVec 40) (n : Nat) (w : Nat) (r : (Nat ⊕ Nat) × State) (l1 : List L1Event) (u : State) (s : State),
    (l1Events s core.val l1 = u) ∧
    (coreRuns u core.val = true) ∧
    (inTask u core.val = some n) ∧
    (n < 16) ∧
    (inst.toNat % 32 = 0) ∧
    ((task u n).fbsp < 64) ∧
    (coreLoad u core.val inst.toNat = r) ∧
    (r.1 = .inr w) ∧
    (w ≠ itype.toNat) ∧
    (Permitted s (fbCall u core.val n inst.toNat itype.toNat target.toNat ret.toNat)) :=
  ⟨3, 0x40, 8, 0x1000, 0x2004, 5, 7, coreLoad ({ wrBytes (st [(Reg.SYS_CORE_REL, 127), (Reg.CORE_STAT 3, 0x10000001)]) 0x20000040 [7, 0, 0, 0] with start := { step := .running }, cyc := { running := [(3, some 5)] }, mmu := { tlb := [{ who := 3, leaf := 0x20000017 }] } }) 3 0x40, [], { wrBytes (st [(Reg.SYS_CORE_REL, 127), (Reg.CORE_STAT 3, 0x10000001)]) 0x20000040 [7, 0, 0, 0] with start := { step := .running }, cyc := { running := [(3, some 5)] }, mmu := { tlb := [{ who := 3, leaf := 0x20000017 }] } }, { wrBytes (st [(Reg.SYS_CORE_REL, 127), (Reg.CORE_STAT 3, 0x10000001)]) 0x20000040 [7, 0, 0, 0] with start := { step := .running }, cyc := { running := [(3, some 5)] }, mmu := { tlb := [{ who := 3, leaf := 0x20000017 }] } }, rfl, by decide +kernel, by decide +kernel, by decide +kernel, by decide +kernel, by decide +kernel, rfl, by decide +kernel, by decide +kernel, (fbCall_type_hostErr _ _ _ _ _ _ _ 7 (by decide +kernel) (by decide +kernel) (by decide +kernel) (by decide +kernel) (by decide +kernel)).trans (by decide +kernel)⟩

theorem wit_CoreFencesAndFunctionBlocks_8 : ∃ (core : Fin 4) (inst : BitVec 40) (itype : BitVec 40) (target : BitVec 40) (ret : BitVec 40) (n : Nat) (code : Nat) (r : (Nat ⊕ Nat) × State) (l1 : List L1Event) (u : State) (s : State),
    (l1Events s core.val l1 = u) ∧
    (coreRuns u core.val = true) ∧
    (inTask u core.val = some n) ∧
    (n < 16) ∧
    (inst.toNat % 32 = 0) ∧
    ((task u n).fbsp < 64) ∧
    (coreLoad u core.val inst.toNat = r) ∧
    (r.1 = .inl code) ∧
    (Permitted s (fbCall u core.val n inst.toNat itype.toNat target.toNat ret.toNat)) :=
  ⟨3, 0x40, 7, 0x1000, 0x2004, 5, 6, coreLoad ({ wrBytes (st [(Reg.SYS_CORE_REL, 127), (Reg.CORE_STAT 3, 0x10000001)]) 0x20000040 [7, 0, 0, 0] with start := { step := .running }, cyc := { running := [(3, some 5)] }, mmu := { tlb := [{ who := 3, leaf := 0x20000017 }] }, l1 := [{ core := 3, addr := 0x20000040, size := 32, dirty := true, words := [(0x20000040, { data := 3 })] }] }) 3 0x40, [], { wrBytes (st [(Reg.SYS_CORE_REL, 127), (Reg.CORE_STAT 3, 0x10000001)]) 0x20000040 [7, 0, 0, 0] with start := { step := .running }, cyc := { running := [(3, some 5)] }, mmu := { tlb := [{ who := 3, leaf := 0x20000017 }] }, l1 := [{ core := 3, addr := 0x20000040, size := 32, dirty := true, words := [(0x20000040, { data := 3 })] }] }, { wrBytes (st [(Reg.SYS_CORE_REL, 127), (Reg.CORE_STAT 3, 0x10000001)]) 0x20000040 [7, 0, 0, 0] with start := { step := .running }, cyc := { running := [(3, some 5)] }, mmu := { tlb := [{ who := 3, leaf := 0x20000017 }] }, l1 := [{ core := 3, addr := 0x20000040, size := 32, dirty := true, words := [(0x20000040, { data := 3 })] }] }, rfl, by decide +kernel, by decide +kernel, by decide +kernel, by decide +kernel, by decide +kernel, rfl, by decide +kernel, (fbCall_load_hostErr _ _ _ _ _ _ _ 6 (by decide +kernel) (by decide +kernel) (by decide +kernel) (by decide +kernel)).trans (by decide +kernel)⟩

theorem wit_CoreFencesAndFunctionBlocks_9 : ∃ (core : Fin 4) (inst : BitVec 40) (n : Nat) (e : TlbEntry) (l : L1Line) (s : State),
    (tlbFind s core.val (fld s (Reg.CORE_STAT core.val) F.CORE_STAT_CTX) (inst.toNat / 4096) = some e) ∧
    (leafBit e.leaf 1 = true) ∧
    (leafBit e.leaf 4 = true) ∧
    (reservedTcm (e.leaf % 2 ^ 32 / 4096 * 4096 + inst.toNat % 4096) = false) ∧
    (l1Find s core.val false (e.leaf % 2 ^ 32 / 4096 * 4096 + inst.toNat % 4096) = some l) ∧
    (l.dirty = true) ∧
    (l1Bad l = true) :=
  ⟨3, 0x40, 0, { who := 3, leaf := 0x20000017 }, { core := 3, addr := 0x20000040, size := 32, dirty := true, words := [(0x20000040, { data := 3 })] }, { wrBytes (st [(Reg.SYS_CORE_REL, 127), (Reg.CORE_STAT 3, 0x10000001)]) 0x20000040 [7, 0, 0, 0] with start := { step := .running }, cyc := { running := [(3, some 5)] }, mmu := { tlb := [{ who := 3, leaf := 0x20000017 }] }, l1 := [{ core := 3, addr := 0x20000040, size := 32, dirty := true, words := [(0x20000040, { data := 3 })] }] }, by decide +kernel⟩

theorem wit_CoreFencesAndFunctionBlocks_10 : ∃ (core : Fin 4) (inst : BitVec 40) (itype : BitVec 40) (target : BitVec 40) (ret : BitVec 40) (n : Nat) (l1 : List L1Event) (u : State) (s : State),
    (l1Events s core.val l1 = u) ∧
    (coreRuns u core.val = true) ∧
    (inTask u core.val = some n) ∧
    (n < 16) ∧
    (inst.toNat % 32 = 0) ∧
    (64 ≤ (task u n).fbsp) ∧
    (Permitted s (fbCall u core.val n inst.toNat itype.toNat target.toNat ret.toNat)) :=
  ⟨3, 0x40, 7, 0x1000, 0x2004, 5, [], { st [(Reg.SYS_CORE_REL, 127), (Reg.CORE_STAT 3, 0x10000001)] with start := { step := .running }, cyc := { running := [(3, some 5)], tasks := [(5, { fbsp := 64 })] } }, { st [(Reg.SYS_CORE_REL, 127), (Reg.CORE_STAT 3, 0x10000001)] with start := { step := .running }, cyc := { running := [(3, some 5)], tasks := [(5, { fbsp := 64 })] } }, rfl, by decide +kernel, by decide +kernel, by decide +kernel, by decide +kernel, by decide +kernel, (fbCall_overflow_hostErr _ _ _ _ _ _ _ (by decide +kernel) (by decide +kernel) (by decide +kernel)).trans (by decide +kernel)⟩

theorem wit_CoreFencesAndFunctionBlocks_11 : ∃ (core : Fin 4) (inst : BitVec 40) (itype : BitVec 40) (target : BitVec 40) (ret : BitVec 40) (n : Nat) (l1 : List L1Event) (u : State) (s : State),
    (l1Events s core.val l1 = u) ∧
    (coreRuns u core.val = true) ∧
    (inTask u core.val = some n) ∧
    (inst.toNat % 32 ≠ 0) :=
  ⟨3, 0x41, 7, 0x1000, 0x2004, 5, [], { st [(Reg.SYS_CORE_REL, 127), (Reg.CORE_STAT 3, 0x10000001)] with start := { step := .running }, cyc := { running := [(3, some 5)] } }, { st [(Reg.SYS_CORE_REL, 127), (Reg.CORE_STAT 3, 0x10000001)] with start := { step := .running }, cyc := { running := [(3, some 5)] } }, rfl, by decide +kernel, by decide +kernel, by decide +kernel⟩

theorem wit_CoreFencesAndFunctionBlocks_12 : ∃ (core : Fin 4) (inst : BitVec 40) (itype : BitVec 40) (target : BitVec 40) (ret : BitVec 40) (l1 : List L1Event) (u : State) (s : State),
    (l1Events s core.val l1 = u) ∧
    (inTask u core.val = none ∨ coreRuns u core.val = false) :=
  ⟨3, 0x40, 7, 0x1000, 0x2004, [], State.reset, State.reset, rfl, by decide +kernel⟩

theorem wit_CoreFencesAndFunctionBlocks_13 : ∃ (core : Fin 4) (n : Nat) (s : State),
    (coreRuns s core.val = true) ∧
    (inTask s core.val = some n) ∧
    (0 < (task s n).fbsp) ∧
    (eccIn s (fbFrame s n ((task s n).fbsp - 1)) 16 = []) ∧
    (Permitted s (fbReturn s core.val n)) :=
  ⟨3, 5, { st [(Reg.SYS_CORE_REL, 127), (Reg.CORE_STAT 3, 0x10000001)] with start := { step := .running }, cyc := { running := [(3, some 5)], tasks := [(5, { fbsp := 64 })] } }, by decide +kernel⟩

theorem wit_CoreFencesAndFunctionBlocks_14 : ∃ (core : Fin 4) (n : Nat) (s : State),
    (coreRuns s core.val = true) ∧
    (inTask s core.val = some n) ∧
    (n < 16) ∧
    (0 < (task s n).fbsp) ∧
    ((readScan s core.val (fbFrame s n ((task s n).fbsp - 1)) 16).1.isSome = true) ∧
    (Permitted s (fbReturn s core.val n)) :=
  ⟨3, 5, { st [(Reg.SYS_CORE_REL, 127), (Reg.CORE_STAT 3, 0x10000001)] with start := { step := .running }, cyc := { running := [(3, some 5)], tasks := [(5, { fbsp := 1 })] }, ecc := [(0x5001AC00, { poisoned := true })] }, by decide +kernel, by decide +kernel, by decide +kernel, by decide +kernel, by decide +kernel, (fbReturn_ue_hostErr _ _ _ (by decide +kernel) (by decide +kernel) (by decide +kernel)).trans (by decide +kernel)⟩

theorem wit_CoreFencesAndFunctionBlocks_15 : ∃ (core : Fin 4) (n : Nat) (s : State),
    (coreRuns s core.val = true) ∧
    (inTask s core.val = some n) ∧
    (n < 16) ∧
    ((task s n).fbsp = 0) ∧
    (Permitted s (fbReturn s core.val n)) :=
  ⟨3, 5, { st [(Reg.SYS_CORE_REL, 127), (Reg.CORE_STAT 3, 0x10000001)] with start := { step := .running }, cyc := { running := [(3, some 5)] } }, by decide +kernel, by decide +kernel, by decide +kernel, by decide +kernel, fbReturn_empty_hostErr _ _ _ (by decide +kernel) (by decide +kernel) (by decide +kernel)⟩

theorem wit_CoreFencesAndFunctionBlocks_16 : ∃ (core : Fin 4) (s : State),
    (inTask s core.val = none ∨ coreRuns s core.val = false) :=
  ⟨3, State.reset, by decide +kernel⟩

theorem wit_CoreTrapsAndInterrupts_1 : ∃ (core : Fin 7) (code : BitVec 8) (pc : BitVec 40) (va : BitVec 40) (l1 : List L1Event) (u : State) (s : State),
    (l1Events s core.val l1 = u) ∧
    (coreRuns s core.val = true) ∧
    (inTask u core.val = none) ∧
    (flag u (Reg.CORE_TRAP core.val) F.CORE_TRAP_VALID = false) ∧
    (0 < code.toNat ∧ code.toNat ≤ 10 ∧ code.toNat ≠ 3 ∧ code.toNat ≠ 6) :=
  ⟨6, 10, 0x100, 0x8000000000, [], { st [(Reg.SYS_CORE_REL, 127)] with start := { step := .running } }, { st [(Reg.SYS_CORE_REL, 127)] with start := { step := .running } }, rfl, by decide +kernel, by decide +kernel, by decide +kernel, by decide +kernel⟩

theorem wit_CoreTrapsAndInterrupts_2 : ∃ (core : Fin 7) (code : BitVec 8) (pc : BitVec 40) (va : BitVec 40) (l1 : List L1Event) (u : State) (s : State),
    (l1Events s core.val l1 = u) ∧
    (coreRuns s core.val = true) ∧
    (inTask u core.val = none) ∧
    (flag u (Reg.CORE_TRAP core.val) F.CORE_TRAP_VALID = false) ∧
    (code = 3 ∨ code = 6) ∧
    (Permitted s (takeTrap u core.val code.toNat pc.toNat va.toNat)) :=
  ⟨6, 6, 0x100, 0x20000000, [], { st [(Reg.SYS_CORE_REL, 127)] with start := { step := .running }, ecc := [(0x20000000, { poisoned := true })] }, { st [(Reg.SYS_CORE_REL, 127)] with start := { step := .running }, ecc := [(0x20000000, { poisoned := true })] }, rfl, by decide +kernel, by decide +kernel, by decide +kernel, by decide +kernel, by decide +kernel⟩

theorem wit_CoreTrapsAndInterrupts_3 : ∃ (core : Fin 7) (code : BitVec 8) (pc : BitVec 40) (va : BitVec 40) (l1 : List L1Event) (u : State) (s : State),
    (l1Events s core.val l1 = u) ∧
    (coreRuns s core.val = true) ∧
    (inTask u core.val = none) ∧
    (flag u (Reg.CORE_TRAP core.val) F.CORE_TRAP_VALID = true) ∧
    (0 < code.toNat ∧ code.toNat ≤ 10) ∧
    (Permitted s (takeTrap u core.val code.toNat pc.toNat va.toNat)) :=
  ⟨6, 1, 0x100, 0, [], { st [(Reg.SYS_CORE_REL, 127), (Reg.CORE_TRAP 6, 0x80000000)] with start := { step := .running } }, { st [(Reg.SYS_CORE_REL, 127), (Reg.CORE_TRAP 6, 0x80000000)] with start := { step := .running } }, rfl, by decide +kernel, by decide +kernel, by decide +kernel, by decide +kernel, by decide +kernel⟩

theorem wit_CoreTrapsAndInterrupts_4 : ∃ (core : Fin 7) (code : BitVec 8) (pc : BitVec 40) (va : BitVec 40) (l1 : List L1Event) (u : State) (n : Nat) (s : State),
    (l1Events s core.val l1 = u) ∧
    (coreRuns s core.val = true) ∧
    (inTask u core.val = some n) ∧
    (n < 16) ∧
    (0 < code.toNat ∧ code.toNat ≤ 10) ∧
    (Permitted s (takeTrap u core.val code.toNat pc.toNat va.toNat)) :=
  ⟨3, 5, 0x100, 7, [], { st [(Reg.SYS_CORE_REL, 127), (Reg.CORE_STAT 3, 0x10000001)] with start := { step := .running }, cyc := { running := [(3, some 5)] } }, 5, { st [(Reg.SYS_CORE_REL, 127), (Reg.CORE_STAT 3, 0x10000001)] with start := { step := .running }, cyc := { running := [(3, some 5)] } }, rfl, by decide +kernel, by decide +kernel, by decide +kernel, by decide +kernel, by decide +kernel⟩

theorem wit_CoreTrapsAndInterrupts_5 : ∃ (core : Fin 7) (code : BitVec 8) (pc : BitVec 40) (va : BitVec 40) (l1 : List L1Event) (s : State),
    (0 < code.toNat ∧ code.toNat ≤ 10) ∧
    (coreRuns s core.val = false) :=
  ⟨6, 1, 0, 0, [], State.reset, by decide +kernel⟩

theorem wit_CoreTrapsAndInterrupts_6 : ∃ (core : Fin 7) (pc : BitVec 40) (s : State),
    (coreRuns s core.val = true) ∧
    (inTask s core.val = none) ∧
    (flag s (Reg.CORE_TRAP core.val) F.CORE_TRAP_VALID = false) :=
  ⟨6, 0x100, { st [(Reg.SYS_CORE_REL, 127)] with start := { step := .running } }, by decide +kernel⟩

theorem wit_CoreTrapsAndInterrupts_7 : ∃ (core : Fin 7) (pc : BitVec 40) (s : State),
    (coreRuns s core.val = true) ∧
    (inTask s core.val = none) ∧
    (flag s (Reg.CORE_TRAP core.val) F.CORE_TRAP_VALID = true) :=
  ⟨6, 0x100, { st [(Reg.SYS_CORE_REL, 127), (Reg.CORE_TRAP 6, 0x80000000)] with start := { step := .running } }, by decide +kernel⟩

theorem wit_CoreTrapsAndInterrupts_8 : ∃ (core : Fin 7) (pc : BitVec 40) (n : Nat) (s : State),
    (coreRuns s core.val = true) ∧
    (inTask s core.val = some n) ∧
    (modeSet s ≠ 1 ∧ modeSet s ≠ 3) :=
  ⟨3, 0x100, 5, { st [(Reg.CYC_MODESET, 2), (Reg.SYS_CORE_REL, 127), (Reg.CORE_STAT 3, 0x10000001)] with start := { step := .running }, cyc := { running := [(3, some 5)] } }, by decide +kernel⟩

theorem wit_CoreTrapsAndInterrupts_9 : ∃ (core : Fin 7) (pc : BitVec 40) (n : Nat) (s : State),
    (coreRuns s core.val = true) ∧
    (inTask s core.val = some n) ∧
    (n < 16) ∧
    (modeSet s = 1 ∨ modeSet s = 3) ∧
    (Permitted s (breakTask (recordTrap s core.val 0x0B pc.toNat 0) n)) :=
  ⟨3, 0x100, 5, { st [(Reg.CYC_MODESET, 1), (Reg.SYS_CORE_REL, 127), (Reg.CORE_STAT 3, 0x10000001)] with start := { step := .running }, cyc := { running := [(3, some 5)] } }, by decide +kernel⟩

theorem wit_CoreTrapsAndInterrupts_10 : ∃ (core : Fin 7) (pc : BitVec 40) (s : State),
    (coreRuns s core.val = false) :=
  ⟨6, 0, State.reset, by decide +kernel⟩

theorem wit_CoreTrapsAndInterrupts_11 : ∃ (core : Fin 7) (n : Nat) (s : State),
    (coreRuns s core.val = true) ∧
    (deliver s core.val = some n) ∧
    (srcPrio s n < iprio s core.val) ∧
    ((coreOf s core.val).handler = false ∨ (coreOf s core.val).acked = true) :=
  ⟨6, 46, st [(Reg.SYS_CORE_REL, 127), (Reg.INT_RAW 0x17, 1), (Reg.INT_EN 0x17, 1), (Reg.INTD_ROUTE 46, BitVec.ofNat 32 (2 ^ F.INTD_ROUTE_EN.lo + 6 * 2 ^ F.INTD_ROUTE_TARGET.lo))] |> fun s => { s with start := { step := .running } }, by decide +kernel⟩

theorem wit_CoreTrapsAndInterrupts_12 : ∃ (core : Fin 7) (s : State),
    (deliver s core.val = none ∨ coreRuns s core.val = false ∨ ((coreOf s core.val).handler = true ∧ (coreOf s core.val).acked = false)) :=
  ⟨6, State.reset, by decide +kernel⟩

theorem wit_CoreTrapsAndInterrupts_13 : ∃ (core : Fin 7) (n : Nat) (s : State),
    (deliver s core.val = some n) ∧
    (iprio s core.val ≤ srcPrio s n) :=
  ⟨6, 46, st [(Reg.INT_RAW 0x17, 1), (Reg.INT_EN 0x17, 1), (Reg.CORE_STAT 6, 0), (Reg.INTD_ROUTE 46, BitVec.ofNat 32 (2 ^ F.INTD_ROUTE_EN.lo + 6 * 2 ^ F.INTD_ROUTE_TARGET.lo))], by decide +kernel⟩

theorem wit_CoreTrapsAndInterrupts_14 : ∃ (core : Fin 7) (reader : Fin 16) (n : Nat) (s : State),
    (pageErr s (0x10 + core.val) 0x64 = none) ∧
    (reader.val = core.val) ∧
    (deliver s core.val = some n) :=
  ⟨6, 6, 46, st [(Reg.INT_RAW 0x17, 1), (Reg.INT_EN 0x17, 1), (Reg.INTD_ROUTE 46, BitVec.ofNat 32 (2 ^ F.INTD_ROUTE_EN.lo + 6 * 2 ^ F.INTD_ROUTE_TARGET.lo))], by decide +kernel⟩

theorem wit_CoreTrapsAndInterrupts_15 : ∃ (core : Fin 7) (reader : Fin 16) (s : State),
    (pageErr s (0x10 + core.val) 0x64 = none) ∧
    (reader.val = core.val) ∧
    (deliver s core.val = none) ∧
    (((coreOf s core.val).handler && iprio s core.val == 16) = false) :=
  ⟨6, 6, State.reset, by decide +kernel⟩

theorem wit_CoreTrapsAndInterrupts_16 : ∃ (core : Fin 7) (reader : Fin 16) (s : State),
    (pageErr s (0x10 + core.val) 0x64 = none) ∧
    (reader.val = core.val) ∧
    (deliver s core.val = none) ∧
    ((coreOf s core.val).handler = true) ∧
    (iprio s core.val = 16) ∧
    (Permitted s (handlerReturn (granted s reader) core.val)) :=
  ⟨6, 6, { State.reset with cores := [(6, { handler := true })] }, by decide +kernel⟩

theorem wit_CoreTrapsAndInterrupts_17 : ∃ (core : Fin 7) (reader : Fin 16) (s : State),
    (pageErr s (0x10 + core.val) 0x64 = none) ∧
    (reader.val ≠ core.val) :=
  ⟨6, 4, State.reset, by decide +kernel⟩

theorem wit_CoreTrapsAndInterrupts_18 : ∃ (ini : Fin 16) (core : Fin 7) (p : Nat) (s : State),
    (Reachable s ini (0x10 + core.val) 0x68) ∧
    ((coreOf s core.val).stack = [p]) ∧
    (p < 32) ∧
    (core.val < 4) ∧
    (Permitted s (popPrio (granted s ini) core.val)) :=
  ⟨4, 3, 16, { State.reset with cores := [(3, { stack := [16], handler := true })] }, by decide +kernel⟩

theorem wit_CoreTrapsAndInterrupts_19 : ∃ (ini : Fin 16) (core : Fin 7) (p : Nat) (q : Nat) (l : List Nat) (s : State),
    (Reachable s ini (0x10 + core.val) 0x68) ∧
    ((coreOf s core.val).stack = p :: q :: l) ∧
    (p < 32) :=
  ⟨4, 6, 9, 16, [], { State.reset with cores := [(6, { stack := [9, 16] })] }, by decide +kernel⟩

theorem wit_CoreTrapsAndInterrupts_20 : ∃ (ini : Fin 16) (core : Fin 7) (p : Nat) (s : State),
    (Reachable s ini (0x10 + core.val) 0x68) ∧
    ((coreOf s core.val).stack = [p]) ∧
    (p < 32) ∧
    (4 ≤ core.val) :=
  ⟨4, 6, 16, { State.reset with cores := [(6, { stack := [16], handler := true })] }, by decide +kernel⟩

theorem wit_CoreTrapsAndInterrupts_21 : ∃ (ini : Fin 16) (core : Fin 7) (s : State),
    (Reachable s ini (0x10 + core.val) 0x68) ∧
    ((coreOf s core.val).stack = []) :=
  ⟨4, 6, State.reset, by decide +kernel⟩

theorem wit_CoreTrapsAndInterrupts_22 : ∃ (core : Fin 7) (s : State),
    (flag s (Reg.CORE_STAT core.val) F.CORE_STAT_HALTED = true) ∧
    (4 ≤ core.val) ∧
    (core ≠ 4 ∨ s.boot.step ≠ .failed) ∧
    (runningOn s core.val = none) :=
  ⟨6, st [(Reg.CORE_STAT 6, 0x10000002)], by decide +kernel⟩

theorem wit_CoreTrapsAndInterrupts_23 : ∃ (core : Fin 7) (s : State),
    (flag s (Reg.CORE_STAT core.val) F.CORE_STAT_HALTED = true) ∧
    (core.val < 4) ∧
    (Permitted s (resumeCore s core.val)) :=
  ⟨3, st [(Reg.CORE_STAT 3, 0x10000002)], by decide +kernel⟩

theorem wit_CoreTrapsAndInterrupts_24 : ∃ (core : Fin 7) (s : State),
    (flag s (Reg.CORE_STAT core.val) F.CORE_STAT_HALTED = false ∨ (core = 4 ∧ s.boot.step = .failed)) :=
  ⟨6, State.reset, by decide +kernel⟩

theorem wit_KeysCommandsAccepted_1 : ∃ (ini : Fin 16) (value : Word) (s : State),
    (Reachable s ini 0xF0 0x40) ∧
    (fieldGet F.KEYS_CMD_CMD value = 1) ∧
    (value &&& 0x00F0C800#32 = 0) ∧
    (flag s Reg.KEYS_STAT F.KEYS_STAT_BUSY = false) ∧
    (fieldGet F.KEYS_CMD_FORMAT value = 1 ∨ fieldGet F.KEYS_CMD_FORMAT value = 2) ∧
    (fieldGet F.KEYS_CMD_DEST value ≠ 0) :=
  ⟨4, 0x000717F1, State.reset, by decide +kernel⟩

theorem wit_KeysCommandsAccepted_2 : ∃ (ini : Fin 16) (value : Word) (s : State),
    (Reachable s ini 0xF0 0x40) ∧
    (fieldGet F.KEYS_CMD_CMD value = 2) ∧
    (value &&& 0x00F0C800#32 = 0) ∧
    (flag s Reg.KEYS_STAT F.KEYS_STAT_BUSY = false) ∧
    (fieldGet F.KEYS_CMD_FORMAT value = 1) ∧
    (fieldGet F.KEYS_CMD_DEST value ≠ 0) ∧
    (fieldGet F.KEYS_CMD_SRC value ≤ 0x80) :=
  ⟨4, 0x800717F2, State.reset, by decide +kernel⟩

theorem wit_KeysCommandsAccepted_3 : ∃ (ini : Fin 16) (value : Word) (s : State),
    (Reachable s ini 0xF0 0x40) ∧
    (fieldGet F.KEYS_CMD_CMD value = 3) ∧
    (value &&& 0x00F0C800#32 = 0) ∧
    (flag s Reg.KEYS_STAT F.KEYS_STAT_BUSY = false) :=
  ⟨4, 0x7F3, State.reset, by decide +kernel⟩

theorem wit_KeysCommandsAccepted_4 : ∃ (ini : Fin 16) (value : Word) (s : State),
    (Reachable s ini 0xF0 0x40) ∧
    (fieldGet F.KEYS_CMD_CMD value = 4) ∧
    (value &&& 0x00F0C800#32 = 0) ∧
    (flag s Reg.KEYS_STAT F.KEYS_STAT_BUSY = false) :=
  ⟨4, 0x7F4, State.reset, by decide +kernel⟩

theorem wit_KeysCommandsAccepted_5 : ∃ (ini : Fin 16) (value : Word) (s : State),
    (Reachable s ini 0xF0 0x40) ∧
    (fieldGet F.KEYS_CMD_CMD value = 5) ∧
    (value &&& 0x00F0C800#32 = 0) ∧
    (flag s Reg.KEYS_STAT F.KEYS_STAT_BUSY = false) :=
  ⟨4, 0x7F5, State.reset, by decide +kernel⟩

theorem wit_KeysCommandsAccepted_6 : ∃ (ini : Fin 16) (value : Word) (s : State),
    (Reachable s ini 0xF0 0x40) ∧
    (fieldGet F.KEYS_CMD_CMD value = 6) ∧
    (value &&& 0x00F0C800#32 = 0) ∧
    (flag s Reg.KEYS_STAT F.KEYS_STAT_BUSY = false) :=
  ⟨4, 6, State.reset, by decide +kernel⟩

theorem wit_KeysCommandsAccepted_7 : ∃ (ini : Fin 16) (value : Word) (s : State),
    (Reachable s ini 0xF0 0x40) ∧
    (fieldGet F.KEYS_CMD_CMD value = 7) ∧
    (value &&& 0x00F0C800#32 = 0) ∧
    (flag s Reg.KEYS_STAT F.KEYS_STAT_BUSY = false) :=
  ⟨4, 7, State.reset, by decide +kernel⟩

theorem wit_KeysCommandsAccepted_8 : ∃ (ini : Fin 16) (value : Word) (s : State),
    (Reachable s ini 0xF0 0x40) ∧
    (fieldGet F.KEYS_CMD_CMD value = 8) ∧
    (value &&& 0x00F0C800#32 = 0) ∧
    (flag s Reg.KEYS_STAT F.KEYS_STAT_BUSY = false) :=
  ⟨4, 8, State.reset, by decide +kernel⟩

theorem wit_KeysCommandsAccepted_9 : ∃ (ini : Fin 16) (value : Word) (s : State),
    (Reachable s ini 0xF0 0x40) ∧
    (fieldGet F.KEYS_CMD_CMD value = 9) ∧
    (value &&& 0x00F0C800#32 = 0) ∧
    (flag s Reg.KEYS_STAT F.KEYS_STAT_BUSY = false) :=
  ⟨4, 0x7F9, State.reset, by decide +kernel⟩

theorem wit_KeysCommandsAccepted_10 : ∃ (ini : Fin 16) (value : Word) (s : State),
    (Reachable s ini 0xF0 0x40) ∧
    (fieldGet F.KEYS_CMD_CMD value = 10) ∧
    (value &&& 0x00F0C800#32 = 0) ∧
    (flag s Reg.KEYS_STAT F.KEYS_STAT_BUSY = false) :=
  ⟨4, 10, State.reset, by decide +kernel⟩

theorem wit_KeysCommandsAccepted_11 : ∃ (ini : Fin 16) (value : Word) (s : State),
    (Reachable s ini 0xF0 0x40) ∧
    (fieldGet F.KEYS_CMD_CMD value = 3) ∧
    (value &&& 0x00F0C800#32 = 0) ∧
    (flag s Reg.KEYS_STAT F.KEYS_STAT_BUSY = true) :=
  ⟨4, 0x7F3, st [(Reg.KEYS_STAT, 1)], by decide +kernel⟩

theorem wit_KeysCommandsAccepted_12 : ∃ (ini : Fin 16) (value : Word) (g : GcmRun) (s : State),
    (Reachable s ini 0xF0 0xF8) ∧
    (s.keys.gcm = some g) :=
  ⟨4, 7, {}, { State.reset with keys := { gcm := some {} } }, by decide +kernel⟩

theorem wit_KeysCommandsAccepted_13 : ∃ (b : List Byte) (s : State),
    (fld s Reg.BOOT_STAT F.BOOT_STAT_PHASE = 4) ∧
    (s.efuse.lifeCycle = 0) ∧
    (rootState s = 0) ∧
    (flag s Reg.KEYS_STAT F.KEYS_STAT_ENROLLED = false) ∧
    ((enrolRead s).1 = some b) ∧
    (eccIn s keyArea 0x1000 = []) :=
  ⟨pufRec, pufSt, by decide +kernel, by decide +kernel, by decide +kernel, by decide +kernel, pufSt_enrol, by decide +kernel⟩

theorem wit_KeysCommandsAccepted_14 : ∃ (s : State),
    (fld s Reg.BOOT_STAT F.BOOT_STAT_PHASE ≠ 4 ∨ s.efuse.lifeCycle ≠ 0 ∨ rootState s ≠ 0 ∨ flag s Reg.KEYS_STAT F.KEYS_STAT_ENROLLED = true ∨ (enrolRead s).1 = none) :=
  ⟨State.reset, by decide +kernel⟩

theorem wit_KeysCommandsAccepted_15 : ∃ (ini : Fin 16) (value : Word) (s : State),
    (Reachable s ini 0xF0 0xF8) ∧
    (s.keys.gcm = none) :=
  ⟨4, 7, State.reset, by decide +kernel⟩

theorem wit_KeysCommandsDone_1 : ∃ (v : Word) (s : State),
    (s.keys.cmd = some v) ∧
    (domainUp s 3 = true) ∧
    (fieldGet F.KEYS_CMD_CMD v = 1) ∧
    (fieldGet F.KEYS_CMD_FORMAT v = 1) :=
  ⟨0x000717F1, { st [] with keys := { cmd := some 0x000717F1 } }, by decide +kernel⟩

theorem wit_KeysCommandsDone_2 : ∃ (v : Word) (s : State),
    (s.keys.cmd = some v) ∧
    (domainUp s 3 = true) ∧
    (fieldGet F.KEYS_CMD_CMD v = 1) ∧
    (fieldGet F.KEYS_CMD_FORMAT v = 2) ∧
    (crc16k (k1Bytes (fieldGet F.KEYS_CMD_DEST v) (fieldGet F.KEYS_CMD_LEN v == 1) ((regBytes s Reg.KEYS_STG 8).take (if fieldGet F.KEYS_CMD_LEN v = 1 then 32 else 16))) = fld s Reg.KEYS_STG_CRC F.KEYS_STG_CRC_CRC) :=
  ⟨0x000727F1, { st [(Reg.KEYS_STG_CRC, BitVec.ofNat 32 (crc16k (k1Bytes (fieldGet F.KEYS_CMD_DEST 0x000727F1) (fieldGet F.KEYS_CMD_LEN 0x000727F1 == 1) (List.replicate (if fieldGet F.KEYS_CMD_LEN 0x000727F1 = 1 then 32 else 16) 0))))] with keys := { cmd := some 0x000727F1 } }, by decide +kernel⟩

theorem wit_KeysCommandsDone_3 : ∃ (v : Word) (s : State),
    (s.keys.cmd = some v) ∧
    (domainUp s 3 = true) ∧
    (fieldGet F.KEYS_CMD_CMD v = 1) ∧
    (fieldGet F.KEYS_CMD_FORMAT v = 2) ∧
    (crc16k (k1Bytes (fieldGet F.KEYS_CMD_DEST v) (fieldGet F.KEYS_CMD_LEN v == 1) ((regBytes s Reg.KEYS_STG 8).take (if fieldGet F.KEYS_CMD_LEN v = 1 then 32 else 16))) ≠ fld s Reg.KEYS_STG_CRC F.KEYS_STG_CRC_CRC) :=
  ⟨0x000727F1, { st [(Reg.KEYS_STG_CRC, BitVec.ofNat 32 ((crc16k (k1Bytes (fieldGet F.KEYS_CMD_DEST 0x000727F1) (fieldGet F.KEYS_CMD_LEN 0x000727F1 == 1) (List.replicate (if fieldGet F.KEYS_CMD_LEN 0x000727F1 = 1 then 32 else 16) 0))) ^^^ 1))] with keys := { cmd := some 0x000727F1 } }, by decide +kernel⟩

theorem wit_KeysCommandsDone_4 : ∃ (v : Word) (root : List Byte) (s : State),
    (s.keys.cmd = some v) ∧
    (domainUp s 3 = true) ∧
    (fieldGet F.KEYS_CMD_CMD v = 2) ∧
    (fieldGet F.KEYS_CMD_SRC v = 0x80) ∧
    (s.keys.root = some root) ∧
    (rdn s Reg.KEYS_LABEL ≠ labelChk ∧ rdn s Reg.KEYS_LABEL ≠ labelImg ∧ rdn s Reg.KEYS_LABEL ≠ labelStor) :=
  ⟨0x800717F2, [], { st [] with keys := { cmd := some 0x800717F2, root := some [] } }, by decide +kernel⟩

theorem wit_KeysCommandsDone_5 : ∃ (v : Word) (s : State),
    (s.keys.cmd = some v) ∧
    (domainUp s 3 = true) ∧
    (fieldGet F.KEYS_CMD_CMD v = 2) ∧
    (fieldGet F.KEYS_CMD_SRC v < 0x80) ∧
    ((keySlot s (fieldGet F.KEYS_CMD_SRC v)).status = 1) ∧
    (k1Ok (keySlot s (fieldGet F.KEYS_CMD_SRC v)) = true) ∧
    ((keySlot s (fieldGet F.KEYS_CMD_SRC v)).dest = 7) :=
  ⟨0x7E0717F2, { st [] with keys := { cmd := some 0x7E0717F2, slots := [(126, { status := 1, format := 1, dest := 7 })] } }, by decide +kernel⟩

theorem wit_KeysCommandsDone_6 : ∃ (v : Word) (s : State),
    (s.keys.cmd = some v) ∧
    (domainUp s 3 = true) ∧
    (fieldGet F.KEYS_CMD_CMD v = 2) ∧
    ((fieldGet F.KEYS_CMD_SRC v = 0x80 ∧ (s.keys.root = none ∨ rdn s Reg.KEYS_LABEL = labelChk ∨ rdn s Reg.KEYS_LABEL = labelImg ∨ rdn s Reg.KEYS_LABEL = labelStor)) ∨ (fieldGet F.KEYS_CMD_SRC v ≠ 0x80 ∧ ((keySlot s (fieldGet F.KEYS_CMD_SRC v)).status ≠ 1 ∨ (k1Ok (keySlot s (fieldGet F.KEYS_CMD_SRC v)) = true ∧ (keySlot s (fieldGet F.KEYS_CMD_SRC v)).dest ≠ 7)))) :=
  ⟨0x800717F2, { st [] with keys := { cmd := some 0x800717F2 } }, by decide +kernel⟩

theorem wit_KeysCommandsDone_7 : ∃ (v : Word) (s : State),
    (s.keys.cmd = some v) ∧
    (domainUp s 3 = true) ∧
    (fieldGet F.KEYS_CMD_CMD v = 3) ∧
    ((keySlot s (fieldGet F.KEYS_CMD_SLOT v)).status = 1) ∧
    ((keySlot s (fieldGet F.KEYS_CMD_SLOT v)).format = 1 → s.keys.root.isSome = true) ∧
    ((keySlot s (fieldGet F.KEYS_CMD_SLOT v)).key.length ≤ 32) ∧
    (pfail s = false) ∧
    (s.ecc = []) ∧
    (∀ r < 3, flag s (Reg.MEM_FLIP_CFG r) F.MEM_FLIP_CFG_ARM = false) ∧
    (Permitted s (keysEnd s v)) :=
  ⟨0x7F3, { st [] with keys := { cmd := some 0x7F3, slots := [(127, { status := 1, format := 2 })] } }, by decide +kernel⟩

theorem wit_KeysCommandsDone_8 : ∃ (v : Word) (s : State),
    (s.keys.cmd = some v) ∧
    (domainUp s 3 = true) ∧
    (fieldGet F.KEYS_CMD_CMD v = 3) ∧
    ((keySlot s (fieldGet F.KEYS_CMD_SLOT v)).status ≠ 1 ∨ ((keySlot s (fieldGet F.KEYS_CMD_SLOT v)).format = 1 ∧ s.keys.root = none)) :=
  ⟨0x7F3, { st [] with keys := { cmd := some 0x7F3 } }, by decide +kernel⟩

theorem wit_KeysCommandsDone_9 : ∃ (v : Word) (s : State),
    (s.keys.cmd = some v) ∧
    (domainUp s 3 = true) ∧
    (fieldGet F.KEYS_CMD_CMD v = 4) ∧
    (pfail s = false) ∧
    (s.ecc = []) ∧
    (∀ r < 3, flag s (Reg.MEM_FLIP_CFG r) F.MEM_FLIP_CFG_ARM = false) ∧
    (Permitted s (keysEnd s v)) :=
  ⟨0x7F4, { st [] with keys := { cmd := some 0x7F4 } }, by decide +kernel⟩

theorem wit_KeysCommandsDone_10 : ∃ (v : Word) (s : State),
    (s.keys.cmd = some v) ∧
    (domainUp s 3 = true) ∧
    (fieldGet F.KEYS_CMD_CMD v = 4) ∧
    (pfail s = false) ∧
    ((eccIn s (slotRecordAt (fieldGet F.KEYS_CMD_SLOT v)) 64).any (ueAt s) = true) ∧
    (Permitted s (keysEnd s v)) :=
  ⟨0x7F4, { st [] with keys := { cmd := some 0x7F4 }, ecc := [(0x40186FC0, { poisoned := true })] }, by decide +kernel⟩

theorem wit_KeysCommandsDone_11 : ∃ (v : Word) (s : State),
    (s.keys.cmd = some v) ∧
    (domainUp s 3 = true) ∧
    (fieldGet F.KEYS_CMD_CMD v = 4) ∧
    (pfail s = true) :=
  ⟨0x7F4, { st [] with keys := { cmd := some 0x7F4 }, power := { qualifiedAt := some 0 } }, by decide +kernel⟩

theorem wit_KeysCommandsDone_12 : ∃ (v : Word) (s : State),
    (s.keys.cmd = some v) ∧
    (domainUp s 3 = true) ∧
    (fieldGet F.KEYS_CMD_CMD v = 5) :=
  ⟨0x7F5, { st [] with keys := { cmd := some 0x7F5 } }, by decide +kernel⟩

theorem wit_KeysCommandsDone_13 : ∃ (v : Word) (s : State),
    (s.keys.cmd = some v) ∧
    (domainUp s 3 = true) ∧
    (fieldGet F.KEYS_CMD_CMD v = 6) ∧
    (s.efuse.lifeCycle = 0) ∧
    (flag s Reg.KEYS_STAT F.KEYS_STAT_ENROLLED = false) ∧
    ((enrolRead s).1 = none) ∧
    (Permitted s (keysEnd s v)) :=
  ⟨6, enrolSt, by decide +kernel, by decide +kernel, by decide +kernel, by decide +kernel, by decide +kernel, by decide +kernel, enrolSt_permitted⟩

theorem wit_KeysCommandsDone_14 : ∃ (v : Word) (s : State),
    (s.keys.cmd = some v) ∧
    (domainUp s 3 = true) ∧
    (fieldGet F.KEYS_CMD_CMD v = 6) ∧
    (s.efuse.lifeCycle ≠ 0 ∨ flag s Reg.KEYS_STAT F.KEYS_STAT_ENROLLED = true ∨ (enrolRead s).1.isSome = true) ∧
    (eccIn s keyArea 0x1000 = []) :=
  ⟨6, { st [(Reg.KEYS_STAT, 0x400)] with keys := { cmd := some 6 } }, by decide +kernel⟩

theorem wit_KeysCommandsDone_15 : ∃ (v : Word) (s : State),
    (s.keys.cmd = some v) ∧
    (domainUp s 3 = true) ∧
    (fieldGet F.KEYS_CMD_CMD v = 7) ∧
    (s.efuse.lifeCycle = 0) ∧
    (flag s Reg.KEYS_STAT F.KEYS_STAT_ENROLLED = true) ∧
    (rootState s = 1) ∧
    (∃ b ∈ regBytes s Reg.KEYS_HASH 8, b ≠ 0) :=
  ⟨7, { st [(Reg.KEYS_STAT, 0x500), (Reg.KEYS_HASH 7, 1)] with keys := { cmd := some 7 } }, by decide +kernel⟩

theorem wit_KeysCommandsDone_16 : ∃ (v : Word) (s : State),
    (s.keys.cmd = some v) ∧
    (domainUp s 3 = true) ∧
    (fieldGet F.KEYS_CMD_CMD v = 7) ∧
    (s.efuse.lifeCycle ≠ 0 ∨ flag s Reg.KEYS_STAT F.KEYS_STAT_ENROLLED = false ∨ rootState s ≠ 1 ∨ ∀ b ∈ regBytes s Reg.KEYS_HASH 8, b = 0) :=
  ⟨7, { st [] with keys := { cmd := some 7 } }, by decide +kernel⟩

theorem wit_KeysCommandsDone_17 : ∃ (v : Word) (s : State),
    (s.keys.cmd = some v) ∧
    (domainUp s 3 = true) ∧
    (fieldGet F.KEYS_CMD_CMD v = 8) ∧
    (rdn s Reg.KEYS_LABEL = 0x4445434D) ∧
    (Permitted s (keysEnd s v)) :=
  ⟨8, decomSt, by decide +kernel, by decide +kernel, by decide +kernel, by decide +kernel, decomSt_permitted⟩

theorem wit_KeysCommandsDone_18 : ∃ (v : Word) (s : State),
    (s.keys.cmd = some v) ∧
    (domainUp s 3 = true) ∧
    (fieldGet F.KEYS_CMD_CMD v = 8) ∧
    (rdn s Reg.KEYS_LABEL ≠ 0x4445434D) :=
  ⟨8, { st [] with keys := { cmd := some 8 } }, by decide +kernel⟩

theorem wit_KeysCommandsDone_19 : ∃ (v : Word) (s : State),
    (s.keys.cmd = some v) ∧
    (domainUp s 3 = true) ∧
    (fieldGet F.KEYS_CMD_CMD v = 9) ∧
    ((keySlot s (fieldGet F.KEYS_CMD_SLOT v)).status = 1) ∧
    (k1Ok (keySlot s (fieldGet F.KEYS_CMD_SLOT v)) = true) ∧
    ((keySlot s (fieldGet F.KEYS_CMD_SLOT v)).dest = 5) ∧
    ((keySlot s (fieldGet F.KEYS_CMD_SLOT v)).wide = true) :=
  ⟨0x7F9, { st [] with keys := { cmd := some 0x7F9, slots := [(127, { status := 1, format := 1, dest := 5, wide := true })] } }, by decide +kernel⟩

theorem wit_KeysCommandsDone_20 : ∃ (v : Word) (s : State),
    (s.keys.cmd = some v) ∧
    (domainUp s 3 = true) ∧
    (fieldGet F.KEYS_CMD_CMD v = 9) ∧
    ((keySlot s (fieldGet F.KEYS_CMD_SLOT v)).status ≠ 1 ∨ (k1Ok (keySlot s (fieldGet F.KEYS_CMD_SLOT v)) = true ∧ ((keySlot s (fieldGet F.KEYS_CMD_SLOT v)).dest ≠ 5 ∨ (keySlot s (fieldGet F.KEYS_CMD_SLOT v)).wide = false))) :=
  ⟨0x7F9, { st [] with keys := { cmd := some 0x7F9 } }, by decide +kernel⟩

theorem wit_KeysCommandsDone_21 : ∃ (v : Word) (s : State),
    (s.keys.cmd = some v) ∧
    (domainUp s 3 = true) ∧
    (fieldGet F.KEYS_CMD_CMD v = 10) ∧
    (s.keys.gcm = none) :=
  ⟨10, { st [] with keys := { cmd := some 10 } }, by decide +kernel⟩

theorem wit_KeysCommandsDone_22 : ∃ (v : Word) (g : GcmRun) (s : State),
    (s.keys.cmd = some v) ∧
    (domainUp s 3 = true) ∧
    (fieldGet F.KEYS_CMD_CMD v = 10) ∧
    (s.keys.gcm = some g) :=
  ⟨10, {}, { st [] with keys := { cmd := some 10, gcm := some {} } }, by decide +kernel⟩

theorem wit_KeysCommandsDone_23 : ∃ (s : State),
    (s.keys.cmd = none ∨ domainUp s 3 = false) :=
  ⟨State.reset, by decide +kernel⟩

theorem wit_LanternPowerSequence_1 : ∃ (ini : Fin 16) (s : State),
    (Reachable s ini 0x100 0x44) ∧
    (lanState s = lsOff) ∧
    (pageEn s 0x100 = true) ∧
    (heldAll s = false) ∧
    (lanCfgErr s = none) :=
  ⟨4, st [(Reg.PCTL 0x100, 1), (Reg.LANTERN_CFG, BitVec.ofNat 32 (2 ^ F.LANTERN_CFG_CLASS.lo + 2 ^ F.LANTERN_CFG_RAIL_MS.lo + 2 ^ F.LANTERN_CFG_SIZE.lo))], by decide +kernel⟩

theorem wit_LanternPowerSequence_2 : ∃ (ini : Fin 16) (n : Nat) (s : State),
    (Reachable s ini 0x100 0x44) ∧
    (lanState s = lsOff) ∧
    (pageEn s 0x100 = true) ∧
    (heldAll s = false) ∧
    (lanCfgErr s = some n) :=
  ⟨4, 38, st [(Reg.PCTL 0x100, 1)], by decide +kernel⟩

theorem wit_LanternPowerSequence_3 : ∃ (ini : Fin 16) (s : State),
    (Reachable s ini 0x100 0x44) ∧
    (lanState s ≠ lsOff ∨ pageEn s 0x100 = false ∨ heldAll s = true) :=
  ⟨4, st [(Reg.LANTERN_STAT, BitVec.ofNat 32 (4 * 2 ^ F.LANTERN_STAT_STATE.lo))], by decide +kernel⟩

theorem wit_LanternPowerSequence_4 : ∃ (ini : Fin 16) (s : State),
    (Reachable s ini 0x100 0x44) ∧
    (1 ≤ lanState s ∧ lanState s ≤ 4) ∧
    (heldAll s = false) ∧
    (inProgress s = true) :=
  ⟨4, { st [(Reg.LANTERN_STAT, BitVec.ofNat 32 (4 * 2 ^ F.LANTERN_STAT_STATE.lo))] with now := 0, lantern := { slots := [(3, { phase := 5 })] } }, by decide +kernel⟩

theorem wit_LanternPowerSequence_5 : ∃ (ini : Fin 16) (s : State),
    (Reachable s ini 0x100 0x44) ∧
    (1 ≤ lanState s ∧ lanState s ≤ 4) ∧
    (heldAll s = false) ∧
    (inProgress s = false) ∧
    (classB s = false) ∧
    (s.lantern.driveFrom ≠ none) :=
  ⟨4, { st [(Reg.LANTERN_STAT, BitVec.ofNat 32 (4 * 2 ^ F.LANTERN_STAT_STATE.lo))] with now := 0, lantern := { driveFrom := some 0 } }, by decide +kernel⟩

theorem wit_LanternPowerSequence_6 : ∃ (ini : Fin 16) (s : State),
    (Reachable s ini 0x100 0x44) ∧
    (1 ≤ lanState s ∧ lanState s ≤ 4) ∧
    (heldAll s = false) ∧
    (inProgress s = false) ∧
    ((classB s = false ∧ s.lantern.driveFrom = none) ∨ (classB s = true ∧ s.lantern.vhvn = false)) :=
  ⟨4, { st [(Reg.LANTERN_STAT, BitVec.ofNat 32 (1 * 2 ^ F.LANTERN_STAT_STATE.lo)), (Reg.LANTERN_CFG, BitVec.ofNat 32 (60 * 2 ^ F.LANTERN_CFG_FRAME_HZ.lo + 2 ^ F.LANTERN_CFG_RAIL_MS.lo + 2 ^ F.LANTERN_CFG_SIZE.lo))] with now := 0, lantern := { vlcd := true } }, by decide +kernel⟩

theorem wit_LanternPowerSequence_7 : ∃ (ini : Fin 16) (s : State),
    (Reachable s ini 0x100 0x44) ∧
    (1 ≤ lanState s ∧ lanState s ≤ 4) ∧
    (heldAll s = false) ∧
    (inProgress s = false) ∧
    (classB s = true) ∧
    (s.lantern.vhvn = true) ∧
    (s.lantern.load = none) :=
  ⟨4, { st [(Reg.LANTERN_STAT, BitVec.ofNat 32 (4 * 2 ^ F.LANTERN_STAT_STATE.lo)), (Reg.LANTERN_CFG, BitVec.ofNat 32 (2 ^ F.LANTERN_CFG_CLASS.lo + 2 ^ F.LANTERN_CFG_RAIL_MS.lo + 2 ^ F.LANTERN_CFG_SIZE.lo))] with now := 0, lantern := { vhvn := true, vhvp := true } }, by decide +kernel⟩

theorem wit_LanternPowerSequence_8 : ∃ (ini : Fin 16) (s : State),
    (Reachable s ini 0x100 0x44) ∧
    (lanState s = 0 ∨ 4 < lanState s ∨ heldAll s = true) :=
  ⟨4, State.reset, by decide +kernel⟩

theorem wit_LanternPowerSequence_9 : ∃ (s : State),
    (heldAll s = true) ∧
    (s.lantern.vhvp = true) ∧
    (s.lantern.since + vcoUs ≤ s.now) :=
  ⟨{ st [] with now := 10 ^ 6, lantern := { vhvp := true }, power := { qualifiedAt := some 0 } }, by decide +kernel⟩

theorem wit_LanternPowerSequence_10 : ∃ (s : State),
    (heldAll s = false) ∧
    (lanState s = lsRising) ∧
    (s.lantern.since + railTime s ≤ s.now) ∧
    (classB s = false) :=
  ⟨{ st [(Reg.LANTERN_STAT, BitVec.ofNat 32 (1 * 2 ^ F.LANTERN_STAT_STATE.lo)), (Reg.LANTERN_CFG, BitVec.ofNat 32 (60 * 2 ^ F.LANTERN_CFG_FRAME_HZ.lo + 2 ^ F.LANTERN_CFG_RAIL_MS.lo + 2 ^ F.LANTERN_CFG_SIZE.lo))] with now := 10 ^ 9, lantern := {  } }, by decide +kernel⟩

theorem wit_LanternPowerSequence_11 : ∃ (s : State),
    (heldAll s = false) ∧
    (lanState s = lsRising) ∧
    (s.lantern.since + railTime s ≤ s.now) ∧
    (classB s = true) ∧
    (s.lantern.vhvn = false) :=
  ⟨{ st [(Reg.LANTERN_STAT, BitVec.ofNat 32 (1 * 2 ^ F.LANTERN_STAT_STATE.lo)), (Reg.LANTERN_CFG, BitVec.ofNat 32 (2 ^ F.LANTERN_CFG_CLASS.lo + 2 ^ F.LANTERN_CFG_RAIL_MS.lo + 2 ^ F.LANTERN_CFG_SIZE.lo))] with now := 10 ^ 9, lantern := {  } }, by decide +kernel⟩

theorem wit_LanternPowerSequence_12 : ∃ (s : State),
    (heldAll s = false) ∧
    (lanState s = lsRising) ∧
    (s.lantern.since + railTime s ≤ s.now) ∧
    (classB s = true) ∧
    (s.lantern.vhvn = true) ∧
    (s.lantern.load = none) :=
  ⟨{ st [(Reg.LANTERN_STAT, BitVec.ofNat 32 (1 * 2 ^ F.LANTERN_STAT_STATE.lo)), (Reg.LANTERN_CFG, BitVec.ofNat 32 (2 ^ F.LANTERN_CFG_CLASS.lo + 2 ^ F.LANTERN_CFG_RAIL_MS.lo + 2 ^ F.LANTERN_CFG_SIZE.lo))] with now := 10 ^ 9, lantern := { vhvn := true } }, by decide +kernel⟩

theorem wit_LanternPowerSequence_13 : ∃ (s : State),
    (heldAll s = false) ∧
    (lanState s = lsFalling) ∧
    (classB s = true) ∧
    (s.lantern.vhvn = false) ∧
    (s.lantern.vhvp = true) ∧
    (s.lantern.since + railTime s ≤ s.now) :=
  ⟨{ st [(Reg.LANTERN_STAT, BitVec.ofNat 32 (5 * 2 ^ F.LANTERN_STAT_STATE.lo)), (Reg.LANTERN_CFG, BitVec.ofNat 32 (2 ^ F.LANTERN_CFG_CLASS.lo + 2 ^ F.LANTERN_CFG_RAIL_MS.lo + 2 ^ F.LANTERN_CFG_SIZE.lo))] with now := 10 ^ 9, lantern := { vhvp := true } }, by decide +kernel⟩

theorem wit_LanternPowerSequence_14 : ∃ (s : State),
    (pairDue s = true) ∧
    (lanState s = lsClearing) ∧
    (s.lantern.pairs = 1) ∧
    (s.lantern.slots = []) ∧
    (s.lantern.vhvn = false) :=
  ⟨{ st [(Reg.LANTERN_STAT, BitVec.ofNat 32 (2 * 2 ^ F.LANTERN_STAT_STATE.lo)), (Reg.LANTERN_CFG, BitVec.ofNat 32 (60 * 2 ^ F.LANTERN_CFG_FRAME_HZ.lo + 2 ^ F.LANTERN_CFG_RAIL_MS.lo + 2 ^ F.LANTERN_CFG_SIZE.lo))] with now := 10 ^ 10, lantern := { driveFrom := some 0, pairs := 1 } }, by decide +kernel⟩

theorem wit_LanternPowerSequence_15 : ∃ (s : State),
    (pairDue s = true) ∧
    (lanState s = lsOn) ∧
    (∀ n < 5, (rect s n).phase ≠ 9) :=
  ⟨{ st [(Reg.LANTERN_STAT, BitVec.ofNat 32 (4 * 2 ^ F.LANTERN_STAT_STATE.lo)), (Reg.LANTERN_CFG, BitVec.ofNat 32 (60 * 2 ^ F.LANTERN_CFG_FRAME_HZ.lo + 2 ^ F.LANTERN_CFG_RAIL_MS.lo + 2 ^ F.LANTERN_CFG_SIZE.lo))] with now := 10 ^ 10, lantern := { driveFrom := some 0, pairs := 1 } }, by decide +kernel⟩

theorem wit_LanternPowerSequence_16 : ∃ (s : State),
    (pairDue s = true) ∧
    (lanState s = lsFalling) ∧
    (s.lantern.blankDue ≠ 0) :=
  ⟨{ st [(Reg.LANTERN_STAT, BitVec.ofNat 32 (5 * 2 ^ F.LANTERN_STAT_STATE.lo)), (Reg.LANTERN_CFG, BitVec.ofNat 32 (60 * 2 ^ F.LANTERN_CFG_FRAME_HZ.lo + 2 ^ F.LANTERN_CFG_RAIL_MS.lo + 2 ^ F.LANTERN_CFG_SIZE.lo))] with now := 10 ^ 10, lantern := { driveFrom := some 0, blankDue := 2 } }, by decide +kernel⟩

theorem wit_LanternPowerSequence_17 : ∃ (s : State),
    (pairDue s = true) ∧
    (lanState s = lsFalling) ∧
    (s.lantern.blankDue = 0) :=
  ⟨{ st [(Reg.LANTERN_STAT, BitVec.ofNat 32 (5 * 2 ^ F.LANTERN_STAT_STATE.lo)), (Reg.LANTERN_CFG, BitVec.ofNat 32 (60 * 2 ^ F.LANTERN_CFG_FRAME_HZ.lo + 2 ^ F.LANTERN_CFG_RAIL_MS.lo + 2 ^ F.LANTERN_CFG_SIZE.lo))] with now := 10 ^ 10, lantern := { driveFrom := some 0 } }, by decide +kernel⟩

theorem wit_LanternRectangles_1 : ∃ (ini : Fin 16) (n : Fin 4) (s : State),
    (Reachable s ini 0x100 0x44) ∧
    (rectErr s n.val = none) ∧
    (lanState s = lsOff) ∧
    (s.lantern.vhvn = false) :=
  ⟨4, 3, st [(Reg.LANTERN_CFG, BitVec.ofNat 32 (60 * 2 ^ F.LANTERN_CFG_FRAME_HZ.lo + 2 ^ F.LANTERN_CFG_RAIL_MS.lo + 2 ^ F.LANTERN_CFG_SIZE.lo))], by decide +kernel⟩

theorem wit_LanternRectangles_2 : ∃ (ini : Fin 16) (n : Fin 4) (s : State),
    (Reachable s ini 0x100 0x44) ∧
    (rectErr s n.val = none) ∧
    (lanState s = lsOn) ∧
    (classB s = false) ∧
    (s.lantern.vhvn = false) ∧
    (heldAll s = false) ∧
    (s.lantern.offDue = false) ∧
    (s.lantern.slots = []) :=
  ⟨4, 3, { st [(Reg.LANTERN_STAT, BitVec.ofNat 32 (4 * 2 ^ F.LANTERN_STAT_STATE.lo)), (Reg.LANTERN_CFG, BitVec.ofNat 32 (60 * 2 ^ F.LANTERN_CFG_FRAME_HZ.lo + 2 ^ F.LANTERN_CFG_RAIL_MS.lo + 2 ^ F.LANTERN_CFG_SIZE.lo))] with now := 0, lantern := {  } }, by decide +kernel⟩

theorem wit_LanternRectangles_3 : ∃ (ini : Fin 16) (n : Fin 4) (s : State),
    (Reachable s ini 0x100 0x44) ∧
    (rectErr s n.val = none) ∧
    (lanState s = lsOn) ∧
    (classB s = true) ∧
    (heldAll s = false) ∧
    (s.lantern.offDue = false) ∧
    (s.lantern.slots = []) ∧
    (s.lantern.load ≠ none) :=
  ⟨4, 3, { st [(Reg.LANTERN_STAT, BitVec.ofNat 32 (4 * 2 ^ F.LANTERN_STAT_STATE.lo)), (Reg.LANTERN_CFG, BitVec.ofNat 32 (2 ^ F.LANTERN_CFG_CLASS.lo + 2 ^ F.LANTERN_CFG_RAIL_MS.lo + 2 ^ F.LANTERN_CFG_SIZE.lo)), (Reg.LANTERN_RDRIVE 3, 5)] with now := 0, lantern := { load := some {} } }, by decide +kernel⟩

theorem wit_LanternRectangles_4 : ∃ (ini : Fin 16) (n : Fin 4) (e : Nat) (s : State),
    (Reachable s ini 0x100 0x44) ∧
    (rectErr s n.val = some e) :=
  ⟨4, 3, 38, st [(Reg.LANTERN_RBOUND 3, BitVec.ofNat 32 (2 ^ F.LANTERN_RBOUND_C0.lo))], by decide +kernel⟩

theorem wit_LanternRectangles_5 : ∃ (ini : Fin 16) (n : Fin 4) (s : State),
    (Reachable s ini 0x100 0x44) ∧
    (lanBusy s n.val = true) :=
  ⟨4, 3, st [(Reg.LANTERN_STAT, BitVec.ofNat 32 (8 * 2 ^ F.LANTERN_STAT_BUSY.lo))], by decide +kernel⟩

theorem wit_LanternRectangles_6 : ∃ (n : Nat) (r : Rect) (s : State),
    (pairDue s = true) ∧
    (lanState s = lsOn) ∧
    (s.lantern.slots = [(n, r)]) ∧
    (n < 4) ∧
    (r.phase = 9) ∧
    (r.replay = false) ∧
    (r.since < s.now) ∧
    (s.lantern.offDue = false) ∧
    (s.lantern.vhvn = false) :=
  ⟨3, { phase := 9 }, { st [(Reg.LANTERN_STAT, BitVec.ofNat 32 (4 * 2 ^ F.LANTERN_STAT_STATE.lo)), (Reg.LANTERN_CFG, BitVec.ofNat 32 (60 * 2 ^ F.LANTERN_CFG_FRAME_HZ.lo + 2 ^ F.LANTERN_CFG_RAIL_MS.lo + 2 ^ F.LANTERN_CFG_SIZE.lo))] with now := 10 ^ 10, lantern := { driveFrom := some 0, slots := [(3, { phase := 9 })] } }, by decide +kernel⟩

theorem wit_LanternRectangles_7 : ∃ (n : Nat) (l : List Nat) (s : State),
    (s.lantern.writing = n :: l) ∧
    (n < 5) ∧
    (s.lantern.writeFrom + journalTime 80 ≤ s.now) ∧
    (s.lantern.load ≠ none) ∧
    (heldAll s = false) ∧
    (s.ecc = []) ∧
    (∀ r < 3, flag s (Reg.MEM_FLIP_CFG r) F.MEM_FLIP_CFG_ARM = false) ∧
    (Permitted s (journalEnd s n l)) :=
  ⟨4, [], { st [] with now := 10 ^ 6, lantern := { writing := [4], load := some {} } }, by decide +kernel⟩

theorem wit_LanternRectangles_8 : ∃ (s : State),
    (s.lantern.writing = []) :=
  ⟨State.reset, by decide +kernel⟩

theorem wit_LanternRectangles_9 : ∃ (n : Nat) (c : Nat) (s : State),
    (s.lantern.load = some { since := c, starts := [n] }) ∧
    (heldAll s = false) ∧
    (c + loadTime s ≤ s.now) ∧
    (s.lantern.vhvn = false) ∧
    (n < 5) :=
  ⟨4, 0, { st [] with now := 10 ^ 7, lantern := { load := some { starts := [4] } } }, by decide +kernel⟩

theorem wit_LanternRectangles_10 : ∃ (n : Nat) (c : Nat) (s : State),
    (s.lantern.load = some { since := c, ends := [n] }) ∧
    (heldAll s = false) ∧
    (c + loadTime s ≤ s.now) ∧
    (s.lantern.vhvn = false) ∧
    (n < 5) :=
  ⟨4, 0, { st [] with now := 10 ^ 7, lantern := { load := some { ends := [4] } } }, by decide +kernel⟩

theorem wit_LanternRectangles_11 : ∃ (c : ChainLoad) (s : State),
    (s.lantern.load = some c) ∧
    (c.blank = 1) ∧
    (heldAll s = false) ∧
    (c.since + loadTime s ≤ s.now) ∧
    (lanState s = lsClearing) ∧
    (s.lantern.slots = []) ∧
    (∀ n < 5, eccIn s (journalAt n) 128 = [] ∧ leNat (rdBytes s (journalAt n) 4) ≠ 0x4C4A4E31) :=
  ⟨{ blank := 1 }, { st [(Reg.LANTERN_STAT, BitVec.ofNat 32 (2 * 2 ^ F.LANTERN_STAT_STATE.lo)), (Reg.LANTERN_CFG, BitVec.ofNat 32 (2 ^ F.LANTERN_CFG_CLASS.lo + 2 ^ F.LANTERN_CFG_RAIL_MS.lo + 2 ^ F.LANTERN_CFG_SIZE.lo))] with now := 10 ^ 7, lantern := { load := some { blank := 1 } } }, by decide +kernel⟩

theorem wit_LanternRectangles_12 : ∃ (c : ChainLoad) (s : State),
    (s.lantern.load = some c) ∧
    (c.blank = 2) ∧
    (heldAll s = false) ∧
    (c.since + loadTime s ≤ s.now) :=
  ⟨{ blank := 2 }, { st [] with now := 10 ^ 7, lantern := { load := some { blank := 2 } } }, by decide +kernel⟩

theorem wit_LanternRectangles_13 : ∃ (s : State),
    (s.lantern.load = none) :=
  ⟨State.reset, by decide +kernel⟩

theorem wit_LanternRectangles_14 : ∃ (n : Fin 5) (s : State),
    ((rect s n.val).phase = 5) ∧
    (heldAll s = false) ∧
    ((rect s n.val).since + (rect s n.val).pulse * vcoMs ≤ s.now) ∧
    (s.lantern.load ≠ none) :=
  ⟨4, { st [] with now := 0, lantern := { slots := [(4, { phase := 5 })], load := some {} } }, by decide +kernel⟩

theorem wit_LanternRectangles_15 : ∃ (n : Fin 5) (r : Rect) (s : State),
    (s.lantern.slots = [(n.val, r)]) ∧
    (r.phase = 8) ∧
    (r.since + journalTime 4 ≤ s.now) ∧
    (r.replay = false) ∧
    (s.lantern.iconDue = false) ∧
    (s.lantern.offDue = false) ∧
    (s.lantern.vhvn = false) ∧
    (s.ecc = []) ∧
    (∀ r < 3, flag s (Reg.MEM_FLIP_CFG r) F.MEM_FLIP_CFG_ARM = false) ∧
    (Permitted s (writeEnds (completeRect (storeMram s 14 (journalAt n.val + 0x50) (leBytes 4 r.seq)) n.val))) :=
  ⟨4, { phase := 8 }, { st [] with now := 1000, lantern := { slots := [(4, { phase := 8 })] } }, by decide +kernel⟩

theorem wit_AfterglowRecords_1 : ∃ (ini : Fin 16) (value : Word) (r : Nat) (s : State),
    (Reachable s ini 0x110 0x4C) ∧
    (value &&& 0xFFFC8200#32 = 0) ∧
    (fieldGet F.AGL_SW_CMD_OP value = 1) ∧
    (fieldGet F.AGL_SW_CMD_REC value = r) ∧
    (160 ≤ r ∧ r < 288) ∧
    (aglLoaded s = true) :=
  ⟨4, 0x1011F, 287, st [(Reg.AGL_STAT, 1), (Reg.AGL_SW_VAL, 9)], by decide +kernel⟩

theorem wit_AfterglowRecords_2 : ∃ (ini : Fin 16) (value : Word) (r : Nat) (s : State),
    (Reachable s ini 0x110 0x4C) ∧
    (value &&& 0xFFFC8200#32 = 0) ∧
    (fieldGet F.AGL_SW_CMD_OP value = 1) ∧
    (fieldGet F.AGL_SW_CMD_REC value = r) ∧
    (160 ≤ r ∧ r < 288) ∧
    (aglLoaded s = false) :=
  ⟨4, 0x1011F, 287, State.reset, by decide +kernel⟩

theorem wit_AfterglowRecords_3 : ∃ (ini : Fin 16) (value : Word) (r : Nat) (s : State),
    (Reachable s ini 0x110 0x4C) ∧
    (value &&& 0xFFFC8200#32 = 0) ∧
    (fieldGet F.AGL_SW_CMD_BIN value < 28) ∧
    (fieldGet F.AGL_SW_CMD_OP value = 2) ∧
    (fieldGet F.AGL_SW_CMD_REC value = r) ∧
    (96 ≤ r ∧ r < 160) ∧
    (aglLoaded s = true) :=
  ⟨4, 0x26C9F, 159, st [(Reg.AGL_STAT, 1), (Reg.AGL_SW_VAL, 9)], by decide +kernel⟩

theorem wit_AfterglowRecords_4 : ∃ (ini : Fin 16) (value : Word) (r : Nat) (s : State),
    (Reachable s ini 0x110 0x4C) ∧
    (value &&& 0xFFFC8200#32 = 0) ∧
    (fieldGet F.AGL_SW_CMD_OP value = 3) ∧
    (fieldGet F.AGL_SW_CMD_REC value = r) ∧
    (96 ≤ r ∧ r < 288) ∧
    (aglLoaded s = true) :=
  ⟨4, 0x3011F, 287, st [(Reg.AGL_STAT, 1), (Reg.AGL_SW_VAL, 9)], by decide +kernel⟩

theorem wit_AfterglowRecords_5 : ∃ (ini : Fin 16) (value : Word) (s : State),
    (Reachable s ini 0x110 0x4C) ∧
    (value &&& 0xFFFC8200#32 = 0) ∧
    (fieldGet F.AGL_SW_CMD_OP value = 1) ∧
    (fieldGet F.AGL_SW_CMD_REC value < 160) :=
  ⟨4, 0x1009F, st [(Reg.AGL_STAT, 1), (Reg.AGL_SW_VAL, 9)], by decide +kernel⟩

theorem wit_AfterglowRecords_6 : ∃ (s : State),
    (s.start.step = .filled ∨ s.start.step = .running) ∧
    (aglLoaded s = false) ∧
    (s.agl.queue = []) ∧
    (∀ r < 288, aglGenOf s r false = 0 ∧ aglGenOf s r true = 0) ∧
    (s.ecc = []) :=
  ⟨{ State.reset with start := { step := .filled } }, by decide +kernel⟩

theorem wit_AfterglowRecords_7 : ∃ (r : Nat) (b : Bool) (s : State),
    (s.start.step = .filled ∨ s.start.step = .running) ∧
    (aglLoaded s = false) ∧
    (s.agl.queue = []) ∧
    (r < 288) ∧
    (aglNewer s r = some b) ∧
    (s.ecc = []) :=
  ⟨5, false, aglSt, by decide +kernel, by decide +kernel, by decide +kernel, by decide +kernel, aglSt_newer, by decide +kernel⟩

theorem wit_AfterglowRecords_8 : ∃ (s : State),
    (aglLoaded s = true ∨ (s.start.step ≠ .filled ∧ s.start.step ≠ .running)) :=
  ⟨State.reset, by decide +kernel⟩

theorem wit_AfterglowRecords_9 : ∃ (record : Fin 288) (c : Bool) (g : Nat) (nb : Option Bool) (s : State),
    (s.agl.copying = none) ∧
    (pageEn s 0x110 = true) ∧
    (aglLoaded s = true) ∧
    (pfail s = false) ∧
    (aglReady s record.val = true) ∧
    (∀ q < record.val, aglReady s q = false) ∧
    (aglNewer s record.val = nb) ∧
    ((nb = none ∧ c = false ∧ g = 1) ∨ (∃ b, nb = some b ∧ c = !b ∧ g = (aglGenOf s record.val b + 1) % 0x100000000 ∧ g ≠ 0)) ∧
    (s.ecc = []) ∧
    (∀ r < 3, flag s (Reg.MEM_FLIP_CFG r) F.MEM_FLIP_CFG_ARM = false) ∧
    (Permitted s (aglBegin s record.val)) :=
  ⟨5, false, 1, none, { st [(Reg.AGL_STAT, 1), (Reg.PCTL 0x110, 1)] with agl := { dirty := [(5, true)] } }, by decide +kernel, by decide +kernel, by decide +kernel, by decide +kernel, by decide +kernel, by decide +kernel, by decide +kernel, Or.inl (by decide +kernel), by decide +kernel, by decide +kernel, by decide +kernel⟩

theorem wit_AfterglowRecords_10 : ∃ (record : Fin 288) (c : AglCopy) (s : State),
    (s.agl.copying = some c) ∧
    (c.record = record.val) ∧
    (c.step = 2) ∧
    (s.ecc = []) ∧
    (∀ r < 3, flag s (Reg.MEM_FLIP_CFG r) F.MEM_FLIP_CFG_ARM = false) ∧
    (Permitted s (aglStep s c)) :=
  ⟨5, { record := 5, gen := 1 }, { st [(Reg.AGL_STAT, 1), (Reg.PCTL 0x110, 1)] with agl := { dirty := [(5, true)], copying := some { record := 5, gen := 1 } } }, by decide +kernel⟩

theorem wit_AfterglowRecords_11 : ∃ (record : Fin 288) (c : AglCopy) (s : State),
    (s.agl.copying = some c) ∧
    (c.record = record.val) ∧
    (c.step ≠ 2) ∧
    (s.ecc = []) ∧
    (∀ r < 3, flag s (Reg.MEM_FLIP_CFG r) F.MEM_FLIP_CFG_ARM = false) ∧
    (Permitted s (aglStep s c)) :=
  ⟨5, { record := 5, gen := 1, step := 3 }, { st [(Reg.AGL_STAT, 1)] with agl := { copying := some { record := 5, gen := 1, step := 3 } } }, by decide +kernel⟩

theorem wit_AfterglowRecords_12 : ∃ (record : Fin 288) (c : AglCopy) (s : State),
    (s.agl.copying = some c) ∧
    (c.record ≠ record.val) :=
  ⟨5, { record := 6 }, { State.reset with agl := { copying := some { record := 6 } } }, by decide +kernel⟩

theorem wit_AfterglowRecords_13 : ∃ (record : Fin 288) (s : State),
    (s.agl.copying = none) ∧
    (pageEn s 0x110 = false ∨ aglLoaded s = false ∨ pfail s = true ∨ aglReady s record.val = false) :=
  ⟨5, State.reset, by decide +kernel⟩

theorem wit_AfterglowRecords_14 : ∃ (temp : BitVec 16) (supplies : List Nat) (s : State),
    (s.agl.seconds < monoNs s / 1000000000) ∧
    (aglLoaded s = true) :=
  ⟨0x190, [5, 5, 5, 5, 5], { st [(Reg.AGL_STAT, 1), (Reg.AGL_SW_VAL, 9)] with clock := { mono := 10 ^ 19 } }, by decide +kernel⟩

theorem wit_AfterglowRecords_15 : ∃ (temp : BitVec 16) (supplies : List Nat) (s : State),
    (s.agl.seconds < monoNs s / 1000000000) ∧
    (aglLoaded s = false) :=
  ⟨0x190, [5, 5, 5, 5, 5], { State.reset with clock := { mono := 10 ^ 19 } }, by decide +kernel⟩

theorem wit_AfterglowRecords_16 : ∃ (temp : BitVec 16) (supplies : List Nat) (s : State),
    (monoNs s / 1000000000 ≤ s.agl.seconds) :=
  ⟨0, [], State.reset, by decide +kernel⟩

theorem wit_UnassignedPageIsHostError_1 : ∃ (ini : Fin 16) (pg : Fin 4096) (off : Fin 1024) (v : Option Word) (hw : Word) (s : State),
    (pageDomain pg.val = none) :=
  ⟨4, 4095, 1023, none, 0, State.reset, by decide +kernel⟩

theorem wit_UnassignedPageIsHostError_2 : ∃ (ini : Fin 16) (pg : Fin 4096) (v : Word) (s : State),
    (pageDomain pg.val = none) :=
  ⟨4, 11, 0, State.reset, by decide +kernel⟩

theorem wit_UnassignedPageIsHostError_3 : ∃ (ini : Fin 16) (pg : Fin 4096) (en : Bool) (s : State),
    (pageDomain pg.val = none) :=
  ⟨4, 11, true, State.reset, by decide +kernel⟩

theorem wit_RegisterWrites_1 : ∃ (ini : Fin 16) (pg : Fin 4096) (v : Word) (hw : Word) (s : State),
    (Reachable s ini pg.val 0x10) ∧
    (intErr pg.val v = none) :=
  ⟨4, 0xF0, 3, 0, State.reset, by decide +kernel⟩

theorem wit_RegisterWrites_2 : ∃ (ini : Fin 16) (pg : Fin 4096) (v : Word) (hw : Word) (s : State),
    (Reachable s ini pg.val 0x0C) ∧
    (intErr pg.val v = none) :=
  ⟨4, 0xF0, 3, 1, st [(Reg.INT_RAW 0xF0, 3)], by decide +kernel⟩

theorem wit_RegisterWrites_3 : ∃ (ini : Fin 16) (v : Word) (hw : Word) (s : State),
    (Reachable s ini 0x110 0x48) :=
  ⟨4, 7, 0, State.reset, by decide +kernel⟩

theorem wit_RegisterWrites_4 : ∃ (ini : Fin 16) (v : Word) (hw : Word) (s : State),
    (Reachable s ini 0x30 0x40) :=
  ⟨4, 7, 0, st [(Reg.DMA_DONE_PEND, 15)], by decide +kernel⟩

theorem wit_RegisterWrites_5 : ∃ (ini : Fin 16) (v : Word) (hw : Word) (s : State),
    (Reachable s ini 0x110 0x50) ∧
    (v.toNat < 512) :=
  ⟨4, 7, 0, State.reset, by decide +kernel⟩

theorem wit_RegisterWrites_6 : ∃ (ini : Fin 16) (v : Word) (hw : Word) (s : State),
    (Reachable s ini 0xD0 0x44) ∧
    (lockErr s 0xD0 = none) ∧
    (pageEn s 0xD0 = false) :=
  ⟨4, 7, 0, { State.reset with pkey := [(0xD0, { closeAt := some 1 })] }, by decide +kernel⟩

theorem wit_RegisterWrites_7 : ∃ (ini : Fin 16) (v : Word) (hw : Word) (s : State),
    (Reachable s ini 0xD0 0x44) ∧
    (flag s (Reg.PCTL 0xD0) F.PCTL_LOCK = true) :=
  ⟨4, 7, 0, st [(Reg.PCTL 0xD0, 4)], by decide +kernel⟩

theorem wit_RegisterWrites_8 : ∃ (ini : Fin 16) (pg : Fin 4096) (v : Word) (hw : Word) (s : State),
    (pageErr s pg.val 0x10 = none) ∧
    (foreignPage s ini pg.val = true) :=
  ⟨4, 0xA0, 3, 0, st [(Reg.SYS_CORE_REL, 64)], by decide +kernel⟩

theorem wit_RegisterWrites_9 : ∃ (ini : Fin 16) (pg : Fin 4096) (v : Word) (hw : Word) (s : State),
    (Reachable s ini pg.val 0x10) ∧
    (intErr pg.val v ≠ none) :=
  ⟨4, 0xF0, 0x10, 0, State.reset, by decide +kernel⟩

theorem wit_RegisterWrites_10 : ∃ (ini : Fin 16) (hw : Word) (s : State),
    (pageErr s 0x110 0x48 = none) :=
  ⟨4, 0, st [(Reg.AGL_SW_VAL, 9)], by decide +kernel⟩

theorem wit_RegisterWrites_11 : ∃ (ini : Fin 16) (pg : Fin 4096) (hw : Word) (s : State),
    (pageErr s pg.val 0x14 = none) :=
  ⟨4, 0xF0, 0, st [(Reg.INT_RAW 0xF0, 3), (Reg.INT_EN 0xF0, 1)], by decide +kernel⟩

theorem wit_RegisterWrites_12 : ∃ (ini : Fin 16) (hw : Word) (s : State),
    (pageErr s 0x70 0x4C = none) :=
  ⟨4, 1, st [(0x7004C, 7)], by decide +kernel⟩

theorem wit_RegisterWrites_13 : ∃ (ini : Fin 16) (addr : Word) (v : Option Word) (hw : Word) (s : State),
    (addr.toNat < 0xF0000000 ∨ 0xF0FFFFFF < addr.toNat) :=
  ⟨4, 0xF1000000, none, 0, State.reset, by decide +kernel⟩

theorem wit_RegisterWrites_14 : ∃ (ini : Fin 16) (addr : Word) (v : Option Word) (hw : Word) (s : State),
    (0xF0000000 ≤ addr.toNat ∧ addr.toNat ≤ 0xF0FFFFFF) ∧
    (addr.toNat % 4 ≠ 0) :=
  ⟨4, 0xF0FFFFFE, none, 0, State.reset, by decide +kernel⟩

theorem wit_StepRunsFrontCommand_2 : ∃ (s : State),
    (s.pending = []) ∧
    (Permitted s (tick s)) :=
  ⟨State.reset, by decide +kernel⟩

theorem wit_StepRunsFrontCommand_3 : ∃ (n : Nat) (s : State),
    (s.pending = []) ∧
    (s.hostErr = none) ∧
    ((tick s).hostErr = some n) :=
  ⟨357, { st [(Reg.DMA_STAT 0, 1)] with now := 7, dma := [(0, { dst := 0x100, len := 64 })], mmu := { tlb := [{ who := 6, leaf := 0x200000C7 }] } }, by decide +kernel⟩

theorem wit_StepKeepsMemoryCanonical_1 : ∃ (s : State) (t : State),
    (Memory.wf s.mem = true) ∧
    (step s = .next t) :=
  ⟨State.reset, tick State.reset, by decide +kernel, rfl⟩

/-! ### Well-formedness refuses -/

theorem test_wf_address_low : (Instr.registerWrite 4 0xEFFFFFFC (some 0) 0).wellFormed = false := by decide
theorem test_wf_address_high : (Instr.registerWrite 4 0xF1000000 (some 0) 0).wellFormed = false := by decide
theorem test_wf_address_first : (Instr.registerWrite 4 0xF0000000 (some 0) 0).wellFormed = true := by decide
theorem test_wf_stalls : (Instr.cleTick (List.replicate 257 0)).wellFormed = false := by decide +kernel
theorem test_wf_adl : (Instr.adlFrame (List.replicate 1025 0)).wellFormed = false := by
  show decide ((List.replicate 1025 (0 : Word)).length ≤ 1024) = false
  rw [List.length_replicate]
  decide
theorem test_wf_monitor : (Instr.clockMonitorWindow (2 ^ 32)).wellFormed = false := by decide
theorem test_wf_link : (Instr.statusReceive (List.replicate 4125 0)).wellFormed = false := by
  show decide ((List.replicate 4125 (0 : Byte)).length ≤ 4124) = false
  rw [List.length_replicate]
  decide
theorem test_wf_supplies : (Instr.aglSecond 0 [1, 2, 3, 4]).wellFormed = false := by decide
theorem test_wf_flips : (Instr.glintRead 0 (List.replicate 257 0)).wellFormed = false := by decide +kernel
theorem test_wf_index : (Instr.mergeFlush (2 ^ 32)).wellFormed = false := by decide

/-! ### The arbiter: the example after R34, pointer 5 on one SysRAM bank group -/

def arbState (p : Nat) : State := { arb := [(2, p)] }

theorem test_arb_cycle1 : (arbGrant (arbState 5) 2 0x0184#16).1 = some 7 ∧ (arbGrant (arbState 5) 2 0x0184#16).2 = arbState 6 := by decide
theorem test_arb_cycle3 : (arbGrant (arbState 7) 2 0x0004#16).1 = some 2 ∧ (arbGrant (arbState 7) 2 0x0004#16).2 = arbState 8 := by decide
theorem test_arb_cycle4 : (arbGrant (arbState 8) 2 0#16).1 = none ∧ (arbGrant (arbState 8) 2 0#16).2 = arbState 8 := by decide
theorem test_arb_cycle5 : (arbGrant (arbState 8) 2 0x0210#16).1 = some 9 ∧ (arbGrant (arbState 8) 2 0x0210#16).2 = arbState 9 := by decide

/-! ### Values the spec gives -/

/-- R28: SYS reads 0x0010_0100 and the third RXE page 0x0050_0102. -/
theorem test_pid : rd State.reset (Reg.PID 0) = 0x00100100 ∧ rd State.reset (Reg.PID 0x52) = 0x00500102 := by decide +kernel

/-- The example after R457: 0x2054_1238 lies in bank 21 of bank group 2, row 4. -/
theorem test_bank : bankOf 0x20541238 = 21 ∧ portOf 0x20541238 = 2 ∧ rowOf 0x20541238 = 21 * 256 + 4 := by decide

/-! ### Known answers of the named standards -/

/-- CRC-32C of "123456789" (RFC 3720). -/
theorem test_crc32c : crc32c [0x31, 0x32, 0x33, 0x34, 0x35, 0x36, 0x37, 0x38, 0x39] = 0xE3069283 := by decide +kernel

/-- AES-128 of FIPS 197, appendix C.1. -/
theorem test_aes : aesEnc ((List.range 16).map (BitVec.ofNat 8)) ((List.range 16).map (fun i => BitVec.ofNat 8 (0x11 * i))) =
    [0x69, 0xC4, 0xE0, 0xD8, 0x6A, 0x7B, 0x04, 0x30, 0xD8, 0xCD, 0xB7, 0x80, 0x70, 0xB4, 0xC5, 0x5A] := by decide +kernel

/-! ### Steps -/

/-- A step runs the command in front and leaves the rest waiting. -/
theorem test_step : ∃ t, step { State.reset with pending := [.monoLoRead, .fence 0 []] } = .next t ∧ t.pending = [.fence 0 []] := ⟨_, rfl, rfl⟩

end Sys2Proof.Tests
end

section
/-!
PROOFS. Unassigned pages (R29): every access asks the page first, and no command of the table has a register there.
-/

namespace Sys2Proof.Machine

/-- An unassigned page lies outside every row of the page table. -/
theorem outside_pageTable {pg : Nat} (h : pageDomain pg = none) : ∀ r ∈ pageTable, pg < r.1 ∨ r.2.1 < pg := by
  intro r hr
  rw [pageDomain, pageInfo, Option.map_eq_none_iff, Option.map_eq_none_iff, List.find?_eq_none] at h
  have hout := h r hr
  simp only [Bool.and_eq_true, decide_eq_true_eq] at hout
  omega

theorem pageErr_unassigned {pg : Nat} (h : pageDomain pg = none) (s : State) (off : Nat) : pageErr s pg off = some 29 := by
  rw [pageErr, h]

/-- An access error of the page is the answer of a write, whatever the write would do. -/
theorem softWrite_pageErr {s : State} {pg off n : Nat} (h : pageErr s pg off = some n) (ini : Fin 16) (e : Option Nat)
    (f : State → State) : softWrite ini pg off e s f = .fault (.hostError n) := by
  rw [softWrite, h, Option.orElse_some, check]

theorem settleWrite_pageErr {s : State} {pg off n : Nat} (h : pageErr s pg off = some n) (ini : Fin 16) (e : Option Nat)
    (f : State → State) : settleWrite ini pg off e s f = .fault (.hostError n) := by
  rw [settleWrite, h, Option.orElse_some, check]

theorem pageWrite_pageErr {s : State} {pg off n : Nat} (h : pageErr s pg off = some n) (ini : Fin 16) (e : Option Nat)
    (f : State → State) : pageWrite ini pg off e s f = .fault (.hostError n) := by
  rw [pageWrite, safeWrite, if_neg (by simp [h]), softWrite_pageErr h]

theorem pageSettle_pageErr {s : State} {pg off n : Nat} (h : pageErr s pg off = some n) (ini : Fin 16) (e : Option Nat)
    (f : State → State) : pageSettle ini pg off e s f = .fault (.hostError n) := by
  rw [pageSettle, if_neg (by simp [h]), settleWrite_pageErr h]

/-- No command of the table belongs to a register of an unassigned page. -/
theorem busRoute_unassigned {pg : Nat} (h : pageDomain pg = none) (ini : Fin 16) (off : Nat) (v : Word) (s : State) :
    busRoute ini pg off v s = none := by
  have hout := outside_pageTable h
  simp only [pageTable, List.forall_mem_cons] at hout
  have low : routeLow ini pg off v s = none := by
    simp (disch := omega) only [routeLow, ↓if_neg]
  have mid : routeMid ini pg off v s = none := by
    simp (disch := omega) only [routeMid, ↓if_neg]
  have high : routeHigh ini pg off v s = none := by
    simp (disch := omega) only [routeHigh, ↓if_neg]
  have top : routeTop ini pg off v s = none := by
    simp (disch := omega) only [routeTop, ↓if_neg]
  rw [busRoute, low, mid, high, top, ite_self, ite_self, ite_self]

theorem readRoute_unassigned {pg : Nat} (h : pageDomain pg = none) (ini : Fin 16) (off : Nat) (s : State) :
    readRoute ini pg off s = none := by
  have hout := outside_pageTable h
  simp only [pageTable, List.forall_mem_cons] at hout
  simp (disch := omega) only [readRoute, ↓if_neg]

theorem headerWrite_unassigned {pg : Nat} (h : pageDomain pg = none) (ini : Fin 16) (off : Nat) (v hw : Word) (s : State) :
    headerWrite ini pg off v hw s = .fault (.hostError 29) := by
  have herr := pageErr_unassigned h s off
  unfold headerWrite
  repeat' split
  · exact pageSettle_pageErr herr ini _ _
  all_goals exact pageWrite_pageErr herr ini _ _

theorem plainWrite_unassigned {pg : Nat} (h : pageDomain pg = none) (ini : Fin 16) (off : Nat) (v hw : Word) (s : State) :
    plainWrite ini pg off v hw s = .fault (.hostError 29) := by
  have herr := pageErr_unassigned h s off
  unfold plainWrite
  dsimp only
  split <;> exact pageWrite_pageErr herr ini _ _

theorem writeRegister_unassigned {pg : Nat} (h : pageDomain pg = none) (ini : Fin 16) (off : Nat) (v hw : Word) (s : State) :
    writeRegister ini pg off v hw s = .fault (.hostError 29) := by
  rw [writeRegister, busRoute_unassigned h, headerWrite_unassigned h]
  exact ite_eq_left_iff.mpr fun _ => plainWrite_unassigned h ini off v hw s

theorem readRegister_unassigned {pg : Nat} (h : pageDomain pg = none) (ini : Fin 16) (off : Nat) (hw : Word) (s : State) :
    readRegister ini pg off hw s = .fault (.hostError 29) := by
  rw [readRegister, readRoute_unassigned h, pageErr_unassigned h]
  exact ite_self _

theorem exec_registerWrite (ini : Fin 16) (addr : Word) (value : Option Word) (hw : Word) (s : State) :
    exec (.registerWrite ini addr value hw) s = execRegisterWrite ini addr value hw s := rfl

/-- The address of a word of a page of register space (R18, R19). -/
theorem toNat_pageWord (pg : Fin 4096) (off : Fin 1024) :
    (0xF0000000#32 + BitVec.ofNat 32 (0x1000 * pg.val + 4 * off.val)).toNat =
      0xF0000000 + 0x1000 * pg.val + 4 * off.val := by
  rw [BitVec.toNat_add, BitVec.toNat_ofNat, BitVec.toNat_ofNat]
  omega

/-- An aligned access within register space is a write or a read of the word's register. -/
theorem execRegisterWrite_pageWord (ini : Fin 16) (pg : Fin 4096) (off : Fin 1024) (value : Option Word) (hw : Word)
    (s : State) :
    execRegisterWrite ini (0xF0000000#32 + BitVec.ofNat 32 (0x1000 * pg.val + 4 * off.val)) value hw s =
      value.elim (readRegister ini pg.val (4 * off.val) hw s) (fun v => writeRegister ini pg.val (4 * off.val) v hw s) := by
  have hpg : (0xF0000000 + 0x1000 * pg.val + 4 * off.val - 0xF0000000) / 0x1000 = pg.val := by omega
  have hoff : (0xF0000000 + 0x1000 * pg.val + 4 * off.val) % 0x1000 = 4 * off.val := by omega
  unfold execRegisterWrite
  dsimp only
  rw [toNat_pageWord, if_neg (by omega), if_neg (by omega), hpg, hoff]
  cases value <;> rfl

/-- Settles O56: every access first asks `pageErr`, and no route of a command reaches an unassigned page. -/
theorem unassignedPageIsHostError : Obligations.UnassignedPageIsHostError := by
  refine ⟨fun ini pg off v hw s h => ?_, fun ini pg v s h => ⟨?_, ?_, ?_, ?_⟩, fun ini pg en s h => ?_⟩
  · rw [exec_registerWrite, execRegisterWrite_pageWord]
    cases v with
    | none => exact readRegister_unassigned h ini _ hw s
    | some v => exact writeRegister_unassigned h ini _ v hw s
  · exact pageWrite_pageErr (pageErr_unassigned h s _) ini _ _
  · exact pageWrite_pageErr (pageErr_unassigned h s _) ini _ _
  · exact pageSettle_pageErr (pageErr_unassigned h s _) ini _ _
  · exact pageWrite_pageErr (pageErr_unassigned h s _) ini _ _
  · exact pageSettle_pageErr (pageErr_unassigned h s _) ini _ _

end Sys2Proof.Machine
end

section
/-!
PROOFS. Semaphores (R35): the lowest core that asks.
-/

namespace Sys2Proof.Machine

/-- The request that wins is that of the lowest core asking. -/
theorem execSemaphoreRequest_lowest {requesters : BitVec 7} {c : Nat} (hc : c < 7) (hreq : requesters.getLsbD c = true)
    (hlow : ∀ j < c, requesters.getLsbD j = false) (n : Fin 64) (s : State) :
    execSemaphoreRequest n requesters s = .next (if mget 0 s.sem n.val = 0 then
      answer { s with sem := mput 0 s.sem n.val (c + 1) } [1#32 <<< c] else answer s [0]) := by
  have hfind : (List.range 7).find? (fun k => requesters.getLsbD k) = some c := by
    rw [List.find?_range_eq_some]
    exact ⟨hreq, List.mem_range.mpr hc, fun j hj => by rw [hlow j hj]; rfl⟩
  rw [execSemaphoreRequest, hfind]
  simp only [beq_iff_eq]

/-- Among the cores that ask there is a lowest one. -/
theorem exists_lowest_requester {requesters : BitVec 7} (h : requesters ≠ 0) :
    ∃ c < 7, requesters.getLsbD c = true ∧ ∀ j < c, requesters.getLsbD j = false := by
  cases hfind : (List.range 7).find? (fun k => requesters.getLsbD k) with
  | some c =>
    obtain ⟨hreq, hmem, hlow⟩ := List.find?_range_eq_some.mp hfind
    exact ⟨c, List.mem_range.mp hmem, hreq, fun j hj => by rw [← Bool.not_eq_true']; exact hlow j hj⟩
  | none =>
    have hall := List.find?_eq_none.mp hfind
    refine absurd (BitVec.eq_of_getLsbD_eq fun i hi => ?_) h
    rw [Bool.eq_false_iff.mpr (hall i (List.mem_range.mpr hi))]
    exact BitVec.getLsbD_zero.symm

/-- Settles O4, by the lowest requester and the map of owners after an update of one entry. -/
theorem semaphoreGoesToLowestCore : Obligations.SemaphoreGoesToLowestCore := by
  refine ⟨fun n requesters c s hc hreq hlow hfree => ?_, fun n requesters s hne htaken => ?_⟩
  · refine ⟨_, (execSemaphoreRequest_lowest hc hreq hlow n s).trans (by rw [if_pos hfree]), ?_, rfl, ?_, rfl⟩
    · exact mget_mput_self 0 (c + 1) n.val s.sem
    · exact fun m hm => mget_mput_ne 0 0 (c + 1) hm s.sem
  · obtain ⟨c, hc, hreq, hlow⟩ := exists_lowest_requester hne
    exact ⟨answer s [0], (execSemaphoreRequest_lowest hc hreq hlow n s).trans (by rw [if_neg htaken]), rfl⟩

end Sys2Proof.Machine
end

section
/-!
PROOFS. The signal table (R11-R13, R36): numbers in CLE RAM, what a store there does to its code words, and the write of a
signal that is denied, applied or waits.
-/

namespace Sys2Proof.Machine

/-! ### Numbers in CLE RAM -/

/-- A number in CLE RAM depends on its own bytes only. -/
theorem cleRd_congr {s t : State} {n : Nat} : ∀ {a : Nat},
    (∀ b, a ≤ b → b < a + n → mget 0 t.cleRam b = mget 0 s.cleRam b) → cleRd t a n = cleRd s a n := by
  induction n with
  | zero => intro a _; rfl
  | succ n ih =>
    intro a h
    rw [cleRd, cleRd, h a (by omega) (by omega), ih fun b hb hb' => h b (by omega) (by omega)]

theorem cleRd_lt (s : State) (n : Nat) : ∀ a, cleRd s a n < 256 ^ n := by
  induction n with
  | zero => intro a; exact Nat.one_pos
  | succ n ih =>
    intro a
    have hrest := ih (a + 1)
    have hbyte : (mget 0 s.cleRam a).toNat < 256 := BitVec.isLt _
    rw [cleRd, Nat.pow_succ]
    omega

/-- A store in CLE RAM leaves every byte outside it. -/
theorem mget_cleWr_out (n : Nat) : ∀ (s : State) (a v b : Nat), b < a ∨ a + n ≤ b →
    mget 0 (cleWr s a n v).cleRam b = mget 0 s.cleRam b := by
  induction n with
  | zero => intro s a v b _; rfl
  | succ n ih =>
    intro s a v b h
    rw [cleWr, ih _ _ _ _ (by omega)]
    exact mget_mput_ne 0 0 _ (by omega) s.cleRam

/-- A number stored in CLE RAM is the number read, modulo its width. -/
theorem cleRd_cleWr_self (n : Nat) : ∀ (s : State) (a v : Nat), cleRd (cleWr s a n v) a n = v % 256 ^ n := by
  induction n with
  | zero => intro s a v; rw [Nat.pow_zero, Nat.mod_one, cleRd]
  | succ n ih =>
    intro s a v
    have hbyte : mget 0 (cleWr s a (n + 1) v).cleRam a = BitVec.ofNat 8 v :=
      (mget_cleWr_out n _ _ _ _ (by omega)).trans (mget_mput_self 0 _ a s.cleRam)
    rw [cleRd, hbyte, cleWr, ih, BitVec.toNat_ofNat, Nat.pow_succ' (m := 256)]
    exact Nat.mod_mul.symm

/-! ### What a store in CLE RAM does beside it -/

/-- What the bookkeeping of the code words may change: registers of MEM, Glint, CLE and Afterglow, the error map, the
memory system and the Afterglow working set (R439, R542). -/
structure EccFrame (s t : State) : Prop where
  rest : t = { s with regs := t.regs, ecc := t.ecc, memSys := t.memSys, agl := t.agl }
  blocks : KeepsBlocks [0x20, 0x23, 0x70, 0x110] s t

/-- What a write of the signal table may change: also CLE RAM, the arbiter pointers and CLE's own state. -/
structure SignalFrame (s t : State) : Prop where
  rest : t = { s with
    regs := t.regs, cleRam := t.cleRam, arb := t.arb, cle := t.cle, ecc := t.ecc, memSys := t.memSys, agl := t.agl }
  blocks : KeepsBlocks [0x20, 0x23, 0x70, 0x110] s t

theorem EccFrame.refl (s : State) : EccFrame s s := ⟨rfl, .same _ rfl⟩

theorem EccFrame.trans {s t u : State} (h : EccFrame s t) (k : EccFrame t u) : EccFrame s u :=
  ⟨k.rest.trans (by rw [h.rest]), h.blocks.trans' k.blocks⟩

theorem SignalFrame.trans {s t u : State} (h : SignalFrame s t) (k : SignalFrame t u) : SignalFrame s u :=
  ⟨k.rest.trans (by rw [h.rest]), h.blocks.trans' k.blocks⟩

theorem EccFrame.signalFrame {s t : State} (h : EccFrame s t) : SignalFrame s t :=
  ⟨by rw [h.rest], h.blocks⟩

theorem EccFrame.cleRam {s t : State} (h : EccFrame s t) : t.cleRam = s.cleRam := by rw [h.rest]

theorem EccFrame.wr (s : State) {a : Nat} (v : Word) (h : InBlocks [0x20, 0x23, 0x70, 0x110] a) :
    EccFrame s (wr s a v) := ⟨rfl, .wr' _ s a v h⟩

theorem EccFrame.setAgl (s : State) (f : Agl → Agl) : EccFrame s (setAgl s f) := ⟨rfl, .same _ rfl⟩

theorem EccFrame.setMem (s : State) (f : MemSys → MemSys) : EccFrame s (setMem s f) := ⟨rfl, .same _ rfl⟩

theorem EccFrame.setEcc (s : State) (w : Nat) (e : EccWord) : EccFrame s (setEcc s w e) := ⟨rfl, .same _ rfl⟩

theorem EccFrame.aglWr (n : Nat) : ∀ (s : State) (r off v : Nat), EccFrame s (aglWr s r off n v) := by
  induction n with
  | zero => intro s r off v; exact .refl s
  | succ n ih => intro s r off v; exact (EccFrame.setAgl s _).trans (ih _ _ _ _)

theorem EccFrame.aglTouch (s : State) (r : Nat) : EccFrame s (aglTouch s r) := by
  have hpend : InBlocks [0x20, 0x23, 0x70, 0x110] Reg.AGL_PEND := by unfold InBlocks; decide
  exact ((((((EccFrame.aglWr _ s _ _ _).trans (.aglWr _ _ _ _ _)).trans (.aglWr _ _ _ _ _)).trans
    (.aglWr _ _ _ _ _)).trans (.aglWr _ _ _ _ _)).trans (.setAgl _ _)).trans (.wr _ _ hpend)

/-- An addition to a counter of Afterglow, applied or waiting for the load (R520, R521). -/
theorem EccFrame.aglEvent_add (s : State) (r off n v : Nat) : EccFrame s (aglEvent s (.add r off n v)) := by
  unfold aglEvent
  split
  · exact (EccFrame.aglWr _ s _ _ _).trans (.aglTouch _ r)
  · exact .setAgl s _

/-- CLE RAM and CAN RAM lie under no page of MEM. -/
theorem memInst_cleEcc {w : Nat} (h : cleEcc ≤ w) : memInst w = none := by
  rw [cleEcc] at h
  rw [memInst, if_neg (by omega), if_neg (by omega), if_neg (by omega)]

/-- A correction in CLE RAM is counted by Glint and Afterglow (R439). -/
theorem EccFrame.recordCe {s : State} {w : Nat} (h : cleEcc ≤ w) : EccFrame s (recordCe s w) := by
  have hcount : InBlocks [0x20, 0x23, 0x70, 0x110] Reg.GLINT_LOC_CE := by unfold InBlocks; decide
  rw [Machine.recordCe, memInst_cleEcc h]
  exact (EccFrame.wr s _ hcount).trans (.aglEvent_add _ _ _ _ _)

theorem EccFrame.wordWritten {s : State} {w : Nat} (h : cleEcc ≤ w) : EccFrame s (wordWritten s w) := by
  rw [Machine.wordWritten, trkArm, memInst_cleEcc h]
  exact .setMem s _

theorem EccFrame.eccPart {s : State} {a : Nat} (n : Nat) (h : cleEcc ≤ a) : EccFrame s (eccPart s a n) := by
  have hw : cleEcc ≤ a / 8 * 8 := by rw [cleEcc] at h ⊢; omega
  have hword := EccFrame.wordWritten (s := s) hw
  unfold Machine.eccPart
  dsimp only
  split
  · exact hword.trans (.setEcc _ _ _)
  · split
    · exact hword
    · exact (hword.trans (.recordCe hw)).trans (.setEcc _ _ _)
    · exact hword.trans (.setEcc _ _ _)

theorem SignalFrame.cleWr (n : Nat) : ∀ (s : State) (a v : Nat), SignalFrame s (cleWr s a n v) := by
  induction n with
  | zero => intro s a v; exact ⟨rfl, .same _ rfl⟩
  | succ n ih =>
    intro s a v
    have hbyte : SignalFrame s { s with cleRam := mput 0 s.cleRam a (BitVec.ofNat 8 v) } := ⟨rfl, .same _ rfl⟩
    exact hbyte.trans (ih _ _ _)

theorem cleSet_bookkeeping (s : State) (a n v : Nat) : EccFrame (cleWr s a n v) (cleSet s a n v) :=
  .eccPart n (Nat.le_add_right _ _)

theorem SignalFrame.cleSet (s : State) (a n v : Nat) : SignalFrame s (cleSet s a n v) :=
  (SignalFrame.cleWr n s a v).trans (cleSet_bookkeeping s a n v).signalFrame

theorem cleRd_cleSet_self (s : State) (a n v : Nat) : cleRd (cleSet s a n v) a n = v % 256 ^ n := by
  rw [← cleRd_cleWr_self n s a v]
  exact cleRd_congr fun b _ _ => by rw [(cleSet_bookkeeping s a n v).cleRam]

/-- A store in CLE RAM leaves the numbers beside it. -/
theorem cleRd_cleSet_ne (s : State) {a n b m : Nat} (v : Nat) (h : b + m ≤ a ∨ a + n ≤ b) :
    cleRd (cleSet s a n v) b m = cleRd s b m :=
  cleRd_congr fun c _ _ => by
    rw [(cleSet_bookkeeping s a n v).cleRam, mget_cleWr_out n s a v c (by omega)]

/-! ### Entries of the signal table (R170) -/

theorem SignalFrame.sigStore (s : State) (g value qual : Nat) : SignalFrame s (sigStore s g value qual) := by
  unfold Machine.sigStore sigStoreAt
  exact ((SignalFrame.cleSet s _ _ _).trans (.cleSet _ _ _ _)).trans (.cleSet _ _ _ _)

theorem sigValue_sigStore (s : State) (g value qual : Nat) : sigValue (sigStore s g value qual) g = value % 2 ^ 16 := by
  have hwidth : 256 ^ 2 = 2 ^ 16 := by decide
  rw [sigValue, sigStore, sigStoreAt, cleRd_cleSet_ne _ _ (by omega), cleRd_cleSet_ne _ _ (by omega), cleRd_cleSet_self,
    hwidth]

/-- QUAL takes its two bits, and the rest of the half-word, WMASK in it, stays. -/
theorem sigAttr_sigStore (s : State) (g value qual : Nat) :
    sigAttr (sigStore s g value qual) g = sigAttr s g / 4 * 4 + qual % 4 := by
  have hattr : sigAttr s g < 256 ^ 2 := cleRd_lt s 2 _
  have hkeep : sigAttr (cleSet s (16 * g) 2 value) g = sigAttr s g := cleRd_cleSet_ne s value (by omega)
  rw [sigAttr, sigStore, sigStoreAt, cleRd_cleSet_ne _ _ (by omega), cleRd_cleSet_self, hkeep]
  omega

theorem sigQual_sigStore (s : State) (g value qual : Nat) : sigQual (sigStore s g value qual) g = qual % 4 := by
  rw [sigQual, sigAttr_sigStore]
  omega

theorem sigMask_sigStore (s : State) (g value qual : Nat) : sigMask (sigStore s g value qual) g = sigMask s g := by
  rw [sigMask, sigMask, sigAttr_sigStore]
  omega

theorem sigTime_sigStore (s : State) (g value qual : Nat) : sigTime (sigStore s g value qual) g = monoNs s % 2 ^ 64 := by
  have hwidth : 256 ^ 8 = 2 ^ 64 := by decide
  rw [sigTime, sigStore, sigStoreAt, cleRd_cleSet_self, hwidth]

/-! ### A write meets the table (R11, R36) -/

@[simp] theorem sigWritesNow_portUse (s : State) (cls : Nat) : sigWritesNow (portUse s cls) = sigWritesNow s :=
  if_pos rfl

/-- A write whose bit of the mask is 0 uses its port and is counted; no more. -/
theorem sigIssue_denied {s : State} {cls g : Nat} (h : (sigMask s g).testBit cls = false) (value : Option Nat) (qual : Nat) :
    sigIssue s cls g value qual = sigDenied (portUse s cls) :=
  if_pos (by rw [Bool.not_eq_true']; exact h)

/-- A permitted write of a signal that no other one has written in the cycle is applied. -/
theorem sigIssue_applied {s : State} {cls g : Nat} (h : (sigMask s g).testBit cls = true)
    (hw : ∀ w ∈ sigWritesNow s, w.signal ≠ g) (value : Option Nat) (qual : Nat) :
    sigIssue s cls g value qual = sigApply (portUse s cls) cls g (value.getD (sigValue s g)) qual := by
  have hmine : (sigWritesNow (portUse s cls)).filter (fun w => w.signal == g) = [] :=
    List.filter_eq_nil_iff.mpr fun w hmem => by rw [sigWritesNow_portUse] at hmem; simpa using hw w hmem
  have hmask : (sigMask (portUse s cls) g).testBit cls = true := h
  unfold sigIssue
  simp only [hmask, hmine]
  rfl

theorem fld_sigDenied (s : State) : fld (sigDenied s) Reg.CLE_DENIED F.CLE_DENIED_COUNT =
    min (fld s Reg.CLE_DENIED F.CLE_DENIED_COUNT + 1) (2 ^ F.CLE_DENIED_COUNT.width - 1) := by
  have hne : Reg.CLE_DENIED ≠ Reg.INT_RAW 0x70 := by decide
  have hpos : 0 < 2 ^ F.CLE_DENIED_COUNT.width := Nat.two_pow_pos _
  rw [sigDenied, raise, orReg, fld_wr_ne _ _ _ hne, satFld, fld_setFld_self _ _ _ _ (by decide), Nat.mod_eq_of_lt (by omega)]

theorem sigDenied_keepsRegs (s : State) : KeepsRegs [Reg.CLE_DENIED, Reg.INT_RAW 0x70] s (sigDenied s) :=
  (KeepsRegs.wr' _ s _ _ (by simp)).trans' (.wr' _ _ _ _ (by simp))

/-- What a denied write leaves: it is counted, and CLE RAM, the writes of the cycle and every other register stay (R11). -/
structure DeniedCounted (s t : State) : Prop where
  count : fld t Reg.CLE_DENIED F.CLE_DENIED_COUNT =
    min (fld s Reg.CLE_DENIED F.CLE_DENIED_COUNT + 1) (2 ^ F.CLE_DENIED_COUNT.width - 1)
  cleRam : t.cleRam = s.cleRam
  writes : sigWritesNow t = sigWritesNow s
  regs : KeepsRegs [Reg.CLE_DENIED, Reg.INT_RAW 0x70] s t

theorem sigIssue_deniedCounted {s : State} {cls g : Nat} (h : (sigMask s g).testBit cls = false) (value : Option Nat)
    (qual : Nat) : DeniedCounted s (sigIssue s cls g value qual) := by
  rw [sigIssue_denied h]
  exact ⟨fld_sigDenied _, rfl, sigWritesNow_portUse s cls, sigDenied_keepsRegs _⟩

theorem sigIssue_denied_queued {s : State} {cls g : Nat} (h : (sigMask s g).testBit cls = false) (value : Option Nat)
    (qual : Nat) : (sigIssue s cls g value qual).cle.queued = s.cle.queued := by
  rw [sigIssue_denied h]
  rfl

/-- A waiting write has left the queue. -/
def dequeued (s : State) (q : SigRequest) : State := { s with cle := { s.cle with queued := s.cle.queued.erase q } }

theorem portDrain_issues {s : State} {cls : Nat} {q : SigRequest}
    (h : s.cle.queued.find? (fun q => q.cls == cls) = some q) :
    portDrain s cls = sigIssue (dequeued s q) cls q.signal q.value q.qual := by
  rw [portDrain, h, dequeued]

/-- A waiting write whose bit of the mask is 0 leaves the queue and is counted. -/
theorem portDrain_deniedCounted {s : State} {cls : Nat} {q : SigRequest}
    (h : s.cle.queued.find? (fun q => q.cls == cls) = some q) (hmask : (sigMask s q.signal).testBit cls = false) :
    DeniedCounted s (portDrain s cls) ∧ (portDrain s cls).cle.queued = s.cle.queued.erase q := by
  have hmask' : (sigMask (dequeued s q) q.signal).testBit cls = false := hmask
  obtain ⟨hcount, hram, hwrites, hregs⟩ := sigIssue_deniedCounted hmask' q.value q.qual
  rw [portDrain_issues h]
  exact ⟨⟨hcount, hram, hwrites, hregs⟩, sigIssue_denied_queued hmask' q.value q.qual⟩

theorem SignalFrame.sigApply (s : State) (cls g value qual : Nat) : SignalFrame s (sigApply s cls g value qual) :=
  (SignalFrame.sigStore s g value qual).trans ⟨rfl, .same _ rfl⟩

theorem SignalFrame.portUse (s : State) (cls : Nat) : SignalFrame s (portUse s cls) := ⟨rfl, .same _ rfl⟩

/-- A write is issued where its domain is up, its port is free and none of its class waits. -/
theorem sigWrite_issues {s : State} {cls : Nat} (hup : domainUp s 4 = true) (hport : portUsed s cls = false)
    (hq : ∀ q ∈ s.cle.queued, q.cls ≠ cls) (g : Nat) (value : Option Nat) (qual : Nat) :
    sigWrite s cls g value qual = sigIssue s cls g value qual := by
  have hnone : s.cle.queued.any (fun q => q.cls == cls) = false :=
    List.any_eq_false.mpr fun q hmem => by simpa using hq q hmem
  rw [sigWrite, hup, hport, hnone]
  rfl

/-- A write waits behind the others of its class where the port has issued one or others wait. -/
theorem sigWrite_waits {s : State} {cls : Nat} (h : portUsed s cls = true ∨ ∃ q ∈ s.cle.queued, q.cls = cls) (g : Nat)
    (value : Option Nat) (qual : Nat) :
    sigWrite s cls g value qual = { s with cle := { s.cle with
      queued := s.cle.queued ++ [{ cls := cls, signal := g, value := value, qual := qual }] } } := by
  refine if_pos ?_
  rcases h with hport | ⟨q, hmem, hcls⟩
  · rw [hport, Bool.or_true, Bool.true_or]
  · rw [List.any_eq_true.mpr ⟨q, hmem, by rw [hcls]; exact beq_self_eq_true cls⟩, Bool.or_true]

/-! ### The signal window (R171) -/

theorem domainUp_of_pageErr {s : State} {pg off d : Nat} (h : pageErr s pg off = none) (hd : pageDomain pg = some d) :
    domainUp s d = true := by
  cases hup : domainUp s d with
  | true => rfl
  | false => simp [pageErr, hd, hup] at h

/-- The pages of the signal window run in CLK_CLE. -/
theorem pageDomain_signalWindow (g : Fin 4096) : pageDomain (0x78 + g.val / 512) = some 4 := by
  have hpages : ∀ k : Fin 8, pageDomain (0x78 + k.val) = some 4 := by decide
  exact hpages ⟨g.val / 512, by omega⟩

theorem exec_signalWindowWrite (ini : Fin 16) (g : Fin 4096) (value : Word) (s : State) :
    exec (.signalWindowWrite ini g value) s = execSignalWindowWrite ini g value s := rfl

section

variable {ini : Fin 16} {g : Fin 4096} {value : Word} {s : State}

/-- A write of QUAL 0b11 is a host error, after the access checks (R12). -/
theorem exec_signalWindowWrite_badQual (hr : Reachable s ini (0x78 + g.val / 512) (0x40 + 4 * (g.val % 512)))
    (hqual : fieldGet F.CLE_SIG_QUAL value = 3) : exec (.signalWindowWrite ini g value) s = .fault (.hostError 12) := by
  obtain ⟨hpage, -⟩ := hr
  rw [exec_signalWindowWrite, execSignalWindowWrite, softWrite, hpage, hqual]
  rfl

variable (hr : Reachable s ini (0x78 + g.val / 512) (0x40 + 4 * (g.val % 512)))
  (hqual : fieldGet F.CLE_SIG_QUAL value ≠ 3) (hres : value &&& 0xFF0C0000#32 = 0)
include hr hqual hres

/-- A write of a window word that breaks no rule of its fields is a write of class 0, after its access is granted. -/
theorem exec_signalWindowWrite_accepted : exec (.signalWindowWrite ini g value) s = .next (sigWrite (granted s ini) 0 g.val
    (some (fieldGet F.CLE_SIG_VALUE value)) (fieldGet F.CLE_SIG_QUAL value)) := by
  obtain ⟨hpage, -⟩ := hr
  rw [exec_signalWindowWrite, execSignalWindowWrite, softWrite_next]
  exact ⟨hpage, by simp [errIf, hqual, hres], rfl⟩

/-- One that finds its port taken waits in the queue. -/
theorem signalWindowWrite_waits (hbusy : portUsed s 0 = true ∨ ∃ q ∈ s.cle.queued, q.cls = 0) :
    Completes (.signalWindowWrite ini g value) s (fun t =>
      t = { s with arb := t.arb, cle := { s.cle with queued := s.cle.queued ++ [
        { cls := 0, signal := g.val, value := some (fieldGet F.CLE_SIG_VALUE value), qual := fieldGet F.CLE_SIG_QUAL value }] } }) := by
  have hexec := exec_signalWindowWrite_accepted hr hqual hres
  rw [granted_eq, sigWrite_waits (s := { s with arb := (granted s ini).arb }) hbusy] at hexec
  exact ⟨_, hexec, rfl⟩

variable (hport : portUsed s 0 = false) (hq : ∀ q ∈ s.cle.queued, q.cls ≠ 0)
include hport hq

/-- One that finds its port free, with no other of its class waiting, meets the table at once. -/
theorem exec_signalWindowWrite_issues : exec (.signalWindowWrite ini g value) s = .next (sigIssue
    { s with arb := (granted s ini).arb } 0 g.val (some (fieldGet F.CLE_SIG_VALUE value))
    (fieldGet F.CLE_SIG_QUAL value)) := by
  have hup : domainUp s 4 = true := domainUp_of_pageErr hr.1 (pageDomain_signalWindow g)
  rw [exec_signalWindowWrite_accepted hr hqual hres, granted_eq,
    sigWrite_issues (s := { s with arb := (granted s ini).arb }) hup hport hq]

theorem signalWindowWrite_denied (hmask : (sigMask s g.val).testBit 0 = false) :
    Completes (.signalWindowWrite ini g value) s (fun t => DeniedCounted s t ∧
      bitAt (rd t (Reg.INT_RAW 0x70)) 1 = true ∧ t = { s with regs := t.regs, arb := t.arb, cle := t.cle }) := by
  have hexec := exec_signalWindowWrite_issues hr hqual hres hport hq
  rw [sigIssue_denied (s := { s with arb := (granted s ini).arb }) hmask] at hexec
  exact ⟨_, hexec, ⟨fld_sigDenied _, rfl, sigWritesNow_portUse _ 0, sigDenied_keepsRegs _⟩,
    bitAt_raise _ 0x70 1 (by decide), rfl⟩

theorem signalWindowWrite_applied (hmask : (sigMask s g.val).testBit 0 = true)
    (hw : ∀ w ∈ sigWritesNow s, w.signal ≠ g.val) :
    Completes (.signalWindowWrite ini g value) s (fun t =>
      sigValue t g.val = fieldGet F.CLE_SIG_VALUE value ∧ sigQual t g.val = fieldGet F.CLE_SIG_QUAL value ∧
      sigMask t g.val = sigMask s g.val ∧ sigTime t g.val = monoNs s % 2 ^ 64 ∧ SignalFrame s t) := by
  have hexec := exec_signalWindowWrite_issues hr hqual hres hport hq
  rw [sigIssue_applied (s := { s with arb := (granted s ini).arb }) hmask hw] at hexec
  have hgrant : SignalFrame s { s with arb := (granted s ini).arb } := ⟨rfl, .same _ rfl⟩
  refine ⟨_, hexec, ?_, ?_, sigMask_sigStore _ _ _ _, sigTime_sigStore _ _ _ _,
    (hgrant.trans (.portUse _ 0)).trans (.sigApply _ _ _ _ _)⟩
  · exact (sigValue_sigStore _ _ _ _).trans (Nat.mod_mod _ _)
  · exact (sigQual_sigStore _ _ _ _).trans (Nat.mod_mod _ _)

end

/-- Settles O17, by what a write does where it is denied, where it is applied and where it waits. -/
theorem signalTableWrites : Obligations.SignalTableWrites := by
  refine ⟨fun ini g value s hr hqual hres hport hq hmask => ?_, fun ini g value s hr hqual hres hport hq hmask hw => ?_,
    fun _ _ _ _ hr hqual hres hbusy => signalWindowWrite_waits hr hqual hres hbusy,
    fun cls g value q s _ hmask => ?_, fun cls q s _ hfind hmask => ?_,
    fun _ _ _ _ hr hqual => exec_signalWindowWrite_badQual hr hqual⟩
  · obtain ⟨t, hexec, hdenied, hraised, hrest⟩ := signalWindowWrite_denied hr hqual hres hport hq hmask
    exact ⟨t, hexec, hdenied.count, hraised, hdenied.writes, hdenied.regs, hrest⟩
  · obtain ⟨t, hexec, hvalue, hqual', hmask', htime, hframe⟩ := signalWindowWrite_applied hr hqual hres hport hq hmask hw
    exact ⟨t, hexec, hvalue, hqual', hmask', htime, hframe.blocks, hframe.rest⟩
  · obtain ⟨hcount, hram, hwrites, hregs⟩ := sigIssue_deniedCounted hmask value q
    exact ⟨hcount, hram, hwrites, hregs⟩
  · obtain ⟨⟨hcount, hram, hwrites, hregs⟩, hqueue⟩ := portDrain_deniedCounted hfind hmask
    exact ⟨hcount, hram, hwrites, hqueue, hregs⟩

end Sys2Proof.Machine
end
